-- ==== Sys2Proof/Word.lean ====
section
/-! DEFINITION. Word types of the LQV-7210 model and the plainest bit arithmetic on them.
Registers are 32 or 64 bits wide and little-endian (R9); bit 0 is the least significant bit. -/

namespace Sys2Proof

/-- One byte. -/
abbrev Byte := BitVec 8
/-- A 32-bit register or scalar (R9, R106). -/
abbrev W32 := BitVec 32
/-- A 64-bit register or counter (R9). -/
abbrev W64 := BitVec 64

/-- Bits `hi` to `lo` of a number, both included, as NAME[hi:lo] of R9. -/
def bitsOf (n hi lo : Nat) : Nat := n / 2 ^ lo % 2 ^ (hi + 1 - lo)

/-- Bit `k` of a number. -/
def bitOf (n k : Nat) : Bool := n / 2 ^ k % 2 == 1

/-- A Boolean as 0 or 1, as a one-bit register field reads. -/
def bit01 (b : Bool) : Nat := if b then 1 else 0

/-- Two's-complement reading of a `w`-bit field. -/
def signedOf (w n : Nat) : Int := if n % 2 ^ w < 2 ^ (w - 1) then (n % 2 ^ w : Nat) else (n % 2 ^ w : Nat) - (2 ^ w : Nat)

/-- Two's-complement `w`-bit pattern of an integer. -/
def patternOf (w : Nat) (i : Int) : Nat := (i % (2 ^ w : Nat)).toNat

/-- Division rounding up. -/
def cdiv (a b : Nat) : Nat := (a + b - 1) / b

/-- Bits 31:0 of a 64-bit value made of two words, low word first (R369). -/
def word64 (lo hi : W32) : Nat := lo.toNat + hi.toNat * 2 ^ 32

/-- Saturating increment by `n` at `m`. -/
def satAdd (m a n : Nat) : Nat := min m (a + n)

end Sys2Proof
end

