-- ==== Sys2Proof/Machine/Tab.lean ====
section
/-! DEFINITION. Sparse tables and byte memories as sorted association lists.
A table lists (key, value) pairs with strictly rising keys. A memory is a table of bytes in which, besides,
no listed byte equals 0, which is what an unlisted byte reads as. -/

namespace Sys2Proof

/-- A sparse table: pairs of key and value, keys strictly rising. -/
abbrev Tab (α : Type) := List (Nat × α)

variable {α : Type}

/-- The value listed at `k`, if any. -/
def Tab.find? (t : Tab α) (k : Nat) : Option α :=
  match t with
  | [] => none
  | (i, v) :: r => if i = k then some v else Tab.find? r k

/-- The value at `k`, or `d` where nothing is listed. -/
def Tab.at (t : Tab α) (d : α) (k : Nat) : α := (Tab.find? t k).getD d

/-- The table with `v` at `k`. -/
def Tab.put (t : Tab α) (k : Nat) (v : α) : Tab α :=
  match t with
  | [] => [(k, v)]
  | (i, w) :: r => if k < i then (k, v) :: (i, w) :: r else if k = i then (k, v) :: r else (i, w) :: Tab.put r k v

/-- The table with nothing listed at `k`. -/
def Tab.del (t : Tab α) (k : Nat) : Tab α := List.filter (fun p => p.1 ≠ k) t

/-- The table with nothing listed in `lo` to `lo + n - 1`. -/
def Tab.clear (t : Tab α) (lo n : Nat) : Tab α := List.filter (fun p => decide (p.1 < lo) || decide (lo + n ≤ p.1)) t

/-- The table with every listed value passed through `f`. -/
def Tab.mapv (t : Tab α) (f : Nat → α → α) : Tab α := List.map (fun p => (p.1, f p.1 p.2)) t

/-- The keys rise strictly, all above the bound where one is given. -/
def Tab.sortedFrom (lo : Option Nat) (t : Tab α) : Bool :=
  match t with
  | [] => true
  | (i, _) :: r => (match lo with | none => true | some b => decide (b < i)) && Tab.sortedFrom (some i) r

/-- The keys rise strictly. -/
def Tab.sorted (t : Tab α) : Bool := Tab.sortedFrom none t

/-- A byte memory: a table of bytes in canonical form. -/
abbrev Mem := List Host.Cell

/-- What an unlisted byte of memory reads as: the cistern and accumulator store are zeroed before Ready (R208), and a
reservoir page is zeroed when it is assigned (R222). -/
def Mem.fill : Byte := 0#8

/-- The byte at address `a`. -/
def Mem.read (m : Mem) (a : Nat) : Byte := Tab.at m Mem.fill a

/-- The memory with byte `v` at `a`, in canonical form: writing the fill byte removes the entry. -/
def Mem.write (m : Mem) (a : Nat) (v : Byte) : Mem := if v = Mem.fill then Tab.del m a else Tab.put m a v

/-- The canonical form of a memory: addresses strictly rise and no entry holds the fill byte. -/
def Mem.wf (m : Mem) : Bool := Tab.sorted m && List.all m (fun p => decide (p.2 ≠ Mem.fill))

/-- `n` bytes from `a`, lowest address first. -/
def Mem.readBytes (m : Mem) (a n : Nat) : List Byte := (List.range n).map (fun i => Mem.read m (a + i))

/-- A list of bytes written from `a` upward. -/
def Mem.writeBytes (m : Mem) (a : Nat) (bs : List Byte) : Mem :=
  match bs with
  | [] => m
  | b :: r => Mem.writeBytes (Mem.write m a b) (a + 1) r

/-- Zeros written over `n` bytes from `a`. -/
def Mem.zero (m : Mem) (a n : Nat) : Mem := Tab.clear m a n

/-- A number from bytes, least significant first (R9, R53). -/
def leNat (bs : List Byte) : Nat :=
  match bs with
  | [] => 0
  | b :: r => b.toNat + 256 * leNat r

/-- The `n` bytes of a number, least significant first. -/
def leBytes (n v : Nat) : List Byte :=
  match n with
  | 0 => []
  | k + 1 => BitVec.ofNat 8 v :: leBytes k (v / 256)

/-- The `n`-byte little-endian number at `a`. -/
def Mem.readLe (m : Mem) (a n : Nat) : Nat := leNat (Mem.readBytes m a n)

/-- The `n`-byte little-endian number `v` written at `a`. -/
def Mem.writeLe (m : Mem) (a n v : Nat) : Mem := Mem.writeBytes m a (leBytes n v)

/-- Writes collected as a memory of the written bytes: a list of (address, byte) in the order made. -/
def Mem.apply (m : Mem) (ws : List (Nat × Byte)) : Mem := ws.foldl (fun acc w => Mem.write acc w.1 w.2) m

end Sys2Proof
end

