-- ==== Sys2Proof/Machine/TypesBasin.lean ====
section
/-! DEFINITION. The state of one basin: sequencer, run, engine operations, engine registers, cistern tags, spray. -/

namespace Sys2Proof.Machine

open Sys2Proof

/-- A run record of the slot table (R243), decoded. -/
structure Run where
  /-- stream handle: index[31:16], generation[15:0] (R12) -/
  handle : Nat
  lbasin : Nat
  domain : Nat
  det : Bool
  take : Bool
  post : Bool
  /-- aperture segments, bit a for segment a (R96) -/
  apseg : Nat
  planStep : Nat
  /-- program index of the entry; none for a scrub run, which has no program (R264) -/
  entry : Option Nat
  base : Nat
  limit : Nat
  /-- start and end offsets from slot start, ns -/
  tstart : Nat
  tend : Nat
  /-- reservoir and weir share, MB/s (R211) -/
  share : Nat
  /-- cistern segment set, bit k for segment k (R206) -/
  segs : Nat
  model : Nat
  planno : Nat
  deriving DecidableEq, Repr

/-- The engines a basin's sequencer issues to (R108). -/
inductive Engine where
  | jet | sluice | cascade | runnel0 | runnel1 | loupe | tile
  deriving DecidableEq, Repr

/-- Where an issued engine operation stands. -/
inductive OpPhase where
  /-- granted and running (or queued in its engine) -/
  | granted
  /-- a sluice transfer that has started (R211) -/
  | started
  /-- a cascade group operation that waits for its root (R183) -/
  | waiting
  deriving DecidableEq, Repr

/-- A cascade row's running state, the partial of R182: the values a row's reduction carries. -/
inductive Partial where
  /-- an A32 pattern (SUM, SSQ, GNORM under EM 0b00 and 0b10), with its SAT indication -/
  | lin (pattern : Nat) (sat : Bool)
  /-- an L16 code (SUM under EM 0b01) -/
  | log (code : Nat)
  /-- MAX and MIN: the element pattern and its index -/
  | ext (pattern : Nat) (index : Nat)
  /-- MEANVAR: the triple of R177 -/
  | wel (n mu m2 : Nat) (sat : Bool)
  /-- LSE and SOFTMAX: Fm and S in LG, with counts of plus infinities and whether a NaN or a finite term came (R179, R180) -/
  | lse (fm : Option Int) (s : Nat) (pinf : Nat) (nan : Bool)
  /-- no element seen yet -/
  | none
  deriving DecidableEq, Repr

/-- A held partial at a root basin (R183). -/
structure HeldPartial where
  handle : Nat
  gtag : Nat
  seq : Nat
  /-- the sender's logical basin -/
  member : Nat
  row : Nat
  value : Partial
  deriving DecidableEq, Repr

/-- The lane state of a runnel operation in progress (R187): what the micro-op rows step. -/
structure RunnelOp where
  /-- element count after the element cap (R196) -/
  count : Nat
  /-- current group -/
  group : Nat
  /-- micro-program index of the next micro-op -/
  upc : Nat
  entry : Nat
  em : Nat
  rm : Nat
  subn : Bool
  afmt : Nat
  bfmt : Nat
  dfmt : Nat
  aaddr : Nat
  baddr : Nat
  daddr : Nat
  raddr : Nat
  icap : Nat
  rcap : Nat
  stag : Nat
  aoff : Int
  idxbase : Nat
  /-- backward branches taken so far -/
  iters : Nat
  /-- records appended so far -/
  records : Nat
  /-- lane registers: key 16 * lane + register -/
  regs : Tab W32
  /-- the last group has ended -/
  ended : Bool
  ecapr : Bool
  icapr : Bool
  rcapr : Bool
  deriving DecidableEq, Repr

/-- An engine operation in flight (R109): its claims, and what it will write when it retires. -/
structure Op where
  /-- program order within the run -/
  seq : Nat
  /-- index of the instruction that issued it (R111) -/
  pc : Nat
  engine : Engine
  /-- local address of its descriptor -/
  desc : Nat
  /-- descriptor bytes, read at issue (R97) -/
  bytes : List Byte
  phase : OpPhase
  /-- claimed tiles, 16 * jet + tile (R112) -/
  tiles : List Nat
  /-- segments claimed for reading and for writing (R114) -/
  readSegs : List Nat
  writeSegs : List Nat
  /-- writes to basin-local space, made when the operation retires -/
  writes : List (Nat × Byte)
  /-- writes to the reservoir, made when the operation retires -/
  rsvWrites : List (Nat × Byte)
  /-- engine flags to post at retirement: jet number (or engine) and word -/
  jetFlags : Tab W32
  flags : W32
  /-- tile flags to set (R95) and to clear (R101) -/
  tileSet : List Nat
  tileClear : List Nat
  /-- overflow, SAT and vanish counts (R139) -/
  ovCount : Nat
  satCount : Nat
  vanCount : Nat
  /-- products skipped (R120) and facet tables built (R127) -/
  skipped : Nat
  tables : Nat
  /-- blocks and zero blocks stored by the prism (R168) -/
  blocks : Nat
  zblocks : Nat
  /-- amax of the transfer (R155), and the tensor scale it applied -/
  amax : Nat
  tscale : Nat
  /-- the layer joined an earlier one in flight under R113 -/
  merged : Bool
  /-- cascade: the basin's local partials, one per row, and its group sequence number -/
  partials : List Partial
  gseq : Nat
  /-- a runnel operation's progress -/
  rnl : Option RunnelOp
  deriving DecidableEq, Repr

/-- An operation that has just issued, with nothing computed yet. -/
def Op.new (seq pc : Nat) (engine : Engine) (desc : Nat) (bytes : List Byte) : Op :=
  { seq := seq, pc := pc, engine := engine, desc := desc, bytes := bytes, phase := .granted, tiles := [], readSegs := [], writeSegs := [],
    writes := [], rsvWrites := [], jetFlags := [], flags := 0, tileSet := [], tileClear := [], ovCount := 0, satCount := 0, vanCount := 0,
    skipped := 0, tables := 0, blocks := 0, zblocks := 0, amax := 0, tscale := 0, merged := false, partials := [], gseq := 0, rnl := none }

/-- The tag of a cistern segment (R206). -/
structure SegTag where
  valid : Bool
  zeroing : Bool
  domain : Nat
  deriving DecidableEq, Repr

/-- The run in progress on a basin. -/
structure Active where
  run : Run
  /-- slot index within the frame and slot-start CT in ns (R106, R157) -/
  slot : Nat
  frame : Nat
  slotCt : Nat
  /-- its window as offsets from slot start in ns: TSTART and TEND, or the window of its replay (R34, R347) -/
  start : Nat
  fin : Nat
  /-- basin clocks at its start, in thousandths (R443) -/
  clk0 : Nat
  /-- epoch of the basin at run start (R351) -/
  epoch : W32
  /-- END has issued (R110) -/
  ended : Bool
  /-- counters of the run: next operation number and group sequence numbers by GTAG (R182) -/
  nextSeq : Nat
  gseqs : Tab Nat
  /-- narrow-arithmetic counts gathered by retired operations (R142, R154) -/
  novf : Nat
  nsat : Nat
  nvan : Nat
  novb : Nat
  /-- a cap was reached (R36) -/
  trunc : Bool
  /-- the seed of the run's counter-generator draws (R272) and whether tags are inverted (R281) -/
  seedr : Nat
  evalTags : Bool
  deriving DecidableEq, Repr

/-- A free-running generator's state (R274). One that is not listed is as its basin's last reseed left it. -/
structure Gen where
  x : W32
  y : W32
  z : W32
  deriving DecidableEq, Repr

/-- Engine flag words of a basin (R81). -/
structure EngineFlags where
  /-- JET_FLAGS[n] -/
  jet : Tab W32
  csc : W32
  run0 : W32
  run1 : W32
  prz : W32
  lpe : W32
  deriving DecidableEq, Repr

/-- The registers of a basin's engines outside the flag words. -/
structure EngineRegs where
  /-- JET_SKIPCNT, JET_FTBLCNT (R143) -/
  skipcnt : W64
  ftblcnt : W64
  /-- JET_OVBSTAT: EXCEED, DESC_ID, OVCNT -/
  ovbExceed : Bool
  ovbDesc : Nat
  ovbCount : Nat
  /-- JET_NARCNT -/
  narVan : Nat
  narSat : Nat
  /-- PRZ_STATUS and PRZ_LASTAMX (R168) -/
  przBusy : Bool
  przRingop : Bool
  przStg2 : Bool
  przSpass : Bool
  przErr : Nat
  przTs : Nat
  przAmx : Nat
  blkcnt : W64
  zblkcnt : W64
  vancnt : W64
  /-- CSC_STATUS (R200) -/
  cscBusy : Bool
  cscPass2 : Bool
  cscOp : Nat
  dropcnt : W64
  /-- RUN_STATUS[0] and [1]: cap bits and UPC -/
  run0Caps : Nat
  run0Upc : Nat
  run1Caps : Nat
  run1Upc : Nat
  trunccnt : W64
  /-- SPR registers (R297) -/
  sprRunseed : Bool
  drawcnt : W64
  reseedcnt : W64
  refusecnt : W64
  /-- LPE_CTRL.RND (R86) -/
  lpeRnd : Nat
  deriving DecidableEq, Repr

/-- Cistern, sluice and router registers of a basin (R231). -/
structure CisRegs where
  sluErr : Nat
  /-- CIS_ECCLOG -/
  eccValid : Bool
  eccUncorr : Bool
  eccScrub : Bool
  eccAddr : Nat
  cecnt : W64
  /-- address of the last uncorrectable word reported (R205) -/
  lastUe : Option Nat
  /-- words that hold an uncorrectable error until they are written (R205) -/
  badWords : List Nat
  /-- words that hold a correctable single-bit error (R205) -/
  softWords : List Nat
  /-- CTs of uncorrectable errors counted under R343, newest first; CTs of the corrected errors of the last second -/
  ueTimes : List Nat
  ceTimes : List Nat
  /-- WEIR_STATUS and WEIR_SINKCNT -/
  weirFenced : Bool
  vcstall : Nat
  sinkcnt : W64
  deriving DecidableEq, Repr

/-- Fault record of the current or last run, BSN_FAULT (R118). -/
structure FaultRec where
  code : Nat
  pc : Nat
  deriving DecidableEq, Repr

/-- Performance counters (R443). -/
structure PerfRegs where
  runclk : W64
  jetbusy : W64
  stallclk : W64
  deriving DecidableEq, Repr

/-- The sequencer of a basin: registers of R118 and the scalar registers of R106. -/
structure Seq where
  active : Option Active
  /-- DET and APSEG of the current or last run -/
  det : Bool
  apseg : Nat
  base : Nat
  limit : Nat
  pc : Nat
  /-- index of the instruction that issued last, which left `pc` as it is: a branch out of the region is reported at it (R111) -/
  last : Nat
  fault : FaultRec
  /-- s1 to s31; s0 reads 0 -/
  regs : Tab W32
  /-- the index of an instruction that could not issue and holds every later one (R109) -/
  held : Option Nat
  /-- operations in flight, in program order -/
  ops : List Op
  deriving DecidableEq, Repr

/-- One physical basin. -/
structure Basin where
  /-- BSN_IDENT.LOGICAL; 0x1FF means none (R18) -/
  logical : Nat
  /-- cistern 0x00_0000 to 0x3F_FFFF and aperture 0x40_0000 to 0x43_FFFF (R93) -/
  store : Mem
  tags : Tab SegTag
  /-- tiles whose flag is set, 16 * jet + tile (R95) -/
  tileFlags : Tab Bool
  /-- per tile: the bytes written since another write, toward the full-write rule of R95 -/
  tileCover : Tab Nat
  /-- the stream that last held each aperture segment (R96) -/
  apHolder : Tab Nat
  /-- program store, by instruction index (R105) -/
  prog : Tab W64
  /-- runnel micro-program stores and micro-tables, identical in both runnels (R197) -/
  ustore : Tab W64
  utable : Mem
  seq : Seq
  flags : EngineFlags
  eng : EngineRegs
  cis : CisRegs
  perf : PerfRegs
  /-- free-running generators by identifier (R275) -/
  gens : Tab Gen
  /-- seed, tag and base position of the last reseed: a generator not listed has taken no draw since (R276) -/
  genSeed : Nat × Nat × Nat
  /-- held partials as a root (R183) -/
  partials : List HeldPartial
  /-- BSN_EPOCH and BSN_USTATE.STATE: 0 IN_SERVICE, 1 QUIESCED, 2 FENCED (R357) -/
  epoch : W32
  ustate : Nat
  /-- the runs of this slot that are still to start, and those the cadence unit has delivered for the next slot (R240) -/
  delivered : List Run
  coming : List Run
  deriving DecidableEq, Repr

/-- No flag set. -/
def EngineFlags.reset : EngineFlags := { jet := [], csc := 0, run0 := 0, run1 := 0, prz := 0, lpe := 0 }

/-- Reset values of R143, R168, R200, R297 and R86. -/
def EngineRegs.reset : EngineRegs :=
  { skipcnt := 0, ftblcnt := 0, ovbExceed := false, ovbDesc := 0, ovbCount := 0, narVan := 0, narSat := 0,
    przBusy := false, przRingop := false, przStg2 := false, przSpass := false, przErr := 0, przTs := 0, przAmx := 0,
    blkcnt := 0, zblkcnt := 0, vancnt := 0, cscBusy := false, cscPass2 := false, cscOp := 0, dropcnt := 0,
    run0Caps := 0, run0Upc := 0, run1Caps := 0, run1Upc := 0, trunccnt := 0, sprRunseed := false, drawcnt := 0,
    reseedcnt := 0, refusecnt := 0, lpeRnd := 0 }

/-- Reset values of R231. -/
def CisRegs.reset : CisRegs :=
  { sluErr := 0, eccValid := false, eccUncorr := false, eccScrub := false, eccAddr := 0, cecnt := 0, lastUe := none,
    badWords := [], softWords := [], ueTimes := [], ceTimes := [], weirFenced := false, vcstall := 0,
    sinkcnt := 0 }

/-- Reset values of R118. -/
def Seq.reset : Seq :=
  { active := none, det := false, apseg := 0, base := 0, limit := 0, pc := 0, last := 0, fault := { code := 0, pc := 0 },
    regs := [], held := none, ops := [] }

/-- A segment that no domain holds (R208). -/
def SegTag.reset : SegTag := { valid := false, zeroing := false, domain := 0 }

/-- A generator before its first reseed. -/
def Gen.reset : Gen := { x := 0, y := 0, z := 1 }

/-- A basin right after reset: LOGICAL 0x1FF (R18), every segment invalid and the stores zero (R208), state FENCED until the
boot ROM maps spares (R357). -/
def Basin.reset : Basin :=
  { logical := 0x1FF, store := [], tags := [], tileFlags := [], tileCover := [], apHolder := [], prog := [],
    ustore := [], utable := [], seq := Seq.reset, flags := EngineFlags.reset, eng := EngineRegs.reset,
    cis := CisRegs.reset, perf := { runclk := 0, jetbusy := 0, stallclk := 0 }, gens := [], genSeed := (0, 0, 0), partials := [],
    epoch := 0, ustate := 2, delivered := [], coming := [] }

end Sys2Proof.Machine
end

