-- ==== Sys2Proof/Machine/TypesCadence.lean ====
section
/-! DEFINITION. The state of the cadence unit, slot tables, plans, streams, domains, resident models, the runnel library and
training contexts (chapters 07, 09, 10 and 12). -/

namespace Sys2Proof.Machine

open Sys2Proof

/-- A time source of R234: PPS_IN, PTM or rill. -/
structure Source where
  /-- 0 ABSENT, 1 QUAL, 2 LOCKED, 3 LOST (R267) -/
  (state : Nat := 0)
  /-- consecutive events that met the lock condition so far -/
  (good : Nat := 0)
  /-- PPS_IN: consecutive edge spacings within one cycle, and consecutive ones outside (R234) -/
  (spaced bad : Nat := 0)
  /-- CT of the last event of the source, in 2^-16 ns -/
  (last : Option Nat := none)
  deriving DecidableEq, Repr

/-- One copy of the slot table (R242, R243): header fields, run lists by slot, and the budget list of each slot
(R225), pairs of domain and budget in 64 B units per controller. -/
structure Table where
  /-- slot length in ns; slots per frame; CT of the first frame, ns; floor clock, MHz; generation -/
  (slen nslot fstart floor gen : Nat := 0)
  (runs : Tab (List Run) := [])
  (budgets : Tab (List (Nat × Nat)) := [])
  deriving DecidableEq, Repr

/-- A step of a plan: what Shacon states of it (R35, R247, R347, R279, R281). -/
structure PlanStep where
  /-- worst-case time in ns at each floor clock in MHz that the plan states -/
  (wcet : List (Nat × Nat) := [])
  /-- output size in bytes; partials this step's root holds (R183) -/
  (outsize rootPartials : Nat := 0)
  /-- data-dependent work, and its three caps (R35) -/
  (dataDep : Bool := false)
  (capElem capIter capRec : Nat := 0)
  /-- replayable (R347) -/
  (replayable : Bool := false)
  /-- phase code (R279); an evaluation step writes only evaluation buffers (R281) -/
  (phase : Nat := 0)
  (evalOk : Bool := true)
  /-- gradient buckets that the step's runs produce, by record number (R289) -/
  (makes : List Nat := [])
  /-- the send times of its SCOPE 0b10 operations: GTAG, sequence number, ns after the slot's start (R293) -/
  (sends : List (Nat × Nat × Nat) := [])
  /-- runnel library and installed entries its descriptors name (R198) -/
  (entries : List Nat := [])
  deriving DecidableEq, Repr

/-- A plan registered with SLOT_PLAN (R465). -/
structure Plan where
  (index planno domain : Nat := 0)
  (digest : W64 := 0)
  (steps : List PlanStep := [])
  /-- the reservoir pages of the plan's buffers (R247 cause 0x0E) -/
  (pages : List Nat := [])
  /-- the reservoir pages of its state set (R294, R341), and the place and length of the delta record each period writes (R332) -/
  (statePages : List Nat := [])
  (deltaAddr deltaLen : Nat := 0)
  /-- mirror-link share of its twin offload, MB/s (R283, R321) -/
  (offShare : Nat := 0)
  deriving DecidableEq, Repr

/-- The cadence unit (R233 to R246, R267). -/
structure Cad where
  /-- CT in 2^-16 ns: CAD_CT and CAD_CTF -/
  (ct : Nat := 0)
  /-- the high word of CAD_CT and CAD_CTF latched by a read of the low word (R267) -/
  (latchHigh latchFrac : Option Nat := none)
  /-- which of the two has been read since they were latched -/
  (sawHigh sawFrac : Bool := false)
  /-- 0 FREE, 1 LOCKED, 2 HOLDOVER; selected source 0 none, 1 PPS_IN, 2 PTM, 3 rill -/
  (dev sel : Nat := 0)
  (diverged : Bool := false)
  (pps ptm rill : Source := {})
  /-- TAI second of the next PPS edge, where labelled (R235) -/
  (label : Option Nat := none)
  (pherr : Int := 0)
  /-- slewing still to be made, in 2^-16 ns (R237) -/
  (slew : Int := 0)
  /-- CT at which HOLDOVER began; whether CAD_HOLDLIM has been reported (R238) -/
  (holdStart : Option Nat := none)
  (holdReported : Bool := false)
  (holdlim : W32 := 0x3E8)
  /-- active copy, whether a table is active, slot index and frame number within the active table -/
  (copy : Nat := 0)
  (active : Bool := false)
  (slot frameInTable : Nat := 0)
  (frame swapcnt ovrcnt : W64 := 0)
  (table0 table1 : Option Table := none)
  /-- boundary of a pending swap, ns (R245) -/
  (swapAt : Option Nat := none)
  /-- a TIME_STEP that waits for the frame boundary, ns (R237) -/
  (stepPend : Option Int := none)
  /-- slots since the first table became active (R276) -/
  (slots : Nat := 0)
  /-- no run is delivered before this CT in ns (R438) -/
  (holdUntil : Nat := 0)
  /-- whether the slot the position names has been strobed -/
  (strobed : Bool := false)
  /-- runs of this slot, and of the next one, whose logical basin has no physical basin (R23) -/
  (absent absentNext : List Run := [])
  /-- the slot for which runs have been delivered ahead: table copy and slot number within that table (R240) -/
  (ahead : Option (Nat × Nat) := none)
  /-- PTM master time minus CT, in 2^-16 ns, as the last dialogue gave it and CT has moved since (R235) -/
  (ptmErr : Int := 0)
  deriving DecidableEq, Repr

/-- A submission entry the headworks has fetched (R253, R255). -/
structure Desc where
  (seq : Nat := 0)
  (notify : Bool := false)
  (src len outmax outaddr notbefore cookie : Nat := 0)
  /-- index in the submission ring; ingress slot it occupies -/
  (index ib : Nat := 0)
  /-- arrival CT in 2^-16 ns, once the frame has arrived -/
  (arr : Option Nat := none)
  /-- the record was forwarded by the primary of a mirrored stream (R331) -/
  (fwd : Bool := false)
  deriving DecidableEq, Repr

/-- The period of a stream's plan in progress (R244, R464). -/
structure Period where
  /-- the descriptor the TAKE run took; none: the period does no work -/
  (desc : Option Desc := none)
  /-- period tag (R327); completion-ring index the take gave, and its PHASE there -/
  (tag cqIndex cqPhase : Nat := 0)
  /-- CODE of the first failure; 0 when none (R464) -/
  (fail : Nat := 0)
  /-- deadline in ns, once known -/
  (deadline : Nat := 0)
  (trunc ovb : Bool := false)
  /-- the posting run has ended, at this CT in ns; its slot and frame; its end offset as a CT in ns -/
  (postCt : Option Nat := none)
  (postSlot postFrame postEnd : Nat := 0)
  /-- the posting run's plan output size -/
  (outsize : Nat := 0)
  /-- delayed runs of a warm standby that do work in this period (R335) -/
  (covering : Bool := false)
  deriving DecidableEq, Repr

/-- A stream-table entry (R250), its Heninaward state (R328), and what the headworks holds of the stream. -/
structure Stream where
  (gen domain : Nat := 0)
  /-- 0 FREE, 1 IDLE, 2 ADMITTED, 3 DRAINING, 4 RETIRED -/
  (state mirror role : Nat := 0)
  /-- the mode and the role that a PAIR_MIRROR gave and that its boundary brings into force; mode 0: none waits (R325) -/
  (nmode nrole : Nat := 0)
  (fixedpost : Bool := false)
  (kind model planno vector : Nat := 0)
  (sqbase sqLog sqHead sqTail cqbase cqLog cqPhase cqTail cqHead : Nat := 0)
  (ibuf slotkb nib ishare obuf eshare deadl : Nat := 0)
  (flags nlost : W32 := 0)
  (lastarr lastcpl : Nat := 0)
  (ncpl nmiss : W64 := 0)
  (nerr ntrunc : W32 := 0)
  /-- saturating at 2^64 - 1 (R250) -/
  (novf nsat nvan : Nat := 0)
  (novb nstaledb : W32 := 0)
  /-- PAIRST (R328) -/
  (twin delay : Nat := 0)
  (home susp promoted : Bool := false)
  /-- a resynchronisation holds SUSP (R341) -/
  (resyncing : Bool := false)
  (mshare : Nat := 0)
  (nuncov : W32 := 0)
  (lastpost : Nat := 0)
  (ncover : W64 := 0)
  (nmismatch npromote : W32 := 0)
  (plandig lastdig : W64 := 0)
  (fwdidx : Nat := 0)
  /-- submission entries fetched and untaken, in ring order; the period in progress -/
  (descs : List Desc := [])
  (period : Option Period := none)
  /-- periods whose posting run is past and whose completion is still to be written -/
  (due : List Period := [])
  /-- descriptors taken whose period has not ended hold their ingress slots here -/
  (heldIb : List Nat := [])
  /-- LOST field of the next completion (R259); CT of the last accepted doorbell -/
  (lost dbCt : Nat := 0)
  /-- Heninaward: tags for which POST, and the complete delta, are held here (R335); digests of hot periods by tag, own and the
  twin's (R338) -/
  (postTags deltaTags : List Nat := [])
  /-- tags of the last periods that this module ran as a covering warm standby (R332) -/
  (coverTags : List Nat := [])
  (myDigests twinDigests : Tab Nat := [])
  /-- ring position the next take gives -/
  (takeIdx : Nat := 0)
  (takePhase : Nat := 1)
  /-- amax ring address of the stream and changes staged by STREAM_RING live in the ring header (R159) -/
  (ring : Nat := 0)
  deriving DecidableEq, Repr

/-- A domain-table entry (R260). -/
structure Domain where
  /-- 0 FREE, 1 in use, 2 DESTROYING -/
  (state : Nat := 0)
  (maxStreams maxPages maxModels maxBudget : Nat := 0)
  (isol : Bool := false)
  /-- function and slot it is bound to (R362), and its window base (R364) -/
  (bind : Option (Nat × Nat) := none)
  (wbase : Nat := 0)
  /-- swaps made when a table with its scrub runs was last loaded (R264) -/
  (scrubGen : Option Nat := none)
  deriving DecidableEq, Repr

/-- One segment of a resident model: logical basin, segment, and reservoir address of its image (R346). -/
structure ModelSeg where
  (lbasin seg addr : Nat := 0)
  deriving DecidableEq, Repr

/-- A program of a model image: instructions loaded from `base` on a logical basin (R105). -/
structure ModelProg where
  (lbasin base : Nat := 0)
  (words : List W64 := [])
  deriving DecidableEq, Repr

/-- A resident-model entry (R261). -/
structure Model where
  (domain : Nat := 0)
  (segs : List ModelSeg := [])
  (progs : List ModelProg := [])
  (digest : Nat := 0)
  deriving DecidableEq, Repr

/-- An installed runnel function (R198). -/
structure RunnelFn where
  (entry : Nat := 0)
  /-- micro-program words from `base`, and micro-table bytes from `tbase` -/
  (base : Nat := 0)
  (words : List W64 := [])
  (tbase : Nat := 0)
  (table : List Byte := [])
  /-- the frame boundary at which it is written into every runnel -/
  (boundary : Nat := 0)
  /-- a library update's version (R198) -/
  (version : Nat := 0)
  deriving DecidableEq, Repr

/-- The runnel library of the device (R197 to R199). -/
structure RunLib where
  (libver : W32 := 0)
  /-- the entry map: what is installed, by entry; checked images that wait for their frame boundary -/
  (fns queued : Tab RunnelFn := [])
  deriving DecidableEq, Repr

/-- A phase timer (R279): the open span of this period, and LAST, MAX, SUM. -/
structure Phase where
  (first fin : Option Nat := none)
  (last max : Nat := 0)
  (sum : W64 := 0)
  deriving DecidableEq, Repr

/-- A bucket record (R284) and where its exchange stands in this period (R285 to R291). -/
structure Bucket where
  (addr bytes xstart efoff : Nat := 0)
  /-- its send time here is past; it started a new partial there (R290) -/
  (sent restarted : Bool := false)
  /-- this rank's contribution was late; it is still to be treated under CARRY (R289, R291) -/
  (late owed : Bool := false)
  /-- a partial was received; the final result has been stored -/
  (partIn done : Bool := false)
  /-- the carry buffer holds late contributions (R291); not cleared by a period -/
  (carried : Bool := false)
  /-- contributor mask of the partial, then of the final result -/
  (mask : Nat := 0)
  /-- compressed contributions held, by rank: their bytes -/
  (contribs : Tab (List Byte) := [])
  /-- the partial received from the predecessor -/
  (part : List Byte := [])
  deriving DecidableEq, Repr

/-- The training context of a stream (R277), with its buckets and the exchange state of the period. -/
structure Train where
  (tstate dmode cmode : Nat := 0)
  (carry avg : Bool := false)
  (rank nrank : Nat := 0)
  (diverged : Bool := false)
  (seed period : W64 := 0)
  /-- SEED + PERIOD as the period's start latched them (R272) -/
  (seedr : W64 := 0)
  (evalEvery evalOff kfrac bucketsAddr hopns efaddr carryaddr twinoff : Nat := 0)
  (ckEvery ckShare optoff : Nat := 0)
  (phases : List Phase := [{}, {}, {}, {}, {}])
  (nlate ncarry ndrop nabandon ndiverge nckpt nckfail neval : W64 := 0)
  (ckstep : W64 := 0xFFFFFFFFFFFFFFFF)
  (lastmask : W64 := 0)
  (rtag : Nat := 0)
  (buckets : List Bucket := [])
  /-- period start in ns; whether the previous period was NORMAL; residuals pending for the first NORMAL period (R288) -/
  (startCt : Nat := 0)
  (prevNormal : Bool := true)
  (flushEf : Bool := false)
  (residualZero : Bool := true)
  /-- remaining backward work abandoned in this period (R283) -/
  (abandoned : Bool := false)
  /-- changes that wait for a period: period, and the context words 0x04 to 0x4F or a state (R278) -/
  (pendSet : List (Nat × List Nat) := [])
  (pendState : List (Nat × Nat) := [])
  /-- runs of the period that have retired, by plan step and logical basin (R289) -/
  (doneRuns : List (Nat × Nat) := [])
  /-- the period from which a resynchronised rank takes part again, and how many period starts away that is (R292) -/
  (resumeAt : Option (Nat × Nat) := none)
  /-- the optimiser may run in this period (R292) -/
  (optOk : Bool := true)
  /-- checkpoint copy in progress: its period, slot, the CT in ns at which it started, and SEED then (R294, R295) -/
  (ckCopy : Option (Nat × Nat × Nat × Nat) := none)
  /-- a period whose copy is due and has not started; the last period whose copy has (R294) -/
  (ckDue ckLast : Option Nat := none)
  /-- which slot on the twin holds CKSTEP -/
  (ckSlot : Nat := 1)
  /-- key and value blocks received, by chunk (R282) -/
  (kv : Tab (List Byte) := [])
  deriving DecidableEq, Repr

/-- The table in a copy. -/
def Cad.table (c : Cad) (copy : Nat) : Option Table := if copy = 0 then c.table0 else c.table1

/-- The copy with another table. -/
def Cad.setTable (c : Cad) (copy : Nat) (t : Option Table) : Cad := if copy = 0 then { c with table0 := t } else { c with table1 := t }

/-- The active table, if any (R245). -/
def Cad.activeTable (c : Cad) : Option Table := if c.active then c.table c.copy else none

/-- The shadow copy is the one not in force (R245). -/
def Cad.shadow (c : Cad) : Nat := 1 - c.copy

end Sys2Proof.Machine
end

