-- ==== Sys2Proof/Machine/TypesLink.lean ====
section
/-! DEFINITION. The state of the rill ports, the mirror link, link time and the mirror pair (chapters 11 and 12). -/

namespace Sys2Proof.Machine

open Sys2Proof

/-- A frame in a port's hands (R302). The payload is kept in clear; CTR and KEYGEN say under which key it was sent. -/
structure Frame where
  /-- 1 DATA, 2 CTRL, 3 TIME, 4 KEYX, 5 REKEY -/
  (type cls tsub : Nat := 0)
  (nack : Bool := false)
  (keygen seq ctr ack rtag bucket index plo : Nat := 0)
  /-- credits returned, class 0 first -/
  (cred : List Nat := [0, 0, 0, 0])
  (payload : List Byte := [])
  /-- how often it has been resent (R306) -/
  (resent : Nat := 0)
  deriving DecidableEq, Repr

/-- The codewords that a frame's arrival completes: how many the decoder corrected, and how many it could not correct (R300). -/
structure Fec where
  (corrected uncorrectable : Nat := 0)
  deriving DecidableEq, Repr

/-- One frame received: the port, the frame, its codewords, and whether its tag verifies under the key that KEYGEN names (R303). -/
structure Arrival where
  (port : Nat := 0)
  (frame : Frame := {})
  (fec : Fec := {})
  (tagOk : Bool := true)
  deriving DecidableEq, Repr

/-- One port of R322, and its link state. -/
structure Port where
  /-- RIL_CFG: ASYM, PEERPOL, WAKESEND, WAKEEN, VARIANT, ENABLE -/
  (asym : Nat := 0)
  (peerpol wakesend wakeen : Bool := false)
  (variant : Nat := 0)
  (enable : Bool := false)
  /-- 0 DOWN, 1 TRAIN, 2 KEYX, 3 UP, 4 STOPPED (R301) -/
  (state keygen : Nat := 0)
  (rekeypend wakeseen : Bool := false)
  (lanes downcause : Nat := 0)
  (txctr txfrm rxfrm retrycnt authfail fecce fecue : W64 := 0)
  /-- RIL_REKEYCNT: completed in bits 47:0, failed attempts in bits 63:48 -/
  (rekeyDone rekeyFail : Nat := 0)
  (discard wakecnt : W64 := 0)
  /-- partner identity, SHA-384; 0 when not UP -/
  (peerid : Nat := 0)
  /-- SEQ of the next DATA or REKEY frame to send; next SEQ expected; last SEQ the partner acknowledged -/
  (txseq : Nat := 1)
  (rxseq : Nat := 1)
  (acked : Nat := 0)
  (replay : List Frame := [])
  /-- DATA frames queued for sending that wait for a credit or buffer space; the class the round robin served last (R305) -/
  (queue : List Frame := [])
  (rr : Nat := 3)
  /-- CTR that the partner's next frame under the current key carries (R310) -/
  (rxctr : Nat := 0)
  /-- SEQ of the frame of unknown RTAG whose credit has been returned (R303) -/
  (refused : Option Nat := none)
  /-- credits held and buffers freed but not yet returned, class 0 first (R304) -/
  (credits : List Nat := [0, 0, 0, 0])
  (freed : List Nat := [0, 0, 0, 0])
  /-- CTs in ns: entry into the state, last frame received, last frame sent, last ACK advance, last rekey INIT, last wake burst -/
  (since lastRx lastTx lastAck lastInit lastBurst : Nat := 0)
  /-- CT in ns of the last time exchange sent on the port (R315) -/
  (lastSync : Nat := 0)
  /-- CTs in ns of recent tag failures, newest first (R303) -/
  (fails : List Nat := [])
  /-- key exchange: our nonce and ephemeral draw, the partner's HELLO (identity, key, nonce), FINISH sent -/
  (nonce eph : Nat := 0)
  (hello : Option (Nat × Nat × Nat) := none)
  (finished : Bool := false)
  /-- current keys: to the partner and from it, and salts (R308); the old receive key during a rekey (R310) -/
  (keyTx keyRx saltTx saltRx : Nat := 0)
  (oldRx : Option Nat := none)
  /-- this side started the rekey in progress -/
  (initiator : Bool := false)
  /-- host software asked for a wake of this port; bursts sent so far (R319) -/
  (wakeAsk : Bool := false)
  (bursts : Nat := 0)
  deriving DecidableEq, Repr

/-- Rill registers outside the ports, the allow list, and the time exchange in progress (R312, R315, R316, R307). -/
structure Link where
  /-- RIL_TIMECFG -/
  (master srcen : Bool := false)
  (fwd srcport : Nat := 0)
  /-- RIL_TOPO -/
  (xdim nrank rank mode : Nat := 0)
  (allow : List Nat := [])
  /-- slave: t1 from FOLLOW, t2 at SYNC, t3 at DREQ, in 2^-16 ns; the master was LOCKED with HOPS at most 63; HOPS -/
  (t1 t2 t3 : Option Nat := none)
  (masterOk : Bool := false)
  (hops : Nat := 0)
  /-- DATA payloads placed by (RTAG, BUCKET, FRAME), newest first (R313) -/
  (placed : List Frame := [])
  deriving DecidableEq, Repr

/-- What a JOIN carries (R330). -/
structure Join where
  (version slen nslot fmod tstat : Nat := 0)
  /-- each mirrored stream: handle, role and HOME -/
  (streams : List (Nat × Nat × Bool) := [])
  deriving DecidableEq, Repr

/-- A received heartbeat (R330): slot-start CT, CT at send, the last HB's send CT and arrival CT as the twin holds them, POST
messages of the previous slot, and the twin's FH_SVC_STATUS. -/
structure Heartbeat where
  (slotCt sent lastSent lastArr posts svc : Nat := 0)
  deriving DecidableEq, Repr

/-- A MAP message (R330). -/
structure MapMsg where
  (own other mode delay share boundary digest : Nat := 0)
  deriving DecidableEq, Repr

/-- The Heninaward state of the module (R324, R355). -/
structure Pair where
  (state joinerr hbmiss : Nat := 0)
  (skewhi promoted : Bool := false)
  (skew : Int := 0)
  /-- attached twin's identity; 0 when UNPAIRED -/
  (twin : Nat := 0)
  (lasthb : Nat := 0)
  (promotecnt covercnt mismatchcnt : W64 := 0)
  /-- this slot's HB has been judged (R333); slot-start CT of the last HB received -/
  (hbDone : Bool := false)
  (hbSlot : Nat := 0)
  /-- the last HB received: its send CT and our arrival CT, ns; and of our last HB: send CT, and its arrival CT as the twin said -/
  (rxSend rxArr txSend txArr : Nat := 0)
  /-- POST messages sent in this slot and in the previous one -/
  (posts prevPosts : Nat := 0)
  /-- the twin's last JOIN; whether this module's own last JOIN named no table, so that its first swap is still to be compared (R323) -/
  (join : Option Join := none)
  (cmpPend : Bool := false)
  /-- boundary from which the mirrored streams are of mode none; this module was told to detach; the twin was (R340) -/
  (detachAt : Option Nat := none)
  (detached twinDetached : Bool := false)
  /-- PAIR_ROLE changes that wait: index, role, boundary -/
  (roles : List (Nat × Nat × Nat) := [])
  /-- mirroring that waits for its boundary after a resynchronisation: index and boundary (R341) -/
  (mirrors : List (Nat × Nat) := [])
  /-- mirroring that ends at a boundary: index and boundary (PAIR_MIRROR with mode none) -/
  (ends : List (Nat × Nat) := [])
  /-- resynchronisations to start at a boundary: index, boundary, and whether this module returns to standby there (R338, R342) -/
  (resyncs : List (Nat × Nat × Bool) := [])
  /-- messages that wait until the class 2 frames of their stream are acknowledged: twin handle, code, payload. POST waits for its delta
  (R330), RESYNC with DONE for the state pages (R341) -/
  (owed : List (Nat × Nat × List Byte) := [])
  /-- state copies whose DONE the twin has not acknowledged yet: index and boundary (R341) -/
  (dones : List (Nat × Nat) := [])
  /-- payloads of classes 1 to 3 received on the mirror link, newest first -/
  (placed : List Frame := [])
  /-- MAP messages received, newest first -/
  (maps : List MapMsg := [])
  deriving DecidableEq, Repr

end Sys2Proof.Machine
end

