-- ==== Sys2Proof/Machine/TypesHost.lean ====
section
/-! DEFINITION. The state of the reservoir, the headworks, the mailboxes and Fountainhead (chapters 08, 12 and 13). -/

namespace Sys2Proof.Machine

open Sys2Proof

/-- What the module puts on its edge, in order: host link, links, SMBus, test port, and answers of its own units. -/
inductive Msg where
  /-- an MSI-X message of function f, vector v (R371, R257, R377) -/
  | msix (f v : Nat)
  /-- completion data of a host read of BAR2 or a register; poisoned bit (R364, R224) -/
  | hostData (f : Nat) (data : List Byte) (poisoned : Bool)
  /-- a poisoned TLP reported through AER (R368) -/
  | aer (f : Nat)
  /-- an MCTP response slot and payload (R378) -/
  | mctp (slot payload : List Byte)
  /-- a frame sent on a port and its bytes on the lanes (R302, R309); port 4 is the mirror link -/
  | frame (port : Nat) (f : Frame) (wire : List Byte)
  /-- one wake burst on a port: the lane, how many copies of one 66-bit block, and the block's bits in the order sent (R317) -/
  | burst (port lane copies : Nat) (block : List Bool)
  /-- an answer of a unit to a request on the weir: data, and whether it is denied, poisoned, or an error (R223, R224, R216, R353) -/
  | reply (unit : Nat) (data : List Byte) (denied poisoned error : Bool)
  /-- bits shifted out of the test port: width and value (R435) -/
  | tdo (width value : Nat)
  deriving DecidableEq, Repr

/-- An event before it is delivered (R377). -/
structure Event where
  (type domain source ct handle : Nat := 0)
  (d0 d1 d2 : Nat := 0)
  deriving DecidableEq, Repr

/-- A Euparum request in progress (R369, R370). -/
structure Req where
  (func opcode tag domain paddr plen rcap raddr : Nat := 0)
  (args : List W32 := [])
  (payload : List Byte := [])
  /-- CT of the start, ns -/
  (start : Nat := 0)
  /-- from the SMBus endpoint, not a mailbox -/
  (mctp : Bool := false)
  /-- its function was reset: the response is discarded (R349) -/
  (cut : Bool := false)
  /-- the control-core pair that serves it, a bit per core, as the supervisor records it (R349) -/
  (pair : Nat := 0)
  deriving DecidableEq, Repr

/-- Mailbox, event queue and vectors of one function (R369, R377, R363). -/
structure Func where
  (reqbase rspbase : Nat := 0)
  (rspvecEn : Bool := false)
  (rspvec : Nat := 0)
  (enable : Bool := false)
  (rsptail reqhead reqtail rsphead : Nat := 0)
  /-- PHASE of the next response -/
  (rspPhase : Nat := 1)
  (evqBase evqLog evqVector : Nat := 0)
  (evqEnable : Bool := false)
  (evqMask : W32 := 0xFFFFFFFF)
  (evqHead evqTail : Nat := 0)
  (evqPhase : Nat := 1)
  /-- LOST of the next event entry; events lost by this queue -/
  (evqLost : Nat := 0)
  (evqLostTotal : W64 := 0)
  (evqSet : Bool := false)
  /-- the owner of the mailbox ring in the supervisor's record; none when the ring is free (R349) -/
  (ringOwner : Option Nat := none)
  /-- a function-level reset lasts (R362) -/
  (inReset : Bool := false)
  /-- MSI-X table: address and data bytes, vectors unmasked, and pending bits (R366) -/
  (msixTable : Mem := [])
  (unmasked pending : List Nat := [])
  deriving DecidableEq, Repr

/-- The headworks (R360 to R368, R380). -/
structure Hw where
  (dbrej windeny : W64 := 0)
  (flit : Bool := false)
  (width speed : Nat := 0)
  /-- the link is in L0 (R448) -/
  (l0 : Bool := false)
  /-- HW_FUNCMAP: domain bound to 4f + s; entry 0 holds domain 0 from reset -/
  (funcmap : Tab Nat := [(0, 0)])
  /-- CT in ns of the last PTM dialogue that succeeded -/
  (lastPtm : Option Nat := none)
  deriving DecidableEq, Repr

/-- Fountainhead and the always-on supervisor (R358, R370, R378 to R380, R349). -/
structure Fh where
  (fwversion : W32 := 0)
  (cmdcnt evlost : W64 := 0)
  /-- FH_CORESTAT and FH_MB_STATUS.READY and RECOV -/
  (running : Bool := false)
  (failed : Nat := 0)
  (corePair : Nat := 3)
  (mbReady recov : Bool := false)
  /-- firmware SRAM: the chunks of the image that runs (R358, R407) -/
  (sram : Tab (List Byte) := [])
  /-- the endpoint ID that the bus owner has given the MCTP endpoint (R378) -/
  (eid : Option Nat := none)
  /-- requests in progress, in start order across functions (R370) -/
  (inprog : List Req := [])
  /-- function whose turn is next (R370) -/
  (turn : Nat := 0)
  /-- the supervisor's event buffer, oldest first, and events lost from it since the last fetch (R379) -/
  (supBuf : List Event := [])
  (supLost : Nat := 0)
  /-- module reset due at this CT in ns, and whether it is cold (R374) -/
  (resetAt : Option (Nat × Bool) := none)
  deriving DecidableEq, Repr

/-- An entry of the ownership table (R222). -/
structure Page where
  (valid scrub : Bool := false)
  (owner : Nat := 0)
  deriving DecidableEq, Repr

/-- One reservoir controller (R220, R224, R225, R232). -/
structure Ctrl where
  (ready selfref : Bool := false)
  (temp refmode : Nat := 0)
  (cecnt uecnt denycnt ovbbytes leasecnt : W64 := 0)
  (eccValid : Bool := false)
  (eccAddr : Nat := 0)
  /-- budgets of the slot by domain, and what has been used of them, in 64 B units (R225) -/
  (budget used : Tab Nat := [])
  /-- CTs in ns of uncorrectable errors within the last second, newest first (R354) -/
  (ueTimes : List Nat := [])
  deriving DecidableEq, Repr

/-- An atomic operation on an 8 B word (R227). -/
inductive Atomic where
  | fadd (v : Nat)
  | cas (c v : Nat)
  /-- the slot start and slot end of the request, in CT microseconds modulo 2^48 -/
  | semAcq (start fin : Nat)
  | semRel
  deriving DecidableEq, Repr

/-- Traffic held in quarantine (R353). -/
structure Quar where
  /-- receiver, source unit, epoch it carries -/
  (recv src epoch domain addr len : Nat := 0)
  (write : Bool := false)
  (bytes : List Byte := [])
  (handle : Nat := 0)
  /-- the operation of a held atomic -/
  (atomic : Option Atomic := none)
  /-- index of the instruction that issued it; start CT in ns of the slot in which it arrived -/
  (pc slot : Nat := 0)
  deriving DecidableEq, Repr

/-- An immediate fence under way (R344): physical basin, fault class, CT in ns of its detection and of the start of its slot, and how far
it has come: 0 detected, 1 its state is FENCED, 2 its router sinks its traffic. -/
structure Fencing where
  (basin cls tf slot stage : Nat := 0)
  deriving DecidableEq, Repr

/-- The reservoir (R201 to R203, R220 to R227). -/
structure Rsv where
  /-- plaintext contents, as an allowed read returns them -/
  (mem : Mem := [])
  (pages : Tab Page := [])
  /-- key slots that are filled, by domain: data key and tweak key, 256 bits each (R224) -/
  (keys : Tab (Nat × Nat) := [])
  (ctrls : List Ctrl := [{}, {}, {}, {}, {}, {}, {}, {}])
  /-- 32 B units that are poisoned, and those that hold a correctable error, by address / 32 (R224) -/
  (poison soft : List Nat := [])
  /-- bytes moved in this slot, for R28 -/
  (slotBytes : Nat := 0)
  deriving DecidableEq, Repr

/-- A row of FH_SPAREMAP (R356), with a restore in progress. -/
structure SpareRow where
  (spstate : Nat := 0)
  (fcol : Nat := 31)
  (fenced : Nat := 0)
  /-- CT in ns at which the restore ends, and at which its copying begins (R346) -/
  (restoreEnd : Option Nat := none)
  (restoreFrom : Nat := 0)
  /-- start CT of the slot in which its last basin was fenced (R347) -/
  (fencedSlot : Nat := 0)
  deriving DecidableEq, Repr

/-- A unit's epoch and state as one view gives them (R350). -/
structure View where
  (epoch : W32 := 0)
  (state : Nat := 0)
  deriving DecidableEq, Repr

/-- Fault handling: spare map, epochs, check tables, quarantine, replay (R343 to R357). -/
structure Fault3 where
  (rows : Tab SpareRow := [])
  (fencecnt replaycnt epochev coresw : W64 := 0)
  /-- Fountainhead's view of each unit; each unit's own view where it is not a basin; the check tables -/
  (mgmt own : Tab View := [])
  (check : Tab W32 := [])
  /-- units whose state is to be reissued at the next slot start, those for which that slot start has come, and units changed in this
  slot -/
  (reissue reissueDue changed : List Nat := [])
  /-- immediate fences that are not complete yet (R344) -/
  (fencing : List Fencing := [])
  (quar : List Quar := [])
  /-- planned fences waiting for the frame boundary, and replays waiting for the reserve: logical basin and run -/
  (planned : List Nat := [])
  (replays : List (Nat × Run) := [])
  /-- where in the slot the next replay of a row's spare may begin its setup, in tenths of a nanosecond (R347) -/
  (replayAt : Tab Nat := [])
  deriving DecidableEq, Repr

end Sys2Proof.Machine
end

