-- ==== Sys2Proof/Machine/TypesSys.lean ====
section
/-! DEFINITION. The state of power management, the trickle unit, boot, update, fuses, freeze, test port and module pins
(chapters 14 to 17). -/

namespace Sys2Proof.Machine

open Sys2Proof

/-- What the module's sensors read at a slot boundary (R399, R451, R460): input power in W, VIN48 in 10 mV, hottest junction,
hottest stack and coolant inlet in °C, whether the AVSBus transaction succeeded, and a droop alarm. -/
structure Readings where
  (pin vin tj thbm tinlet : Nat := 0)
  (avsOk : Bool := true)
  (droop : Bool := false)
  deriving DecidableEq, Repr

/-- Trickle parameters (R393). -/
structure TrkParams where
  (period : Nat := 1000)
  (mlen : Nat := 8)
  (refk stalemax : Nat := 0)
  (sloten : Nat := 0)
  (thr : Tab Nat := [])
  deriving DecidableEq, Repr

/-- A basin record of the retention SRAM (R389). -/
structure BasinRec where
  (logical : Nat := 0x1FF)
  (epoch : W32 := 0)
  (ustate : Nat := 2)
  (weirFenced : Bool := false)
  (eccValid eccUncorr eccScrub : Bool := false)
  (eccAddr : Nat := 0)
  (skipcnt ftblcnt blkcnt zblkcnt vancnt dropcnt trunccnt drawcnt reseedcnt refusecnt cecnt sinkcnt : W64 := 0)
  deriving DecidableEq, Repr

/-- The retention SRAM (R389). -/
structure Retention where
  (basins : Tab BasinRec := [])
  (ports : Tab Port := [])
  (link : Link := {})
  (pair : Pair := {})
  deriving DecidableEq, Repr

/-- The power and clock management block and the trickle unit (R381 to R401). -/
structure Power where
  (target : Nat := 0)
  /-- PWR_STATUS: STATE, STABLE, MOVING, LATCHED, LVALID, STEP, BCLK -/
  (state : Nat := 4)
  (stable : Nat := 1)
  (moving : Bool := false)
  (latched : Option Nat := none)
  (step bclk : Nat := 0)
  /-- basin clocks since reset or the last wake, in thousandths, up to the CT in ns of the last change of the clock (R29, R443) -/
  (clkBase clkAt : Nat := 0)
  /-- the state the sequencer is moving to, and CT in ns at which the step began -/
  (dest stepCt : Nat := 0)
  (wakeen : Nat := 0x3F)
  (wakesrc : Nat := 0)
  (cap : Nat := 0x44C)
  (floor : Nat := 0x190)
  /-- PWR_GOVSTAT -/
  (tjmax : Nat := 0)
  (capheld override volt curr temp bw capLim atFloor : Bool := false)
  (trk : TrkParams := {})
  (trkNext : Option TrkParams := none)
  (trkwake trkstale : Nat := 0)
  (wakecnt trkcnt ovrcnt capcnt abortcnt : W64 := 0)
  /-- slots since a lowering condition, and since each override's release condition, held (R399, R400) -/
  (calm okTemp okCurr okVolt : Nat := 0)
  /-- both control cores execute the wait instruction (R386) -/
  (coresWait : Bool := false)
  /-- host writes to the trickle window held on the link in Rest (R391) -/
  (heldTlp : List (Nat × List Byte) := [])
  /-- the bias table row in force: VCORE in mV, body bias in mV, word-line underdrive, read assist (R390) -/
  (vcore : Nat := 0)
  (bias : Int := 0)
  (wlud assist : Bool := false)
  (avsFails : Nat := 0)
  (droop : Bool := false)
  (ret : Option Retention := none)
  /-- trickle SRAM: buffer and references, fresh slots, periods since each slot was fresh (R391, R392, R395) -/
  (trkBuf trkRef : Mem := [])
  (fresh : Nat := 0)
  (age : Tab Nat := [])
  /-- CT in ns at which the trickle period in progress began -/
  (trkCt : Nat := 0)
  /-- row 0 stays on after a sample that woke the device -/
  (row0On : Bool := false)
  /-- the sequencer turns to D4 after its current step because of a shutdown (R452) -/
  (shutSeq : Bool := false)
  deriving DecidableEq, Repr

/-- A journal record (R413): type and arguments. -/
inductive JRec where
  | eraseBegin (area sector : Nat)
  | eraseDone (area sector : Nat)
  | progBegin (area chunk : Nat)
  | chunkDone (chunk : Nat)
  | manifestOk (digest version svn nchunk : Nat)
  | roles (active shadow staging : Nat) (try_ : Bool)
  | tryStart
  | tryFail
  | promote (area : Nat)
  | abort
  | checkpoint (active shadow staging : Nat) (try_ : Bool) (state nchunk : Nat)
  | bitmap (k : Nat) (chunks : List Nat)
  deriving DecidableEq, Repr

/-- What a manifest says that the module acts on (R405). -/
structure Manifest where
  (mlen version svn revoke part stepmin keyidx nchunk lastlen libver : Nat := 0)
  (pubkey : List Byte := [])
  /-- SHA-384 of each chunk, as numbers -/
  (hashes : List Nat := [])
  /-- first 16 B of SHA-384 of the manifest -/
  (digest : Nat := 0)
  deriving DecidableEq, Repr

/-- An image area's contents: its manifest, and whether each chunk's bytes match it. -/
structure Area where
  (manifest : Option Manifest := none)
  /-- chunk contents by index, as bytes -/
  (chunks : Tab (List Byte) := [])
  /-- the manifest's signature verifies (a fact of its bytes) -/
  (sigOk : Bool := false)
  deriving DecidableEq, Repr

/-- A configuration set (R425). -/
structure ConfigSet where
  (valid : Bool := false)
  (seq : Nat := 0)
  (items : Tab Nat := [])
  deriving DecidableEq, Repr

/-- A recovery image being received (R411). -/
structure Recovery where
  (fromMctp : Bool := false)
  (expected : Nat := 0)
  (bytes : List Byte := [])
  (lastCt : Nat := 0)
  deriving DecidableEq, Repr

/-- Boot, update and life-cycle (R402 to R431). -/
structure Boot where
  (ready fallback : Bool := false)
  (image step : Nat := 0)
  (cause detail : Nat := 0)
  (attempts : W32 := 0)
  (completed : Bool := false)
  /-- the fuse array (R427) -/
  (fuses : Mem := [])
  (nonce : Option Nat := none)
  /-- step begun at this CT in ns; failed attempts since the last success; back-off ends at this CT -/
  (stepCt fails : Nat := 0)
  (backoff : Option Nat := none)
  (retired : Bool := false)
  /-- B1 has read the fuses in this boot; the boot ROM waits for PERST_N (R454) -/
  (fusesRead waiting : Bool := false)
  (devseed : W64 := 0)
  /-- the firmware region's data key and tweak key (R241) -/
  (fwkey : Nat × Nat := (0, 0))
  (fwFromFlash : Bool := false)
  /-- image areas A, B and C, as the flash holds them; the journal, oldest record first; configuration sets -/
  (areas : List Area := [{}, {}, {}])
  (journal : List JRec := [])
  (journalHalf : Nat := 0)
  (sets : List ConfigSet := [{}, {}])
  /-- log area: bytes written, stored complemented so that an erased byte reads 0xFF -/
  (log : Mem := [])
  /-- update state (R421), pieces of the manifest held, chunk quarters held, chunks queued to program -/
  (updState : Nat := 0)
  (pieces : Tab (List Byte) := [])
  (quarters : Tab (Tab (List Byte)) := [])
  (queue : List Nat := [])
  (staged : Option Manifest := none)
  (present : List Nat := [])
  /-- sectors of the staging area that must be erased afresh (R416) -/
  (erasePend : List Nat := [])
  /-- an erase in progress: area and sector, and whether it is suspended (R417) -/
  (erasing : Option (Nat × Nat × Bool) := none)
  (recovery : Option Recovery := none)
  /-- enter reception at B3 of the next boot (R412); image running in SRAM -/
  (recoverNext : Bool := false)
  (running : Option Manifest := none)
  /-- candidate chosen in B3: area, and whether it is the trial -/
  (candidate : Nat := 0)
  (trial : Bool := false)
  (smbAddr : Nat := 0x62)
  /-- the boot step that a recovery image interrupted (R411) -/
  (resumeStep : Nat := 0)
  deriving DecidableEq, Repr

/-- Freeze and the test access port (R432 to R444). -/
structure Still where
  (frozen destroyed held pending ignored denied : Bool := false)
  (stillcnt : W64 := 0)
  /-- CT in ns at which the clocks stopped -/
  (since : Nat := 0)
  /-- TAP instruction register; MEMADDR; chain selected; boundary register latched. EXTEST, CLAMP and HIGHZ act while selected -/
  (ir : Nat := 0x02)
  (memaddr scansel boundary : Nat := 0)
  deriving DecidableEq, Repr

/-- Module pins and monitors (R447, R448, R452, R460). -/
structure Mod where
  (twinpres pwren : Bool := false)
  /-- PERST_N is low; STILL_N is low -/
  (perst : Bool := true)
  (still refok vinok : Bool := false)
  /-- CT in 2^-16 ns of the last PPS_IN edge -/
  (ppsLast : Option Nat := none)
  (shut : Nat := 0)
  (pin vin tinlet thbm tjmax : Nat := 0)
  /-- outputs: PGOOD released, WAKE_N asserted since this CT, THERM_ALERT_N asserted -/
  (pgood : Bool := false)
  (wakeN : Option Nat := none)
  (therm : Bool := false)
  /-- a thermal or overcurrent shutdown awaits PWR_EN falling and rising; inlet above 45 °C -/
  (thermShut currShut pwrenFell inletHigh : Bool := false)
  (auxOk : Bool := true)
  /-- PERST_N fell during a transition (R456) -/
  (perstPend : Bool := false)
  deriving DecidableEq, Repr

end Sys2Proof.Machine
end

