-- ==== Sys2Proof/Syntax.lean ====
section
/-! DEFINITION. The commands of the block: one constructor for each row of spec/opcode_table.json, with the operands the row
needs. `b` is a physical basin, `q` the program-order number of an engine operation, `r` a runnel, `f` a PCIe function, `p` a
port (4 is the mirror link), `i` a stream index. Operands named `...Ok`, `finding`, `check`, `bad`, `fails` or `mask` say what
the hardware finds at that moment where the spec leaves the finding to the world outside (a signature, a sensor, a flash
read-back); see notes/assumptions/3.md. -/

namespace Sys2Proof

open Sys2Proof.Machine

/-- The commands. -/
inductive Instr where
  /-- SLOT_STROBE (R240) -/
  | slotStrobe (m : Readings)
  /-- TABLE_SWAP (R245) -/
  | tableSwap
  /-- TIME_STEP_APPLY (R237) -/
  | timeStepApply
  /-- RUN_START (R32) -/
  | runStart (b : Nat)
  /-- RUN_END_OFFSET (R34) -/
  | runEndOffset (b : Nat)
  /-- RUN_FLAG_MERGE (R110) -/
  | runFlagMerge (b : Nat)
  /-- SCOREBOARD_GRANT (R112) -/
  | scoreboardGrant (b : Nat)
  /-- NOP (R108) -/
  | seqNop (b : Nat)
  /-- END (R110) -/
  | seqEnd (b : Nat)
  /-- ADD (R108) -/
  | seqAdd (b : Nat)
  /-- SUB (R108) -/
  | seqSub (b : Nat)
  /-- AND (R108) -/
  | seqAnd (b : Nat)
  /-- OR (R108) -/
  | seqOr (b : Nat)
  /-- XOR (R108) -/
  | seqXor (b : Nat)
  /-- SHL (R108) -/
  | seqShl (b : Nat)
  /-- SHR (R108) -/
  | seqShr (b : Nat)
  /-- SLTU (R108) -/
  | seqSltu (b : Nat)
  /-- MUL (R108) -/
  | seqMul (b : Nat)
  /-- LI (R108) -/
  | seqLi (b : Nat)
  /-- LDW (R108) -/
  | seqLdw (b : Nat)
  /-- STW (R108) -/
  | seqStw (b : Nat)
  /-- J (R108) -/
  | seqJ (b : Nat)
  /-- BEQ (R108) -/
  | seqBeq (b : Nat)
  /-- BNE (R108) -/
  | seqBne (b : Nat)
  /-- BLTU (R108) -/
  | seqBltu (b : Nat)
  /-- LOOP (R108) -/
  | seqLoop (b : Nat)
  /-- JOP (R98) -/
  | seqJop (b : Nat)
  /-- SLU (R210) -/
  | seqSlu (b : Nat)
  /-- RUNL (R196) -/
  | seqRunl (b : Nat)
  /-- TZERO (R108) -/
  | seqTzero (b : Nat)
  /-- TFILL (R108) -/
  | seqTfill (b : Nat)
  /-- WAIT (R108) -/
  | seqWait (b : Nat)
  /-- RDSLOT (R108) -/
  | seqRdslot (b : Nat)
  /-- FLAGS (R108) -/
  | seqFlags (b : Nat)
  /-- UNLISTED_OPCODE (R108) -/
  | unlistedOpcode (b : Nat)
  /-- PROGRAM_REGION_FAULT (R105) -/
  | programRegionFault (b : Nat)
  /-- LPE_ADD (R85) -/
  | lpeAdd (b : Nat)
  /-- LPE_SUBTRACT (R85) -/
  | lpeSubtract (b : Nat)
  /-- LPE_MULTIPLY (R85) -/
  | lpeMultiply (b : Nat)
  /-- LPE_FMA (R87) -/
  | lpeFma (b : Nat)
  /-- LPE_DIVIDE (R85) -/
  | lpeDivide (b : Nat)
  /-- LPE_SQRT (R85) -/
  | lpeSqrt (b : Nat)
  /-- LPE_MINIMUM (R85) -/
  | lpeMinimum (b : Nat)
  /-- LPE_MAXIMUM (R85) -/
  | lpeMaximum (b : Nat)
  /-- LPE_COMPARE (R108) -/
  | lpeCompare (b : Nat)
  /-- LPE_CONVERT (R85) -/
  | lpeConvert (b : Nat)
  /-- LAYER_RETIRE (R140) -/
  | layerRetire (b q : Nat)
  /-- TILE_OP_RETIRE (R112) -/
  | tileOpRetire (b q : Nat)
  /-- SLUICE_TRANSFER_START (R211) -/
  | sluiceTransferStart (b : Nat)
  /-- TRANSFER_RETIRE (R212) -/
  | transferRetire (b q : Nat)
  /-- AMAX_GET (R157) -/
  | amaxGet (ring domain slotCt : Nat)
  /-- AMAX_MERGE (R157) -/
  | amaxMerge (ring domain amax slotCt : Nat)
  /-- SUM (R175) -/
  | cscSum (b : Nat)
  /-- MAX (R176) -/
  | cscMax (b : Nat)
  /-- MIN (R176) -/
  | cscMin (b : Nat)
  /-- MEANVAR (R177) -/
  | cscMeanvar (b : Nat)
  /-- LSE (R179) -/
  | cscLse (b : Nat)
  /-- SOFTMAX (R179) -/
  | cscSoftmax (b : Nat)
  /-- SSQ (R186) -/
  | cscSsq (b : Nat)
  /-- GNORM (R186) -/
  | cscGnorm (b : Nat)
  /-- CASCADE_RETIRE (R171) -/
  | cascadeRetire (b q : Nat)
  /-- PARTIAL_ARRIVAL (R183) -/
  | partialArrival (b : Nat) (v : HeldPartial)
  /-- GROUP_COMBINE (R183) -/
  | groupCombine (b q : Nat)
  /-- COLLECTIVE_RESULT (R185) -/
  | collectiveResult (b q : Nat) (vals : List Partial)
  /-- RUNNEL_RETIRE (R196) -/
  | runnelRetire (b r : Nat)
  /-- MU_NOP (R192) -/
  | muNop (b r : Nat)
  /-- IN (R192) -/
  | muIn (b r : Nat)
  /-- OUT (R192) -/
  | muOut (b r : Nat)
  /-- OUTR (R196) -/
  | muOutr (b r : Nat)
  /-- DONE (R192) -/
  | muDone (b r : Nat)
  /-- IDX (R192) -/
  | muIdx (b r : Nat)
  /-- MU_LI (R192) -/
  | muLi (b r : Nat)
  /-- LADD (R189) -/
  | muLadd (b r : Nat)
  /-- LSUB (R189) -/
  | muLsub (b r : Nat)
  /-- LMUL (R192) -/
  | muLmul (b r : Nat)
  /-- LDIV (R192) -/
  | muLdiv (b r : Nat)
  /-- LSHF (R192) -/
  | muLshf (b r : Nat)
  /-- LSGN_ABS (R192) -/
  | muLsgnAbs (b r : Nat)
  /-- LSGN_NEGATE (R192) -/
  | muLsgnNegate (b r : Nat)
  /-- LSGN_SIGN (R192) -/
  | muLsgnSign (b r : Nat)
  /-- FADD (R192) -/
  | muFadd (b r : Nat)
  /-- FSUB (R192) -/
  | muFsub (b r : Nat)
  /-- CVT_LG_TO_LG (R193) -/
  | muCvtLgToLg (b r : Nat)
  /-- CVT_LG_TO_A32 (R193) -/
  | muCvtLgToA32 (b r : Nat)
  /-- CVT_A32_TO_LG (R193) -/
  | muCvtA32ToLg (b r : Nat)
  /-- CVT_LG_TO_FX (R193) -/
  | muCvtLgToFx (b r : Nat)
  /-- CVT_FX_TO_LG (R193) -/
  | muCvtFxToLg (b r : Nat)
  /-- CVT_FX_TO_LG_FIELD (R193) -/
  | muCvtFxToLgField (b r : Nat)
  /-- CVT_LG_FIELD_TO_FX (R193) -/
  | muCvtLgFieldToFx (b r : Nat)
  /-- CVT_LG_TO_FX_WRAP (R193) -/
  | muCvtLgToFxWrap (b r : Nat)
  /-- CMP (R192) -/
  | muCmp (b r : Nat)
  /-- SEL (R192) -/
  | muSel (b r : Nat)
  /-- IADD (R192) -/
  | muIadd (b r : Nat)
  /-- ISUB (R192) -/
  | muIsub (b r : Nat)
  /-- MU_AND (R192) -/
  | muAnd (b r : Nat)
  /-- MU_OR (R192) -/
  | muOr (b r : Nat)
  /-- MU_XOR (R192) -/
  | muXor (b r : Nat)
  /-- MU_SHL (R192) -/
  | muShl (b r : Nat)
  /-- MU_SHR (R192) -/
  | muShr (b r : Nat)
  /-- SRA (R192) -/
  | muSra (b r : Nat)
  /-- LUT (R194) -/
  | muLut (b r : Nat)
  /-- BR (R192) -/
  | muBr (b r : Nat)
  /-- BANY (R192) -/
  | muBany (b r : Nat)
  /-- BNONE (R192) -/
  | muBnone (b r : Nat)
  /-- LOUPE_RETIRE (R88) -/
  | loupeRetire (b q : Nat)
  /-- RESERVOIR_READ (R223) -/
  | reservoirRead (src : Nat) (epoch : W32) (domain handle addr len : Nat)
  /-- RESERVOIR_WRITE (R223) -/
  | reservoirWrite (src : Nat) (epoch : W32) (domain handle addr : Nat) (data : List Byte)
  /-- ATOMIC_FADD (R227) -/
  | atomicFadd (src : Nat) (epoch : W32) (domain handle addr : Nat) (v : W64)
  /-- CAS (R227) -/
  | atomicCas (src : Nat) (epoch : W32) (domain handle addr : Nat) (c v : W64)
  /-- SEMACQ (R227) -/
  | semAcq (src : Nat) (epoch : W32) (domain handle addr : Nat)
  /-- SEMREL (R227) -/
  | semRel (src : Nat) (epoch : W32) (domain handle addr : Nat)
  /-- REMOTE_CISTERN_READ (R212) -/
  | remoteCisternRead (b src : Nat) (epoch : W32) (domain handle addr len : Nat)
  /-- ROUTER_SINK_PACKET (R216) -/
  | routerSinkPacket (b : Nat) (read : Bool)
  /-- QUARANTINE_RELEASE (R353) -/
  | quarantineRelease (u : Nat)
  /-- QUARANTINE_FAILBACK (R353) -/
  | quarantineFailback (u : Nat)
  /-- EPOCH_REISSUE (R352) -/
  | epochReissue (u : Nat)
  /-- CISTERN_SCRUB (R205) -/
  | cisternScrub (b addr finding : Nat)
  /-- RESERVOIR_SCRUB (R224) -/
  | reservoirScrub (addr finding : Nat)
  /-- BASIN_FAULT_DETECTED (R343) -/
  | basinFaultDetected (b cause : Nat)
  /-- PLANNED_FENCE (R343) -/
  | plannedFence (b : Nat)
  /-- SPARE_RESTORE_DONE (R346) -/
  | spareRestoreDone (row : Nat)
  /-- REPLAY_START (R347) -/
  | replayStart (b : Nat)
  /-- FAILED_PERIOD_COMPLETION (R464) -/
  | failedPeriodCompletion (i : Nat)
  /-- PPS_EDGE (R234) -/
  | ppsEdge (cycles : Nat)
  /-- PPS_TIMEOUT (R234) -/
  | ppsTimeout
  /-- REFCLK_LOSS (R234) -/
  | refclkLoss
  /-- PTM_DIALOGUE (R367) -/
  | ptmDialogue (ok : Bool) (master : Nat)
  /-- PTM_TIMEOUT (R234) -/
  | ptmTimeout
  /-- RILL_TIME_TIMEOUT (R234) -/
  | rillTimeTimeout
  /-- HOLDLIM_EXCEEDED (R238) -/
  | holdlimExceeded
  /-- CAD_CT_LOW_READ (R267) -/
  | cadCtLowRead
  /-- TIME_SYNC_SEND (R315) -/
  | timeSyncSend (p : Nat)
  /-- SYNC (R316) -/
  | syncFrame (a : Arrival)
  /-- FOLLOW (R316) -/
  | followFrame (a : Arrival) (t1 : Nat) (locked : Bool) (hops : Nat)
  /-- DREQ (R316) -/
  | dreqFrame (a : Arrival)
  /-- DRESP (R316) -/
  | drespFrame (a : Arrival) (t4 : Nat)
  /-- DOORBELL (R254) -/
  | doorbell (f off width : Nat) (v : W64)
  /-- SUBMISSION_FETCH (R255) -/
  | submissionFetch (i : Nat) (ok : Bool) (entry : List Byte)
  /-- FRAME_ARRIVAL (R255) -/
  | frameArrival (i : Nat) (data : List Byte)
  /-- POSTING (R257) -/
  | posting (i : Nat)
  /-- MB_REQTAIL_WRITE (R369) -/
  | mbReqtailWrite (f v : Nat)
  /-- MB_ENABLE (R369) -/
  | mbEnable (f : Nat)
  /-- MB_DISABLE (R369) -/
  | mbDisable (f : Nat)
  /-- MB_RSPHEAD_WRITE (R371) -/
  | mbRspheadWrite (f v : Nat)
  /-- EVQ_HEAD_WRITE (R377) -/
  | evqHeadWrite (f v : Nat)
  /-- REQUEST_START (R370) -/
  | requestStart (f : Nat) (slot : List Byte) (payload : Option (List Byte))
  /-- REGISTER_WRITE (R10) -/
  | registerWrite (f : Option Nat) (addr width : Nat) (v : W64)
  /-- BAR2_ACCESS (R364) -/
  | bar2Access (f off len : Nat) (data : Option (List Byte))
  /-- POISONED_TLP (R368) -/
  | poisonedTlp (f : Nat)
  /-- FUNCTION_RESET (R362) -/
  | functionReset (f : Nat) (fin : Bool)
  /-- HOSTLINK_RETRAIN (R361) -/
  | hostlinkRetrain (speed width : Nat) (flit : Bool)
  /-- CORE_MISCOMPARE (R349) -/
  | coreMiscompare (pass : List Nat)
  /-- DEVICE_INFO (R374) -/
  | deviceInfo (f : Nat)
  /-- DEVICE_HEALTH (R442) -/
  | deviceHealth (f : Nat)
  /-- DEVICE_PEERS (R307) -/
  | devicePeers (f : Nat)
  /-- DEVICE_REKEY (R310) -/
  | deviceRekey (f : Nat)
  /-- DEVICE_FUNCBIND (R362) -/
  | deviceFuncbind (f : Nat)
  /-- DEVICE_WINDOW (R364) -/
  | deviceWindow (f : Nat)
  /-- DEVICE_CONFIG (R425) -/
  | deviceConfig (f : Nat)
  /-- DEVICE_RESET (R374) -/
  | deviceReset (f : Nat)
  /-- RESET_DELAY_EXPIRY (R374) -/
  | resetDelayExpiry
  /-- DOMAIN_CREATE (R260) -/
  | domainCreate (f : Nat)
  /-- DOMAIN_DESTROY (R264) -/
  | domainDestroy (f : Nat)
  /-- DOMAIN_DESTROY_RELEASE (R264) -/
  | domainDestroyRelease (d : Nat)
  /-- DOMAIN_QUERY (R374) -/
  | domainQuery (f : Nat)
  /-- DOMAIN_LIMITS (R260) -/
  | domainLimits (f : Nat)
  /-- PAGE_ASSIGN (R222) -/
  | pageAssign (f : Nat)
  /-- PAGE_RELEASE (R222) -/
  | pageRelease (f : Nat)
  /-- MODEL_LOAD (R261) -/
  | modelLoad (f : Nat) (sigOk : Bool) (img : Model)
  /-- MODEL_UNLOAD (R374) -/
  | modelUnload (f : Nat)
  /-- MODEL_QUERY (R374) -/
  | modelQuery (f : Nat)
  /-- RUNNEL_INSTALL (R198) -/
  | runnelInstall (f : Nat) (sigOk : Bool) (img : RunnelFn)
  /-- RUNNEL_IMAGE_WRITE (R198) -/
  | runnelImageWrite
  /-- RUNNEL_REMOVE (R198) -/
  | runnelRemove (f : Nat)
  /-- STREAM_CREATE (R251) -/
  | streamCreate (f : Nat)
  /-- STREAM_DESTROY (R251) -/
  | streamDestroy (f : Nat)
  /-- STREAM_REISSUE (R251) -/
  | streamReissue (f : Nat)
  /-- STREAM_QUERY (R250) -/
  | streamQuery (f : Nat)
  /-- STREAM_SET (R374) -/
  | streamSet (f : Nat)
  /-- STREAM_RING (R159) -/
  | streamRing (f : Nat)
  /-- SLOT_PLAN (R465) -/
  | slotPlan (f : Nat) (sigOk : Bool) (img : Plan)
  /-- SLOT_LOAD (R465) -/
  | slotLoad (f : Nat) (sigOk : Bool) (img : Table)
  /-- SLOT_COMMIT (R245) -/
  | slotCommit (f : Nat)
  /-- SLOT_CANCEL (R245) -/
  | slotCancel (f : Nat)
  /-- SLOT_QUERY (R374) -/
  | slotQuery (f : Nat)
  /-- PAIR_ATTACH (R323) -/
  | pairAttach (f : Nat)
  /-- PAIR_DETACH (R340) -/
  | pairDetach (f : Nat)
  /-- DETACH_APPLY (R340) -/
  | detachApply
  /-- PAIR_MIRROR (R325) -/
  | pairMirror (f : Nat)
  /-- PAIR_ROLE (R340) -/
  | pairRole (f : Nat)
  /-- PAIR_ROLE_APPLY (R340) -/
  | pairRoleApply (i : Nat)
  /-- PAIR_QUERY (R374) -/
  | pairQuery (f : Nat)
  /-- TRAIN_CREATE (R269) -/
  | trainCreate (f : Nat)
  /-- TRAIN_QUERY (R269) -/
  | trainQuery (f : Nat)
  /-- TRAIN_SET (R278) -/
  | trainSet (f : Nat)
  /-- TRAIN_STATE (R278) -/
  | trainState (f : Nat)
  /-- TRAIN_FILL (R273) -/
  | trainFill (f : Nat)
  /-- TRAIN_RESYNC (R292) -/
  | trainResync (f : Nat) (st : List (Nat × List Byte)) (seed period : W64)
  /-- TRAIN_RESTORE (R296) -/
  | trainRestore (f : Nat) (st : List (Nat × List Byte)) (seed period : W64)
  /-- TRAIN_CKPT_RESERVE (R295) -/
  | trainCkptReserve (f : Nat)
  /-- FLAGS_READ (R82) -/
  | flagsRead (f : Nat)
  /-- FLAGS_CLEAR (R83) -/
  | flagsClear (f : Nat)
  /-- REG_READ (R375) -/
  | regRead (f : Nat)
  /-- REG_WRITE (R375) -/
  | regWrite (f : Nat)
  /-- TIME_QUERY (R374) -/
  | timeQuery (f : Nat)
  /-- TIME_SET (R235) -/
  | timeSet (f : Nat)
  /-- TIME_STEP (R237) -/
  | timeStep (f : Nat)
  /-- POWER_QUERY (R374) -/
  | powerQuery (f : Nat)
  /-- POWER_ENTER (R385) -/
  | powerEnter (f : Nat)
  /-- POWER_POLICY (R399) -/
  | powerPolicy (f : Nat)
  /-- POWER_WAKEPORT (R319) -/
  | powerWakeport (f : Nat)
  /-- POWER_TRICKLE (R393) -/
  | powerTrickle (f : Nat)
  /-- UPDATE_MANIFEST (R418) -/
  | updateManifest (f : Nat) (sigOk : Bool)
  /-- UPDATE_CHUNK (R420) -/
  | updateChunk (f : Nat)
  /-- CHUNK_PROGRAM (R420) -/
  | chunkProgram (readback : Bool)
  /-- ERASE_RESUME (R417) -/
  | eraseResume
  /-- UPDATE_STATUS (R421) -/
  | updateStatus (f : Nat)
  /-- UPDATE_ACTIVATE (R422) -/
  | updateActivate (f : Nat) (bad : List Nat)
  /-- UPDATE_ABORT (R424) -/
  | updateAbort (f : Nat)
  /-- UPDATE_RECOVERY (R411) -/
  | updateRecovery (f : Nat) (sigOk : Bool)
  /-- RECOVERY_TIMEOUT (R411) -/
  | recoveryTimeout
  /-- LIFECYCLE_QUERY (R430) -/
  | lifecycleQuery (f : Nat)
  /-- LIFECYCLE_ADVANCE (R430) -/
  | lifecycleAdvance (f : Nat) (sigOk : Bool)
  /-- EVENT_CONFIG (R377) -/
  | eventConfig (f : Nat)
  /-- EVENT_QUERY (R374) -/
  | eventQuery (f : Nat)
  /-- EVENT_FETCH (R379) -/
  | eventFetch (f : Nat)
  /-- LOG_READ (R374) -/
  | logRead (f : Nat)
  /-- LOG_CLEAR (R374) -/
  | logClear (f : Nat)
  /-- UNKNOWN_OPCODE (R374) -/
  | unknownOpcode (f : Nat)
  /-- MCTP_REQUEST (R378) -/
  | mctpRequest (slot payload : List Byte) (sigOk : Bool) (bad : List Nat)
  /-- CORES_WAIT (R386) -/
  | coresWait
  /-- SEQ_STEP_DONE (R397) -/
  | seqStepDone
  /-- SEQ_STEP_TIMEOUT (R397) -/
  | seqStepTimeout
  /-- PCIE_WAKE (R388) -/
  | pcieWake (inWindow : Bool)
  /-- RILL_TRAINING_WAKE (R388) -/
  | rillTrainingWake
  /-- MIRROR_TRAINING_WAKE (R388) -/
  | mirrorTrainingWake
  /-- WAKE_BURST_RECOGNISED (R318) -/
  | wakeBurstRecognised (p : Nat)
  /-- WAKE_IN_N_FALL (R387) -/
  | wakeInNFall
  /-- PWR_EN_RISE (R387) -/
  | pwrEnRise
  /-- PWR_EN_FALL (R387) -/
  | pwrEnFall
  /-- PERST_N_ASSERT (R456) -/
  | perstNAssert
  /-- PERST_N_DEASSERT (R454) -/
  | perstNDeassert
  /-- WAKE_N_TIMEOUT (R448) -/
  | wakeNTimeout
  /-- CURRENT_OVERRIDE (R400) -/
  | currentOverride (watts : Nat)
  /-- VOLTAGE_OVERRIDE (R400) -/
  | voltageOverride (vin : Nat) (droop : Bool)
  /-- THERMAL_SHUTDOWN (R452) -/
  | thermalShutdown
  /-- OVERCURRENT_SHUTDOWN (R452) -/
  | overcurrentShutdown
  /-- UNDERVOLTAGE_SHUTDOWN (R452) -/
  | undervoltageShutdown
  /-- OVERVOLTAGE_SHUTDOWN (R452) -/
  | overvoltageShutdown
  /-- VIN_RESTORED (R452) -/
  | vinRestored
  /-- AUX_LOSS (R452) -/
  | auxLoss
  /-- AUX_RETURN (R454) -/
  | auxReturn
  /-- TRICKLE_PERIOD (R394) -/
  | tricklePeriod
  /-- TRICKLE_WINDOW_WRITE (R391) -/
  | trickleWindowWrite (off : Nat) (data : List Byte)
  /-- BOOT_START (R407) -/
  | bootStart
  /-- BOOT_STEP_COMPLETE (R407) -/
  | bootStepComplete (ok : Bool) (mask : Nat) (fails : List Nat)
  /-- BOOT_STEP_TIMEOUT (R407) -/
  | bootStepTimeout
  /-- BOOT_BACKOFF_EXPIRY (R409) -/
  | bootBackoffExpiry
  /-- STILL_ASSERT (R432) -/
  | stillAssert
  /-- STILL_RELEASE (R438) -/
  | stillRelease
  /-- TRST (R434) -/
  | trst
  /-- EXTEST (R435) -/
  | extest (pins : Nat)
  /-- SAMPLE_PRELOAD (R435) -/
  | samplePreload (pins load : Nat)
  /-- IDCODE (R435) -/
  | idcode
  /-- CLAMP (R435) -/
  | clamp
  /-- HIGHZ (R435) -/
  | highz
  /-- BYPASS (R435) -/
  | bypass (tdi : Bool)
  /-- STILLSTAT (R435) -/
  | stillstat
  /-- MEMADDR (R435) -/
  | memaddr (v : W64)
  /-- MEMDATA (R436) -/
  | memdata
  /-- SCANSEL (R435) -/
  | scansel (v : Nat)
  /-- SCAN (R437) -/
  | scan (nbits : Nat)
  /-- PORT_ENABLE (R301) -/
  | portEnable (p : Nat)
  /-- PORT_DISABLE (R301) -/
  | portDisable (p : Nat)
  /-- RIL_TOPO_WRITE (R312) -/
  | rilTopoWrite (v : W32)
  /-- DOWN_RETRY (R301) -/
  | downRetry (p : Nat)
  /-- LANE_TRAINING_DONE (R299) -/
  | laneTrainingDone (p : Nat)
  /-- TRAIN_TIMEOUT (R301) -/
  | trainTimeout (p : Nat)
  /-- KEYX_TIMEOUT (R301) -/
  | keyxTimeout (p : Nat)
  /-- HELLO (R307) -/
  | hello (a : Arrival) (ident key nonce : Nat) (chainOk : Bool)
  /-- FINISH (R307) -/
  | finish (a : Arrival) (sigOk : Bool)
  /-- LANE_LOSS (R299) -/
  | laneLoss (p : Nat)
  /-- DATA_FRAME (R303) -/
  | dataFrame (p : Nat) (fr : Frame) (coded : Fec) (tagOk : Bool)
  /-- CTRL_FRAME (R306) -/
  | ctrlFrame (p : Nat) (fr : Frame) (coded : Fec) (tagOk : Bool)
  /-- ACK_TIMEOUT (R306) -/
  | ackTimeout (p : Nat)
  /-- IDLE_FRAME_TIMER (R301) -/
  | idleFrameTimer (p : Nat)
  /-- NO_FRAME_TIMEOUT (R301) -/
  | noFrameTimeout (p : Nat)
  /-- REKEY_THRESHOLD (R310) -/
  | rekeyThreshold (p : Nat)
  /-- REKEY_INIT (R310) -/
  | rekeyInit (a : Arrival) (key nonce : Nat) (sigOk : Bool)
  /-- REKEY_RESP (R310) -/
  | rekeyResp (a : Arrival) (key nonce : Nat) (sigOk : Bool)
  /-- REKEY_RETRY (R310) -/
  | rekeyRetry (p : Nat)
  /-- COUNTER_STOP (R311) -/
  | counterStop (p : Nat)
  /-- WAKE_BURST_TIMER (R319) -/
  | wakeBurstTimer (p : Nat)
  /-- JOIN (R323) -/
  | join (j : Join)
  /-- HB (R333) -/
  | hb (h : Heartbeat)
  /-- HB_CHECK (R333) -/
  | hbCheck
  /-- POST (R334) -/
  | postMsg (handle tag idx : Nat)
  /-- DIGEST (R338) -/
  | digestMsg (handle tag outlen code dig : Nat)
  /-- MAP (R330) -/
  | mapMsg (m : MapMsg)
  /-- RESYNC (R341) -/
  | resyncMsg (handle boundary bytes : Nat) (done : Bool)
  /-- FORWARD_RECORD (R331) -/
  | forwardRecord (i : Nat) (entry : List Byte) (idx arrCt : Nat) (data : List Byte)
  /-- DELTA_RECORD (R332) -/
  | deltaRecord (i tag : Nat) (writes : List (Nat × List Byte))
  /-- HOT_COVER_CHECK (R334) -/
  | hotCoverCheck (i : Nat)
  /-- MIRROR_APPLY (R341) -/
  | mirrorApply (i : Nat)
  /-- BUCKET_SEND (R285) -/
  | bucketSend (i k : Nat)
  /-- CHAIN_PARTIAL (R285) -/
  | chainPartial (i k : Nat) (data : List Byte) (mask : Nat)
  /-- FINAL_RESULT (R291) -/
  | finalResult (i k : Nat) (data : List Byte) (mask : Nat)
  /-- COMPRESSED_CONTRIBUTION (R286) -/
  | compressedContribution (i k rank : Nat) (data : List Byte)
  /-- KV_BLOCK (R282) -/
  | kvBlock (i chunk : Nat) (data : List Byte)
  /-- OPTOFF_CHECK (R292) -/
  | optoffCheck (i : Nat)
  /-- CHECKPOINT_START (R294) -/
  | checkpointStart (i : Nat)
  /-- CHECKPOINT_COMMIT (R295) -/
  | checkpointCommit (i : Nat)
  /-- CHECKPOINT_ABANDON (R294) -/
  | checkpointAbandon (i : Nat)
  /-- TWIN_STORE_DATA (R283) -/
  | twinStoreData (handle addr : Nat) (data : List Byte)
  /-- OFFLOAD_FETCH_FAILURE (R283) -/
  | offloadFetchFailure (i : Nat)
  /-- REFCLK_RETURN (R234) -/
  | refclkReturn
  /-- STACK_READY_LOSS (R354) -/
  | stackReadyLoss (n : Nat)
  /-- INGRESS_READ_FAILURE (R368) -/
  | ingressReadFailure (i : Nat)
  /-- COOLANT_INLET_HIGH (R448) -/
  | coolantInletHigh (t : Nat)
  /-- REFRESH_RATE_CHANGE (R220) -/
  | refreshRateChange (n t : Nat)
  /-- PCIE_LINK_L0 (R448) -/
  | pcieLinkL0
  deriving DecidableEq, Repr

end Sys2Proof
end

