-- ==== Sys2Proof/Decode.lean ====
section
/-! DEFINITION. The command a table word spells. spec/opcode_table.json gives no row any bits: each row's list of fields is
empty, so no word spells a command. -/

namespace Sys2Proof

/-- The rows of the table that give bits, each with its width, mask, pattern and command: there is none. -/
def tableRows : List (Nat × Nat × Nat × Instr) := []

/-- The command that the word `w` of `nbits` bits spells, by the rows that give bits. -/
def decodeTableWord (nbits w : Nat) : Option Instr :=
  (tableRows.find? (fun r => r.1 == nbits && Nat.land w r.2.1 == r.2.2.1)).map (fun r => r.2.2.2)

end Sys2Proof
end

