-- ==== Sys2Proof/Config.lean ====
section
/-! DEFINITION. What the spec leaves to an implementation or to the world, as constants without a body: nothing can be proved
of their values. Each is named in a row of notes/assumptions. -/

namespace Sys2Proof.Config

/-- A value the spec leaves open, by how many were drawn before it (notes/assumptions/4.md). -/
opaque freeValue : Nat → W64

/-- The device random source (R224, R276, R307, R430): 64-bit draw number `n`. -/
opaque random : Nat → W64

/-- The P-384 scalar that draw number `n` of the random source gives, for an ephemeral key or a signature (R307, R310). -/
opaque scalar : Nat → Nat

/-- The device key: the private scalar of this device's certificate (R307, R430). -/
opaque deviceKey : Nat

/-- This device's identity: SHA-384 of its certificate public key (R307). -/
opaque identity : Nat

/-- This device's certificate chain, DER (R307). -/
opaque certChain : List Byte

/-- Word `i` of the micro-program library that the firmware image carries (R199), which the spec lists by function only. -/
opaque libWord : Nat → W64

/-- What R199 leaves open of a library function's result: by the function's entry and its input (notes/assumptions/28.md). -/
opaque libPick : Nat → Nat → Nat

/-- How many draws the library function at an entry takes for an element under RM 0b10 (R192): its micro-ops are not printed. -/
opaque libDraws : Nat → Nat

/-- What CVT 0b0111 makes of an infinity, by the operand registers (R193): the spec states no result. -/
opaque fxOfInf : Nat → Nat → W32

/-- Byte `i` of the library's micro-table where R197 gives no rule: CONST and the gaps. -/
opaque libTable : Nat → Byte

/-- What lane register v`k` of a runnel holds when an operation starts (R187): the spec gives no value. R117 makes it one value for
every operation. -/
opaque laneInit : Nat → W32

/-- Whether the pass numbered `k` of two merged layer operations comes from the later one (R113): the order is unspecified. -/
opaque mergeLater : Nat → Bool

/-- How many reservoir bytes of a cancelled transfer had been acknowledged (R213): the spec gives no position. -/
opaque ackedBytes : Nat → Nat

/-- The SHA-384 of the Byndisil factory public key that the boot ROM holds (R406). -/
opaque factoryKey : Nat

/-- How the platform sized BAR2 of a function (R360): a step above the least size, see `barLog`. -/
opaque barStep : Nat → Nat

/-- PLANDIG of a stream's run records (R326): the spec names no digest function. -/
opaque planDigest : List Byte → W64

/-- The length in bits of the boundary register (R440), which the spec does not give. -/
opaque boundaryLen : Nat

/-- Where pixel `p` of thumbnail slot `t` is compared (R394): jet, row, column, and how many draws its row and column generators have
given before. The spec gives the generators and no placement. -/
opaque trickleLane : Nat → Nat → Nat × Nat × Nat × Nat × Nat

end Sys2Proof.Config
end

