-- ==== Sys2Proof/Machine/State.lean ====
section
/-! DEFINITION. The state of the block, its faults and refusals, and the state after reset. -/

namespace Sys2Proof.Machine

open Sys2Proof

/-- The device: everything but the queue of commands. -/
structure Dev where
  /-- the 272 basins, by physical number (R12); an unlisted one is as after reset -/
  (basins : Tab Basin := [])
  /-- cadence unit -/
  (cad : Cad := {})
  /-- stream table, by index (R250) -/
  (streams : Tab Stream := [])
  /-- plans registered with SLOT_PLAN (R465) -/
  (plans : List Plan := [])
  /-- domain table (R260) -/
  (domains : Tab Domain := [])
  /-- resident-model entries (R261) -/
  (models : Tab Model := [])
  /-- runnel library (R197) -/
  (lib : RunLib := {})
  /-- training contexts, by stream index (R277) -/
  (trains : Tab Train := [])
  /-- reservoir (R220) -/
  (rsv : Rsv := {})
  /-- what the module has written to host memory -/
  (hostMem : Mem := [])
  /-- what the module has put on its edge, oldest first -/
  (out : List Msg := [])
  /-- PCIe functions (R362) -/
  (funcs : Tab Func := [])
  /-- headworks (R380) -/
  (hw : Hw := {})
  /-- Fountainhead (R380) -/
  (fh : Fh := {})
  /-- rill ports 0 to 3 and the mirror link, 4 (R322) -/
  (ports : Tab Port := [])
  /-- rill registers outside the ports (R322) -/
  (link : Link := {})
  /-- Heninaward (R355) -/
  (pair : Pair := {})
  /-- spare map, epochs and quarantine (R343 to R357) -/
  (flt : Fault3 := {})
  /-- power management (R401) -/
  (pow : Power := {})
  /-- boot, update and life-cycle (R431) -/
  (boot : Boot := {})
  /-- freeze and test port (R444) -/
  (still : Still := {})
  /-- module pins and monitors (R460) -/
  (md : Mod := {})
  /-- areas reserved here for the twin's streams, by the twin's handle: reservoir address, pages per slot, owning domain (R283, R295) -/
  (areas : Tab (Nat × Nat × Nat) := [])
  /-- the model's own count of open values and random draws taken (notes/assumptions/4.md) -/
  (free : Nat := 0)
  deriving DecidableEq, Repr

/-- The state of the block: the device, and the commands that wait, first in, first out. -/
structure State where
  /-- commands waiting, the next one first -/
  pending : List Instr
  /-- the device -/
  dev : Dev
  deriving DecidableEq, Repr

/-- Faults. No command of the spec leaves the block without a next state, so only the access that plain data cannot answer is named. -/
inductive Fault where
  /-- Reserved for an access to an address the spec says does not exist. No command raises it: R201 and R223 give every such
  access an answer of its own. Safe. -/
  | noSuchAddress
  deriving DecidableEq, Repr

/-- Refusals. -/
inductive Refusal where
  /-- A command whose meaning is not written: raised only by an arm of `exec`. Safe. -/
  | notModelled (mnemonic : String)
  deriving DecidableEq, Repr

/-- The machine right after reset: every register at its reset column, the sequencer at AUX_ON (R401), memories empty, no
command waiting. -/
def State.reset : State := { pending := [], dev := {} }

/-- The device with another `basins`. -/
def Dev.setBasins (d : Dev) (x : Tab Basin) : Dev := { d with basins := x }
/-- The device with another `cad`. -/
def Dev.setCad (d : Dev) (x : Cad) : Dev := { d with cad := x }
/-- The device with another `streams`. -/
def Dev.setStreams (d : Dev) (x : Tab Stream) : Dev := { d with streams := x }
/-- The device with another `plans`. -/
def Dev.setPlans (d : Dev) (x : List Plan) : Dev := { d with plans := x }
/-- The device with another `domains`. -/
def Dev.setDomains (d : Dev) (x : Tab Domain) : Dev := { d with domains := x }
/-- The device with another `models`. -/
def Dev.setModels (d : Dev) (x : Tab Model) : Dev := { d with models := x }
/-- The device with another `lib`. -/
def Dev.setLib (d : Dev) (x : RunLib) : Dev := { d with lib := x }
/-- The device with another `trains`. -/
def Dev.setTrains (d : Dev) (x : Tab Train) : Dev := { d with trains := x }
/-- The device with another `rsv`. -/
def Dev.setRsv (d : Dev) (x : Rsv) : Dev := { d with rsv := x }
/-- The device with another `hostMem`. -/
def Dev.setHostMem (d : Dev) (x : Mem) : Dev := { d with hostMem := x }
/-- The device with another `out`. -/
def Dev.setOut (d : Dev) (x : List Msg) : Dev := { d with out := x }
/-- The device with another `funcs`. -/
def Dev.setFuncs (d : Dev) (x : Tab Func) : Dev := { d with funcs := x }
/-- The device with another `hw`. -/
def Dev.setHw (d : Dev) (x : Hw) : Dev := { d with hw := x }
/-- The device with another `fh`. -/
def Dev.setFh (d : Dev) (x : Fh) : Dev := { d with fh := x }
/-- The device with another `ports`. -/
def Dev.setPorts (d : Dev) (x : Tab Port) : Dev := { d with ports := x }
/-- The device with another `link`. -/
def Dev.setLink (d : Dev) (x : Link) : Dev := { d with link := x }
/-- The device with another `pair`. -/
def Dev.setPair (d : Dev) (x : Pair) : Dev := { d with pair := x }
/-- The device with another `flt`. -/
def Dev.setFlt (d : Dev) (x : Fault3) : Dev := { d with flt := x }
/-- The device with another `pow`. -/
def Dev.setPow (d : Dev) (x : Power) : Dev := { d with pow := x }
/-- The device with another `boot`. -/
def Dev.setBoot (d : Dev) (x : Boot) : Dev := { d with boot := x }
/-- The device with another `still`. -/
def Dev.setStill (d : Dev) (x : Still) : Dev := { d with still := x }
/-- The device with another `md`. -/
def Dev.setMd (d : Dev) (x : Mod) : Dev := { d with md := x }
/-- The device with another `areas`. -/
def Dev.setAreas (d : Dev) (x : Tab (Nat × Nat × Nat)) : Dev := { d with areas := x }
/-- The device with another `free`. -/
def Dev.setFree (d : Dev) (x : Nat) : Dev := { d with free := x }

end Sys2Proof.Machine
end

