-- ==== Sys2Proof/Machine/Fuses.lean ====
section
/-! DEFINITION. The fuse array, the life-cycle state, the configuration set in force, and what they make of the device key (R307, R425
to R429). -/

namespace Sys2Proof.Machine

open Sys2Proof

/-! ### Fuses (R426 to R429) -/

/-- How many of the low `w` bits are 1. -/
def onesIn (w n : Nat) : Nat := ((List.range w).filter (fun k => bitOf n k)).length

/-- A fuse word counts as burnt when at least 24 of its bits read 1 (R428). -/
def burnt (f : Mem) (o : Nat) : Bool := decide (24 ≤ onesIn 32 (Mem.readLe f o 4))

/-- The fuse controller burns a word by programming all 32 bits (R428). -/
def burn (f : Mem) (o : Nat) : Mem := Mem.writeLe f o 4 0xFFFFFFFF

/-- Life-cycle state: 0 BLANK, 1 PROVISIONED, 2 FIELDED, 3 RETIRED, the highest whose state word counts as burnt (R426, R428). -/
def lifeCycle (f : Mem) : Nat := if burnt f 0x14 then 3 else if burnt f 0x0C then 2 else if burnt f 0x04 then 1 else 0

/-- The security version of SVNTHERM (R427). -/
def fuseSvn (f : Mem) : Nat := let n := Mem.readLe f 0x20 16; if n = 0 then 0 else Nat.log2 n + 1

/-- IMGKEY slot k is revoked (R427). -/
def keyRevoked (f : Mem) (k : Nat) : Bool := burnt f (0x30 + 4 * k)

/-- Burn bits of a field: a fuse bit once 1 stays 1 (R427). -/
def burnBits (f : Mem) (o n v : Nat) : Mem := Mem.writeLe f o n (Nat.lor (Mem.readLe f o n) v)

/-- Burn the security version up to `v` (R423). -/
def burnSvn (f : Mem) (v : Nat) : Mem := if v ≤ fuseSvn f then f else burnBits f 0x20 16 (2 ^ v - 1)

/-- Burn the revocation words of the slots in a mask, but for one slot (R423). -/
def burnRevoke (f : Mem) (mask keep : Nat) : Mem :=
  ((List.range 4).filter (fun k => bitOf mask k && k != keep)).foldl (fun f k => burn f (0x30 + 4 * k)) f

/-- The words burnt after the intent word of state `x`, in order (R429). -/
def burnRest (f : Mem) (x : Nat) : Mem :=
  if x = 1 then burn f 0x04 else if x = 2 then burn (burn f 0x18) 0x0C else burn (burn f 0x1C) 0x14

/-- A transition to state `x` (R429). -/
def burnTo (f : Mem) (x : Nat) : Mem := burnRest (burn f (8 * (x - 1))) x

/-- B1 completes any transition whose intent word counts as burnt while its state word does not (R429). -/
def completeTransition (f : Mem) : Mem × Bool :=
  [1, 2, 3].foldl (fun p x => if burnt p.1 (8 * (x - 1)) && !burnt p.1 (8 * (x - 1) + 4) then (burnRest p.1 x, true) else p) (f, false)

/-- Debug access is removed (R426, R429, R440). -/
def Boot.dbgdis (b : Boot) : Bool := burnt b.fuses 0x18

/-! ### The configuration set and the device key (R307, R425, R426) -/

/-- The configuration set in force: the valid one with the larger SEQ (R425). -/
def Boot.config (b : Boot) : Option ConfigSet :=
  let s0 := b.sets.getD 0 {}
  let s1 := b.sets.getD 1 {}
  if s0.valid && (!s1.valid || decide (s1.seq ≤ s0.seq)) then some s0 else if s1.valid then some s1 else none

/-- The key store can sign with the device key and a certificate chain stands for it: the key is absent in BLANK and never read once
KEYKILL is burnt, and without a valid configuration set there is no chain (R425, R426, R429). -/
def Boot.keyReady (b : Boot) : Bool := lifeCycle b.fuses != 0 && !burnt b.fuses 0x1C && b.config.isSome

end Sys2Proof.Machine
end

