-- ==== Sys2Proof/Machine/Crypto.lean ====
section
/-! DEFINITION. The ciphers and signatures that the spec uses by name: AES-256, XTS (R224), GCM (R309), ECDH and ECDSA on P-384 (R307,
R308, R405). -/

namespace Sys2Proof.Machine

open Sys2Proof

/-! ### AES-256 -/

/-- Multiplication by x in the field of AES. -/
def aesDouble (x : Nat) : Nat := if x < 128 then 2 * x else Nat.xor (2 * x - 256) 0x1B

/-- A product in the field of AES. -/
def aesMul (a b : Nat) : Nat :=
  ((List.range 8).foldl (fun (s : Nat × Nat) j => (if bitOf b j then Nat.xor s.1 s.2 else s.1, aesDouble s.2)) (0, a)).1

/-- The inverse, x^254; 0 for 0. -/
def aesInv (x : Nat) : Nat :=
  ((List.range 7).foldl (fun (s : Nat × Nat) _ => let q := aesMul s.2 s.2; (aesMul s.1 q, q)) (1, x)).1

/-- The byte substitution. -/
def aesSub (x : Nat) : Nat :=
  let b := aesInv x
  let rot (k : Nat) : Nat := (b * 2 ^ k) % 256 + b / 2 ^ (8 - k)
  [rot 1, rot 2, rot 3, rot 4, 0x63].foldl Nat.xor b

/-- Byte-wise exclusive or. -/
def xorBytes (a b : List Nat) : List Nat := List.zipWith Nat.xor a b

/-- The key schedule, newest word first, grown by `n` words from word `i` on. -/
def aesGrow (n i : Nat) (w : List (List Nat)) : List (List Nat) :=
  match n with
  | 0 => w
  | k + 1 =>
    let t := w.getD 0 []
    let rcon := (List.range (i / 8 - 1)).foldl (fun x _ => aesDouble x) 1
    let t := if i % 8 = 0 then xorBytes ((t.drop 1 ++ t.take 1).map aesSub) [rcon, 0, 0, 0] else if i % 8 = 4 then t.map aesSub else t
    aesGrow k (i + 1) (xorBytes (w.getD 7 []) t :: w)

/-- The fifteen round keys of a 256-bit key, 16 bytes each. -/
def aesKeys (key : List Nat) : List (List Nat) :=
  blocks 15 16 (aesGrow 52 8 (blocks 8 4 key).reverse).reverse.flatten

/-- Rows shifted: byte r + 4c comes from column c + r. -/
def aesShift (s : List Nat) : List Nat := (List.range 16).map (fun i => s.getD (i % 4 + 4 * ((i / 4 + i % 4) % 4)) 0)

/-- Columns mixed. -/
def aesMix (s : List Nat) : List Nat :=
  (List.range 16).map (fun i =>
    let at' (k : Nat) : Nat := s.getD (i / 4 * 4 + (i + k) % 4) 0
    [aesMul (at' 1) 3, at' 2, at' 3].foldl Nat.xor (aesDouble (at' 0)))

/-- One block under AES-256. -/
def aesBlock (keys : List (List Nat)) (s : List Nat) : List Nat :=
  let s := xorBytes s (keys.getD 0 [])
  let s := ((keys.drop 1).take 13).foldl (fun s k => xorBytes (aesMix (aesShift (s.map aesSub))) k) s
  xorBytes (aesShift (s.map aesSub)) (keys.getD 14 [])

/-- Bytes as numbers, and back. -/
def natsOf (bs : List Byte) : List Nat := bs.map BitVec.toNat
def bytesOf (l : List Nat) : List Byte := l.map (BitVec.ofNat 8)

/-! ### XTS (IEEE 1619) -/

/-- Multiplication of a tweak by α. -/
def xtsDouble (t : Nat) : Nat := if t < 2 ^ 127 then 2 * t else Nat.xor (2 * t - 2 ^ 128) 0x87

/-- Block `j` of the data units under a tweak, and the rest. -/
def xtsBlocks (keys : List (List Nat)) (t : Nat) (bs : List (List Byte)) : List Byte :=
  match bs with
  | [] => []
  | b :: r =>
    let m := natsOf (leBytes 16 t)
    bytesOf (xorBytes (aesBlock keys (xorBytes (natsOf b) m)) m) ++ xtsBlocks keys (xtsDouble t) r

/-- A data unit of number `n` under a data key and a tweak key, 32 bytes each. -/
def xtsSeal (dataKey tweakKey : List Byte) (n : Nat) (unit : List Byte) : List Byte :=
  let t := leNat (bytesOf (aesBlock (aesKeys (natsOf tweakKey)) (natsOf (leBytes 16 n))))
  xtsBlocks (aesKeys (natsOf dataKey)) t (blocks (unit.length + 1) 16 unit)

/-! ### GCM (SP 800-38D) -/

/-- A product in the field of GHASH, the most significant bit first. -/
def ghashMul (x y : Nat) : Nat :=
  ((List.range 128).foldl (fun (s : Nat × Nat) i =>
    (if bitOf x (127 - i) then Nat.xor s.1 s.2 else s.1,
     if s.2 % 2 = 1 then Nat.xor (s.2 / 2) (0xE1 * 2 ^ 120) else s.2 / 2)) (0, y)).1

/-- Zeros that fill the last block. -/
def padBlock (bs : List Byte) : List Byte := bs ++ List.replicate ((16 - bs.length % 16) % 16) 0

/-- GHASH of whole blocks. -/
def ghash (h : Nat) (bs : List Byte) : Nat := (blocks (bs.length + 1) 16 bs).foldl (fun y b => ghashMul (Nat.xor y (beNat b)) h) 0

/-- Ciphertext and tag of a plaintext under a key, a 12-byte IV and additional data. -/
def gcmSeal (key iv aad pt : List Byte) : List Byte × List Byte :=
  let keys := aesKeys (natsOf key)
  let enc (n : Nat) : List Nat := aesBlock keys (natsOf (iv ++ beBytes 4 n))
  let ct := ((blocks (pt.length + 1) 16 pt).zipIdx).flatMap (fun p => bytesOf (xorBytes (natsOf p.1) (enc (p.2 + 2))))
  let h := beNat (bytesOf (aesBlock keys (List.replicate 16 0)))
  let s := ghash h (padBlock aad ++ padBlock ct ++ beBytes 8 (aad.length * 8) ++ beBytes 8 (ct.length * 8))
  (ct, bytesOf (xorBytes (enc 1) (natsOf (beBytes 16 s))))

/-! ### P-384 -/

/-- The prime of the field, the order of the base point, the curve's b, and the base point. -/
def p384 : Nat := 2 ^ 384 - 2 ^ 128 - 2 ^ 96 + 2 ^ 32 - 1
def p384Order : Nat :=
  0xFFFFFFFFFFFFFFFFFFFFFFFFFFFFFFFFFFFFFFFFFFFFFFFFC7634D81F4372DDF581A0DB248B0A77AECEC196ACCC52973
def p384Base : Nat × Nat :=
  (0xAA87CA22BE8B05378EB1C71EF320AD746E1D3B628BA79B9859F741E082542A385502F25DBF55296C3A545E3872760AB7,
   0x3617DE4A96262C6F5D9E98BF9292DC29F8F41DBD289A147CE9DA3113B5F0B8C00A60B1CE1D7E819D7A431D7C90EA0E5F)

/-- x^n modulo m, for n below 2^384. -/
def powMod (m x n : Nat) : Nat :=
  ((List.range 384).foldl (fun (s : Nat × Nat) j => (if bitOf n j then s.1 * s.2 % m else s.1, s.2 * s.2 % m)) (1, x % m)).1

/-- The inverse modulo a prime. -/
def invMod (m x : Nat) : Nat := powMod m x (m - 2)

/-- The sum of two points; none is the point at infinity. -/
def pointAdd (a b : Option (Nat × Nat)) : Option (Nat × Nat) :=
  match a, b with
  | none, q => q
  | q, none => q
  | some (x1, y1), some (x2, y2) =>
    if x1 = x2 ∧ (y1 + y2) % p384 = 0 then none
    else
      let l := if x1 = x2 then (3 * x1 * x1 + p384 - 3) * invMod p384 (2 * y1) % p384
        else (y2 + p384 - y1) * invMod p384 (x2 + p384 - x1) % p384
      let x3 := (l * l + 2 * p384 - x1 - x2) % p384
      some (x3, (l * (x1 + p384 - x3) + p384 - y1) % p384)

/-- A scalar multiple of a point. -/
def pointMul (k : Nat) (q : Option (Nat × Nat)) : Option (Nat × Nat) :=
  ((List.range 384).foldl (fun (s : Option (Nat × Nat) × Option (Nat × Nat)) j =>
    (if bitOf k j then pointAdd s.1 s.2 else s.1, pointAdd s.2 s.2)) (none, q)).1

/-- The coordinates of a point; 0, 0 at infinity. -/
def coords (q : Option (Nat × Nat)) : Nat × Nat := q.getD (0, 0)

/-- The public key of a private scalar, uncompressed: 97 bytes, 04 then x then y, as a number. -/
def publicKey (d : Nat) : Nat :=
  let q := coords (pointMul d (some p384Base))
  0x04 * 2 ^ 768 + q.1 * 2 ^ 384 + q.2

/-- The x-coordinate of the shared secret of a private scalar and a partner's uncompressed public key. -/
def ecdh (d key : Nat) : Nat := (coords (pointMul d (some (key / 2 ^ 384 % 2 ^ 384, key % 2 ^ 384)))).1

/-- An ECDSA signature under private key `d` with the scalar `k` drawn for it: r then s, 48 bytes each, big-endian. -/
def ecdsaSign (d k : Nat) (msg : List Byte) : List Byte :=
  let r := (coords (pointMul k (some p384Base))).1 % p384Order
  let s := invMod p384Order k * (beNat (sha384 msg) + r * d) % p384Order
  beBytes 48 r ++ beBytes 48 s

/-- A signature verifies under an uncompressed public key. -/
def ecdsaVerify (key : Nat) (msg sig : List Byte) : Bool :=
  let r := beNat (sig.take 48)
  let s := beNat ((sig.drop 48).take 48)
  let w := invMod p384Order s
  let q := pointAdd (pointMul (beNat (sha384 msg) * w % p384Order) (some p384Base))
    (pointMul (r * w % p384Order) (some (key / 2 ^ 384 % 2 ^ 384, key % 2 ^ 384)))
  sig.length == 96 && decide (0 < r) && decide (r < p384Order) && decide (0 < s) && decide (s < p384Order)
    && (match q with | some x => x.1 % p384Order == r | none => false)

end Sys2Proof.Machine
end

