-- ==== Sys2Proof/Machine/Num.lean ====
section
/-! DEFINITION. Exact magnitudes and their comparison with powers of two, for the roundings of chapters 02 and 03. A magnitude
is a rational times a power of two, or a root 2^(k/q) with q a power of two. Roots are taken by nested integer square roots, so
every comparison with a code boundary and the draw threshold of R59 are exact; only the draw threshold of R57 between two
irrational codes uses a fixed number of fraction bits (notes/assumptions/12.md). -/

namespace Sys2Proof.Machine

open Sys2Proof

/-- One Newton step toward the integer square root, `fuel` times. -/
def isqrtLoop (n : Nat) (fuel g : Nat) : Nat :=
  match fuel with
  | 0 => g
  | k + 1 => let h := (g + n / g) / 2; if h < g then isqrtLoop n k h else g

/-- The integer square root. -/
def isqrt (n : Nat) : Nat := if n = 0 then 0 else isqrtLoop n (Nat.log2 n + 2) (2 ^ (Nat.log2 n / 2 + 1))

/-- The integer root of order 2^k, by k nested square roots. -/
def iroot (k n : Nat) : Nat :=
  match k with
  | 0 => n
  | j + 1 => iroot j (isqrt n)

/-- A positive magnitude. -/
inductive Mag where
  /-- n / d × 2^e, with n and d above 0 -/
  | rat (n d : Nat) (e : Int)
  /-- 2^(k / q), with q a power of two -/
  | root (q : Nat) (k : Int)
  deriving DecidableEq, Repr

/-- ⌊x × 2^j⌋, and whether it lies below the exact value. -/
def Mag.scaled (x : Mag) (j : Int) : Nat × Bool :=
  match x with
  | .rat n d e =>
    let s := e + j
    if 0 ≤ s then (n * 2 ^ s.toNat / d, n * 2 ^ s.toNat % d != 0)
    else (n / (d * 2 ^ (-s).toNat), n % (d * 2 ^ (-s).toNat) != 0)
  | .root q k =>
    let t := k + q * j
    if t < 0 then (0, true) else (iroot (Nat.log2 q) (2 ^ t.toNat), t % q != 0)

/-- ⌊q × log2 x⌋, exactly. -/
def Mag.floorLog (x : Mag) (q : Nat) : Int :=
  match x with
  | .rat n d e =>
    let a := n ^ q
    let b := d ^ q
    let c : Int := (Nat.log2 a : Int) - (Nat.log2 b : Int)
    let ok := if 0 ≤ c then decide (b * 2 ^ c.toNat ≤ a) else decide (b ≤ a * 2 ^ (-c).toNat)
    (if ok then c else c - 1) + q * e
  | .root p k => (k * q) / p

/-- x is exactly 2^(k / q). -/
def Mag.isRoot (x : Mag) (q : Nat) (k : Int) : Bool :=
  match x with
  | .rat n d e =>
    let t := k - q * e
    if 0 ≤ t then n ^ q == d ^ q * 2 ^ t.toNat else n ^ q * 2 ^ (-t).toNat == d ^ q
  | .root p j => j * q == k * p

/-- x times 2^j. -/
def Mag.shift (x : Mag) (j : Int) : Mag :=
  match x with
  | .rat n d e => .rat n d (e + j)
  | .root q k => .root q (k + q * j)

/-- Fraction bits kept where a threshold lies between two irrational codes. -/
def fracBits : Nat := 256

/-- ⌊2^24 × (x − lo) / (hi − lo)⌋ for lo = 2^(k/q) and hi = 2^((k+1)/q) (R57). -/
def Mag.between (x : Mag) (q : Nat) (k : Int) : Nat :=
  let n : Int := k / q
  let j : Int := fracBits - n
  let lo := ((Mag.root q k).scaled j).1
  let hi := ((Mag.root q (k + 1)).scaled j).1
  if hi ≤ lo then 0 else 2 ^ 24 * ((x.scaled j).1 - lo) / (hi - lo)

/-- ⌊2^24 × x / 2^(k/q)⌋, exactly (R59): the quotient of two roots is a root, and a rational is compared through its q-th power. -/
def Mag.over (x : Mag) (q : Nat) (k : Int) : Nat :=
  match x with
  | .root p j => ((Mag.root (max p q) (j * (max p q / p : Nat) - k * (max p q / q : Nat))).scaled 24).1
  | .rat n d e =>
    let t := q * (24 + e) - k
    iroot (Nat.log2 q) (if 0 ≤ t then n ^ q * 2 ^ t.toNat / d ^ q else n ^ q / (d ^ q * 2 ^ (-t).toNat))

/-- An element's value: NaN, an infinity, a zero, or a signed magnitude. -/
inductive Num where
  | nan
  | inf (neg : Bool)
  | zero (neg : Bool)
  | fin (neg : Bool) (x : Mag)
  deriving DecidableEq, Repr

/-- The value with its sign changed. -/
def Num.flip (v : Num) (b : Bool) : Num :=
  match v with
  | .nan => .nan
  | .inf s => .inf (s != b)
  | .zero s => .zero (s != b)
  | .fin s x => .fin (s != b) x

/-- The value times 2^j. -/
def Num.shift (v : Num) (j : Int) : Num :=
  match v with
  | .fin s x => .fin s (x.shift j)
  | _ => v

/-- The round direction of a linear result. -/
inductive Dir where
  /-- to nearest, ties away from zero (RM 0b00, loupe 0b001) -/
  | away
  /-- toward zero -/
  | trunc
  /-- stochastic, with a 24-bit draw (R57) -/
  | draw (r : Nat)
  /-- to nearest, ties to even -/
  | even
  /-- toward plus infinity, toward minus infinity -/
  | up | down
  deriving DecidableEq, Repr

/-- x rounded to a multiple of 2^lsb: the multiple, and whether it differs from x. -/
def roundAt (x : Mag) (lsb : Int) (neg : Bool) (d : Dir) : Nat × Bool :=
  let f := x.scaled (-lsb)
  let h := x.scaled (1 - lsb)
  let half := h.1 % 2 == 1
  let up : Bool := match d with
    | .away => half
    | .trunc => false
    | .draw r => decide (r < (x.scaled (24 - lsb)).1 - f.1 * 2 ^ 24)
    | .even => half && (h.2 || f.1 % 2 == 1)
    | .up => f.2 && !neg
    | .down => f.2 && neg
  (if up then f.1 + 1 else f.1, f.2)

/-- A binary floating-point layout: exponent and fraction widths. -/
structure Fmt where
  ew : Nat
  mw : Nat
  deriving DecidableEq, Repr

/-- A32 and binary32, A16, binary64 (R51). -/
def f32 : Fmt := ⟨8, 23⟩
def f16 : Fmt := ⟨5, 10⟩
def f64 : Fmt := ⟨11, 52⟩

/-- The weight of the last place of a subnormal, as an exponent of two. -/
def Fmt.lsbMin (f : Fmt) : Int := 2 - (2 : Int) ^ (f.ew - 1) - f.mw

/-- The exponent of the smallest normal number. -/
def Fmt.eMin (f : Fmt) : Int := 2 - (2 : Int) ^ (f.ew - 1)

/-- The bit patterns of plus infinity, the largest finite number, the NaN that is written, and the sign bit's weight. -/
def Fmt.inf (f : Fmt) : Nat := (2 ^ f.ew - 1) * 2 ^ f.mw
def Fmt.top (f : Fmt) : Nat := f.inf - 1
def Fmt.nan (f : Fmt) : Nat := f.inf + 2 ^ (f.mw - 1)
def Fmt.sign (f : Fmt) : Nat := 2 ^ (f.ew + f.mw)

/-- A pattern's value, and whether it is a subnormal. -/
def Fmt.read (f : Fmt) (p : Nat) : Num :=
  let s := decide (f.sign ≤ p % (2 * f.sign))
  let a := p % f.sign
  if f.inf < a then .nan else if a = f.inf then .inf s else if a = 0 then .zero s
  else if a < 2 ^ f.mw then .fin s (.rat a 1 f.lsbMin)
  else .fin s (.rat (2 ^ f.mw + a % 2 ^ f.mw) 1 (f.lsbMin + (a / 2 ^ f.mw : Nat) - 1))

/-- The pattern is a subnormal; a signalling NaN. -/
def Fmt.isSub (f : Fmt) (p : Nat) : Bool := decide (p % f.sign < 2 ^ f.mw) && decide (p % f.sign ≠ 0)
def Fmt.isSnan (f : Fmt) (p : Nat) : Bool := decide (f.inf < p % f.sign) && !bitOf p (f.mw - 1)
def Fmt.isNan (f : Fmt) (p : Nat) : Bool := decide (f.inf < p % f.sign)

/-- The magnitude pattern x rounds to, before any overflow, whether it differs, and whether x lies below the normal range. -/
def Fmt.round (f : Fmt) (x : Mag) (neg : Bool) (d : Dir) : Nat × Bool × Bool :=
  let e := x.floorLog 1
  let lsb := max (e - f.mw) f.lsbMin
  let r := roundAt x lsb neg d
  ((lsb - f.lsbMin).toNat * 2 ^ f.mw + r.1, r.2, decide (e < f.eMin))

/-- The exact sum of two signed dyadic magnitudes; a zero sum is +0. Roots do not occur here. -/
def addExact (s : Bool) (x : Mag) (t : Bool) (y : Mag) : Num :=
  match x, y with
  | .rat n _ e, .rat m _ g =>
    let l := min e g
    let a : Int := (n * 2 ^ (e - l).toNat : Nat)
    let b : Int := (m * 2 ^ (g - l).toNat : Nat)
    let v := (if s then -a else a) + (if t then -b else b)
    if v = 0 then .zero false else .fin (decide (v < 0)) (.rat v.natAbs 1 l)
  | _, _ => .zero false

/-- The exact product and quotient of two rational magnitudes. -/
def mulExact (x y : Mag) : Mag :=
  match x, y with
  | .rat n d e, .rat m c g => .rat (n * m) (d * c) (e + g)
  | _, _ => x
def divExact (x y : Mag) : Mag :=
  match x, y with
  | .rat n d e, .rat m c g => .rat (n * c) (d * m) (e - g)
  | _, _ => x

/-- x is at most y, both rational. -/
def leExact (x y : Mag) : Bool :=
  match x, y with
  | .rat n d e, .rat m c g =>
    let l := min e g
    decide (n * c * 2 ^ (e - l).toNat ≤ m * d * 2 ^ (g - l).toNat)
  | _, _ => true

end Sys2Proof.Machine
end

