-- ==== Sys2Proof/Machine/Gauss.lean ====
section
/-! DEFINITION. The Gaussian-logarithm tables of R75 and the log-domain addition of R74 and R189. The tables hold the magnitude
of each entry in units of 2^-14 octave; the entries of SDF, SDM and SDC are negative. -/

namespace Sys2Proof.Machine

open Sys2Proof

/-- SB[i] = log2(1 + 2^(-i/16)) (R75) -/
def tabSB : List Nat :=
  [16384, 15878, 15382, 14898, 14425, 13962, 13511, 13071, 12641, 12222, 11814, 11417, 11030, 10653, 10287, 9930, 9584, 9248, 8921, 8604, 8296, 7997, 7708, 7428]
  ++   [7156, 6893, 6638, 6391, 6152, 5922, 5699, 5483, 5274, 5073, 4879, 4691, 4510, 4335, 4167, 4004, 3848, 3697, 3551, 3411, 3276, 3146, 3021, 2900]
  ++   [2784, 2672, 2565, 2462, 2362, 2267, 2175, 2087, 2002, 1920, 1842, 1767, 1695, 1625, 1559, 1494, 1433, 1374, 1317, 1263, 1211, 1161, 1113, 1066]
  ++   [1022, 980, 939, 900, 862, 827, 792, 759, 727, 697, 668, 640, 613, 587, 563, 539, 517, 495, 474, 454, 435, 417, 399, 383]
  ++   [366, 351, 336, 322, 309, 296, 283, 271, 260, 249, 238, 228, 219, 209, 201, 192, 184, 176, 169, 162, 155, 148, 142, 136]
  ++   [130, 125, 119, 114, 110, 105, 100, 96, 92, 88, 85, 81, 78, 74, 71, 68, 65, 62, 60, 57, 55, 53, 50, 48]
  ++   [46, 44, 42, 41, 39, 37, 36, 34, 33, 31, 30, 29, 27, 26, 25, 24, 23, 22, 21, 20, 19, 19, 18, 17]
  ++   [16, 16, 15, 14, 14, 13, 13, 12, 12, 11, 11, 10, 10, 9, 9, 9, 8, 8, 7, 7, 7, 7, 6, 6]
  ++   [6, 6, 5, 5, 5, 5, 4, 4, 4, 4, 4, 4, 3, 3, 3, 3, 3, 3, 3, 3, 2, 2, 2, 2]
  ++   [2, 2, 2, 2, 2, 2, 2, 2, 1, 1, 1, 1, 1, 1, 1, 1, 1, 1, 1, 1, 1, 1, 1, 1]
  ++   [1, 1, 1, 1, 1, 1, 1, 1, 1, 0, 0, 0, 0, 0, 0, 0, 0, 0, 0, 0, 0, 0, 0, 0]
  ++   [0, 0, 0, 0, 0, 0, 0, 0, 0, 0, 0, 0, 0, 0, 0, 0, 0, 0, 0, 0, 0, 0, 0, 0]
  ++   [0, 0, 0, 0, 0, 0, 0, 0, 0, 0, 0, 0, 0, 0, 0, 0, 0, 0, 0, 0, 0, 0, 0, 0]
  ++   [0, 0, 0, 0, 0, 0, 0, 0, 0, 0, 0, 0, 0, 0, 0, 0, 0, 0, 0, 0, 0, 0, 0, 0]
  ++   [0, 0, 0, 0, 0, 0, 0, 0, 0, 0, 0, 0, 0, 0, 0, 0, 0, 0, 0, 0, 0, 0, 0, 0]
  ++   [0, 0, 0, 0, 0, 0, 0, 0, 0, 0, 0, 0, 0, 0, 0, 0, 0, 0, 0, 0, 0, 0, 0, 0]

/-- -SDF[j] = -log2(1 - 2^(-j/1024)), SDF[0] unused (R75) -/
def tabSDF : List Nat :=
  [0, 172511, 156135, 146559, 139767, 134501, 130199, 126564, 123415, 120639, 118157, 115912, 113863, 111979, 110236, 108613, 107095, 105670, 104327, 103057, 101853, 100707, 99616, 98573]
  ++   [97575, 96618, 95699, 94815, 93963, 93142, 92348, 91581, 90839, 90119, 89422, 88745, 88087, 87447, 86825, 86219, 85628, 85052, 84491, 83943, 83407, 82884, 82372, 81872]
  ++   [81382, 80903, 80433, 79973, 79522, 79080, 78646, 78220, 77802, 77392, 76989, 76593, 76203, 75820, 75444, 75074]

/-- -SDM[k] = -log2(1 - 2^(-(k+8)/128)) (R75) -/
def tabSDM : List Nat :=
  [74709, 71989, 69562, 67372, 65379, 63550, 61862, 60294, 58832, 57462, 56174, 54959, 53809, 52719, 51682, 50694, 49751, 48848, 47984, 47154, 46357, 45590, 44851, 44138]
  ++   [43450, 42785, 42141, 41518, 40914, 40328, 39760, 39207, 38671, 38149, 37641, 37146, 36664, 36194, 35736, 35289, 34853, 34427, 34010, 33603, 33205, 32816, 32435, 32062]
  ++   [31697, 31339, 30989, 30646, 30309, 29979, 29655, 29337, 29025, 28719, 28418, 28123, 27833, 27548, 27268, 26992, 26722, 26456, 26194, 25936, 25683, 25433, 25188, 24946]
  ++   [24708, 24474, 24243, 24016, 23792, 23572, 23354, 23140, 22929, 22721, 22515, 22313, 22113, 21916, 21722, 21531, 21342, 21155, 20971, 20790, 20610, 20433, 20259, 20086]
  ++   [19916, 19748, 19581, 19417, 19255, 19095, 18937, 18781, 18626, 18474, 18323, 18174, 18027, 17881, 17737, 17595, 17454, 17315, 17178, 17042, 16907, 16774, 16643, 16513]

/-- -SDC[k] = -log2(1 - 2^(-(k+16)/16)) (R75) -/
def tabSDC : List Nat :=
  [16384, 15403, 14499, 13666, 12894, 12178, 11512, 10891, 10312, 9770, 9263, 8787, 8340, 7920, 7524, 7151, 6800, 6468, 6155, 5859, 5579, 5313, 5062, 4824]
  ++   [4598, 4384, 4181, 3987, 3804, 3630, 3464, 3306, 3156, 3014, 2878, 2748, 2625, 2508, 2396, 2289, 2187, 2090, 1998, 1910, 1826, 1745, 1669, 1595]
  ++   [1526, 1459, 1395, 1334, 1276, 1221, 1168, 1117, 1068, 1022, 978, 936, 895, 857, 820, 784, 750, 718, 687, 658, 629, 602, 577, 552]
  ++   [528, 506, 484, 463, 443, 424, 406, 389, 372, 356, 341, 327, 313, 299, 287, 274, 263, 251, 241, 230, 221, 211, 202, 194]
  ++   [185, 178, 170, 163, 156, 149, 143, 137, 131, 125, 120, 115, 110, 105, 101, 97, 93, 89, 85, 81, 78, 74, 71, 68]
  ++   [65, 63, 60, 57, 55, 53, 50, 48, 46, 44, 42, 41, 39, 37, 36, 34, 33, 31, 30, 29, 27, 26, 25, 24]
  ++   [23, 22, 21, 20, 19, 19, 18, 17, 16, 16, 15, 14, 14, 13, 13, 12, 12, 11, 11, 10, 10, 9, 9, 9]
  ++   [8, 8, 7, 7, 7, 7, 6, 6, 6, 6, 5, 5, 5, 5, 4, 4, 4, 4, 4, 4, 3, 3, 3, 3]
  ++   [3, 3, 3, 3, 2, 2, 2, 2, 2, 2, 2, 2, 2, 2, 2, 2, 1, 1, 1, 1, 1, 1, 1, 1]
  ++   [1, 1, 1, 1, 1, 1, 1, 1, 1, 1, 1, 1, 1, 1, 1, 1, 1, 0, 0, 0, 0, 0, 0, 0]
  ++   [0, 0, 0, 0, 0, 0, 0, 0, 0, 0, 0, 0, 0, 0, 0, 0, 0, 0, 0, 0, 0, 0, 0, 0]
  ++   [0, 0, 0, 0, 0, 0, 0, 0, 0, 0, 0, 0, 0, 0, 0, 0, 0, 0, 0, 0, 0, 0, 0, 0]
  ++   [0, 0, 0, 0, 0, 0, 0, 0, 0, 0, 0, 0, 0, 0, 0, 0, 0, 0, 0, 0, 0, 0, 0, 0]
  ++   [0, 0, 0, 0, 0, 0, 0, 0, 0, 0, 0, 0, 0, 0, 0, 0, 0, 0, 0, 0, 0, 0, 0, 0]
  ++   [0, 0, 0, 0, 0, 0, 0, 0, 0, 0, 0, 0, 0, 0, 0, 0, 0, 0, 0, 0, 0, 0, 0, 0]
  ++   [0, 0, 0, 0, 0, 0, 0, 0]

/-- SB[i]; SB[384] reads as 0. -/
def sbAt (i : Nat) : Int := (tabSB.getD i 0 : Nat)
def sdfAt (j : Nat) : Int := -(tabSDF.getD j 0 : Nat)
/-- SDC[k]; SDC[368] reads as 0. -/
def sdcAt (k : Nat) : Int := -(tabSDC.getD k 0 : Nat)
/-- SDM[k]; SDM[120] reads as SDC[0]. -/
def sdmAt (k : Nat) : Int := if k < 120 then -(tabSDM.getD k 0 : Nat) else sdcAt 0

/-- g / 1024 rounded to an integer, ties away from zero. -/
def roundAway (g : Int) : Int := if 0 ≤ g then (g + 512) / 1024 else -((-g + 512) / 1024)

/-- The log-domain sum of two finite non-zero values with fields in units of 1/128 octave (R74): none is an exact zero;
otherwise sign, field, and whether it is inexact. -/
def logSum (sa : Bool) (ea : Int) (sb : Bool) (eb : Int) : Option (Bool × Int × Bool) :=
  let fst := decide (eb ≤ ea)
  let s := if fst then sa else sb
  let e := if fst then ea else eb
  let D := (if fst then ea - eb else eb - ea).toNat
  let i := D / 8
  let t : Int := (D % 8 : Nat)
  if sa == sb then
    let g := if 3072 ≤ D then 0 else 8 * sbAt i + t * (sbAt (i + 1) - sbAt i)
    some (s, e + roundAway g, D != 0)
  else if D = 0 then none
  else
    let g := if D < 8 then 8 * sdfAt (8 * D) else if D < 128 then 8 * sdmAt (D - 8) else if 3072 ≤ D then 0
      else 8 * sdcAt (i - 16) + t * (sdcAt (i - 15) - sdcAt (i - 16))
    some (s, e + roundAway g, true)

/-- The same with three guard bits, in units of 1/1024 octave (R189). -/
def guardSum (sa : Bool) (ea : Int) (sb : Bool) (eb : Int) : Option (Bool × Int × Bool) :=
  let fst := decide (eb ≤ ea)
  let s := if fst then sa else sb
  let e := if fst then ea else eb
  let D := (if fst then ea - eb else eb - ea).toNat
  let i := D / 64
  let t : Int := (D % 64 : Nat)
  if sa == sb then
    let g := if 24576 ≤ D then 0 else 64 * sbAt i + t * (sbAt (i + 1) - sbAt i)
    some (s, e + roundAway g, D != 0)
  else if D = 0 then none
  else
    let g := if D < 64 then 64 * sdfAt D
      else if D < 1024 then 64 * sdmAt (D / 8 - 8) + 8 * (D % 8 : Nat) * (sdmAt (D / 8 - 7) - sdmAt (D / 8 - 8))
      else if 24576 ≤ D then 0
      else 64 * sdcAt (i - 16) + t * (sdcAt (i - 15) - sdcAt (i - 16))
    some (s, e + roundAway g, true)

end Sys2Proof.Machine
end

