-- ==== Sys2Proof/Machine/Flags.lean ====
section
/-! DEFINITION. Numeric flags (R81) and every rounding that sets them: into log formats (R57, R59), into accumulator formats (R52,
R66, R71), into IEEE formats by the prism (R58, R62) and by the loupe (R85 to R87), and log-domain addition (R74, R189). -/

namespace Sys2Proof.Machine

open Sys2Proof

/-- Flag bits of R81. -/
def flOVF : W32 := 1
def flUNF : W32 := 2
def flINX : W32 := 4
def flINV : W32 := 8
def flFLUSH : W32 := 16
def flSAT : W32 := 32
def flVANISH : W32 := 64
def flDZ : W32 := 128

/-- A pattern with the flags its forming raises. -/
abbrev Flagged := Nat × W32

/-- The rounding direction of an RM field with a draw: 0b11 rounds as 0b00 (R56). -/
def rmDir (rm r : Nat) : Dir := if rm = 1 then .trunc else if rm = 2 then .draw r else .away

/-- INV for the reserved RM 0b11 (R56), and for an EM that does not exist (R72). -/
def rmFlag (rm : Nat) : W32 := if rm = 3 then flINV else 0

/-- A zero that fell below a range: flushed or kept (R59, R65, R74). -/
def lowFlags (keep : Bool) : W32 := if keep then flUNF ||| flINX else flFLUSH ||| flUNF

/-! ### Log formats -/

/-- A log format with infinities: steps per octave, bias, largest finite field, weight of the sign. -/
structure LogFmt where
  q : Nat
  bias : Nat
  top : Nat
  sign : Nat
  deriving DecidableEq, Repr

/-- L16 (R38) and the runnel's LG (R188). -/
def l16 : LogFmt := ⟨128, 16256, 32766, 2 ^ 15⟩
def lgf : LogFmt := ⟨1024, 130048, 262142, 2 ^ 18⟩

/-- A code from sign and field. -/
def LogFmt.code (f : LogFmt) (neg : Bool) (e : Nat) : Nat := if neg then f.sign + e else e

/-- The value of a code (R38, R39, R188). -/
def LogFmt.read (f : LogFmt) (p : Nat) : Num :=
  let s := p / f.sign % 2 == 1
  let e := p % f.sign
  if e = 0 then (if s then .nan else .zero false) else if e = f.top + 1 then .inf s else .fin s (.root f.q ((e : Int) - f.bias))

/-- A value times 2^(sh / q) into a log format (R57, R59): code boundaries move with the factor, so one rounding is exact. -/
def LogFmt.roundBy (f : LogFmt) (keep : Bool) (d : Dir) (v : Num) (sh : Int) : Flagged :=
  match v with
  | .nan => (f.sign, 0)
  | .inf s => (f.code s (f.top + 1), 0)
  | .zero _ => (0, 0)
  | .fin s x =>
    let k := x.floorLog f.q + sh
    let k2 := x.floorLog (2 * f.q) + 2 * sh
    let lo : Int := 1 - (f.bias : Int)
    let hi : Int := (f.top : Int) - f.bias
    if k < lo then
      if !keep then (0, flFLUSH ||| flUNF)
      else
        let up : Bool := match d with
          | .trunc => false
          | .draw r => decide (r < x.over f.q (lo - sh))
          | _ => decide (2 * lo - 1 ≤ k2)
        (if up then f.code s 1 else 0, flUNF ||| flINX)
    else if x.isRoot f.q (k - sh) && decide (k ≤ hi) then (f.code s (k + f.bias).toNat, 0)
    else if k < hi then
      let up : Bool := match d with
        | .trunc => false
        | .draw r => decide (r < x.between f.q (k - sh))
        | _ => k2 % 2 == 1
      (f.code s ((if up then k + 1 else k) + f.bias).toNat, flINX)
    else
      match d with
      | .trunc => (f.code s f.top, if k = hi then flINX else flOVF ||| flINX)
      | _ => if 2 * hi + 1 ≤ k2 then (f.code s (f.top + 1), flOVF ||| flINX) else (f.code s f.top, flINX)

/-- A value into a log format (R57, R59). -/
def LogFmt.round (f : LogFmt) (keep : Bool) (d : Dir) (v : Num) : Flagged := f.roundBy keep d v 0

/-- The range check of a log-domain result: past the ends it is ±∞ or zero (R65, R74, R189). -/
def LogFmt.clip (f : LogFmt) (keep : Bool) (s : Bool) (e : Int) (fl : W32) : Flagged :=
  if (f.top : Int) < e then (f.code s (f.top + 1), flOVF ||| flINX)
  else if e < 1 then (0, lowFlags keep)
  else (f.code s e.toNat, fl)

/-- Log-domain addition of two codes (R74, R189). -/
def LogFmt.add (f : LogFmt) (keep : Bool) (a b : Nat) : Flagged :=
  let sa := a / f.sign % 2 == 1
  let sb := b / f.sign % 2 == 1
  let ea := a % f.sign
  let eb := b % f.sign
  if (ea = 0 ∧ sa) ∨ (eb = 0 ∧ sb) then (f.sign, 0)
  else if ea = f.top + 1 ∧ eb = f.top + 1 then (if sa == sb then (a, 0) else (f.sign, flINV))
  else if ea = f.top + 1 ∨ eb = 0 then (a, 0)
  else if eb = f.top + 1 ∨ ea = 0 then (b, 0)
  else match (if f.q = 128 then logSum sa ea sb eb else guardSum sa ea sb eb) with
    | none => (0, 0)
    | some (s, e, inx) => f.clip keep s e (if inx then flINX else 0)

/-- A code with its sign inverted; zero and NaN stay (R39). -/
def LogFmt.neg (f : LogFmt) (a : Nat) : Nat := if a % f.sign = 0 then a else if a / f.sign % 2 = 1 then a - f.sign else a + f.sign

/-- The product of two codes: fields add, signs XOR, range checked as R65. -/
def LogFmt.mul (f : LogFmt) (keep : Bool) (a b : Nat) : Flagged :=
  let s := (a / f.sign % 2 == 1) != (b / f.sign % 2 == 1)
  let ea := a % f.sign
  let eb := b % f.sign
  if a = f.sign ∨ b = f.sign then (f.sign, 0)
  else if ea = f.top + 1 ∨ eb = f.top + 1 then (if ea = 0 ∨ eb = 0 then (f.sign, flINV) else (f.code s (f.top + 1), 0))
  else if ea = 0 ∨ eb = 0 then (0, 0)
  else f.clip keep s ((ea : Int) + eb - f.bias) 0

/-- The quotient (R192 LDIV): x / 0 is ∞, x / ∞ is 0; 0 / 0 and ∞ / ∞ are NaN with INV. -/
def LogFmt.div (f : LogFmt) (keep : Bool) (a b : Nat) : Flagged :=
  let s := (a / f.sign % 2 == 1) != (b / f.sign % 2 == 1)
  let ea := a % f.sign
  let eb := b % f.sign
  if a = f.sign ∨ b = f.sign then (f.sign, 0)
  else if (ea = 0 ∧ eb = 0) ∨ (ea = f.top + 1 ∧ eb = f.top + 1) then (f.sign, flINV)
  else if ea = f.top + 1 ∨ eb = 0 then (f.code s (f.top + 1), 0)
  else if ea = 0 ∨ eb = f.top + 1 then (0, 0)
  else f.clip keep s ((ea : Int) - eb + f.bias) 0

/-! ### Linear formats -/

/-- A pattern with its sign; a zero is +0 (R52). -/
def Fmt.signed (f : Fmt) (s : Bool) (p : Nat) : Nat := if p = 0 then 0 else if s then f.sign + p else p

/-- A value into an accumulator format (R52, R66, R71): saturates with SAT only; subnormals follow SUBN. -/
def Fmt.acc (f : Fmt) (keep : Bool) (d : Dir) (v : Num) : Flagged :=
  match v with
  | .nan => (f.nan, 0)
  | .inf s => (f.signed s f.inf, 0)
  | .zero _ => (0, 0)
  | .fin s x =>
    let r := f.round x s d
    if f.inf ≤ r.1 then (f.signed s f.top, flSAT)
    else if r.2.2 then (if keep then (f.signed s r.1, if r.2.1 then flUNF ||| flINX else 0) else (0, flFLUSH ||| flUNF))
    else (f.signed s r.1, if r.2.1 then flINX else 0)

/-- A value into binary32 or binary64 by the prism (R58, R62): overflow gives ±∞, or the largest value toward zero. A non-zero value
that rounds to zero keeps its sign, as IEEE 754 rounds it; a flushed one is +0 (DEDUCED, notes/assumptions/93.md). -/
def Fmt.prism (f : Fmt) (keep : Bool) (d : Dir) (v : Num) : Flagged :=
  let sg (s : Bool) (p : Nat) : Nat := if s then f.sign + p else p
  match v with
  | .nan => (f.nan, 0)
  | .inf s => (sg s f.inf, 0)
  | .zero _ => (0, 0)
  | .fin s x =>
    let r := f.round x s d
    if f.inf ≤ r.1 then (sg s (if d = .trunc then f.top else f.inf), flOVF ||| flINX)
    else if r.2.2 then (if keep then (sg s r.1, if r.2.1 then flUNF ||| flINX else 0) else (0, flFLUSH ||| flUNF))
    else (sg s r.1, if r.2.1 then flINX else 0)

/-- An accumulator pattern as an operand: a subnormal under flush reads as zero with FLUSH and UNF (R52, R58). -/
def Fmt.operand (f : Fmt) (keep : Bool) (p : Nat) : Num × W32 :=
  if f.isSub p && !keep then (.zero false, flFLUSH ||| flUNF) else (f.read p, 0)

/-- The exact sum of two values: ∞ − ∞ is NaN with INV (R52). -/
def Num.sum (a b : Num) : Num × W32 :=
  match a, b with
  | .nan, _ => (.nan, 0)
  | _, .nan => (.nan, 0)
  | .inf s, .inf t => if s == t then (.inf s, 0) else (.nan, flINV)
  | .inf s, _ => (.inf s, 0)
  | _, .inf t => (.inf t, 0)
  | .zero _, .zero _ => (.zero false, 0)
  | .zero _, y => (y, 0)
  | x, .zero _ => (x, 0)
  | .fin s x, .fin t y => (addExact s x t y, 0)

/-- One accumulator addition (R70, R71). -/
def Fmt.add (f : Fmt) (keep : Bool) (d : Dir) (a b : Nat) : Flagged :=
  let x := f.operand keep a
  let y := f.operand keep b
  let v := x.1.sum y.1
  let r := f.acc keep d v.1
  (r.1, x.2 ||| y.2 ||| v.2 ||| r.2)

/-- One accumulator multiplication, as MEANVAR makes it (R177). -/
def Fmt.mul (f : Fmt) (keep : Bool) (d : Dir) (aoff : Int) (a b : Nat) : Flagged :=
  let x := f.operand keep a
  let y := f.operand keep b
  let s (u v : Bool) : Bool := u != v
  let v : Num × W32 := match x.1, y.1 with
    | .nan, _ => (.nan, 0)
    | _, .nan => (.nan, 0)
    | .inf _, .zero _ => (.nan, flINV)
    | .zero _, .inf _ => (.nan, flINV)
    | .inf u, .inf v => (.inf (s u v), 0)
    | .inf u, .fin v _ => (.inf (s u v), 0)
    | .fin u _, .inf v => (.inf (s u v), 0)
    | .fin u p, .fin v q => (.fin (s u v) ((mulExact p q).shift aoff), 0)
    | _, _ => (.zero false, 0)
  let r := f.acc keep d v.1
  (r.1, x.2 ||| y.2 ||| v.2 ||| r.2)

/-- A jet product as its field P in L16 ulps, range checked (R65) and converted into the accumulator format (R66). -/
def product (f : Fmt) (keep : Bool) (d : Dir) (aoff : Int) (s : Bool) (p : Int) : Flagged :=
  if 32766 < 16256 + p then (f.signed s f.inf, flOVF ||| flINX)
  else if 16256 + p < 1 then (0, lowFlags keep)
  else f.acc keep d (.fin s (.root 128 (p - 128 * aoff)))

/-! ### The loupe (R85 to R87) -/

/-- The direction of a loupe rounding code: 0b101 and 0b110, and 0b111 read from LPE_CTRL, are reserved (R86). -/
def loupeDir (c : Nat) : Dir × W32 :=
  if c = 0 then (.even, 0) else if c = 1 then (.away, 0) else if c = 2 then (.trunc, 0) else if c = 3 then (.up, 0)
  else if c = 4 then (.down, 0) else (.even, flINV)

/-- A value under IEEE rounding: tininess after rounding, underflow only when inexact (R85). -/
def Fmt.ieee (f : Fmt) (d : Dir) (s : Bool) (x : Mag) : Flagged :=
  let r := f.round x s d
  let sg (p : Nat) : Nat := if s then f.sign + p else p
  if f.inf ≤ r.1 then
    let big : Bool := match d with
      | .trunc => true
      | .up => s
      | .down => !s
      | _ => false
    (sg (if big then f.top else f.inf), flOVF ||| flINX)
  else
    let wide := roundAt x (x.floorLog 1 - f.mw) s d
    let tiny := r.2.2 && decide ((x.floorLog 1) + (if wide.1 = 2 ^ (f.mw + 1) then 1 else 0) < f.eMin)
    (sg r.1, (if r.2.1 then flINX else 0) ||| (if tiny && r.2.1 then flUNF else 0))

/-- The first NaN operand, quietened; INV for a signalling one among them (R87). -/
def Fmt.nanOf (f : Fmt) (ps : List Nat) : Option Flagged :=
  match ps.find? f.isNan with
  | none => none
  | some p => some (if bitOf p (f.mw - 1) then p else p + 2 ^ (f.mw - 1), if ps.any f.isSnan then flINV else 0)

/-- The sign of an exact zero sum: kept when both addends share it, otherwise minus only toward −∞ (R85, IEEE 754-2019). -/
def zeroSign (s t : Bool) (d : Dir) : Bool := if s == t then s else d == .down

/-- The signed zero or infinity pattern. -/
def Fmt.zeroP (f : Fmt) (s : Bool) : Nat := if s then f.sign else 0
def Fmt.infP (f : Fmt) (s : Bool) : Nat := if s then f.sign + f.inf else f.inf

/-- Sum of two values none of which is NaN. -/
def Fmt.ieeeSum (f : Fmt) (d : Dir) (a b : Num) : Flagged :=
  match a, b with
  | .inf s, .inf t => if s == t then (f.infP s, 0) else (f.nan, flINV)
  | .inf s, _ => (f.infP s, 0)
  | _, .inf t => (f.infP t, 0)
  | .zero s, .zero t => (f.zeroP (zeroSign s t d), 0)
  | .zero _, .fin t y => f.ieee d t y
  | .fin s x, .zero _ => f.ieee d s x
  | .fin s x, .fin t y =>
    match addExact s x t y with
    | .fin u z => f.ieee d u z
    | _ => (f.zeroP (d == .down), 0)
  | _, _ => (f.nan, 0)

/-- The exact product of two values none of which is NaN; none for 0 × ∞. -/
def Num.times (a b : Num) : Option Num :=
  match a, b with
  | .inf _, .zero _ => none
  | .zero _, .inf _ => none
  | .inf s, .inf t => some (.inf (s != t))
  | .inf s, .fin t _ => some (.inf (s != t))
  | .fin s _, .inf t => some (.inf (s != t))
  | .zero s, .zero t => some (.zero (s != t))
  | .zero s, .fin t _ => some (.zero (s != t))
  | .fin s _, .zero t => some (.zero (s != t))
  | .fin s x, .fin t y => some (.fin (s != t) (mulExact x y))
  | _, _ => some .nan

def Fmt.ieeeAdd (f : Fmt) (d : Dir) (a b : Nat) : Flagged :=
  (f.nanOf [a, b]).getD (f.ieeeSum d (f.read a) (f.read b))

def Fmt.ieeeSub (f : Fmt) (d : Dir) (a b : Nat) : Flagged :=
  (f.nanOf [a, b]).getD (f.ieeeSum d (f.read a) ((f.read b).flip true))

def Fmt.ieeeMul (f : Fmt) (d : Dir) (a b : Nat) : Flagged :=
  (f.nanOf [a, b]).getD (match (f.read a).times (f.read b) with
    | none => (f.nan, flINV)
    | some (.fin s x) => f.ieee d s x
    | some (.zero s) => (f.zeroP s, 0)
    | some (.inf s) => (f.infP s, 0)
    | some .nan => (f.nan, 0))

/-- a × b + c with one rounding; 0 × ∞ sets INV even when c is a quiet NaN (R87). There the result carries c's payload, as R87
gives; the row of R89 shows the NaN of an invalid operation, which is that payload for c = 0x7FC0_0000 (DEDUCED,
notes/assumptions/93.md). -/
def Fmt.ieeeFma (f : Fmt) (d : Dir) (a b c : Nat) : Flagged :=
  let bad := !f.isNan a && !f.isNan b && ((f.read a).times (f.read b)).isNone
  match f.nanOf [a, b, c] with
  | some (p, fl) => (p, fl ||| (if bad then flINV else 0))
  | none => match (f.read a).times (f.read b) with
    | none => (f.nan, flINV)
    | some p => f.ieeeSum d p (f.read c)

def Fmt.ieeeDiv (f : Fmt) (d : Dir) (a b : Nat) : Flagged :=
  (f.nanOf [a, b]).getD (match f.read a, f.read b with
    | .inf _, .inf _ => (f.nan, flINV)
    | .zero _, .zero _ => (f.nan, flINV)
    | .inf s, .fin t _ => (f.infP (s != t), 0)
    | .inf s, .zero t => (f.infP (s != t), 0)
    | .zero s, .fin t _ => (f.zeroP (s != t), 0)
    | .zero s, .inf t => (f.zeroP (s != t), 0)
    | .fin s _, .inf t => (f.zeroP (s != t), 0)
    | .fin s _, .zero t => (f.infP (s != t), flDZ)
    | .fin s x, .fin t y => f.ieee d (s != t) (divExact x y)
    | _, _ => (f.nan, 0))

/-- The square root: of a magnitude n / 1 × 2^e with e even it is √n × 2^(e/2); enough low zeros are added for one correct
rounding, and a remainder makes the value inexact. -/
def Fmt.ieeeSqrt (f : Fmt) (d : Dir) (a : Nat) : Flagged :=
  (f.nanOf [a]).getD (match f.read a with
    | .zero s => (f.zeroP s, 0)
    | .inf false => (f.inf, 0)
    | .fin false (.rat n _ e) =>
      let k : Nat := 2 * (f.mw + 4) + (if e % 2 = 0 then 0 else 1)
      let m := n * 2 ^ k
      let r := isqrt m
      f.ieee d false (.rat (2 * r + (if r * r = m then 0 else 1)) 1 ((e - k) / 2 - 1))
    | _ => (f.nan, flINV))

/-- Order of two patterns: 0 less, 1 equal, 2 greater, 3 unordered (R108). -/
def Fmt.order (f : Fmt) (a b : Nat) : Nat :=
  if f.isNan a || f.isNan b then 3
  else
    let key (p : Nat) : Int := if f.sign ≤ p then -((p % f.sign : Nat) : Int) else (p % f.sign : Nat)
    if key a < key b then 0 else if key a = key b then 1 else 2

/-- Minimum and maximum of IEEE 754-2019: −0 is below +0 (R85, R87). -/
def Fmt.ieeeMinMax (f : Fmt) (max : Bool) (a b : Nat) : Flagged :=
  (f.nanOf [a, b]).getD
    (let o := f.order a b
     let lt := o = 0 ∨ (o = 1 ∧ f.sign ≤ a)
     (if lt then (if max then b else a) else (if max then a else b), 0))

/-- Conversion between binary32 and binary64 (R85): a NaN keeps its payload's leading bits, quietened. -/
def Fmt.ieeeConvert (f g : Fmt) (d : Dir) (a : Nat) : Flagged :=
  match f.read a with
  | .nan =>
    let pay := a % 2 ^ f.mw
    let pay := if f.mw ≤ g.mw then pay * 2 ^ (g.mw - f.mw) else pay / 2 ^ (f.mw - g.mw)
    let pay := if bitOf pay (g.mw - 1) then pay else pay + 2 ^ (g.mw - 1)
    (g.infP (decide (f.sign ≤ a)) + pay % 2 ^ g.mw, if f.isSnan a then flINV else 0)
  | .inf s => (g.infP s, 0)
  | .zero s => (g.zeroP s, 0)
  | .fin s x => g.ieee d s x

end Sys2Proof.Machine
end

