-- ==== Sys2Proof/Machine/Library.lean ====
section
/-! DEFINITION. The shipped runnel library (R89, R197, R199): the entries of its tables by the rules of R197, and the results of
its functions by R199. The spec prints the micro-program of the sigmoid alone, so each other function is given by what R199 says
of its result: a correctly rounded one is computed, one with a stated accuracy is an open code within that accuracy
(notes/assumptions/28.md). Real values carry 640 fraction bits (notes/assumptions/12.md). -/

namespace Sys2Proof.Machine

open Sys2Proof

/-! ### Real values in fixed point -/

/-- Fraction bits of the fixed-point values of this file. -/
def fxp : Nat := 640

/-- A product of two fixed-point values. -/
def fxMul (a b : Int) : Int := a * b / 2 ^ fxp

/-- The sum from term i on of a series whose next term is `step i t`. -/
def series (step : Nat → Int → Int) (fuel i : Nat) (t : Int) : Int :=
  match fuel with
  | 0 => 0
  | n + 1 => t + series step n (i + 1) (step i t)

/-- n / d in fixed point. -/
def fxRat (n : Int) (d : Nat) : Int := n * 2 ^ fxp / d

/-- The sum of s^k z^(2k+1) / (2k+1), from the odd powers of z. -/
def oddSum (z2 : Int) (s : Int) (fuel k : Nat) (z : Int) : Int :=
  match fuel with
  | 0 => 0
  | n + 1 => z / (2 * k + 1 : Nat) + oddSum z2 s n (k + 1) (s * fxMul z z2)

/-- The artanh of z for |z| ≤ 1/3, and the arctangent of 1/n. -/
def fxArtanh (z : Int) : Int := oddSum (fxMul z z) 1 240 0 z
def fxArctan (n : Nat) : Int := let z := fxRat 1 n; oddSum (fxMul z z) (-1) 240 0 z

def fxLn2 : Int := 2 * fxArtanh (fxRat 1 3)
/-- Pi by Machin's formula. -/
def fxPi : Int := 16 * fxArctan 5 - 4 * fxArctan 239

/-- ln(1 + w) for w from 0 to 1. -/
def fxLn1 (w : Int) : Int := 2 * fxArtanh (w * 2 ^ fxp / (2 ^ (fxp + 1) + w))

/-- e^a as a magnitude. -/
def fxExp (a : Int) : Mag :=
  let n := a / fxLn2
  .rat (series (fun i t => fxMul t (a - n * fxLn2) / (i + 1 : Nat)) 130 0 (2 ^ fxp)).toNat 1 (n - fxp)

/-- sin a and cos a. -/
def fxSin (a : Int) : Int :=
  let r := a % (2 * fxPi)
  series (fun i t => -(fxMul (fxMul t r) r) / ((2 * i + 2) * (2 * i + 3) : Nat)) 140 0 r
def fxCos (a : Int) : Int :=
  let r := a % (2 * fxPi)
  series (fun i t => -(fxMul (fxMul t r) r) / ((2 * i + 1) * (2 * i + 2) : Nat)) 140 0 (2 ^ fxp)

/-- The sum of (-1)^k x^2k h^k / (k! (2k+1)), which gives erf(x) for h = 1 and Φ(x) for h = 1/2. -/
def gaussSum (x : Int) (h : Nat) : Int :=
  let y := fxMul x x / h
  let rec go (fuel k : Nat) (t : Int) : Int :=
    match fuel with
    | 0 => 0
    | n + 1 => t / (2 * k + 1 : Nat) + go n (k + 1) (-(fxMul t y) / (k + 1 : Nat))
  go 520 0 (2 ^ fxp)

/-- erf(x) / x = 2 / sqrt(pi) × the sum. -/
def erfOver (x : Int) : Int := gaussSum x 1 * 2 ^ (fxp + 1) / isqrt (fxPi.toNat * 2 ^ fxp)

/-- Φ(x) = 1/2 + x / sqrt(2 pi) × the sum. -/
def phiOf (x : Int) : Int := 2 ^ (fxp - 1) + fxMul x (gaussSum x 2) * 2 ^ fxp / isqrt (2 * fxPi.toNat * 2 ^ fxp)

/-- A positive fixed-point value as a magnitude. -/
def fxMagOf (v : Int) : Mag := .rat v.toNat 1 (-fxp)

/-! ### The tables (R197) -/

/-- log2 of a value in units of 2^-10 octave, to nearest, as a 32-bit word. -/
def tableLog (v : Int) : Nat := patternOf 32 (((fxMagOf v).floorLog 2048 + 1) / 2)

/-- Entry c of SIN: sin(2 pi c / 512) as LG; entry i of ERF, PHI and SPLG. -/
def sinEntry (c : Nat) : Nat := if c = 0 then 0 else (lgf.round true .away (.fin false (fxMagOf (fxSin (2 * fxPi * c / 512))))).1
def erfEntry (i : Nat) : Nat := tableLog (erfOver (fxRat i 32))
def phiEntry (i : Nat) : Nat := tableLog (phiOf (fxRat ((i : Int) - 224) 16))
def splgEntry (i : Nat) : Nat := if i = 0 then 0 else tableLog (fxLn1 (fxRat i 64) * 64 / i)

/-- Byte i of the shipped micro-table: SIN, ERF, PHI and SPLG by their rules; CONST and the gaps are not given. -/
def libTableByte (i : Nat) : Byte :=
  let at' (base : Nat) (f : Nat → Nat) : Byte := BitVec.ofNat 8 (f ((i - base) / 4) / 256 ^ ((i - base) % 4))
  if 0x040 ≤ i ∧ i < 0x244 then at' 0x040 sinEntry
  else if 0x250 ≤ i ∧ i < 0x454 then at' 0x250 erfEntry
  else if 0x460 ≤ i ∧ i < 0x9E4 then at' 0x460 phiEntry
  else if 0x9F0 ≤ i ∧ i < 0xAF4 then at' 0x9F0 splgEntry
  else Config.libTable i

/-! ### Function results (R89, R199) -/

/-- What a library function's result depends on: its entry, SUBN, and the rounding that its descriptor names. -/
structure LibCall where
  entry : Nat
  keep : Bool
  rm : Nat
  deriving DecidableEq, Repr

/-- An open code for an input. -/
def LibCall.open_ (c : LibCall) (x : Nat) : Nat := Config.libPick c.entry x % 2 ^ 16

/-- A result whose accuracy is `acc` hundredths of an L16 ulp: an open field within it of log2 of the exact magnitude. Half an ulp is
the correctly rounded field. Away from RM 0b00, whose accuracy R199 does not give, half an ulp more is allowed. -/
def LibCall.within (c : LibCall) (acc : Nat) (neg : Bool) (v : Mag) (x : Nat) : Flagged :=
  if acc = 50 ∧ (c.rm = 0 ∨ c.rm = 3) then l16.round c.keep .away (.fin neg v)
  else
    let a : Int := if c.rm = 0 ∨ c.rm = 3 then acc else acc + 50
    let y := v.floorLog 12800
    let lo := -((a - y) / 100)
    let hi := (y + a + 1) / 100
    l16.clip c.keep neg (16256 + lo + (Config.libPick c.entry x % ((hi - lo).toNat + 1) : Nat)) flINX

/-- The magnitude of an L16 code in fixed point. -/
def codeFx (x : Nat) : Int := ((Mag.root 128 ((x % 2 ^ 15 : Nat) - 16256)).scaled fxp).1

/-- A fixed-point result, of either sign, within an accuracy. -/
def LibCall.signed (c : LibCall) (acc : Nat) (v : Int) (x : Nat) : Flagged :=
  if v = 0 then (0, 0) else c.within acc (decide (v < 0)) (fxMagOf v.natAbs) x

/-- A sine or cosine: an open code within one ulp or 2^-20 of the exact value at an argument within `err` of the exact one. -/
def LibCall.circular (c : LibCall) (v err : Int) (x : Nat) : Flagged :=
  let slack := 2 ^ (fxp - 20) + err
  let a : Int := v.natAbs
  let top := (fxMagOf (a + slack)).floorLog 128 + 1
  let low := if a ≤ slack then none else some ((fxMagOf (a - slack)).floorLog 128 - 1)
  match low with
  | none => let p := Config.libPick c.entry x % ((16256 + top).toNat + 1); ((if p ≠ 0 ∧ Config.libPick c.entry x % 2 = 1 then 2 ^ 15 else 0) + p, flINX)
  | some lo => (l16.code (decide (v < 0)) (16256 + lo + (Config.libPick c.entry x % ((top - lo).toNat + 1) : Nat)).toNat, flINX)

/-- The result of a library function for a finite non-zero L16 code of field offset k, out of its sign. -/
def LibCall.finite (c : LibCall) (neg : Bool) (k : Int) (x : Nat) : Flagged :=
  let m := codeFx x
  let v : Int := if neg then -m else m
  let large := decide (1408 ≤ k)
  match c.entry with
  | 0x000 =>
    if large then (if neg then (0, lowFlags c.keep) else (0x7FFF, flOVF ||| flINX))
    else if k % 128 = 0 ∧ -1024 ≤ k then c.within 50 false (.root 256 ((if neg then -1 else 1) * 2 ^ ((k + 1024) / 128).toNat)) x
    else c.within 50 false (fxExp (fxMul v fxLn2)) x
  | 0x010 =>
    if neg then (0x8000, flINV) else if k = 0 then (0, 0) else c.within 50 (decide (k < 0)) (.rat k.natAbs 1 (-7)) x
  | 0x020 =>
    if large then (if neg then (0, lowFlags c.keep) else (0x7FFF, flOVF ||| flINX)) else c.within 51 false (fxExp v) x
  | 0x030 =>
    if neg then (0x8000, flINV) else if k = 0 then (0, 0) else c.within 63 (decide (k < 0)) (.rat (k.natAbs * fxLn2.toNat) 1 (-7 - fxp)) x
  | 0x040 => c.within 50 neg (.root 128 (-k)) x
  | 0x048 => c.within 50 neg (.root 256 k) x
  | 0x050 => c.within 50 neg (.root 256 (-k)) x
  | 0x060 =>
    if k = 16510 then (l16.code neg 0x3F80, flINX)
    else if large then c.within 150 neg (.root 128 0) x
    else
      let t := ((fxExp (-(2 * m))).scaled fxp).1
      c.within 150 neg (.rat (2 ^ fxp - t) (2 ^ fxp + t) 0) x
  | 0x0C0 =>
    if !neg && decide (384 ≤ k) then (x, 0)
    else if v < -(14 * 2 ^ fxp) then (0, flUNF ||| lowFlags c.keep)
    else c.signed 100 (fxMul v (phiOf v)) x
  | 0x100 =>
    if large then (if neg then (0, lowFlags c.keep) else c.within 70 false (.root 128 k) x)
    else
      let t := fxExp (-m)
      let e := (t.scaled fxp).1
      if neg then c.within 70 true (divExact (mulExact (fxMagOf m) t) (.rat (2 ^ fxp + e) 1 (-fxp))) x
      else c.within 70 false (.rat (m.toNat * 2 ^ fxp) (2 ^ fxp + e) (-fxp)) x
  | 0x200 =>
    if large then (if neg then (0, lowFlags c.keep) else c.within 120 false (.root 128 k) x)
    else c.within 120 false (fxMagOf ((if neg then 0 else m) + fxLn1 ((fxExp (-m)).scaled fxp).1)) x
  | 0x260 => if 256 ≤ k then (l16.code neg 0x3F80, 0) else c.signed 100 (fxMul v (erfOver m)) x
  | 0x180 => c.circular (fxSin v) (m / 2 ^ 22 + 2 ^ (fxp - 29)) x
  | 0x1C0 => c.circular (fxCos v) (m / 2 ^ 22 + 2 ^ (fxp - 29)) x
  | _ => (c.open_ x, 0)

/-- A library function of an L16 code. A pole gives the infinity of the limit without a flag; the roots and the reciprocal are the
micro-ops of their method on every input. What the spec states nowhere (most functions of an infinity) is open. -/
def LibCall.value (c : LibCall) (x : Nat) : Flagged :=
  let e := x % 2 ^ 15
  let neg := decide (0x8000 ≤ x)
  if x = 0x8000 then (0x8000, 0)
  else if e = 0 then
    (match c.entry with
      | 0x000 | 0x020 | 0x1C0 => (0x3F80, 0)
      | 0x010 | 0x030 => (0xFFFF, 0)
      | 0x040 | 0x050 => (0x7FFF, 0)
      | 0x200 => c.within 120 false (fxMagOf fxLn2) x
      | _ => (0, 0))
  else if e = 0x7FFF then
    (match c.entry with
      | 0x040 | 0x050 => (0, 0)
      | 0x048 => (x, 0)
      | _ => (c.open_ x, 0))
  else c.finite neg ((e : Int) - 16256) x

/-- SINCOSQ of a phase in 2^-32 turns: the sine, and the record that carries the cosine, whose layout the spec does not give. -/
def LibCall.sincosq (c : LibCall) (phase : Nat) : Flagged × Nat × Nat :=
  (c.circular (fxSin (2 * fxPi * phase / 2 ^ 32)) 0 phase, Config.libPick (c.entry + 1) phase % 2 ^ 32, Config.libPick (c.entry + 2) phase % 2 ^ 32)

end Sys2Proof.Machine
end

