-- ==== Sys2Proof/Machine/Ops.lean ====
section
/-! DEFINITION. The shared operations of the device: time, look-ups, messages, events, host writes, completions, epochs,
reservoir access, failing a period and stopping a run. -/

namespace Sys2Proof.Machine

open Sys2Proof

/-! ### Running a meaning -/

/-- A basin, link, host or management action needs the sequencer at READY and the clocks running (R381, R433): where they
do not run, the command's trigger cannot arise and nothing changes (notes/assumptions/2.md). -/
def Dev.coreOn (d : Dev) : Bool := !d.still.frozen && !d.still.held && d.pow.stable == 3 && !d.pow.moving

/-- Firmware runs and serves requests: Ready was reached and no core takeover is in progress (R349, R407). -/
def Dev.fwOn (d : Dev) : Bool := d.coreOn && d.boot.ready && !d.fh.recov

/-- The next state under a change of the device. -/
def answer (g : Dev → Dev) (s : State) : Host.Outcome State Fault Refusal := .next { s with dev := g s.dev }

/-- A change that happens only while `c` holds of the device; otherwise nothing changes. -/
def onlyIf (c : Dev → Bool) (g : Dev → Dev) (d : Dev) : Dev := if c d then g d else d

/-! ### Cadence time -/

/-- CT in whole nanoseconds, CAD_CT (R233). -/
def Dev.ns (d : Dev) : Nat := d.cad.ct / 65536

/-- How much of an outstanding correction is slewed while `n` units of time pass: at most 100 ppm (R237). -/
def slewPart (slew : Int) (n : Nat) : Int := max (-(n / 10000 : Nat) : Int) (min ((n / 10000 : Nat) : Int) slew)

/-- The device at CT `t` ns, or now if that is later: CT never runs backwards (R233), and an outstanding correction has been
slewed meanwhile (R237). -/
def Dev.atNs (d : Dev) (t : Nat) : Dev :=
  let n := max d.cad.ct (t * 65536)
  let k := slewPart d.cad.slew (n - d.cad.ct)
  d.setCad { d.cad with ct := n, slew := d.cad.slew - k, ptmErr := d.cad.ptmErr - k }

/-- The idle step: one nanosecond of oscillator time passes while the always-on domain is powered, and CT takes its share of
the correction in progress (R237, R381, R383). During a freeze CT keeps its last rate (R433). -/
def tick (d : Dev) : Dev :=
  if d.pow.stable = 1 ∧ !d.pow.moving then d
  else
    let k := slewPart d.cad.slew 65536
    d.setCad { d.cad with ct := (d.cad.ct + 65536 + k).toNat, slew := d.cad.slew - k, ptmErr := d.cad.ptmErr - k }

/-- Basin clocks since reset or the last wake at CT `ns`, in thousandths of a clock (R29, R443). -/
def Power.clocksAt (p : Power) (ns : Nat) : Nat := p.clkBase + (ns - p.clkAt) * p.bclk

/-- Basin clocks so far, in thousandths: they stand still during a freeze (R433). -/
def Dev.clocks (d : Dev) : Nat := if d.still.frozen || d.still.held then d.pow.clkBase else d.pow.clocksAt d.ns

/-- A restore under way when the basin clock goes from `old` to `new` MHz: what remains of its copying takes the new period (R29). -/
def SpareRow.reclock (r : SpareRow) (now old new : Nat) : SpareRow :=
  match r.restoreEnd with
  | some t =>
    let from' := max now r.restoreFrom
    if new = 0 ∨ t ≤ from' then r else { r with restoreEnd := some (from' + cdiv ((t - from') * old) new) }
  | none => r

/-- The power block takes new values, the basin clock among them: from this edge every basin counts in the new period, and what is
under way ends by it (R29, R400). -/
def Dev.setClock (d : Dev) (p : Power) : Dev :=
  let q := { p with clkBase := d.clocks, clkAt := d.ns }
  (d.setPow q).setFlt { d.flt with rows := Tab.mapv d.flt.rows (fun _ r => r.reclock d.ns d.pow.bclk p.bclk) }

/-- Slot start in ns of slot `k` of frame `n` of a table (R239). -/
def slotStartNs (t : Table) (n k : Nat) : Nat := t.fstart + (n * t.nslot + k) * t.slen

/-- Start of the current slot in ns; 0 with no table active. -/
def Dev.slotStart (d : Dev) : Nat :=
  match d.cad.activeTable with
  | none => 0
  | some t => slotStartNs t d.cad.frameInTable d.cad.slot

/-- Slot length of the active table, CAD_SLEN: 0 when none (R267). -/
def Dev.slen (d : Dev) : Nat :=
  match d.cad.activeTable with
  | none => 0
  | some t => t.slen

/-- The next frame boundary of the active table, at or after the start of the next slot (R245). -/
def Dev.nextFrame (d : Dev) : Nat :=
  match d.cad.activeTable with
  | none => d.ns
  | some t => slotStartNs t (d.cad.frameInTable + 1) 0

/-- The first frame boundary at or after CT `x` ns (R245, R341). -/
def Dev.frameAtOrAfter (d : Dev) (x : Nat) : Nat :=
  match d.cad.activeTable with
  | none => x
  | some t => if t.slen * t.nslot = 0 then x else t.fstart + cdiv (x - t.fstart) (t.slen * t.nslot) * (t.slen * t.nslot)

/-! ### Look-ups -/

def Dev.basin (d : Dev) (b : Nat) : Basin := Tab.at d.basins Basin.reset b
def Dev.putBasin (d : Dev) (b : Nat) (x : Basin) : Dev := d.setBasins (Tab.put d.basins b x)
def Dev.stream (d : Dev) (i : Nat) : Stream := Tab.at d.streams {} i
def Dev.putStream (d : Dev) (i : Nat) (x : Stream) : Dev := d.setStreams (Tab.put d.streams i x)
def Dev.domain (d : Dev) (n : Nat) : Domain := Tab.at d.domains {} n
def Dev.putDomain (d : Dev) (n : Nat) (x : Domain) : Dev := d.setDomains (Tab.put d.domains n x)
def Dev.func (d : Dev) (f : Nat) : Func := Tab.at d.funcs {} f
def Dev.putFunc (d : Dev) (f : Nat) (x : Func) : Dev := d.setFuncs (Tab.put d.funcs f x)
def Dev.port (d : Dev) (p : Nat) : Port := Tab.at d.ports {} p
def Dev.putPort (d : Dev) (p : Nat) (x : Port) : Dev := d.setPorts (Tab.put d.ports p x)
def Dev.train (d : Dev) (i : Nat) : Option Train := Tab.find? d.trains i
def Dev.putTrain (d : Dev) (i : Nat) (x : Train) : Dev := d.setTrains (Tab.put d.trains i x)
def Dev.ctrl (d : Dev) (n : Nat) : Ctrl := d.rsv.ctrls.getD n {}
def Dev.putCtrl (d : Dev) (n : Nat) (x : Ctrl) : Dev := d.setRsv { d.rsv with ctrls := d.rsv.ctrls.set n x }

/-- A stream's handle (R12). -/
def handleOf (i : Nat) (s : Stream) : Nat := i * 65536 + s.gen

/-- The stream a handle names, if its generation matches (R251). -/
def Dev.streamOf (d : Dev) (h : Nat) : Option (Nat × Stream) :=
  let s := d.stream (h / 65536)
  if s.gen = h % 65536 ∧ s.state ≠ 0 ∧ s.state ≠ 4 then some (h / 65536, s) else none

/-- The plan a run or stream names (R465). -/
def Dev.plan (d : Dev) (i planno : Nat) : Option Plan := d.plans.find? (fun p => p.index == i && p.planno == planno)

/-- The plan step a run names. -/
def Dev.planStep (d : Dev) (r : Run) : Option PlanStep :=
  (d.plan (r.handle / 65536) r.planno).bind (fun p => p.steps[r.planStep]?)

/-- The physical basin that carries a logical number, if any (R13, R345). -/
def Dev.physOf (d : Dev) (l : Nat) : Option Nat :=
  let row := l / 16
  let r := Tab.at d.flt.rows {} row
  if r.fcol = l % 16 ∧ (r.spstate = 1 ∨ r.spstate = 2) then some (row * 17 + 16)
  else if bitOf r.fenced (l % 16) then none else some (row * 17 + l % 16)

/-- A logical basin with no physical basin (R23). -/
def Dev.absent (d : Dev) (l : Nat) : Bool := (d.physOf l).isNone

/-! ### The model's own draws -/

/-- A draw of the device random source (R224, R276). -/
def Dev.random (d : Dev) : W64 × Dev := (Config.random d.free, d.setFree (d.free + 1))

/-- Four draws of the random source as a 256-bit number. -/
def Dev.random256 (d : Dev) : Nat × Dev :=
  let a := d.random
  let b := a.2.random
  let c := b.2.random
  let e := c.2.random
  (a.1.toNat + b.1.toNat * 2 ^ 64 + c.1.toNat * 2 ^ 128 + e.1.toNat * 2 ^ 192, e.2)

/-- A data key and a tweak key from the random source (R224, R241). -/
def Dev.drawKeys (d : Dev) : (Nat × Nat) × Dev :=
  let a := d.random256
  let b := a.2.random256
  ((a.1, b.1), b.2)

/-- A value the spec leaves open. -/
def Dev.openValue (d : Dev) : W64 × Dev := (Config.freeValue d.free, d.setFree (d.free + 1))

/-! ### The edge of the module -/

/-- Put a message on the edge. -/
def Dev.emit (d : Dev) (m : Msg) : Dev := d.setOut (d.out ++ [m])

/-- One posted write to host memory. -/
def Dev.hostWrite (d : Dev) (a : Nat) (bs : List Byte) : Dev := d.setHostMem (Mem.writeBytes d.hostMem a bs)

/-- One posted write to host memory for a domain, under the requester ID of the function it is bound to: dropped while that function
is in reset (R362). -/
def Dev.hostWriteFor (d : Dev) (dom a : Nat) (bs : List Byte) : Dev :=
  if (d.domain dom).bind.any (fun p => (d.func p.1).inReset) then d else d.hostWrite a bs

/-- Send vector `v` of function `f`, or set its pending bit while it is masked (R366). -/
def Dev.vector (d : Dev) (f v : Nat) : Dev :=
  let x := d.func f
  if v ∈ x.unmasked then d.emit (.msix f v)
  else if v ∈ x.pending then d else d.putFunc f { x with pending := v :: x.pending }

/-! ### Events (R377, R379) -/

/-- Which parties an event type is delivered to: the domain concerned, and domain 0. -/
def eventTo (t : Nat) : Bool × Bool :=
  if t = 1 ∨ t = 2 ∨ t = 3 ∨ t = 0x10 ∨ t = 0x11 ∨ t = 0x12 then (true, false)
  else if t = 4 ∨ t = 0xB ∨ t = 0xC ∨ t = 0xD ∨ t = 0xF then (true, true)
  else (false, true)

/-- The 32 bytes of an event entry. -/
def eventBytes (e : Event) (phase lost : Nat) : List Byte :=
  leBytes 2 e.type ++ leBytes 2 (phase + lost * 256) ++ leBytes 2 e.domain ++ leBytes 2 e.source ++ leBytes 8 e.ct
    ++ leBytes 4 e.handle ++ leBytes 4 e.d0 ++ leBytes 4 e.d1 ++ leBytes 4 e.d2

/-- One event at one function's queue: written with its vector, or dropped and counted. -/
def Dev.deliver (d : Dev) (f : Nat) (e : Event) : Dev :=
  let x := d.func f
  let n := 2 ^ x.evqLog
  let drop (y : Func) : Dev := (d.putFunc f y).setFh { d.fh with evlost := d.fh.evlost + 1 }
  if !x.evqEnable || !x.evqSet || !bitOf x.evqMask.toNat (e.type - 1) then drop { x with evqLostTotal := x.evqLostTotal + 1 }
  else if (x.evqTail + 1) % n = x.evqHead then
    drop { x with evqLost := satAdd 255 x.evqLost 1, evqLostTotal := x.evqLostTotal + 1 }
  else
    let d := d.hostWrite (x.evqBase + 32 * x.evqTail) (eventBytes e x.evqPhase x.evqLost)
    let last := x.evqTail + 1 = n
    let d := d.putFunc f { x with evqTail := (x.evqTail + 1) % n, evqPhase := if last then 1 - x.evqPhase else x.evqPhase, evqLost := 0 }
    d.vector f x.evqVector

/-- The supervisor keeps the last 32 events delivered to domain 0 (R379). -/
def Dev.supervise (d : Dev) (e : Event) : Dev :=
  let full := d.fh.supBuf.length ≥ 32
  d.setFh { d.fh with supBuf := (if full then d.fh.supBuf.drop 1 else d.fh.supBuf) ++ [e],
                      supLost := if full then satAdd 255 d.fh.supLost 1 else d.fh.supLost }

/-- Raise an event of CT `ct`: it goes to the function bound to the domain concerned, to domain 0's, or to both (R377). -/
def Dev.raiseAt (d : Dev) (ct : Nat) (e : Event) : Dev :=
  let e := { e with ct := ct }
  let toD := (eventTo e.type).1
  let toO := (eventTo e.type).2
  let fd := ((d.domain e.domain).bind.map Prod.fst).getD 256
  let d := if toO then (d.deliver 0 e).supervise e else d
  if toD && !(toO && fd == 0) then
    let d := if fd < 256 then d.deliver fd e else d.setFh { d.fh with evlost := d.fh.evlost + 1 }
    if !toO && e.domain == 0 then d.supervise e else d
  else d

/-- Raise an event now. -/
def Dev.raise (d : Dev) (e : Event) : Dev := d.raiseAt d.ns e

/-- An event that concerns no domain. -/
def Dev.raiseO (d : Dev) (type source d0 d1 d2 : Nat) : Dev :=
  d.raise { type := type, domain := 0x3FF, source := source, d0 := d0, d1 := d1, d2 := d2 }

/-- An event that concerns a stream. -/
def Dev.raiseS (d : Dev) (type source i d0 d1 d2 : Nat) : Dev :=
  let s := d.stream i
  d.raise { type := type, domain := s.domain, source := source, handle := handleOf i s, d0 := d0, d1 := d1, d2 := d2 }

/-- The TIME event of the present time state (R236 to R238). -/
def Dev.holdest (d : Dev) : Nat :=
  match d.cad.holdStart with
  | some t => min ((d.cad.ct - t) / 65536 / 10000000) 0xFFFFFFFF
  | none => 0

def Dev.timeEvent (d : Dev) : Dev := d.raiseO 8 0x1F1 (d.cad.dev + d.cad.sel * 256 + bit01 d.cad.diverged * 65536) d.holdest 0

/-! ### Completions (R256, R259) -/

/-- The 32 bytes of a completion entry. -/
def completionBytes (x : Desc) (phase lost code ct outlen slot frame : Nat) (trunc flg ovb : Bool) : List Byte :=
  leBytes 4 x.seq ++ leBytes 4 (phase + bit01 trunc * 2 + bit01 flg * 4 + bit01 ovb * 8 + lost * 256 + code * 65536)
    ++ leBytes 8 x.cookie ++ leBytes 8 ct ++ leBytes 4 outlen ++ leBytes 4 (slot % 4096 + frame % 2 ^ 20 * 4096)

/-- A completion ring is full when (TAIL + 1) mod 2^LOG2N = HEAD (R259). -/
def ringFull (s : Stream) : Bool := (s.cqTail + 1) % 2 ^ s.cqLog == s.cqHead

/-- The ring moves on by one entry; PHASE inverts on a wrap (R256). -/
def advanceRing (s : Stream) : Stream :=
  { s with cqTail := (s.cqTail + 1) % 2 ^ s.cqLog, cqPhase := if s.cqTail + 1 = 2 ^ s.cqLog then 1 - s.cqPhase else s.cqPhase }

/-- Write the completion of descriptor `x` on stream `i`, or count it lost when the ring is full; send the vector where the
entry asks for one (R257, R259). -/
def Dev.complete (d : Dev) (i : Nat) (x : Desc) (code ct outlen slot frame : Nat) (trunc ovb : Bool) : Dev :=
  let s := d.stream i
  if ringFull s then
    d.putStream i { s with nlost := s.nlost + 1, lost := satAdd 255 s.lost 1, nerr := if code = 0 then s.nerr else s.nerr + 1 }
  else
    let d1 := d.hostWriteFor s.domain (s.cqbase + 32 * s.cqTail)
      (completionBytes x s.cqPhase s.lost code ct outlen slot frame trunc (s.flags ≠ 0) ovb)
    let d2 := d1.putStream i (advanceRing { s with lost := 0, ncpl := s.ncpl + 1, lastcpl := d.ns,
                                                   nerr := if code = 0 then s.nerr else s.nerr + 1 })
    if x.notify then d2.vector (((d.domain s.domain).bind.map Prod.fst).getD 256) s.vector else d2

/-! ### Periods (R244, R464) -/

/-- Record the first failure of the period in progress (R464). -/
def failPeriod (s : Stream) (code : Nat) : Stream :=
  match s.period with
  | none => s
  | some p => if p.fail = 0 then { s with period := some { p with fail := code } } else s

/-- A run record names a stream that has this index. -/
def runIndex (r : Run) : Nat := r.handle / 65536

/-- How many slots after slot `k` the posting run comes that ends the period of a TAKE run at offset `at'` of that slot: in the slot
itself only from that offset on, else in a later slot, counting on into the next frame (R244). -/
def slotsToPost (t : Table) (h k at' : Nat) : Nat :=
  ((List.range (t.nslot + 1)).find? (fun n => (Tab.at t.runs [] ((k + n) % t.nslot)).any (fun r =>
    r.handle == h && r.post && r.entry.isSome && (decide (0 < n) || decide (at' ≤ r.tstart))))).getD 0

/-- The phase of a training run (R279). -/
def Dev.phaseOf (d : Dev) (r : Run) : Nat := ((d.planStep r).map PlanStep.phase).getD 0

/-- A phase's span opens at the first start and moves its end; the exchange phase's is that of its buckets (R279). -/
def Train.phaseStart (t : Train) (ph now : Nat) : Train :=
  let p := t.phases.getD ph {}
  if p.first.isSome ∨ ph = 2 then t else { t with phases := t.phases.set ph { p with first := some now } }
def Train.phaseEnd (t : Train) (ph now : Nat) : Train :=
  if ph = 2 then t else { t with phases := t.phases.set ph { t.phases.getD ph {} with fin := some now } }

/-- A training run's phase begins or ends now. -/
def Dev.phaseMark (d : Dev) (r : Run) (f : Train → Nat → Nat → Train) : Dev :=
  match d.train (runIndex r) with
  | some t => if r.entry.isSome then d.putTrain (runIndex r) (f t (d.phaseOf r) d.ns) else d
  | none => d

/-! ### Reservoir (R201 to R203, R221 to R226) -/

/-- The controller that handles a reservoir address (R221). -/
def ctrlOf (a : Nat) : Nat := Nat.xor (bitsOf a 11 9) (bitsOf a 23 21)

/-- Populated reservoir addresses (R203). -/
def rsvPopulated (a n : Nat) : Bool := decide (a + n ≤ 0x6000000000)

/-- The 512 B granules that a range touches, each as its first address. -/
def granules (a n : Nat) : List Nat := (List.range (cdiv (a % 512 + n) 512)).map (fun k => (a / 512 + k) * 512)

/-- The pages a range touches (R222). -/
def pagesOf (a n : Nat) : List Nat := (List.range (cdiv (a % 0x200000 + n) 0x200000)).map (fun k => a / 0x200000 + k)

/-- A page is valid, not being scrubbed, and owned by the domain (R223). -/
def Rsv.ownedPage (r : Rsv) (dom p : Nat) : Bool := let e := Tab.at r.pages {} p; e.valid && !e.scrub && e.owner == dom

/-- Every page of the range is valid, not being scrubbed, and owned by the domain (R223). -/
def Rsv.owned (r : Rsv) (dom a n : Nat) : Bool := (pagesOf a n).all (r.ownedPage dom)

/-- Bytes that the controllers have moved in the slot (R28). -/
def Rsv.moved (r : Rsv) (n : Nat) : Rsv := { r with slotBytes := r.slotBytes + n }

/-- Count a range of `n` bytes against the domain's budgets: each controller counts 64 B units, and what exceeds the budget
is over-budget (R225). -/
def Rsv.charge (r : Rsv) (dom a n : Nat) : Rsv :=
  (granules a n).foldl (fun r g =>
    let lo := max g a
    let bytes := min (g + 512) (a + n) - lo
    let units := cdiv bytes 64
    let c := r.ctrls.getD (ctrlOf g) {}
    let q := Tab.at c.budget 0 dom
    let u := Tab.at c.used 0 dom
    let excess := if u + units ≤ q then 0 else min units (u + units - q)
    let c := { c with used := Tab.put c.used dom (u + units), ovbbytes := c.ovbbytes + BitVec.ofNat 64 (min bytes (excess * 64)) }
    { r with ctrls := r.ctrls.set (ctrlOf g) c }) (r.moved n)

/-- The granules of a range in pages that the domain does not own. -/
def Rsv.foreign (r : Rsv) (dom a n : Nat) : List Nat := (granules a n).filter (fun g => !r.ownedPage dom (g / 0x200000))

/-- One denied granule: its controller counts it and raises a denial event naming the domain and the page (R223). -/
def Dev.denyGranule (d : Dev) (dom kind g : Nat) : Dev :=
  let c := d.ctrl (ctrlOf g)
  (d.putCtrl (ctrlOf g) { c with denycnt := c.denycnt + 1 }).raise
    { type := 4, domain := dom, source := 0x1F8 + ctrlOf g, d0 := g / 0x200000, d1 := kind }

/-- Deny what a range takes in of pages that the domain does not own (R223). A controller sees a range granule by granule, so each
denied granule counts once (notes/assumptions/95.md). `kind` is 0 for a read, 1 for a write, 2 for an atomic or ring operation. -/
def Dev.deny (d : Dev) (dom a n kind : Nat) : Dev := (d.rsv.foreign dom a n).foldl (fun d g => d.denyGranule dom kind g) d

/-- The parts of a range page by page, as addresses and lengths (R222). -/
def pageParts (a n : Nat) : List (Nat × Nat) :=
  (pagesOf a n).map (fun p => let lo := max a (p * 0x200000); (lo, min (a + n) ((p + 1) * 0x200000) - lo))

/-- The parts of a range that a domain may reach: all of it, or its pages there. -/
def Rsv.reach (r : Rsv) (dom a n : Nat) : List (Nat × Nat) :=
  if r.owned dom a n then [(a, n)] else (pageParts a n).filter (fun p => r.ownedPage dom (p.1 / 0x200000))

/-- 32 B units of a list that a range touches. -/
def unitsIn (us : List Nat) (a n : Nat) : List Nat := us.filter (fun u => decide (u * 32 < a + n) && decide (a < u * 32 + 32))

/-- A 32 B unit of the range is poisoned (R224). -/
def Rsv.poisoned (r : Rsv) (a n : Nat) : Bool := !(unitsIn r.poison a n).isEmpty

/-- The 64 B data units that a write covers in part only: they are read before they are written (R224). -/
def partUnits (a n : Nat) : List Nat :=
  if n = 0 then [] else ((if a % 64 ≠ 0 then [a / 64] else []) ++ (if (a + n) % 64 ≠ 0 then [(a + n) / 64] else [])).dedup

/-- The part units of a write that hold a poisoned 32 B unit: what it brings for them is discarded (R224). -/
def Rsv.lostUnits (r : Rsv) (a n : Nat) : List Nat := (partUnits a n).filter (fun u => r.poison.any (fun p => p / 2 == u))

/-- A part-unit write meets a poisoned 32 B unit of its 64 B data unit (R224). -/
def Rsv.partialPoison (r : Rsv) (a n : Nat) : Bool := !(r.lostUnits a n).isEmpty

/-- Write bytes; a write of a whole 64 B data unit clears its errors (R224). -/
def Rsv.write (r : Rsv) (a : Nat) (bs : List Byte) : Rsv :=
  let whole (p : Nat) : Bool := decide (a ≤ p / 2 * 64) && decide (p / 2 * 64 + 64 ≤ a + bs.length)
  { r with mem := Mem.writeBytes r.mem a bs, poison := r.poison.filter (fun p => !whole p), soft := r.soft.filter (fun p => !whole p) }

/-- The pieces of a write that lie in no lost unit: all of it, or its bytes unit by unit. -/
def Rsv.pieces (r : Rsv) (a : Nat) (bs : List Byte) : List (Nat × List Byte) :=
  let lost := r.lostUnits a bs.length
  if lost = [] then [(a, bs)]
  else ((List.range (cdiv (a % 64 + bs.length) 64)).filter (fun k => a / 64 + k ∉ lost)).map (fun k =>
    let lo := max a ((a / 64 + k) * 64)
    (lo, (bs.drop (lo - a)).take ((a / 64 + k + 1) * 64 - lo)))

/-- An ECC event (R205, R224): the address takes the first 8 B of DATA, so that a reservoir address fits (notes/assumptions/95.md). -/
def Dev.eccEvent (d : Dev) (source a unc : Nat) (scrub : Bool) : Dev :=
  d.raiseO 5 source (a % 2 ^ 32) (a / 2 ^ 32) (unc + bit01 scrub * 2 ^ 16)

/-! ### Epochs (R350 to R353) -/

/-- Fountainhead's view of a unit. -/
def Dev.mgmtView (d : Dev) (u : Nat) : View := Tab.at d.flt.mgmt {} u

/-- A unit's own view: a basin's BSN_EPOCH and BSN_USTATE, another unit's own record (R350, R357). -/
def Dev.ownView (d : Dev) (u : Nat) : View :=
  if u < 272 then { epoch := (d.basin u).epoch, state := (d.basin u).ustate } else Tab.at d.flt.own {} u

/-- Fountainhead writes a new state under the previous epoch + 1: check tables first, then the unit's own view (R350, R351). -/
def Dev.writeState (d : Dev) (u st : Nat) : Dev :=
  let e := (d.mgmtView u).epoch + 1
  let d := d.setFlt { d.flt with mgmt := Tab.put d.flt.mgmt u { epoch := e, state := st }, check := Tab.put d.flt.check u e,
                                 changed := if u ∈ d.flt.changed then d.flt.changed else u :: d.flt.changed }
  if u < 272 then d.putBasin u { d.basin u with epoch := e, ustate := st }
  else d.setFlt { d.flt with own := Tab.put d.flt.own u { epoch := e, state := st } }

/-- The receivers' check table holds this epoch for the source (R351). -/
def Dev.epochOk (d : Dev) (src : Nat) (e : W32) : Bool := Tab.at d.flt.check 0 src == e

/-! ### Words and segments of a basin (R205, R207) -/

/-- Bytes of the ECC word at a basin-local address: 8 in the cistern, 4 in the accumulator store. -/
def eccWidth (w : Nat) : Nat := if w < 0x400000 then 8 else 4

/-- Writing a word clears its error and the record of its report (R205). -/
def Basin.mend (x : Basin) (a n : Nat) : Basin :=
  let hit (w : Nat) : Bool := decide (w < a + n) && decide (a < w + eccWidth w)
  { x with cis := { x.cis with badWords := x.cis.badWords.filter (fun w => !hit w), softWords := x.cis.softWords.filter (fun w => !hit w),
                               lastUe := match x.cis.lastUe with | some w => if hit w then none else some w | none => none } }

/-- A segment whose 64 KiB are written whole and tagged to a domain; the errors of its words are gone (R205, R206). -/
def Basin.fillSeg (x : Basin) (k dom : Nat) (bs : List Byte) : Basin :=
  ({ x with store := Mem.writeBytes (Mem.zero x.store (k * 65536) 65536) (k * 65536) bs,
            tags := Tab.put x.tags k { valid := true, zeroing := false, domain := dom } }).mend (k * 65536) 65536

/-! ### Stopping a run (R34, R110, R111, R82) -/

/-- The OR of the 69 engine flag words, BSN_FLAGS_SUM (R81). -/
def EngineFlags.sum (f : EngineFlags) : W32 :=
  f.jet.foldl (fun a p => a ||| p.2) 0 ||| f.csc ||| f.run0 ||| f.run1 ||| f.prz ||| f.lpe

/-- The engines' status after a run's operations are cancelled: none is in progress (R168, R200). -/
def EngineRegs.idle (e : EngineRegs) : EngineRegs := { e with przBusy := false, przRingop := false, cscBusy := false, cscPass2 := false }

/-- The sequencer after a run: its operations cancelled, its claims released. -/
def Seq.stopped (q : Seq) (code pc : Nat) : Seq :=
  { q with active := none, held := none, ops := [], fault := { code := code, pc := pc } }

/-- The performance counters after a run that was active for `busy` clocks. How many jet-clocks and held clocks that took depends
on timing the model does not keep: open amounts within the bounds of R443 (notes/assumptions/13.md). -/
def PerfRegs.ran (p : PerfRegs) (busy jets held : Nat) : PerfRegs :=
  { p with runclk := p.runclk + BitVec.ofNat 64 busy, jetbusy := p.jetbusy + BitVec.ofNat 64 (jets % (64 * busy + 1)),
           stallclk := p.stallclk + BitVec.ofNat 64 (held % (busy + 1)) }

/-- Merge a run's flags and counts into its stream, clear the engine words, count the run's clocks, and mark the end of its phase (R82,
R142, R279, R443). -/
def Dev.mergeFlags (d : Dev) (b : Nat) (a : Active) : Dev :=
  let d := d.phaseMark a.run Train.phaseEnd
  let x := d.basin b
  let i := runIndex a.run
  let s := d.stream i
  let top := 2 ^ 64 - 1
  let busy := (d.clocks - a.clk0) / 1000
  let v := d.openValue
  let w := v.2.openValue
  let d := w.2.putBasin b { x with flags := EngineFlags.reset, perf := x.perf.ran busy v.1.toNat w.1.toNat }
  if a.run.entry.isNone ∨ handleOf i s ≠ a.run.handle then d
  else d.putStream i { s with flags := s.flags ||| x.flags.sum, novf := satAdd top s.novf a.novf, nsat := satAdd top s.nsat a.nsat,
                              nvan := satAdd top s.nvan a.nvan, novb := s.novb + BitVec.ofNat 32 a.novb,
                              period := s.period.map (fun p => { p with trunc := p.trunc || a.trunc, ovb := p.ovb || decide (0 < a.novb) }) }

/-- Reservoir writes of a cancelled transfer that were already acknowledged stand; how far it had come is open (R213). Only
pages that the domain owns are ever written (R223). -/
def Dev.standAcked (d : Dev) (dom : Nat) (ops : List Op) : Dev :=
  ops.foldl (fun d o =>
    if o.phase = .started ∧ o.rsvWrites ≠ [] then
      let n := Config.ackedBytes d.free % (o.rsvWrites.length + 1)
      let ws := (o.rsvWrites.take n).filter (fun w => d.rsv.ownedPage dom (w.1 / 0x200000))
      (d.setFree (d.free + 1)).setRsv (ws.foldl (fun r w => r.charge dom w.1 1) { d.rsv with mem := Mem.apply d.rsv.mem ws })
    else d) d

/-- The reservoir writes of cancelled transfers that were not acknowledged: those that `standAcked` leaves out (R348). -/
def Dev.unacked (d : Dev) (ops : List Op) : List (Nat × Byte) :=
  ((ops.filter (fun o => o.phase == .started && !o.rsvWrites.isEmpty)).zipIdx).flatMap (fun p =>
    p.1.rsvWrites.drop (Config.ackedBytes (d.free + p.2) % (p.1.rsvWrites.length + 1)))

/-- Byte writes as requests: runs of ascending addresses within one granule. -/
def writePackets (ws : List (Nat × Byte)) : List (Nat × List Byte) :=
  match ws with
  | [] => []
  | (a, v) :: r =>
    match writePackets r with
    | [] => [(a, [v])]
    | (b, bs) :: t => if b = a + 1 ∧ a % 512 ≠ 511 then (a, v :: bs) :: t else (a, [v]) :: (b, bs) :: t

/-- Partials a root holds for a run of a stream are discarded when the run ends (R184). -/
def Basin.dropPartials (x : Basin) (h : Nat) : Basin := { x with partials := x.partials.filter (fun p => p.handle ≠ h) }

/-- Stop the run on basin `b` with `code` at instruction `pc`: operations cancelled and their writes discarded, flags merged,
BSN_FAULT written, the period failed with 0x0100 + code, an event raised (R34, R110, R111, R464). -/
def Dev.stopRun (d : Dev) (b code pc : Nat) : Dev :=
  let x := d.basin b
  match x.seq.active with
  | none => d
  | some a =>
    let i := runIndex a.run
    let d := d.standAcked a.run.domain x.seq.ops
    let d := d.mergeFlags b a
    let y := (d.basin b).dropPartials a.run.handle
    let d := d.putBasin b { y with seq := x.seq.stopped code pc, eng := y.eng.idle }
    let d := if a.run.entry.isSome && (d.stream i).gen == a.run.handle % 65536 then
        d.putStream i (failPeriod (d.stream i) (0x100 + code)) else d
    let d := if code = 8 then d.setCad { d.cad with ovrcnt := d.cad.ovrcnt + 1 } else d
    d.raiseS 1 b i a.run.lbasin code pc

/-- End the run with no fault code of R111, failing its period under a completion code where one is given: a fence (0x0600), a
quarantine failback (0x0300), or a fence whose run is replayed (none) (R344, R347, R353). -/
def Dev.haltRun (d : Dev) (b : Nat) (code : Option Nat) : Dev :=
  let x := d.basin b
  match x.seq.active with
  | none => d
  | some a =>
    let i := runIndex a.run
    let d := d.standAcked a.run.domain x.seq.ops
    let d := d.mergeFlags b a
    let y := (d.basin b).dropPartials a.run.handle
    let d := d.putBasin b { y with seq := x.seq.stopped x.seq.fault.code x.seq.pc, eng := y.eng.idle }
    match code with
    | none => d
    | some c =>
      if a.run.entry.isSome && (d.stream i).gen == a.run.handle % 65536 then d.putStream i (failPeriod (d.stream i) c) else d

/-! ### Service status (R23, R26) -/

/-- FH_SVC_STATUS as the spare map gives it; 0 before spare mapping. -/
def Dev.svcStatus (d : Dev) : W32 :=
  if d.flt.rows.isEmpty then 0 else
  let ab := ((List.range 256).filter (fun l => d.absent l)).length
  let fe := (List.range 16).foldl (fun n r => n + ((List.range 17).filter (fun c => bitOf (Tab.at d.flt.rows {} r).fenced c)).length) 0
  BitVec.ofNat 32 (bit01 (decide (0 < ab)) * 2 ^ 31 + (256 - ab) * 2 ^ 18 + fe * 2 ^ 9 + ab)

end Sys2Proof.Machine
end

