-- ==== Sys2Proof/Machine/Spray.lean ====
section
/-! DEFINITION. Spray: the counter generator, the free-running generators and their reseeding (R270 to R276). -/

namespace Sys2Proof.Machine

open Sys2Proof

/-- The round constants of R270. -/
def sprayRC : List W32 :=
  [0x3A9D4C21, 0x71E60B5F, 0x2C58E39A, 0x9B037DD4, 0x46CF1A08, 0xE81295B3, 0x0DB76C4E, 0xC54AF017, 0x5F218B69, 0xB68E37F2]

/-- Round r of R270 on the words a, b, c, d under the key words k. -/
def sprayRound (k : Nat → W32) (r : Nat) (v : W32 × W32 × W32 × W32) : W32 × W32 × W32 × W32 :=
  let a := v.1 + v.2.1
  let d := (v.2.2.2 ^^^ a).rotateLeft 13
  let c := v.2.2.1 + d
  let b := (v.2.1 ^^^ c).rotateLeft 11
  let a := a + b
  let d := (d ^^^ a).rotateLeft 19
  let c := c + d
  let b := (b ^^^ c).rotateLeft 7
  (a + k ((r + 1) % 3), b + k ((r + 2) % 3), c + k (r % 3) + sprayRC.getD r 0, d + BitVec.ofNat 32 (r + 1))

/-- The counter generator: four words from a 64-bit seed, a 32-bit tag and a 64-bit position (R270). -/
def spray (seed tag pos : Nat) : W32 × W32 × W32 × W32 :=
  let k0 : W32 := BitVec.ofNat 32 seed
  let k1 : W32 := BitVec.ofNat 32 (seed / 2 ^ 32)
  let k2 : W32 := BitVec.ofNat 32 tag ^^^ 0x5D2B71C3
  let k (n : Nat) : W32 := if n = 0 then k0 else if n = 1 then k1 else k2
  (List.range 10).foldl (fun v r => sprayRound k r v)
    (BitVec.ofNat 32 pos ^^^ k0, BitVec.ofNat 32 (pos / 2 ^ 32) ^^^ k1, k2, 0xA4F10E67)

/-- One position's 128-bit output, little-endian (R271). -/
def sprayBytes (seed tag pos : Nat) : List Byte :=
  let v := spray seed tag pos
  leBytes 4 v.1.toNat ++ leBytes 4 v.2.1.toNat ++ leBytes 4 v.2.2.1.toNat ++ leBytes 4 v.2.2.2.toNat

/-- The draw an engine takes at a position: w0[23:0] (R271). -/
def sprayDraw (seed tag pos : Nat) : Nat := (spray seed tag pos).1.toNat % 2 ^ 24

/-- A generator's state from an output; all zeros become (0, 0, 1) (R276). -/
def Gen.ofSpray (v : W32 × W32 × W32 × W32) : Gen :=
  if v.1 = 0 ∧ v.2.1 = 0 ∧ v.2.2.1 = 0 then { x := 0, y := 0, z := 1 } else { x := v.1, y := v.2.1, z := v.2.2.1 }

/-- A free-running generator after one draw, and the draw (R274). -/
def Gen.next (g : Gen) : Nat × Gen :=
  let t := g.x ^^^ (g.x <<< 10)
  let z := g.z ^^^ (g.z >>> 26) ^^^ t ^^^ (t >>> 5)
  (z.toNat / 256, { x := g.y, y := g.z, z := z })

/-- Where a basin's generators were last reseeded from: seed, tag and base position. Generator `id` starts from
spray(seed, tag, base + id) (R276). -/
def seedGen (s : Nat × Nat × Nat) (id : Nat) : Gen := Gen.ofSpray (spray s.1 s.2.1 ((s.2.2 + id) % 2 ^ 64))

/-- A basin with its generators reseeded. -/
def Basin.reseed (x : Basin) (seed tag base : Nat) (run : Bool) : Basin :=
  { x with gens := [], genSeed := (seed, tag, base),
           eng := { x.eng with sprRunseed := run, reseedcnt := x.eng.reseedcnt + 1 } }

/-- Generator `id` of a basin. -/
def Basin.gen (x : Basin) (id : Nat) : Gen := (Tab.find? x.gens id).getD (seedGen x.genSeed id)

/-- SLOT_RESEED: every generator of a basin from DEVSEED and the slot count (R276). -/
def Basin.slotReseed (x : Basin) (devseed : W64) (slots : Nat) : Basin :=
  x.reseed devseed.toNat 0xFFFFFFF0 (slots * 65536) false

/-- RUN_RESEED: for a deterministic run, from SEEDR, plan step and logical basin (R276). -/
def Basin.runReseed (x : Basin) (seedr planStep lbasin : Nat) : Basin :=
  x.reseed seedr 0xFFFFFFF1 (planStep * 2 ^ 32 + lbasin * 2 ^ 16) true

end Sys2Proof.Machine
end

