-- ==== Sys2Proof/Machine/Reset.lean ====
section
/-! DEFINITION. Resets and reloads: the module reset, the loss of a power domain, and what Fountainhead restores from its own
copies (R105, R197, R208, R346, R385, R389, R434, R441). -/

namespace Sys2Proof.Machine

open Sys2Proof

/-- Entries of the shipped library: the first micro-op of each function (R199). -/
def libEntries : List Nat :=
  [0x000, 0x010, 0x020, 0x030, 0x040, 0x048, 0x050, 0x060, 0x0A0, 0x0C0, 0x100, 0x120, 0x180, 0x1C0, 0x200, 0x260]

/-- The sigmoid entry, which R199 gives in full; a rounding field it does not print is 0b11, as in the word it does. -/
def sigmoidWords : List W64 :=
  [0x0440003000000000, 0x3484007000000000, 0x1B8000305C551D95, 0x60CB80F00000000A, 0x610C017000000000, 0x194000300001FC00, 0x2195003000000000, 0x2DD5803000000000, 0x081C003000000000, 0x1000003000000000]

/-- A list of values put at consecutive keys. -/
def Tab.putList {α : Type} (t : Tab α) (k : Nat) (l : List α) : Tab α :=
  match l with
  | [] => t
  | v :: r => Tab.putList (Tab.put t k v) (k + 1) r

/-- The installed functions written over the library in a runnel's stores (R197, R198). -/
def RunLib.store (l : RunLib) : Tab W64 × Mem :=
  l.fns.foldl (fun s p => (Tab.putList s.1 p.2.base p.2.words, Mem.writeBytes s.2 p.2.tbase p.2.table)) (Tab.putList [] 0x0A0 sigmoidWords, [])

/-- The index is the first micro-op of a function that the runnels hold: the library's, once it is loaded, or an installed one (R196,
R198). -/
def RunLib.hasEntry (l : RunLib) (i : Nat) : Bool := (l.libver != 0 && i ∈ libEntries) || (Tab.find? l.fns i).isSome

/-- Word i of every runnel's micro-program store: what was written there, else the shipped library's word once it is loaded. -/
def Dev.muWord (d : Dev) (x : Basin) (i : Nat) : W64 :=
  match Tab.find? x.ustore i with
  | some w => w
  | none => if d.lib.libver ≠ 0 ∧ i < 1280 then Config.libWord i else 0

/-- Byte i of every runnel's micro-table: an installed image's, else the shipped library's once it is loaded. -/
def Dev.muTable (d : Dev) (x : Basin) (i : Nat) : Byte :=
  if d.lib.libver ≠ 0 ∧ i < 0xB00 ∧ !d.lib.fns.any (fun p => decide (p.2.tbase ≤ i) && decide (i < p.2.tbase + p.2.table.length))
  then libTableByte i else Mem.read x.utable i

/-- The programs of the resident models that lie on a logical basin, loaded into a program store (R105). -/
def modelProgs (models : Tab Model) (l : Nat) : Tab W64 :=
  models.foldl (fun t m => m.2.progs.foldl (fun t g => if g.lbasin = l then Tab.putList t g.base g.words else t) t) []

/-- A basin's program store and runnel stores reloaded from Fountainhead's copies (R389). -/
def Dev.loadStores (d : Dev) (b : Nat) : Dev :=
  let x := d.basin b
  d.putBasin b { x with prog := modelProgs d.models x.logical, ustore := d.lib.store.1, utable := d.lib.store.2 }

/-- The resident-model segments of a logical basin copied from their reservoir images into a basin and tagged to the model's
domain (R346). -/
def Dev.restoreModels (d : Dev) (b l : Nat) : Dev :=
  let mine (m : Model) : List ModelSeg := m.segs.filter (fun s => s.lbasin == l)
  let x := d.models.foldl (fun x m => (mine m.2).foldl (fun (x : Basin) s =>
    x.fillSeg s.seg m.2.domain (Mem.readBytes d.rsv.mem s.addr 65536)) x) (d.basin b)
  let n := d.models.foldl (fun n m => n + (mine m.2).length) 0
  (d.putBasin b x).setRsv (d.rsv.moved (65536 * n))

/-- A basin whose row loses power: stores, tags, engine state and performance counters are lost (R385, R441); the identity,
epoch and the counters of R389 come back from the retention SRAM. -/
def Basin.powerLost (_ : Basin) : Basin := Basin.reset

/-- The record of a basin in the retention SRAM (R389). -/
def Basin.record (x : Basin) : BasinRec :=
  { logical := x.logical, epoch := x.epoch, ustate := x.ustate, weirFenced := x.cis.weirFenced, eccValid := x.cis.eccValid,
    eccUncorr := x.cis.eccUncorr, eccScrub := x.cis.eccScrub, eccAddr := x.cis.eccAddr, skipcnt := x.eng.skipcnt,
    ftblcnt := x.eng.ftblcnt, blkcnt := x.eng.blkcnt, zblkcnt := x.eng.zblkcnt, vancnt := x.eng.vancnt,
    dropcnt := x.eng.dropcnt, trunccnt := x.eng.trunccnt, drawcnt := x.eng.drawcnt, reseedcnt := x.eng.reseedcnt,
    refusecnt := x.eng.refusecnt, cecnt := x.cis.cecnt, sinkcnt := x.cis.sinkcnt }

/-- A basin from its record: everything else as after reset (R385, R389). -/
def Basin.ofRecord (r : BasinRec) : Basin :=
  let x := Basin.reset
  { x with logical := r.logical, epoch := r.epoch, ustate := r.ustate,
           cis := { x.cis with weirFenced := r.weirFenced, eccValid := r.eccValid, eccUncorr := r.eccUncorr,
                               eccScrub := r.eccScrub, eccAddr := r.eccAddr, cecnt := r.cecnt, sinkcnt := r.sinkcnt },
           eng := { x.eng with skipcnt := r.skipcnt, ftblcnt := r.ftblcnt, blkcnt := r.blkcnt, zblkcnt := r.zblkcnt,
                               vancnt := r.vancnt, dropcnt := r.dropcnt, trunccnt := r.trunccnt, drawcnt := r.drawcnt,
                               reseedcnt := r.reseedcnt, refusecnt := r.refusecnt } }

/-- RETENTION_SAVE: basin, port and link records; RIL_TXCTR and the keys are not saved (R389). -/
def Dev.retentionSave (d : Dev) : Dev :=
  let ports := (List.range 5).map (fun p => let x := d.port p
    (p, { ({} : Port) with asym := x.asym, peerpol := x.peerpol, wakesend := x.wakesend, wakeen := x.wakeen, variant := x.variant,
                           enable := x.enable, state := 0, keygen := x.keygen, rekeypend := false, wakeseen := x.wakeseen,
                           lanes := 0, downcause := x.downcause, txfrm := x.txfrm, rxfrm := x.rxfrm, retrycnt := x.retrycnt,
                           authfail := x.authfail, fecce := x.fecce, fecue := x.fecue, rekeyDone := x.rekeyDone,
                           rekeyFail := x.rekeyFail, discard := x.discard, wakecnt := x.wakecnt, peerid := 0 }))
  d.setPow { d.pow with ret := some { basins := d.basins.map (fun p => (p.1, p.2.record)), ports := ports, link := d.link, pair := d.pair } }

/-- RETENTION_RESTORE: the records come back, the stores are reloaded, and resident models are restored and tagged (R389). A
burst recognised while asleep stands in the port's own record, which the always-on domain kept. -/
def Dev.retentionRestore (d : Dev) : Dev :=
  match d.pow.ret with
  | none => d
  | some r =>
    let d := (d.setBasins (r.basins.map (fun p => (p.1, Basin.ofRecord p.2)))).setLink r.link
    let d := (d.setPair r.pair).setPorts (r.ports.map (fun p =>
      (p.1, { p.2 with wakeseen := p.2.wakeseen || (d.port p.1).wakeseen, wakecnt := (d.port p.1).wakecnt })))
    let d := r.basins.foldl (fun d p => (d.loadStores p.1).restoreModels p.1 p.2.logical) d
    d.setPow { d.pow with ret := none }

/-- The always-on part of the power block at a module reset: registers stay, counters start again (R441). -/
def Power.counted (p : Power) : Power :=
  { p with wakecnt := 0, trkcnt := 0, ovrcnt := 0, capcnt := 0, abortcnt := 0, coresWait := false, heldTlp := [] }

/-- Boot state at a module reset: what is held with the flash, the fuses and the sequencer stays; SRAM contents do not
(R409, R418, R430). -/
def Boot.afterReset (b : Boot) : Boot :=
  { b with ready := false, fallback := false, image := 0, step := 0, completed := false, nonce := none, backoff := none,
           retired := false, fusesRead := false, waiting := false, devseed := 0, fwkey := (0, 0), fwFromFlash := false,
           pieces := [], quarters := [], queue := [], staged := none, present := [], erasePend := [], erasing := none,
           recovery := if b.recoverNext then b.recovery else none, running := none, trial := false, candidate := 0, resumeStep := 0, updState := 0 }

/-- The cadence unit at a module reset: the CT counter in the always-on domain goes on counting; everything else is as after
reset (R267, R381). -/
def Cad.afterReset (c : Cad) : Cad := { ({} : Cad) with ct := c.ct }

/-- Every domain but the always-on one reset (R409, R434, R456): keys, ownership, tables, streams, ports and firmware state are
gone; FROZEN and DESTROYED clear. -/
def Dev.resetCore (d : Dev) : Dev :=
  { ({} : Dev) with cad := d.cad.afterReset, hostMem := d.hostMem, out := d.out, pow := { d.pow.counted with clkBase := 0, clkAt := d.ns }, boot := d.boot.afterReset,
                    still := { ({} : Still) with ir := d.still.ir, ignored := d.still.ignored, memaddr := d.still.memaddr,
                                                 scansel := d.still.scansel, boundary := d.still.boundary },
                    md := d.md, free := d.free }

end Sys2Proof.Machine
end

