-- ==== Sys2Proof/Machine/Progress.lean ====
section
/-! DEFINITION. What the core does of its own accord: link states, and fences from detection to completion (R301, R324, R336, R343 to
R348, R353). -/

namespace Sys2Proof.Machine

open Sys2Proof

/-! ### Link state (R301, R324) -/

/-- A port that goes DOWN: keys destroyed, replay buffer emptied, credits reset (R301). -/
def Port.down (x : Port) (now cause : Nat) : Port :=
  { x with state := 0, downcause := cause, lanes := 0, peerid := 0, rekeypend := false, keyTx := 0, keyRx := 0, saltTx := 0,
           saltRx := 0, oldRx := none, initiator := false, replay := [], queue := [], credits := [0, 0, 0, 0], freed := [0, 0, 0, 0],
           hello := none, finished := false, nonce := 0, eph := 0, txctr := 0, txseq := 1, rxseq := 1, acked := 0, fails := [], since := now }

/-- A LINK event: port, STATE and DOWNCAUSE (R377). -/
def Dev.linkEvent (d : Dev) (p : Nat) : Dev :=
  let x := d.port p
  d.raiseO 9 (if p = 4 then 0x1F5 else 0x1F4) p x.state x.downcause

/-- A PAIR event: pair state and JOINERR (R377). -/
def Dev.pairEvent (d : Dev) : Dev := d.raiseO 0xA 0x1F5 d.pair.state d.pair.joinerr 0

/-- Another pair state, with its event (R324). -/
def Dev.setPairState (d : Dev) (st : Nat) : Dev :=
  if d.pair.state = st then d else (d.setPair { d.pair with state := st }).pairEvent

/-- The runs of a training stream's period by the active table, each with its slot's offset from the period's start, ns (R244). -/
def Dev.periodRuns (d : Dev) (i : Nat) : List (Nat × Run) :=
  match d.cad.activeTable, d.train i with
  | some c, some t =>
    let h := handleOf i (d.stream i)
    let mine (k : Nat) : List Run := (Tab.at c.runs [] (k % c.nslot)).filter (fun r => r.entry.isSome && r.handle == h)
    let first := if c.slen = 0 then 0 else (t.startCt - c.fstart) / c.slen % c.nslot
    let from' := (((mine first).find? Run.take).map Run.tstart).getD 0
    (List.range (slotsToPost c h first from' + 1)).flatMap (fun n => (mine (first + n)).map (fun r => (n * c.slen, r)))
  | _, _ => []

/-- When the runs of a phase end: their end offsets from the period's start, ns. -/
def Dev.phaseEnds (d : Dev) (i ph : Nat) : List Nat :=
  ((d.periodRuns i).filter (fun r => d.phaseOf r.2 == ph)).map (fun r => r.1 + r.2.tend)

/-- A run of the stream in this phase is executing. -/
def Dev.phaseRunning (d : Dev) (i ph : Nat) : Bool :=
  d.basins.any (fun p => p.2.seq.active.any (fun a => runIndex a.run == i && a.run.entry.isSome && d.phaseOf a.run == ph))

/-- Runs of a phase of the open period are still to end. -/
def Dev.phaseOpen (d : Dev) (i ph startCt : Nat) : Bool :=
  d.phaseRunning i ph || (d.phaseEnds i ph).any (fun e => decide (d.ns < startCt + e))

/-- The remaining backward work of a period is abandoned (R283). -/
def Train.abandon (t : Train) : Train := if t.abandoned then t else { t with abandoned := true, nabandon := t.nabandon + 1 }

/-- The mirror link fails: a stream that offloads to the twin abandons its backward work where the link fails between store and fetch, which
the model takes from the first forward run to the last backward run of the period (R283; notes/assumptions/101.md). -/
def Dev.offloadLost (d : Dev) : Dev :=
  d.setTrains (Tab.mapv d.trains (fun i t =>
    let s := d.stream i
    if t.twinoff ≠ 0 ∧ s.period.isSome ∧ 0 < ((d.plan i s.planno).map Plan.offShare).getD 0 ∧ (t.phases.getD 0 {}).first.isSome
        ∧ d.phaseOpen i 1 t.startCt then t.abandon else t))

/-- The pair is UNPAIRED (R324, R340). Streams that a boundary is still to bring to mode none keep that boundary. -/
def Dev.unpair (d : Dev) : Dev :=
  (d.setPair { d.pair with twin := 0, detached := false, twinDetached := false, join := none, cmpPend := false, hbmiss := 0, joinerr := 0,
                           roles := [], mirrors := [], ends := [], resyncs := [], owed := [], dones := [], maps := [] }).setPairState 0

/-- A port takes a state that is not DOWN. -/
def Dev.enter (d : Dev) (p st : Nat) : Dev := (d.putPort p { d.port p with state := st, since := d.ns }).linkEvent p

/-- A port goes DOWN with a cause. When the mirror link leaves UP, a PAIRED module is ISOLATED, and one that was told to detach is UNPAIRED
at once (R301, R324, R336, R340). -/
def Dev.portDown (d : Dev) (p cause : Nat) : Dev :=
  let x := d.port p
  if x.state = 0 then d
  else
    let d := (d.putPort p (x.down d.ns cause)).linkEvent p
    if p ≠ 4 then d
    else
      let d := (if x.state = 3 then d.offloadLost else d).setPair { d.pair with owed := [], dones := [] }
      if d.pair.detached then d.unpair else if x.state = 3 ∧ d.pair.state = 2 then d.setPairState 3 else d

/-! ### Fences (R343 to R348) -/

/-- The spare of a row may take a logical number: it is unused and healthy (R22). -/
def Dev.spareFree (d : Dev) (row : Nat) : Bool :=
  let r := Tab.at d.flt.rows {} row
  r.spstate == 0 && !bitOf r.fenced 16

/-- Bytes that a spare restores: every segment of the logical basin that a resident model holds (R346). -/
def Dev.restoreBytes (d : Dev) (l : Nat) : Nat :=
  d.models.foldl (fun n m => n + 65536 * (m.2.segs.filter (fun s => s.lbasin == l)).length) 0

/-- The spare-map row after the fence of a column (R345): the spare takes the number of a first column, a second leaves its
number absent, and a fenced spare is FAILED. `from'` is when a restore begins to copy, `fin` when it ends. -/
def SpareRow.fence (r : SpareRow) (col from' fin : Nat) : SpareRow :=
  let f := if bitOf r.fenced col then r.fenced else r.fenced + 2 ^ col
  if col = 16 then { r with fenced := f, spstate := 3, restoreEnd := none }
  else if r.spstate = 0 then { r with fenced := f, spstate := 1, fcol := col, restoreFrom := from', restoreEnd := some fin }
  else { r with fenced := f }

/-- The slot length under the largest slew, and the start of the replay reserve, in tenths of a nanosecond (R247). -/
def effTenths (slen : Nat) : Nat := slen * 9999 / 1000
def limTenths (slen : Nat) : Nat := slen * 9999 * 94 / 100000

/-- The plan step of a run is replayable, and its stream is not hot-mirrored: such runs are never replayed (R329, R347). -/
def Dev.replayable (d : Dev) (r : Run) : Bool :=
  ((d.planStep r).map PlanStep.replayable).getD false && (d.stream (runIndex r)).mirror != 2

/-- The spare takes the logical number of a fenced basin and loads its program store (R105, R344, R346). -/
def Dev.takeOver (d : Dev) (row l : Nat) : Dev :=
  let sp := row * 17 + 16
  (d.putBasin sp { d.basin sp with logical := l }).loadStores sp

/-- Hold traffic whose epoch does not match, 64 entries for each receiver; false where its quarantine is full (R353). -/
def Dev.quarantine (d : Dev) (q : Quar) : Dev × Bool :=
  if (d.flt.quar.filter (fun e => e.recv == q.recv)).length < 64 then
    (d.setFlt { d.flt with quar := d.flt.quar ++ [{ q with slot := d.slotStart }] }, true)
  else (d, false)

/-- A fence of this basin is under way. -/
def Dev.fencing (d : Dev) (b : Nat) : Bool := d.flt.fencing.any (fun f => f.basin == b)

/-- A fence of a basin of this row is under way: its spare takes nothing before it is complete. -/
def Dev.rowFencing (d : Dev) (row : Nat) : Bool := d.flt.fencing.any (fun f => f.basin / 17 == row)

/-- A basin in service: its view is not FENCED, and no fence has stopped it. -/
def Dev.inService (d : Dev) (b : Nat) : Bool := decide (b < 272) && (d.mgmtView b).state != 2 && !d.fencing b

/-- The basin's run stops for a fence. It fails its period with 0x0600 unless a free spare is to replay it (R347, R464); its writes that
were not acknowledged carry the old epoch and are quarantined, those that find the quarantine full being lost (R348, R353). -/
def Dev.fenceStop (d : Dev) (b : Nat) : Dev :=
  let x := d.basin b
  match x.seq.active with
  | none => d
  | some a =>
    let ws := writePackets (d.unacked x.seq.ops)
    let again := d.spareFree (b / 17) && decide (b % 17 ≠ 16) && d.replayable a.run
    let d := if again then (d.haltRun b none).setFlt { d.flt with replays := d.flt.replays ++ [(x.logical, a.run)] } else d.haltRun b (some 0x600)
    ws.foldl (fun d w => (d.quarantine { recv := 0x1F8 + ctrlOf w.1, src := b, epoch := a.epoch.toNat, domain := a.run.domain, addr := w.1,
                                         len := w.2.length, write := true, bytes := w.2, handle := a.run.handle }).1) d

/-- FENCED under a new epoch, written to every check table and to the basin (R344, R350). -/
def Dev.fenceState (d : Dev) (b : Nat) : Dev :=
  let d := d.writeState b 2
  d.setFlt { d.flt with reissue := d.flt.reissue.filter (· ≠ b), reissueDue := d.flt.reissueDue.filter (· ≠ b) }

/-- The router sinks the basin's traffic (R216, R344). -/
def Dev.fenceSink (d : Dev) (b : Nat) : Dev :=
  let x := d.basin b
  d.putBasin b { x with cis := { x.cis with weirFenced := true } }

/-- A fence is complete at CT `ct`: the spare takes the logical number and, in an immediate fence, starts restoring; in a planned one it
has restored already. Runs delivered to the basin go with the number (R344, R345, R346). -/
def Dev.fenceDone (d : Dev) (b cls ct slot : Nat) (planned : Bool) : Dev :=
  let x := d.basin b
  let row := b / 17
  let l := x.logical
  let free := d.spareFree row && decide (b % 17 ≠ 16)
  let d := d.putBasin b { x with logical := 0x1FF, delivered := [], coming := [] }
  let fin := ct + (if d.pow.bclk = 0 then 0 else d.restoreBytes l * 1000 / (256 * d.pow.bclk))
  let r := { (Tab.at d.flt.rows {} row).fence (b % 17) ct fin with fencedSlot := slot }
  let d := d.setFlt { d.flt with rows := Tab.put d.flt.rows row r, fencecnt := d.flt.fencecnt + 1, planned := d.flt.planned.filter (· ≠ b) }
  let d := if free then
      let d := d.takeOver row l
      let y := d.basin (row * 17 + 16)
      d.putBasin (row * 17 + 16) { y with delivered := y.delivered ++ x.delivered, coming := y.coming ++ x.coming }
    else d.setCad { d.cad with absent := d.cad.absent ++ x.delivered, absentNext := d.cad.absentNext ++ x.coming }
  let d := if free && planned then
      (d.restoreModels (row * 17 + 16) l).setFlt { d.flt with rows := Tab.put d.flt.rows row { r with spstate := 2, restoreEnd := none } }
    else d
  d.raiseAt ct { type := 6, domain := 0x3FF, source := b, d0 := l, d1 := bit01 planned, d2 := cls }

/-- An immediate fence is detected: the basin stops at once, and the fence runs its course (R344). -/
def Dev.fence (d : Dev) (b cls : Nat) : Dev :=
  if !d.inService b then d
  else
    let d := d.fenceStop b
    d.setFlt { d.flt with fencing := d.flt.fencing ++ [{ basin := b, cls := cls, tf := d.ns, slot := d.slotStart }] }

/-- A planned fence at a frame boundary: no run is in progress (R343). -/
def Dev.fencePlanned (d : Dev) (b cls : Nat) : Dev := (((d.fenceStop b).fenceState b).fenceSink b).fenceDone b cls d.ns d.slotStart true

/-- One fence under way comes as far as the present CT allows: 0.5 µs, 1.5 µs and 3.0 µs after its detection (R344). -/
def Dev.fenceProgress (d : Dev) (f : Fencing) : Dev :=
  let e := d.ns - f.tf
  let d := if f.stage = 0 ∧ 500 ≤ e then d.fenceState f.basin else d
  let d := if f.stage ≤ 1 ∧ 1500 ≤ e then d.fenceSink f.basin else d
  if 3000 ≤ e then d.fenceDone f.basin f.cls (f.tf + 3000) f.slot false
  else d.setFlt { d.flt with fencing := d.flt.fencing ++ [{ f with stage := if 1500 ≤ e then 2 else if 500 ≤ e then 1 else f.stage }] }

/-- What has fallen due by the present CT: every fence under way goes on. -/
def Dev.due (d : Dev) : Dev :=
  if d.flt.fencing.isEmpty then d else d.flt.fencing.foldl (fun d f => d.fenceProgress f) (d.setFlt { d.flt with fencing := [] })

/-- The fences of a row run to their completion. -/
def Dev.fenceRow (d : Dev) (row : Nat) : Dev :=
  match d.flt.fencing.filter (fun f => f.basin / 17 == row) with
  | [] => d
  | fs => (d.atNs ((fs.map Fencing.tf).foldl max 0 + 3000)).due

/-! ### Commands of the core -/

/-- A change of the core part of the die, after what has fallen due. -/
def onCore (g : Dev → Dev) (s : State) : Host.Outcome State Fault Refusal := answer (onlyIf Dev.coreOn (fun d => g d.due)) s

end Sys2Proof.Machine
end

