-- ==== Sys2Proof/Machine/Power.lean ====
section
/-! DEFINITION. Power states, the sequencer, wakes, the governor, overrides, shutdowns and the module's power pins (R381 to
R401, R447 to R456). -/

namespace Sys2Proof.Machine

open Sys2Proof

/-! ### Pins -/

/-- The module's outputs that can float (R449). -/
inductive Output where
  | pcieTx | linkTx | tdo | wakeN | smbus | smbAlertN | thermAlertN | pgood
  deriving DecidableEq, Repr

/-- SMB_ALERT_N is driven low while the supervisor's buffer holds an event that EVENT_FETCH has not returned (R379). -/
def Dev.smbAlert (d : Dev) : Bool := !d.fh.supBuf.isEmpty

/-- An output floats, or is released, in the present state (R447 to R449). TDO also floats outside the shift states, and SMB_CLK and
SMB_DAT whenever the bus releases them. -/
def Dev.floats (d : Dev) (o : Output) : Bool :=
  let off := d.pow.stable == 1 && !d.pow.moving
  match o with
  | .pcieTx => off || !d.md.auxOk
  | .linkTx => decide (d.pow.stable < 3) || !d.md.auxOk
  | .tdo => off || !d.md.auxOk
  | .wakeN => d.md.wakeN.isNone
  | .smbus => off || !d.md.auxOk
  | .smbAlertN => off || !d.smbAlert
  | .thermAlertN => !d.md.therm
  | .pgood => d.md.pgood || !d.md.auxOk

/-- THERM_ALERT_N is asserted while the thermal override is active, the inlet reads above 45 °C, or a thermal shutdown has not
been cleared by PWR_EN (R448). In Off it is released but for the last case (R447). -/
def Dev.setTherm (d : Dev) : Dev :=
  let off := d.pow.stable == 1 && !d.pow.moving
  d.setMd { d.md with therm := d.md.thermShut || (!off && (d.pow.temp || d.md.inletHigh)) }

/-- The sequencer drives PGOOD low at AUX_ON and releases it from CORE_ON on (R448). -/
def Dev.setPgood (d : Dev) (v : Bool) : Dev := d.setMd { d.md with pgood := v }

/-! ### The governor (R399, R400) -/

/-- The effective floor: the larger of the policy floor and the active table's FLOOR (R399). -/
def Dev.effFloor (d : Dev) : Nat := max d.pow.floor ((d.cad.activeTable.map Table.floor).getD 0)

/-- The highest basin clock of the state: 2.0 GHz in Run, 1.2 GHz in Trim (R399). -/
def Dev.maxClock (d : Dev) : Nat := if d.pow.state = 1 then 1200 else 2000

/-- The effective cap: the policy cap, in Trim at most 700 W (R399). -/
def Dev.effCap (d : Dev) : Nat := if d.pow.state = 1 then min d.pow.cap 700 else d.pow.cap

/-- The core rail, body bias and memory assist of a clock in Run or Trim (R390). The rail's place within its range is open. -/
def Power.biased (p : Power) (clk : Nat) : Power :=
  let pick (lo hi : Nat) : Nat := max lo (min hi (Config.freeValue clk).toNat)
  if 1600 < clk then { p with vcore := pick 800 850, bias := 150, wlud := false, assist := false }
  else if 800 ≤ clk then { p with vcore := pick 650 800, bias := 0, wlud := false, assist := false }
  else { p with vcore := pick 550 650, bias := 0, wlud := true, assist := true }

/-- Reservoir traffic of the slot above 60 % of the 16,384 GB/s peak (R28, R399). R28 gives the limit as 60 % of peak and as 9.84 TB/s;
the model takes the 60 % exactly, 9,830.4 GB/s (DESIGN CHOICE, notes/assumptions/96.md). -/
def bwHigh (bytes slen : Nat) : Bool := decide (slen * 98304 < bytes * 10)

/-- Count slots toward a release: reset while the trigger holds, else one more while the release condition holds. -/
def releaseCount (n : Nat) (trigger calm : Bool) : Nat := if trigger then 0 else if calm then n + 1 else 0

/-- Raise an OVERRIDE event: 0 thermal, 1 current, 2 voltage, and the clock imposed (R30, R377). -/
def Dev.overrideEvent (d : Dev) (limit : Nat) : Dev :=
  (d.setPow { d.pow with ovrcnt := d.pow.ovrcnt + 1 }).raiseO 0x13 0x1F3 limit d.pow.bclk 0

/-- GOVERNOR_STEP with THERMAL_OVERRIDE: the clock of the new slot, from the last slot's power and traffic and the die's
temperature (R399, R400). -/
def Dev.governor (d : Dev) (m : Readings) (traffic slen : Nat) : Dev :=
  let p := d.pow
  let fl := d.effFloor
  let hot := decide (100 ≤ m.tj)
  let surge := decide (1150 < m.pin)
  let okT := releaseCount p.okTemp hot (decide (m.tj < 97))
  let okC := releaseCount p.okCurr surge (decide (m.pin < 1100))
  let okV := releaseCount p.okVolt (m.droop || decide (m.vin < 4000)) (decide (4100 ≤ m.vin) && !m.droop)
  let temp := hot || (p.temp && decide (okT < 8))
  let curr := p.curr && decide (okC < 8)
  let volt := p.volt && decide (okV < 8)
  let ovr := temp || curr || volt
  let capX := decide (d.effCap < m.pin)
  let bwX := bwHigh traffic slen
  let calm := if capX || bwX then 0 else p.calm + 1
  let lowT := if hot then max 400 (p.bclk - 100) else p.bclk
  let lowC := if curr && surge then max 400 (lowT - 100) else lowT
  let clk :=
    if ovr then lowC
    else if capX || bwX then max fl (p.bclk - 25)
    else if 8 ≤ calm then max fl (min d.maxClock (p.bclk + 100))
    else max fl (min d.maxClock p.bclk)
  let held := !ovr && capX && decide (clk ≤ fl)
  let q := { p with tjmax := m.tj, okTemp := okT, okCurr := okC, okVolt := okV, temp := temp, curr := curr, volt := volt,
                    calm := calm, bclk := clk, capheld := held, capcnt := if held then p.capcnt + 1 else p.capcnt,
                    bw := bwX, capLim := capX, atFloor := decide (clk = fl), override := decide (clk < fl), droop := m.droop }
  let d := d.setClock (q.biased clk)
  if hot && !p.temp then d.overrideEvent 0 else d

/-- CURRENT_OVERRIDE: input power above 1,150 W over 1 ms sets 1,200 MHz at once (R400). A lower clock stays. -/
def currentOverride (watts : Nat) (d : Dev) : Dev :=
  if watts ≤ 1150 ∨ d.pow.curr then d
  else
    let clk := min d.pow.bclk 1200
    let d := d.setClock ({ d.pow with curr := true, okCurr := 0, bclk := clk, override := decide (clk < d.effFloor) }.biased clk)
    (d.setMd { d.md with pin := watts }).overrideEvent 1

def execCurrentOverride (watts : Nat) (s : State) : Host.Outcome State Fault Refusal := onCore (currentOverride watts) s

/-- VOLTAGE_OVERRIDE: input below 40 V or a droop alarm sets 800 MHz at once (R400, R451). -/
def voltageOverride (vin : Nat) (droop : Bool) (d : Dev) : Dev :=
  if (4000 ≤ vin ∧ !droop) ∨ d.pow.volt then d
  else
    let clk := min d.pow.bclk 800
    let d := d.setClock ({ d.pow with volt := true, okVolt := 0, droop := droop, bclk := clk, override := decide (clk < d.effFloor) }.biased clk)
    (d.setMd { d.md with vin := vin, vinok := decide (4000 ≤ vin) && decide (vin ≤ 6000) }).overrideEvent 2

def execVoltageOverride (vin : Nat) (droop : Bool) (s : State) : Host.Outcome State Fault Refusal := onCore (voltageOverride vin droop) s

/-! ### Links and units that a state change takes down -/

/-- Every port goes DOWN, each with its event, its cause unchanged where `cause` is none (R301, R385, R438). -/
def Dev.portsDown (d : Dev) (cause : Option Nat) : Dev :=
  (List.range 5).foldl (fun d p => d.portDown p (cause.getD (d.port p).downcause)) d

/-- The always-on domain reset with everything else: what survives is flash, fuses, journal and the boot counts (R409). -/
def Dev.toOff (d : Dev) : Dev :=
  let e := d.resetCore
  { e with cad := {}, pow := { e.pow with state := 4, stable := 1, moving := false, step := 0, latched := none, bclk := 0, clkBase := 0, clkAt := 0, vcore := 0,
                                          bias := 0, wlud := false, assist := false, ret := none, trkBuf := [], trkRef := [],
                                          fresh := 0, age := [], row0On := false, shutSeq := false, target := 0, calm := 0,
                                          temp := false, curr := false, volt := false, override := false, capheld := false },
           still := {} }

/-! ### The sequencer (R386, R397, R398) -/

/-- The stable point at which a state rests: READY 3, CORE_ON 2, AUX_ON 1 (R383). -/
def stableOf (st : Nat) : Nat := if st < 2 then 3 else if st < 4 then 2 else 1

/-- Start a step. -/
def Dev.beginStep (d : Dev) (k : Nat) : Dev := d.setPow { d.pow with moving := true, step := k, stepCt := d.ns }

/-- The first step from a stable point toward a state; none when already there (R397). -/
def firstStep (stable dest : Nat) : Option Nat :=
  let w := stableOf dest
  if stable = w then none
  else if stable < w then (if stable = 1 then some 1 else some 5)
  else if stable = 3 then some 9 else some 12

/-- Start moving toward a state, or stay where the state's stable point is the present one. -/
def Dev.goTo (d : Dev) (dest : Nat) : Dev :=
  match firstStep d.pow.stable dest with
  | none => d.setPow { d.pow with dest := dest, latched := none, moving := false, step := 0 }
  | some k => (d.setPow { d.pow with dest := dest, latched := none }).beginStep k

/-- What a step does when it completes (R397). -/
def Dev.stepEffect (d : Dev) (k : Nat) : Dev :=
  match k with
  | 2 => d.setPow { d.pow with vcore := 550 }
  | 5 => d.setRsv { d.rsv with ctrls := d.rsv.ctrls.map (fun c => { c with selfref := false }) }
  | 6 => d.setPow { d.pow with row0On := false, clkBase := 0, clkAt := d.ns }
  | 7 => let c := d.effFloor; d.setClock ({ d.pow with bclk := c }.biased c)
  | 8 => d.retentionRestore
  | 9 => d.retentionSave
  | 10 => (d.portsDown none).setBasins []
  | 11 => (d.setRsv { d.rsv with ctrls := d.rsv.ctrls.map (fun c => { c with selfref := true }) }).setClock
            { d.pow with bclk := 0, vcore := 550, bias := -300, wlud := true, assist := false }
  | 12 => d.resetCore
  | _ => d

/-- On entry to Trickle the unit takes the new parameters, copies every enabled slot into its reference and clears its
freshness (R392, R393). -/
def Power.enterTrickle (p : Power) : Power :=
  let t := p.trkNext.getD p.trk
  let ref := (List.range 64).foldl (fun r k =>
    if bitOf t.sloten k then Mem.writeBytes r (k * 16384) (Mem.readBytes p.trkBuf (k * 16384) 14400) else r) p.trkRef
  { p with trk := t, trkNext := none, trkRef := ref, fresh := p.fresh - (p.fresh &&& t.sloten), age := [] }

/-- A host write into the trickle window: bytes 14,400 on of a slot are ignored, and byte 14,399 makes its slot fresh (R391, R392). -/
def Power.windowWrite (p : Power) (off : Nat) (bs : List Byte) : Power :=
  bs.zipIdx.foldl (fun (q : Power) x =>
    let a := off + x.2
    if 14400 ≤ a % 16384 then q
    else { q with trkBuf := Mem.write q.trkBuf a x.1, fresh := if a % 16384 = 14399 then q.fresh ||| 2 ^ (a / 16384) else q.fresh }) p

/-- Accept the host writes that were held on the link in Rest (R391). -/
def Power.acceptHeld (p : Power) : Power := { p.heldTlp.foldl (fun (q : Power) w => q.windowWrite w.1 w.2) p with heldTlp := [] }

/-- Every core clock stops; the controllers have put the stacks in self-refresh (R432, R433, R436). -/
def Dev.freeze (d : Dev) : Dev :=
  ((d.setClock d.pow).setStill { d.still with frozen := true, pending := false, ignored := false, denied := false, since := d.ns }).setRsv
    { d.rsv with ctrls := d.rsv.ctrls.map (fun c => { c with selfref := true }) }

/-- Take a freeze that waited for a stable point (R432). -/
def Dev.takePending (d : Dev) : Dev :=
  if d.still.pending ∧ 2 ≤ d.pow.stable then d.freeze else d

/-- The sequencer arrives at a stable point: it turns toward a latched request, goes on, or rests in the state (R398). -/
def Dev.arrive (d : Dev) (sp : Nat) : Dev :=
  let old := d.pow.state
  let d := d.setPow { d.pow with stable := sp, moving := false, step := 0 }
  let d := d.setPgood (decide (2 ≤ sp))
  let dest := d.pow.latched.getD d.pow.dest
  let d := d.setPow { d.pow with latched := none, dest := dest }
  let d := if sp = 1 then { d.toOff with md := { d.md with pgood := false } } else d
  let d := if sp = 3 then
      let d := d.setPow { d.pow with state := 0, target := 0, coresWait := false,
                                     wakecnt := if old = 2 ∨ old = 3 then d.pow.wakecnt + 1 else d.pow.wakecnt }
      (d.setPow d.pow.acceptHeld).raiseO 0x14 0x1F3 old 0 d.pow.wakesrc
    else d
  let d := if sp = 3 ∧ d.md.perstPend then { d.resetCore with md := { d.resetCore.md with perstPend := false } } else d
  if d.md.perstPend ∧ sp = 2 then d.goTo 0
  else if stableOf dest = sp then
    if sp = 2 then
      let d := d.setPow { d.pow with state := dest }
      (if dest = 2 then d.setPow { d.pow.enterTrickle with trkCt := d.ns } else d).takePending
    else if sp = 1 then (d.setPow { d.pow with state := 4 }).raiseO 0x14 0x1F3 old 4 0
    else d.takePending
  else d.goTo dest

/-- SEQ_STEP_DONE: the step in progress ends; the next one starts, or a stable point is reached (R397, R398). A shutdown
turns to D4 and D5 (R452). -/
def seqStepDone (d : Dev) : Dev :=
  if !d.pow.moving then d
  else
    let k := d.pow.step
    let d := d.stepEffect k
    if d.pow.shutSeq ∧ k < 12 then (d.setPow { d.pow with shutSeq := false, dest := 4, latched := none }).beginStep 12
    else if k = 4 then d.arrive 2
    else if k = 8 then d.arrive 3
    else if k = 11 then d.arrive 2
    else if k = 13 then d.arrive 1
    else d.beginStep (k + 1)

def execSeqStepDone (s : State) : Host.Outcome State Fault Refusal := answer seqStepDone s

/-- The time limit of a step, ns (R397). -/
def stepLimit (k : Nat) : Nat :=
  [0, 1000000, 2000000, 3000000, 1000000, 500000, 700000, 500000, 1000000, 500000, 200000, 500000, 500000, 5000000].getD k 0

/-- A module fatal fault of class 0x0B: the module resets (R354). -/
def Dev.moduleFatal (d : Dev) : Dev := d.resetCore

/-- SEQ_STEP_TIMEOUT: a step exceeds its limit, a module fatal fault (R397). The module resets, and the sequencer stands at its
last stable point. -/
def seqStepTimeout (d : Dev) : Dev :=
  if !d.pow.moving then d
  else
    let e := (d.atNs (d.pow.stepCt + stepLimit d.pow.step)).moduleFatal
    e.setPow { e.pow with moving := false, step := 0 }

def execSeqStepTimeout (s : State) : Host.Outcome State Fault Refusal := answer seqStepTimeout s

/-- CORES_WAIT: both control cores execute the wait instruction. An enabled wake source already pending abandons the entry;
otherwise the sequencer steps down (R386). -/
def coresWait (d : Dev) : Dev :=
  match d.pow.latched with
  | none => d
  | some t =>
    if t < 2 ∨ !d.fh.inprog.isEmpty then d
    else
      let d := d.setPow { d.pow with target := t, coresWait := true }
      if d.pow.wakesrc &&& d.pow.wakeen ≠ 0 then
        d.setPow { d.pow with abortcnt := d.pow.abortcnt + 1, latched := none, target := 0, coresWait := false }
      else d.goTo t

def execCoresWait (s : State) : Host.Outcome State Fault Refusal := answer (onlyIf Dev.fwOn coresWait) s

/-! ### Wakes (R388, R448) -/

/-- WAKE_N is asserted when a source other than PCIe fires while the host link is not in L0 (R448). -/
def Dev.assertWakeN (d : Dev) (bit : Nat) : Dev :=
  if bit ≠ 0 ∧ !d.hw.l0 ∧ d.md.wakeN.isNone then d.setMd { d.md with wakeN := some d.ns } else d

/-- A wake source fires: recorded, and the device turns toward Run, when it is enabled and the device is in, entering or about
to enter Trickle or Rest; one more source that fires while the wake is made is recorded with the others (R386, R388, R396, R398). -/
def Dev.wake (d : Dev) (bit : Nat) : Dev :=
  let p := d.pow
  if !bitOf p.wakeen bit then d
  else
    let rec_ : Power := { p with wakesrc := p.wakesrc ||| 2 ^ bit }
    if !p.moving ∧ (p.state = 2 ∨ p.state = 3) ∧ p.stable = 2 then ((d.assertWakeN bit).setPow rec_).goTo 0
    else if p.moving ∧ (p.dest = 2 ∨ p.dest = 3) ∧ p.latched.isNone then
      (d.assertWakeN bit).setPow { rec_ with latched := some 0, abortcnt := p.abortcnt + 1 }
    else if !p.moving ∧ (p.latched = some 2 ∨ p.latched = some 3) then (d.assertWakeN bit).setPow rec_
    else if p.moving ∧ p.dest = 0 ∧ (p.state = 2 ∨ p.state = 3) then (d.assertWakeN bit).setPow rec_
    else if p.moving ∧ (p.dest = 2 ∨ p.dest = 3) ∧ p.latched = some 0 then (d.assertWakeN bit).setPow rec_
    else d

/-- A freeze stops the core, not the sequencer and detectors; while the clocks are stopped no wake is made (R432, R433). -/
def Dev.awake (d : Dev) : Bool := !d.still.frozen && !d.still.held

/-- PCIE_WAKE: a TLP from the host; in Trickle a write wholly inside the trickle window does not count (R388). -/
def pcieWake (inWindow : Bool) (d : Dev) : Dev := if inWindow ∧ d.pow.state = 2 then d else d.wake 0
def execPcieWake (inWindow : Bool) (s : State) : Host.Outcome State Fault Refusal := answer (onlyIf Dev.awake (pcieWake inWindow)) s

/-- RILL_TRAINING_WAKE (R388). -/
def execRillTrainingWake (s : State) : Host.Outcome State Fault Refusal := answer (onlyIf Dev.awake (fun d => d.wake 1)) s
/-- MIRROR_TRAINING_WAKE (R388). -/
def execMirrorTrainingWake (s : State) : Host.Outcome State Fault Refusal := answer (onlyIf Dev.awake (fun d => d.wake 2)) s

/-- WAKE_BURST_RECOGNISED: the detector of a port with WAKEEN = 1 sets WAKESEEN, counts the burst and signals the sequencer;
on a port that is TRAIN, KEYX or UP it sets WAKESEEN and nothing else (R318). The detector is always on; while the clocks are stopped no wake
is made (R433). -/
def wakeBurstRecognised (p : Nat) (d : Dev) : Dev :=
  let x := d.port p
  if !x.wakeen ∨ (d.pow.stable = 1 ∧ !d.pow.moving) then d
  else if x.state = 1 ∨ x.state = 2 ∨ x.state = 3 then d.putPort p { x with wakeseen := true }
  else
    let d := d.putPort p { x with wakeseen := true, wakecnt := x.wakecnt + 1 }
    if d.awake then d.wake 3 else d
def execWakeBurstRecognised (p : Nat) (s : State) : Host.Outcome State Fault Refusal := answer (wakeBurstRecognised p) s

/-- U1 to U4 need VIN48 in range, and after a thermal or overcurrent shutdown PWR_EN must have fallen and risen (R397, R452). -/
def Dev.mayStart (d : Dev) : Bool := d.pow.stable == 1 && !d.pow.moving && d.md.auxOk && !d.md.thermShut && !d.md.currShut

/-- WAKE_IN_N_FALL: wakes from Trickle and Rest, and starts the module from AUX_ON even while PWR_EN is low (R387, R456). -/
def wakeInNFall (d : Dev) : Dev :=
  if d.mayStart then d.goTo 0
  else if d.pow.moving ∧ d.pow.dest = 4 then d.setPow { d.pow with latched := some 0 }
  else d.wake 4
def execWakeInNFall (s : State) : Host.Outcome State Fault Refusal := answer (onlyIf Dev.awake wakeInNFall) s

/-- PWR_EN_RISE: from AUX_ON toward READY; a thermal shutdown is cleared once PWR_EN has fallen and risen (R387, R448, R452). -/
def pwrEnRise (d : Dev) : Dev :=
  if d.md.pwren then d
  else
    let d := (d.setMd { d.md with pwren := true, thermShut := d.md.thermShut && !d.md.pwrenFell, currShut := d.md.currShut && !d.md.pwrenFell, pwrenFell := false }).setTherm
    if d.mayStart then d.goTo 0
    else if d.pow.moving ∧ d.pow.dest = 4 ∧ d.pow.latched.isNone then d.setPow { d.pow with latched := some 0 }
    else d
def execPwrEnRise (s : State) : Host.Outcome State Fault Refusal := answer pwrEnRise s

/-- PWR_EN_FALL: latches a request for Off, which waits for a stable point and takes precedence over a pending reset. While
frozen the sequencer switches every domain but the always-on one off at once, skips D1 to D3 and runs D5 (R387, R398, R434,
R456). -/
def pwrEnFall (d : Dev) : Dev :=
  if !d.md.pwren then d
  else
    let d := d.setMd { d.md with pwren := false, pwrenFell := true, perstPend := false }
    if d.still.frozen ∨ d.still.held then
      let e := d.resetCore
      (e.setPow { e.pow with dest := 4, latched := none }).beginStep 13
    else if d.pow.moving then
      (if d.pow.dest = 4 then d.setPow { d.pow with latched := none } else d.setPow { d.pow with latched := some 4 })
    else if d.pow.stable = 1 then d
    else d.goTo 4
def execPwrEnFall (s : State) : Host.Outcome State Fault Refusal := answer pwrEnFall s

/-- PERST_N_ASSERT: at READY every domain but the always-on one resets; at CORE_ON it counts as a wake and resets at READY;
during a transition it waits for the stable point; at AUX_ON it has no effect. A freeze ends (R434, R456). -/
def perstNAssert (d : Dev) : Dev :=
  let d := d.setMd { d.md with perst := true }
  if d.pow.moving then d.setMd { d.md with perstPend := true }
  else if d.pow.stable = 3 then d.resetCore
  else if d.pow.stable = 2 then
    let e := if d.still.frozen ∨ d.still.held then d.resetCore else d
    (e.setMd { e.md with perstPend := true }).goTo 0
  else d
def execPerstNAssert (s : State) : Host.Outcome State Fault Refusal := answer perstNAssert s

/-- PERST_N_DEASSERT: the boot ROM that waited before B1 goes on, and the limit of B1 runs from here (R454). -/
def perstNDeassert (d : Dev) : Dev :=
  let d := d.setMd { d.md with perst := false }
  if d.boot.waiting then d.setBoot { d.boot with waiting := false, stepCt := d.ns } else d
def execPerstNDeassert (s : State) : Host.Outcome State Fault Refusal := answer perstNDeassert s

/-- WAKE_N_TIMEOUT: WAKE_N is released after 100 ms (R448). -/
def wakeNTimeout (d : Dev) : Dev :=
  match d.md.wakeN with
  | none => d
  | some t => let d := d.atNs (t + 100000000); d.setMd { d.md with wakeN := none }
def execWakeNTimeout (s : State) : Host.Outcome State Fault Refusal := answer wakeNTimeout s

/-- PCIE_LINK_L0: the host link reaches L0 and WAKE_N is released (R448). -/
def pcieLinkL0 (d : Dev) : Dev := (d.setMd { d.md with wakeN := none }).setHw { d.hw with l0 := true }
/-- The headworks is powered at CORE_ON and READY (R381). -/
def Dev.hwOn (d : Dev) : Bool := d.awake && decide (2 ≤ d.pow.stable)
def execPcieLinkL0 (s : State) : Host.Outcome State Fault Refusal := answer (onlyIf Dev.hwOn pcieLinkL0) s

/-! ### Shutdowns (R452) -/

/-- A shutdown: recorded in SHUT; the sequencer completes its step, skips D1 to D3 and runs D4 and D5. -/
def Dev.shutdown (d : Dev) (code : Nat) : Dev :=
  if d.pow.stable = 1 ∧ !d.pow.moving then d
  else
    let d := d.setMd { d.md with shut := code, perstPend := false }
    if d.pow.moving ∧ d.pow.step < 12 then d.setPow { d.pow with shutSeq := true, dest := 4, latched := none }
    else if d.pow.moving then d.setPow { d.pow with dest := 4, latched := none }
    else (d.setPow { d.pow with dest := 4, latched := none }).beginStep 12

/-- THERMAL_SHUTDOWN: restart only after PWR_EN falls and rises. -/
def execThermalShutdown (s : State) : Host.Outcome State Fault Refusal :=
  answer (fun d => if d.pow.stable = 1 ∧ !d.pow.moving then d
    else (((d.shutdown 1).setMd { (d.shutdown 1).md with thermShut := true, pwrenFell := false })).setTherm) s
/-- OVERCURRENT_SHUTDOWN: as thermal, without THERM_ALERT_N (R448). -/
def execOvercurrentShutdown (s : State) : Host.Outcome State Fault Refusal :=
  answer (fun d => if d.pow.stable = 1 ∧ !d.pow.moving then d
    else (d.shutdown 1).setMd { (d.shutdown 1).md with currShut := true, pwrenFell := false }) s
/-- UNDERVOLTAGE_SHUTDOWN: VIN48 below 38 V for 1 ms. -/
def execUndervoltageShutdown (s : State) : Host.Outcome State Fault Refusal :=
  answer (fun d => (d.shutdown 2).setMd { (d.shutdown 2).md with vinok := false }) s
/-- OVERVOLTAGE_SHUTDOWN: VIN48 above 62 V for 100 µs. -/
def execOvervoltageShutdown (s : State) : Host.Outcome State Fault Refusal :=
  answer (fun d => (d.shutdown 3).setMd { (d.shutdown 3).md with vinok := false }) s

/-- VIN_RESTORED: VIN48 has stayed in range for 100 ms; with PWR_EN high an under- or overvoltage shutdown restarts as a new
boot attempt (R452). -/
def vinRestored (d : Dev) : Dev :=
  let d := d.setMd { d.md with vinok := true }
  if d.md.pwren ∧ (d.md.shut = 2 ∨ d.md.shut = 3) ∧ d.mayStart then d.goTo 0 else d
def execVinRestored (s : State) : Host.Outcome State Fault Refusal := answer vinRestored s

/-- AUX_LOSS: every rail is discharged without sequencing and the always-on domain itself is off; flash and fuses stay (R452,
R460). -/
def auxLoss (d : Dev) : Dev :=
  let e := d.toOff
  { e with pow := { ({} : Power) with stable := 0 }, boot := { e.boot with attempts := 0, cause := 0, detail := 0, fails := 0 },
           md := { ({} : Mod) with twinpres := d.md.twinpres, pwren := d.md.pwren, perst := d.md.perst, still := d.md.still,
                                   auxOk := false } }
def execAuxLoss (s : State) : Host.Outcome State Fault Refusal := answer auxLoss s

/-- AUX_RETURN: 3V3_AUX enters its range and the sequencer comes to AUX_ON, as a cold start (R454). -/
def auxReturn (d : Dev) : Dev :=
  if d.md.auxOk then d else (d.setPow { d.pow with stable := 1, state := 4 }).setMd { d.md with auxOk := true }
def execAuxReturn (s : State) : Host.Outcome State Fault Refusal := answer auxReturn s

/-! ### Temperatures -/

/-- COOLANT_INLET_HIGH: the inlet reading crosses 45 °C and asserts or releases THERM_ALERT_N (R448). -/
def coolantInletHigh (t : Nat) (d : Dev) : Dev := (d.setMd { d.md with tinlet := t, inletHigh := decide (45 < t) }).setTherm
/-- The monitors of the always-on domain work in every state but Off (R381). -/
def Dev.aonOn (d : Dev) : Bool := !(d.pow.stable == 1 && !d.pow.moving) && d.md.auxOk
def execCoolantInletHigh (t : Nat) (s : State) : Host.Outcome State Fault Refusal := answer (onlyIf Dev.aonOn (coolantInletHigh t)) s

/-- REFRESH_RATE_CHANGE: a stack above 85 °C takes doubled refresh (R220, R232). -/
def refreshRateChange (n t : Nat) (d : Dev) : Dev :=
  d.putCtrl n { d.ctrl n with temp := t, refmode := if 85 < t then 1 else 0 }
def execRefreshRateChange (n t : Nat) (s : State) : Host.Outcome State Fault Refusal := onCore (refreshRateChange n t) s

end Sys2Proof.Machine
end

