-- ==== Sys2Proof/Machine/Time.lean ====
section
/-! DEFINITION. Time sources, their selection, and the correction of CT (R233 to R238, R267, R367). -/

namespace Sys2Proof.Machine

open Sys2Proof

/-! ### Steps of CT (R235, R237) -/

/-- A CT in ns that a step of `n` (2^-16 ns) carries with it. -/
def stepNs (n : Int) (t : Nat) : Nat := ((t : Int) + n / 65536).toNat

/-- A CT in 2^-16 ns that a step carries with it. -/
def stepFine (n : Int) (t : Nat) : Nat := ((t : Int) + n).toNat

def Source.stepCt (s : Source) (n : Int) : Source := { s with last := s.last.map (stepFine n) }

def Port.stepCt (p : Port) (n : Int) : Port :=
  { p with since := stepNs n p.since, lastRx := stepNs n p.lastRx, lastTx := stepNs n p.lastTx, lastAck := stepNs n p.lastAck,
           lastInit := stepNs n p.lastInit, lastBurst := stepNs n p.lastBurst, lastSync := stepNs n p.lastSync, fails := p.fails.map (stepNs n) }

def SpareRow.stepCt (r : SpareRow) (n : Int) : SpareRow :=
  { r with restoreEnd := r.restoreEnd.map (stepNs n), restoreFrom := stepNs n r.restoreFrom, fencedSlot := stepNs n r.fencedSlot }

def Power.stepTime (p : Power) (n : Int) : Power :=
  { p with clkAt := stepNs n p.clkAt, stepCt := stepNs n p.stepCt, trkCt := stepNs n p.trkCt }

def Boot.stepTime (b : Boot) (n : Int) : Boot :=
  { b with stepCt := stepNs n b.stepCt, backoff := b.backoff.map (stepNs n),
           recovery := b.recovery.map (fun x => { x with lastCt := stepNs n x.lastCt }) }

def CisRegs.stepCt (c : CisRegs) (n : Int) : CisRegs := { c with ueTimes := c.ueTimes.map (stepNs n), ceTimes := c.ceTimes.map (stepNs n) }

def Period.stepCt (p : Period) (n : Int) : Period := { p with deadline := stepNs n p.deadline, postEnd := stepNs n p.postEnd }

def Stream.stepCt (s : Stream) (n : Int) : Stream :=
  { s with period := s.period.map (fun p => p.stepCt n), due := s.due.map (fun p => p.stepCt n) }

def Phase.stepCt (p : Phase) (n : Int) : Phase := { p with first := p.first.map (stepNs n), fin := p.fin.map (stepNs n) }

def Train.stepCt (t : Train) (n : Int) : Train := { t with startCt := stepNs n t.startCt, phases := t.phases.map (fun p => p.stepCt n) }

/-- Boundaries that wait keep their frame when the frames move (R246). -/
def Pair.stepCt (p : Pair) (n : Int) : Pair :=
  { p with detachAt := p.detachAt.map (stepNs n), roles := p.roles.map (fun r => (r.1, r.2.1, stepNs n r.2.2)),
           mirrors := p.mirrors.map (fun m => (m.1, stepNs n m.2)), ends := p.ends.map (fun m => (m.1, stepNs n m.2)),
           resyncs := p.resyncs.map (fun m => (m.1, stepNs n m.2.1, m.2.2)), dones := p.dones.map (fun m => (m.1, stepNs n m.2)) }

/-- Fences under way keep their distance from the present, and what belongs to a slot belongs to it where the slot now stands. -/
def Fault3.stepCt (f : Fault3) (n : Int) : Fault3 :=
  { f with rows := Tab.mapv f.rows (fun _ r => r.stepCt n), quar := f.quar.map (fun q => { q with slot := stepNs n q.slot }),
           fencing := f.fencing.map (fun x => { x with tf := stepNs n x.tf, slot := stepNs n x.slot }) }

/-- CT steps by `n` (2^-16 ns). A step moves CT and no elapsed time: whatever was timed from an earlier CT is timed from that CT moved
by the step, and a boundary that waits stays where its frame is (notes/assumptions/97.md). -/
def Dev.stepCt (d : Dev) (n : Int) : Dev :=
  let c := d.cad
  { d with
    cad := { c with ct := stepFine n c.ct, ptmErr := c.ptmErr - n, holdStart := c.holdStart.map (stepFine n), holdUntil := stepNs n c.holdUntil,
                    pps := c.pps.stepCt n, ptm := c.ptm.stepCt n, rill := c.rill.stepCt n }
    basins := Tab.mapv d.basins (fun _ x => { x with cis := x.cis.stepCt n })
    streams := Tab.mapv d.streams (fun _ s => s.stepCt n)
    trains := Tab.mapv d.trains (fun _ t => t.stepCt n)
    lib := { d.lib with queued := Tab.mapv d.lib.queued (fun _ x => { x with boundary := stepNs n x.boundary }) }
    rsv := { d.rsv with ctrls := d.rsv.ctrls.map (fun x => { x with ueTimes := x.ueTimes.map (stepNs n) }) }
    hw := { d.hw with lastPtm := d.hw.lastPtm.map (stepNs n) }
    fh := { d.fh with resetAt := d.fh.resetAt.map (fun x => (stepNs n x.1, x.2)) }
    ports := Tab.mapv d.ports (fun _ p => p.stepCt n)
    pair := d.pair.stepCt n
    flt := d.flt.stepCt n
    pow := d.pow.stepTime n
    boot := d.boot.stepTime n
    still := { d.still with since := stepNs n d.still.since }
    md := { d.md with ppsLast := d.md.ppsLast.map (stepFine n), wakeN := d.md.wakeN.map (stepNs n) } }

/-! ### Selection and correction -/

/-- The source of highest priority that is LOCKED: 1 PPS_IN, 2 PTM, 3 rill; 0 when none (R236). -/
def Cad.best (c : Cad) : Nat :=
  if c.pps.state = 2 then 1 else if c.ptm.state = 2 then 2 else if c.rill.state = 2 then 3 else 0

/-- SOURCE_SELECTION: take the best LOCKED source; with none, a device that was LOCKED enters HOLDOVER. Each change of
selection or state raises a time event (R236, R238). -/
def Dev.reselect (d : Dev) : Dev :=
  let c := d.cad
  let n := c.best
  let dev := if n ≠ 0 then 1 else if c.dev = 0 then 0 else 2
  if dev = c.dev ∧ n = c.sel then d
  else
    let hold := if dev = 2 then (if c.dev = 2 then c.holdStart else some c.ct) else none
    (d.setCad { c with dev := dev, sel := n, holdStart := hold, slew := if dev = 2 then 0 else c.slew,
                       holdReported := if dev = 2 then c.holdReported && c.dev == 2 else false }).timeEvent

/-- One millisecond in 2^-16 ns. -/
def oneMs : Int := 65536000000

/-- CT_CORRECTION: `err` is source time minus CT in 2^-16 ns. It is slewed when at most 1 ms; above that CT steps with no
table active, and DIVERGED is set and an event raised with one active (R237). -/
def Dev.correct (d : Dev) (err : Int) : Dev :=
  let c := { d.cad with pherr := err / 65536 }
  if -oneMs ≤ err ∧ err ≤ oneMs then d.setCad { c with slew := err, diverged := false }
  else if !c.active then (d.setCad { c with slew := 0, diverged := false }).stepCt err
  else (d.setCad { c with diverged := true, slew := 0 }).timeEvent

/-- Correct CT from a source if it is the selected one. -/
def Dev.correctFrom (d : Dev) (src : Nat) (err : Int) : Dev := if d.cad.sel = src ∧ d.cad.dev = 1 then d.correct err else d

/-- Take a change of the sources and select anew. -/
def Dev.withSources (d : Dev) (c : Cad) : Dev := (d.setCad c).reselect

/-- The TAI second an edge arriving now carries: while PTM is LOCKED the second nearest to PTM's time, else the label given by TIME_SET
(R235). -/
def Cad.edgeLabel (c : Cad) : Option Nat :=
  if c.ptm.state = 2 then some ((((c.ct : Int) + c.ptmErr + 32768000000000) / 65536000000000).toNat) else c.label

/-- CAD_TSTAT (R267). -/
def Cad.tstat (c : Cad) : Nat :=
  c.dev * 2 ^ 30 + c.sel * 2 ^ 28 + bit01 c.diverged * 2 ^ 27 + c.pps.state * 64 + c.ptm.state * 16 + c.rill.state * 4 + bit01 c.edgeLabel.isSome * 2

/-- PPS_IN after an edge `cycles` reference cycles after the previous one, with phase error `e` in 2^-16 ns where the edge is
labelled (R234). -/
def ppsNext (s : Source) (ct cycles : Nat) (refok : Bool) (e : Option Int) : Source :=
  let ok := s.last.isSome && refok && decide (9999999 ≤ cycles) && decide (cycles ≤ 10000001)
  let s1 := { s with last := some ct }
  if !refok then s1
  else
    match s.state with
    | 2 =>
      let bad := if ok then 0 else s.bad + 1
      if 2 ≤ bad then { s1 with state := 3, good := 0, spaced := 0, bad := 0 } else { s1 with bad := bad }
    | 1 =>
      if !ok then { s1 with spaced := 0, good := 0 }
      else if s.spaced < 3 then { s1 with spaced := s.spaced + 1, good := 0 }
      else
        match e with
        | none => { s1 with good := 0 }
        | some x =>
          if -(20 * 65536) < x ∧ x < 20 * 65536 then
            (if 8 ≤ s.good + 1 then { s1 with state := 2, good := 0, bad := 0 } else { s1 with good := s.good + 1 })
          else { s1 with good := 0 }
    | _ => { s1 with state := 1, spaced := 0, good := 0, bad := 0 }

/-- PPS_EDGE: an edge on PPS_IN is qualified, labelled and used (R234, R235, R237). -/
def ppsEdge (cycles : Nat) (d : Dev) : Dev :=
  let c := d.cad
  let lab := c.edgeLabel
  let e := lab.map (fun t => ((t * 65536000000000 : Nat) : Int) - (c.ct : Int))
  let d := d.setMd { d.md with ppsLast := some d.cad.ct }
  let d := d.withSources { c with pps := ppsNext c.pps c.ct cycles d.md.refok e, label := lab.map (· + 1) }
  match e with
  | some x => d.correctFrom 1 x
  | none => d

/-- The time inputs live in the always-on domain, which is off only in Off (R381); discipline stops during a freeze (R433). -/
def Dev.timeOn (d : Dev) : Bool := !d.still.frozen && !(d.pow.stable == 1 && !d.pow.moving)

def execPpsEdge (cycles : Nat) (s : State) : Host.Outcome State Fault Refusal := answer (onlyIf Dev.timeOn (ppsEdge cycles)) s

/-- A LOCKED source that heard nothing for its limit goes LOST; in QUAL its run toward LOCKED starts afresh (R234). -/
def lostAfter (s : Source) : Source := { s with state := if s.state = 2 then 3 else s.state, good := 0, spaced := 0, bad := 0 }

/-- The CT in ns at which a source that was last heard at `last` times out. -/
def timeoutAt (s : Source) (limit : Nat) : Option Nat :=
  if s.state = 1 ∨ s.state = 2 then s.last.map (fun t => t / 65536 + limit) else none

/-- PPS_TIMEOUT: no edge within 1.5 s. The label of the next edge is no longer known. -/
def ppsTimeout (d : Dev) : Dev :=
  match timeoutAt d.cad.pps 1500000000 with
  | none => d
  | some t =>
    let d := d.atNs t
    d.withSources { d.cad with pps := lostAfter d.cad.pps, label := none }

def execPpsTimeout (s : State) : Host.Outcome State Fault Refusal := answer (onlyIf Dev.timeOn ppsTimeout) s

/-- REFCLK_LOSS: REFCLK10 absent for 10 µs (R234, R460). -/
def refclkLoss (d : Dev) : Dev :=
  let d := d.setMd { d.md with refok := false }
  d.withSources { d.cad with pps := lostAfter d.cad.pps }

def execRefclkLoss (s : State) : Host.Outcome State Fault Refusal := answer (onlyIf Dev.timeOn refclkLoss) s

/-- REFCLK_RETURN: PPS_IN meets the first condition of its row again (R234). -/
def refclkReturn (d : Dev) : Dev :=
  let d := d.setMd { d.md with refok := true }
  d.setCad { d.cad with pps := if d.cad.pps.state = 3 then { d.cad.pps with state := 1, good := 0, spaced := 0 } else d.cad.pps }

def execRefclkReturn (s : State) : Host.Outcome State Fault Refusal := answer (onlyIf Dev.timeOn refclkReturn) s

/-- The event at CT `ct` follows the source's last one within two of its intervals of `gap` ns: none is missing between them
(notes/assumptions/97.md). -/
def Source.next (s : Source) (ct gap : Nat) : Bool := s.last.any (fun t => decide (ct < t + 2 * gap * 65536))

/-- A source that locks after `need` consecutive events, one every `gap` ns, whose residual stays below `lim` (2^-16 ns): PTM and rill
(R234). An event that is missing starts the run afresh. -/
def countNext (s : Source) (ct need gap : Nat) (lim err : Int) : Source :=
  let s1 := { s with last := some ct }
  if s.state = 2 then s1
  else
    let good := if -lim < err ∧ err < lim then (if s.state = 1 && s.next ct gap then s.good else 0) + 1 else 0
    if need ≤ good then { s1 with state := 2, good := 0 } else { s1 with state := 1, good := good }

/-- An event that does not count breaks the run toward LOCKED (R234, R316). -/
def Source.broken (s : Source) : Source := if s.state = 1 then { s with good := 0 } else s

/-- PTM_DIALOGUE: a dialogue with the root complex; `master` is the PTM master time as TAI in 2^-16 ns (R367). One that fails
breaks the run of consecutive dialogues. -/
def ptmDialogue (ok : Bool) (master : Nat) (d : Dev) : Dev :=
  if !ok then d.setCad { d.cad with ptm := d.cad.ptm.broken }
  else
    let err := (master : Int) - (d.cad.ct : Int)
    let d := d.setHw { d.hw with lastPtm := some d.ns }
    let d := d.withSources { d.cad with ptm := countNext d.cad.ptm d.cad.ct 16 10000000 (100 * 65536) err, ptmErr := err }
    d.correctFrom 2 err

/-- PTM runs while the headworks is on: not in Rest and Off (R383). -/
def Dev.ptmOn (d : Dev) : Bool := d.coreOn || (!d.still.frozen && d.pow.state == 2 && !d.pow.moving)

def execPtmDialogue (ok : Bool) (master : Nat) (s : State) : Host.Outcome State Fault Refusal :=
  answer (onlyIf Dev.ptmOn (ptmDialogue ok master)) s

/-- PTM_TIMEOUT: no successful dialogue for 500 ms. -/
def ptmTimeout (d : Dev) : Dev :=
  match timeoutAt d.cad.ptm 500000000 with
  | none => d
  | some t =>
    let d := d.atNs t
    d.withSources { d.cad with ptm := lostAfter d.cad.ptm }

def execPtmTimeout (s : State) : Host.Outcome State Fault Refusal := answer (onlyIf Dev.timeOn ptmTimeout) s

/-- RILL_TIME_TIMEOUT: no time frame for 10 ms. -/
def rillTimeTimeout (d : Dev) : Dev :=
  match timeoutAt d.cad.rill 10000000 with
  | none => d
  | some t => let d := d.atNs t; d.withSources { d.cad with rill := lostAfter d.cad.rill }

def execRillTimeTimeout (s : State) : Host.Outcome State Fault Refusal := answer (onlyIf Dev.timeOn rillTimeTimeout) s

/-- HOLDLIM_EXCEEDED: CAD_HOLDEST, rising at 100 ns per second, first exceeds CAD_HOLDLIM (R238). -/
def holdlimExceeded (d : Dev) : Dev :=
  match d.cad.holdStart with
  | none => d
  | some t =>
    if d.cad.holdReported then d
    else
      let d := d.atNs (t / 65536 + (d.cad.holdlim.toNat + 1) * 10000000)
      (d.setCad { d.cad with holdReported := true }).timeEvent

def execHoldlimExceeded (s : State) : Host.Outcome State Fault Refusal := answer (onlyIf Dev.timeOn holdlimExceeded) s

/-- A latched word of CAD_CT or CAD_CTF has been read; once both have, the latch is open again (R267). -/
def Cad.sawLatch (c : Cad) (high frac : Bool) : Cad :=
  let h := c.sawHigh || high
  let f := c.sawFrac || frac
  if c.latchHigh.isNone then c
  else if h && f then { c with latchHigh := none, latchFrac := none, sawHigh := false, sawFrac := false }
  else { c with sawHigh := h, sawFrac := f }

/-- CAD_CT_LOW_READ: a read of the low word latches the high word and CAD_CTF until both have been read (R267). -/
def cadCtLowRead (d : Dev) : Dev :=
  d.setCad { d.cad with latchHigh := some (d.cad.ct / 65536 / 2 ^ 32 % 2 ^ 32), latchFrac := some (d.cad.ct % 65536),
                        sawHigh := false, sawFrac := false }

def execCadCtLowRead (s : State) : Host.Outcome State Fault Refusal := onCore cadCtLowRead s

end Sys2Proof.Machine
end

