-- ==== Sys2Proof/Machine/Links.lean ====
section
/-! DEFINITION. Rill ports and the mirror link: states, frames, credits, retry, keys, time exchange and wake bursts (R298 to
R322). Port 4 is the mirror link. -/

namespace Sys2Proof.Machine

open Sys2Proof

/-! ### Buffers (R304, R306) -/

/-- Frame buffers per class at the receiver (R304). -/
def creditsOf (p : Nat) : Nat := if p = 4 then 64 else 32

/-- Frames the replay buffer holds (R306). -/
def replaySize (p : Nat) : Nat := if p = 4 then 128 else 64

/-! ### Frames on the lanes (R302, R309) -/

/-- The 32-byte header of a frame (R302). -/
def Frame.header (f : Frame) : List Byte :=
  leBytes 1 f.type ++ leBytes 1 (f.cls % 4 + f.keygen % 2 * 4 + bit01 f.nack * 8 + f.tsub % 4 * 16) ++ leBytes 2 f.payload.length ++
    leBytes 4 f.seq ++ leBytes 8 f.ctr ++ leBytes 4 f.ack ++ f.cred.flatMap (leBytes 1) ++ leBytes 4 f.rtag ++
    leBytes 4 (f.bucket % 2 ^ 12 + f.index % 2 ^ 14 * 2 ^ 12 + f.plo % 16 * 2 ^ 26)

/-- The bytes of a frame: header, padded payload and tag, the payload encrypted under the sender's key and salt. A KEYX frame goes in
clear and has no tag (R309; notes/assumptions/99.md). -/
def Frame.wire (f : Frame) (key salt : Nat) : List Byte :=
  let body := padBlock f.payload
  if f.type = 4 then f.header ++ body
  else
    let e := gcmSeal (beBytes 32 key) (beBytes 4 salt ++ beBytes 8 f.ctr) f.header body
    f.header ++ e.1 ++ e.2

/-! ### Sending (R302, R304 to R306, R309, R311) -/

/-- A port never sends a frame with CTR at or above 2^62 (R311). -/
def ctrStop : Nat := 2 ^ 62

/-- Put one frame on the lanes: CTR, KEYGEN, ACK, the credits freed and the key are those of this moment. -/
def Dev.transmit (d : Dev) (p : Nat) (f : Frame) : Dev :=
  let x := d.port p
  if x.state = 3 ∧ ctrStop ≤ x.txctr.toNat then d
  else
    let cred := x.freed.map (fun n => min n 255)
    let f := { f with ctr := if f.type = 4 then 0 else x.txctr.toNat, keygen := x.keygen, ack := (x.rxseq + 2 ^ 32 - 1) % 2 ^ 32, cred := cred }
    (d.putPort p { x with txctr := if f.type = 4 then x.txctr else x.txctr + 1, txfrm := x.txfrm + 1, lastTx := d.ns,
                          freed := List.zipWith (· - ·) x.freed cred }).emit (.frame p f (f.wire x.keyTx x.saltTx))

/-- Send one DATA or REKEY frame for the first time: it takes its SEQ, a credit if it is DATA, and a place in the replay
buffer (R304, R306). -/
def Dev.launch (d : Dev) (p : Nat) (f : Frame) : Dev :=
  let x := d.port p
  let f := { f with seq := x.txseq }
  let x := { x with txseq := (x.txseq + 1) % 2 ^ 32, replay := x.replay ++ [f],
                    lastAck := if x.replay.isEmpty then d.ns else x.lastAck,
                    credits := if f.type = 1 then x.credits.set f.cls (x.credits.getD f.cls 0 - 1) else x.credits }
  (d.putPort p x).transmit p f

/-- The classes in the order in which the port would serve them now: round robin after the class served last; on the mirror link class
0 before the others (R305, R320). -/
def Port.order (x : Port) (p : Nat) : List Nat :=
  let turn := (List.range 4).map (fun k => (x.rr + 1 + k) % 4)
  if p = 4 then 0 :: turn.filter (fun c => c ≠ 0) else turn

/-- The DATA frame to send next: the first of the first class that holds both a frame and a credit, on an UP port whose replay buffer
has room (R304 to R306). -/
def Port.next (x : Port) (p : Nat) : Option Frame :=
  if x.state ≠ 3 ∨ replaySize p ≤ x.replay.length then none
  else (x.order p).findSome? (fun c => if 0 < x.credits.getD c 0 then x.queue.find? (fun f => f.cls == c) else none)

/-- Serve the queue, at most `n` frames (R305). CTRL, KEYX, REKEY and TIME frames are put on the lanes when they are formed and so never
wait behind DATA. -/
def Dev.egress (d : Dev) (p : Nat) (n : Nat) : Dev :=
  match n with
  | 0 => d
  | k + 1 =>
    let x := d.port p
    match x.next p with
    | none => d
    | some f =>
      ((d.putPort p { x with queue := x.queue.erase f, rr := if p = 4 ∧ f.cls = 0 then x.rr else f.cls }).launch p f).egress p k

/-- Send what the queue holds and may be sent now. -/
def Dev.flush (d : Dev) (p : Nat) : Dev := d.egress p (d.port p).queue.length

/-- Send a DATA frame: it joins the queue, which is then served. -/
def Dev.send (d : Dev) (p : Nat) (f : Frame) : Dev :=
  let x := d.port p
  (d.putPort p { x with queue := x.queue ++ [f] }).flush p

/-- A CTRL frame (R302, R306). -/
def Dev.sendCtrl (d : Dev) (p : Nat) (nack : Bool) : Dev := d.transmit p { type := 2, nack := nack }

/-- Resend every unacknowledged frame from ACK + 1; one resent 8 times without acknowledgement takes the port DOWN (R306). -/
def Dev.resend (d : Dev) (p : Nat) : Dev :=
  let x := d.port p
  if x.replay.any (fun f => decide (8 ≤ f.resent)) then d.portDown p 2
  else
    let again := x.replay.map (fun f => { f with resent := f.resent + 1 })
    let d := d.putPort p { x with replay := again, retrycnt := x.retrycnt + BitVec.ofNat 64 again.length, lastAck := d.ns }
    again.foldl (fun d f => d.transmit p f) d

/-- A Heninaward control message on mirror class 0: code, three reserved bytes, payload (R330). -/
def Dev.sendMsg (d : Dev) (code rtag : Nat) (payload : List Byte) : Dev :=
  d.send 4 { type := 1, cls := 0, rtag := rtag, payload := leBytes 4 code ++ payload }

/-- Bytes sent in frames of at most 4 KiB, numbered from 0 (R302, R331). -/
def Dev.sendBytes (d : Dev) (p cls rtag bucket plo : Nat) (bs : List Byte) : Dev :=
  ((blocks (bs.length + 1) 4096 bs).zipIdx).foldl
    (fun d c => d.send p { type := 1, cls := cls, rtag := rtag, bucket := bucket, index := c.2, plo := plo % 16, payload := c.1 }) d

/-! ### Receiving (R300, R303, R304, R306) -/

/-- A tag that fails: counted; 64 within 1 ms take the port DOWN (R303). -/
def Dev.tagFail (d : Dev) (p : Nat) : Dev :=
  let x := d.port p
  let recent := (d.ns :: x.fails.filter (fun t => decide (d.ns < t + 1000000)))
  let d := d.putPort p { x with authfail := x.authfail + 1, fails := recent }
  if 64 ≤ recent.length then d.portDown p 3 else d

/-- A frame's ACK and credits (R304, R306). -/
def Port.acknowledge (x : Port) (f : Frame) (now : Nat) : Port :=
  let covered := x.replay.any (fun g => g.seq == f.ack)
  let rest := if covered then (x.replay.dropWhile (fun g => g.seq ≠ f.ack)).drop 1 else x.replay
  { x with replay := rest, acked := if covered then f.ack else x.acked, lastAck := if covered then now else x.lastAck,
           credits := List.zipWith (· + ·) x.credits f.cred }

/-- A frame under the new key verified: the old receive key is destroyed (R310); the partner's next CTR is one further. -/
def Port.seenKey (x : Port) (f : Frame) : Port :=
  if f.keygen = x.keygen then { x with oldRx := none, rxctr := f.ctr + 1 } else x

/-- A frame of this class and RTAG still waits at the mirror link, unsent or unacknowledged. -/
def Port.holds (x : Port) (cls h : Nat) : Bool := (x.replay ++ x.queue).any (fun f => f.type == 1 && f.cls == cls && f.rtag == h)

/-- Once the twin has acknowledged DONE, the primary mirrors from the first frame boundary two slots away (R341). -/
def Dev.doneAcked (d : Dev) : Dev :=
  let x := d.port 4
  let waits (h : Nat) : Bool := x.holds 0 h || d.pair.owed.any (fun o => o.1 == h)
  let go := d.pair.dones.filter (fun e => !waits (d.stream e.1).twin)
  d.setPair { d.pair with
    dones := d.pair.dones.filter (fun e => waits (d.stream e.1).twin)
    mirrors := d.pair.mirrors.filter (fun m => go.all (fun e => e.1 != m.1))
      ++ go.map (fun e => (e.1, d.frameAtOrAfter (max e.2 (d.ns + 2 * d.slen)))) }

/-- Messages whose class 2 frames have been acknowledged are sent (R330, R341). -/
def Dev.sendOwed (d : Dev) : Dev :=
  let x := d.port 4
  let go := d.pair.owed.filter (fun o => !x.holds 2 o.1)
  let d := d.doneAcked
  let d := d.setPair { d.pair with owed := d.pair.owed.filter (fun o => x.holds 2 o.1) }
  go.foldl (fun d o =>
    let d := d.sendMsg o.2.1 o.1 o.2.2
    if o.2.1 = 3 then d.setPair { d.pair with posts := d.pair.posts + 1 } else d) d

/-- The codewords of an arrival are counted (R300). -/
def Port.decoded (x : Port) (c : Fec) : Port :=
  { x with fecce := x.fecce + BitVec.ofNat 64 c.corrected, fecue := x.fecue + BitVec.ofNat 64 c.uncorrectable }

/-- A frame is accepted: counted (R322). -/
def Port.accept (x : Port) : Port := { x with rxfrm := x.rxfrm + 1 }

/-- A frame is discarded: counted (R302, R303, R322). -/
def Port.drop (x : Port) : Port := { x with discard := x.discard + 1 }

/-- What every GCM-protected frame does first at an UP port: its codewords are counted; one that did not decode or whose tag fails is
discarded and NACKed (R300, R303, R306); of a good one the ACK and the credits are taken, whatever its type (R304, R306), and what waited for
them is sent. `true` where the frame is good and the port still UP. -/
def Dev.received (d : Dev) (a : Arrival) : Dev × Bool :=
  let p := a.port
  if (d.port p).state ≠ 3 then (d, false)
  else
    let d := d.putPort p ((d.port p).decoded a.fec)
    if a.fec.uncorrectable ≠ 0 then (d.sendCtrl p true, false)
    else if !a.tagOk then
      let d := d.tagFail p
      (if (d.port p).state = 3 then d.sendCtrl p true else d, false)
    else
      let d := d.putPort p { ((d.port p).acknowledge a.frame d.ns).seenKey a.frame with lastRx := d.ns }
      ((if p = 4 then d.sendOwed else d).flush p, true)

/-- Whether a good DATA or REKEY frame is the next in order. A SEQ ahead is NACKed; one already received, which is at most half the number
circle behind, is discarded without a NACK (R303, R306). -/
def Dev.inOrder (d : Dev) (a : Arrival) : Dev × Bool :=
  let x := d.port a.port
  if a.frame.seq = x.rxseq then (d, true)
  else if (x.rxseq + 2 ^ 32 - a.frame.seq % 2 ^ 32) % 2 ^ 32 < 2 ^ 31 then (d.putPort a.port x.drop, false)
  else (d.sendCtrl a.port true, false)

/-- The frame in order is taken: the next SEQ is expected (R303, R306). -/
def Port.advance (x : Port) : Port := { x with rxseq := (x.rxseq + 1) % 2 ^ 32, refused := none }

/-- A buffer of a class is free again; its credit goes out with the next frame (R304). -/
def Port.release (x : Port) (cls : Nat) : Port := { x with freed := x.freed.set cls (x.freed.getD cls 0 + 1) }

/-- A rill frame of an unknown RTAG is discarded and counted, and answered as R306 says of a frame discarded under R303: by a NACK. Its
credit is returned, once for each SEQ, since a retransmission takes none (R303, R304; notes/assumptions/99.md). -/
def Dev.refuseFrame (d : Dev) (a : Arrival) : Dev :=
  let x := (d.port a.port).drop
  let x := if x.refused = some a.frame.seq then x else { x.release a.frame.cls with refused := some a.frame.seq }
  (d.putPort a.port x).sendCtrl a.port true

/-- A payload is placed: by (RTAG, BUCKET, FRAME) on the rill (R313), for Heninaward on the mirror link, where a message of a reserved code
is discarded and counted (R330). -/
def Dev.place (d : Dev) (a : Arrival) : Dev :=
  let p := a.port
  let f := a.frame
  let code := ((f.payload.head?).getD 0).toNat
  let x := ((d.port p).advance).release f.cls
  if p ≠ 4 then (d.putPort p x.accept).setLink { d.link with placed := f :: d.link.placed }
  else if f.cls ≠ 0 then (d.putPort p x.accept).setPair { d.pair with placed := f :: d.pair.placed }
  else d.putPort p (if 1 ≤ code ∧ code ≤ 6 then x.accept else x.drop)

/-- DATA_FRAME (R303, R304, R306, R313): accepted in order, placed, its buffer freed, and acknowledged; a reserved TYPE is discarded and
counted (R302). -/
def dataFrame (a : Arrival) (d : Dev) : Dev :=
  let r := d.received a
  if !r.2 then r.1
  else if a.frame.type ≠ 1 then r.1.putPort a.port (r.1.port a.port).drop
  else
    let o := r.1.inOrder a
    if !o.2 then o.1
    else if a.port ≠ 4 ∧ !d.trains.any (fun t => t.2.rtag == a.frame.rtag) then o.1.refuseFrame a
    else (o.1.place a).sendCtrl a.port false

/-- CTRL_FRAME: acknowledgement, NACK and credits; a NACK resends (R306). -/
def ctrlFrame (a : Arrival) (d : Dev) : Dev :=
  let r := d.received a
  if !r.2 then r.1
  else
    let d := r.1.putPort a.port (r.1.port a.port).accept
    if a.frame.nack then d.resend a.port else d

/-- A good TIME frame: counted; it is consumed on arrival and never acknowledged by itself (R304, R306). -/
def Dev.timeFrame (d : Dev) (a : Arrival) : Dev × Bool :=
  let r := d.received a
  if r.2 then (r.1.putPort a.port (r.1.port a.port).accept, true) else r

/-- A KEYX frame on a port that is exchanging keys: its codewords are counted, and one that did not decode is discarded (R300). It carries
no tag, and no NACK can answer it (R302, R309). -/
def Dev.keyFrame (d : Dev) (a : Arrival) : Dev × Bool :=
  if (d.port a.port).state ≠ 2 then (d, false)
  else
    let x := (d.port a.port).decoded a.fec
    if a.fec.uncorrectable ≠ 0 then (d.putPort a.port x, false) else (d.putPort a.port x.accept, true)

/-! ### Bringing a port up (R301, R307, R308) -/

/-- Links are powered in Run and Trim only (R381). -/
def onLink (g : Dev → Dev) (s : State) : Host.Outcome State Fault Refusal := onCore g s

/-- The port trains when its variant is supported (R298). -/
def Dev.tryTrain (d : Dev) (p : Nat) : Dev :=
  let x := d.port p
  if x.enable ∧ x.variant < 2 ∧ x.state = 0 then d.enter p 1 else d

/-- PORT_ENABLE: ENABLE = 1 takes a DOWN port into TRAIN at once. -/
def execPortEnable (p : Nat) (s : State) : Host.Outcome State Fault Refusal :=
  onLink (fun d => (d.putPort p { d.port p with enable := true }).tryTrain p) s

/-- PORT_DISABLE: ENABLE = 0 takes the port DOWN and destroys its keys; it is the only way out of STOPPED. -/
def execPortDisable (p : Nat) (s : State) : Host.Outcome State Fault Refusal :=
  onLink (fun d => (d.putPort p { d.port p with enable := false, bursts := 0 }).portDown p 7) s

/-- DOWN_RETRY: 10 ms after a failure an enabled port trains again. -/
def execDownRetry (p : Nat) (s : State) : Host.Outcome State Fault Refusal :=
  onLink (fun d => if (d.port p).state = 0 ∧ (d.port p).enable then (d.atNs ((d.port p).since + 10000000)).tryTrain p else d) s

/-- RIL_TOPO_WRITE: takes effect only while no training stream exists; otherwise it is ignored and an event is raised (R322). -/
def rilTopoWrite (v : W32) (d : Dev) : Dev :=
  let n := v.toNat
  if d.trains.isEmpty then
    d.setLink { d.link with xdim := bitsOf n 27 24, nrank := bitsOf n 22 16, rank := bitsOf n 13 8, mode := bitsOf n 1 0 }
  else d.raiseO 9 0x1F4 0xFF 0 0

def execRilTopoWrite (v : W32) (s : State) : Host.Outcome State Fault Refusal := onLink (rilTopoWrite v) s

/-- The body of a HELLO: certificate chain, ephemeral public key, nonce (R307). -/
def helloBytes (eph nonce : Nat) : List Byte :=
  Config.certChain ++ beBytes 97 (publicKey (Config.scalar eph)) ++ beBytes 32 nonce

/-- The body of a FINISH: the device key's signature over the SHA-384 of both HELLOs, that of the lower identity first. `k` numbers the
draw that the signature takes (R307). -/
def finishBytes (ident k : Nat) (mine theirs : List Byte) : List Byte :=
  ecdsaSign Config.deviceKey (Config.scalar k) (if Config.identity < ident then mine ++ theirs else theirs ++ mine)

/-- LANE_TRAINING_DONE: every lane of the port is trained; it enters KEYX and sends HELLO (R299, R301, R307). -/
def laneTrainingDone (p : Nat) (d : Dev) : Dev :=
  if (d.port p).state ≠ 1 then d
  else
    let n := d.random256
    let d := n.2
    let e := d.free
    let d := d.setFree (e + 1)
    let d := (d.putPort p { d.port p with lanes := if p = 4 then 8 else 4, nonce := n.1, eph := e, hello := none, finished := false }).enter p 2
    d.transmit p { type := 4, payload := helloBytes e n.1 }

def execLaneTrainingDone (p : Nat) (s : State) : Host.Outcome State Fault Refusal := onLink (laneTrainingDone p) s

/-- TRAIN_TIMEOUT: still in TRAIN after 100 ms. -/
def execTrainTimeout (p : Nat) (s : State) : Host.Outcome State Fault Refusal :=
  onLink (fun d => if (d.port p).state = 1 then (d.atNs ((d.port p).since + 100000000)).portDown p 9 else d) s

/-- KEYX_TIMEOUT: the exchange is not complete in 50 ms. -/
def execKeyxTimeout (p : Nat) (s : State) : Host.Outcome State Fault Refusal :=
  onLink (fun d => if (d.port p).state = 2 then (d.atNs ((d.port p).since + 50000000)).portDown p 4 else d) s

/-- LANE_LOSS: the loss of any lane takes a port that uses its lanes DOWN (R299); a STOPPED port leaves that state only when ENABLE is
written 0 (R301). When the other port of a ring pair still stands, frames travel on it alone, which the LINK event reports (R313). -/
def laneLoss (p : Nat) (d : Dev) : Dev := if (d.port p).state = 4 then d else d.portDown p 1

def execLaneLoss (p : Nat) (s : State) : Host.Outcome State Fault Refusal := onLink (laneLoss p) s

/-- The partner's identity is allowed: the attached twin on the mirror link, the allow list on a rill port with PEERPOL
(R307). -/
def Dev.peerAllowed (d : Dev) (p ident : Nat) : Bool :=
  if p = 4 then ident == d.pair.twin && d.pair.twin != 0 else !(d.port p).peerpol || d.link.allow.contains ident

/-- HELLO: the partner's chain and identity are checked, and FINISH is sent; a failed check takes the port DOWN, with cause
0x05 for policy and 0x04 otherwise, which a device without a key or a chain of its own meets too (R307, R425). The payload of `a` is the
partner's HELLO, of which `key` and `nonce` are the last parts. -/
def hello (a : Arrival) (ident key nonce : Nat) (chainOk : Bool) (d : Dev) : Dev :=
  let p := a.port
  let r := d.keyFrame a
  let d := r.1
  let x := d.port p
  if !r.2 then d
  else if !chainOk ∨ !d.boot.keyReady then d.portDown p 4
  else if !d.peerAllowed p ident then
    let d := if p = 4 then (d.setPair { d.pair with joinerr := 4 }).pairEvent else d
    d.portDown p 5
  else
    let k := d.free
    let d := (d.setFree (k + 1)).putPort p { x with hello := some (ident, key, nonce), finished := true }
    d.transmit p { type := 4, payload := finishBytes ident k (helloBytes x.eph x.nonce) a.frame.payload }

def execHello (a : Arrival) (ident key nonce : Nat) (chainOk : Bool) (s : State) : Host.Outcome State Fault Refusal :=
  onLink (hello a ident key nonce chainOk) s

/-- KEY_DERIVATION: keys and salts from the shared secret and the two nonces, in ascending order of identity (R308). -/
def deriveKeys (secret mine theirs myNonce theirNonce keygen : Nat) : Nat × Nat × Nat × Nat :=
  let lower := decide (mine < theirs)
  let salt := if lower then beBytes 32 myNonce ++ beBytes 32 theirNonce else beBytes 32 theirNonce ++ beBytes 32 myNonce
  let info : List Byte := [0x4C, 0x51, 0x56, 0x20, 0x6C, 0x69, 0x6E, 0x6B] ++ [BitVec.ofNat 8 keygen]
  let o := hkdf384 salt (beBytes 48 secret) info
  let kab := beNat (o.take 32)
  let kba := beNat ((o.drop 32).take 32)
  let sab := beNat ((o.drop 64).take 4)
  let sba := beNat ((o.drop 68).take 4)
  if lower then (kab, kba, sab, sba) else (kba, kab, sba, sab)

/-- The JOIN message of this module (R330). -/
def Dev.joinBytes (d : Dev) : List Byte :=
  let t := d.cad.activeTable.getD {}
  let ms := d.streams.filter (fun p => p.2.mirror ≠ 0)
  leBytes 4 d.fh.fwversion.toNat ++ leBytes 4 t.slen ++ leBytes 4 t.nslot ++
    leBytes 8 (if t.slen * t.nslot = 0 then 0 else t.fstart % (t.slen * t.nslot)) ++ leBytes 4 d.cad.tstat ++
    ms.flatMap (fun p => leBytes 4 (handleOf p.1 p.2) ++ leBytes 4 (p.2.role + bit01 p.2.home * 2))

/-- JOIN is sent; where it names no table, this module's first swap is to be compared (R323, R330). -/
def Dev.sendJoin (d : Dev) : Dev := (d.setPair { d.pair with cmpPend := !d.cad.active }).sendMsg 1 0 d.joinBytes

/-- An ISOLATED pair whose mirror link is UP joins again (R324). -/
def Dev.joinAgain (d : Dev) : Dev := (if d.pair.state = 3 then d.setPairState 1 else d).sendJoin

/-- The mirror link came UP: each module sends JOIN (R324, R330). -/
def Dev.mirrorUp (d : Dev) : Dev := if d.pair.twin = 0 then d else d.joinAgain

/-- FINISH: when the partner's signature verifies, keys are derived, credits set and the port is UP (R301, R304, R307, R308). -/
def finish (a : Arrival) (sigOk : Bool) (d : Dev) : Dev :=
  let p := a.port
  let r := d.keyFrame a
  let d := r.1
  let x := d.port p
  match r.2, x.hello with
  | true, some h =>
    if !sigOk then d.portDown p 4
    else
      let k := deriveKeys (ecdh (Config.scalar x.eph) h.2.1) Config.identity h.1 x.nonce h.2.2 0
      let n := creditsOf p
      let d := d.putPort p { x with keygen := 0, keyTx := k.1, keyRx := k.2.1, saltTx := k.2.2.1, saltRx := k.2.2.2, oldRx := none,
                                    peerid := h.1, txctr := 0, rxctr := 0, txseq := 1, rxseq := 1, acked := 0, refused := none,
                                    credits := [n, n, n, n], freed := [0, 0, 0, 0], lastRx := d.ns, lastTx := d.ns, lastAck := d.ns,
                                    bursts := 0, wakeAsk := false, downcause := 0 }
      let d := (d.enter p 3).flush p
      if p = 4 then d.mirrorUp else d
  | _, _ => d

def execFinish (a : Arrival) (sigOk : Bool) (s : State) : Host.Outcome State Fault Refusal := onLink (finish a sigOk) s

/-! ### Frames of an UP port (R303, R306) -/

def execDataFrame (p : Nat) (fr : Frame) (coded : Fec) (tagOk : Bool) (s : State) : Host.Outcome State Fault Refusal :=
  onLink (dataFrame ⟨p, fr, coded, tagOk⟩) s

def execCtrlFrame (p : Nat) (fr : Frame) (coded : Fec) (tagOk : Bool) (s : State) : Host.Outcome State Fault Refusal :=
  onLink (ctrlFrame ⟨p, fr, coded, tagOk⟩) s

/-- ACK_TIMEOUT: ACK has not advanced for 2 µs while frames are unacknowledged (R306). -/
def execAckTimeout (p : Nat) (s : State) : Host.Outcome State Fault Refusal :=
  onLink (fun d => if (d.port p).state = 3 ∧ (d.port p).replay ≠ [] then (d.atNs ((d.port p).lastAck + 2000)).resend p else d) s

/-- IDLE_FRAME_TIMER: an UP port that sent nothing for 1 µs sends a CTRL frame (R301). -/
def execIdleFrameTimer (p : Nat) (s : State) : Host.Outcome State Fault Refusal :=
  onLink (fun d => if (d.port p).state = 3 then (d.atNs ((d.port p).lastTx + 1000)).sendCtrl p false else d) s

/-- NO_FRAME_TIMEOUT: no frame for 10 µs takes the port DOWN with cause 0x08 (R301). -/
def execNoFrameTimeout (p : Nat) (s : State) : Host.Outcome State Fault Refusal :=
  onLink (fun d => if (d.port p).state = 3 then (d.atNs ((d.port p).lastRx + 10000)).portDown p 8 else d) s

/-! ### Rekey (R310, R311) -/

/-- A REKEY frame: 0 INIT, 1 RESP, with a new ephemeral key, a nonce, and the device key's signature over both, taking draw `k`. -/
def rekeyBytes (kind eph nonce k : Nat) : List Byte :=
  let body := beBytes 97 (publicKey (Config.scalar eph)) ++ beBytes 32 nonce
  leBytes 1 kind ++ body ++ ecdsaSign Config.deviceKey (Config.scalar k) body

/-- Fresh ephemeral and nonce for a rekey, sent as INIT or RESP under the current key. -/
def Dev.sendRekey (d : Dev) (p kind : Nat) : Dev :=
  let n := d.random256
  let d := n.2
  let e := d.free
  let d := (d.setFree (e + 2)).putPort p { d.port p with eph := e, nonce := n.1, lastInit := d.ns }
  d.launch p { type := 5, payload := rekeyBytes kind e n.1 (e + 1) }

/-- Start a rekey on an UP port that has none in progress; it needs the device key (R310, R426). -/
def Dev.startRekey (d : Dev) (p : Nat) : Dev :=
  let x := d.port p
  if x.state ≠ 3 ∨ x.rekeypend ∨ !d.boot.keyReady then d else (d.putPort p { x with rekeypend := true, initiator := true }).sendRekey p 0

/-- REKEY_THRESHOLD: the next CTR of either direction has reached 2^48. -/
def rekeyThreshold (p : Nat) (d : Dev) : Dev :=
  let x := d.port p
  if 2 ^ 48 ≤ x.txctr.toNat ∨ 2 ^ 48 ≤ x.rxctr then d.startRekey p else d

def execRekeyThreshold (p : Nat) (s : State) : Host.Outcome State Fault Refusal := onLink (rekeyThreshold p) s

/-- The exchange completes: new keys under the inverted KEYGEN, CTR 0 for the next frame; the old receive key stays until a
frame under the new one verifies (R308, R310). -/
def Dev.newKeys (d : Dev) (p key nonce : Nat) : Dev :=
  let x := d.port p
  let k := deriveKeys (ecdh (Config.scalar x.eph) key) Config.identity x.peerid x.nonce nonce (1 - x.keygen)
  d.putPort p { x with oldRx := some x.keyRx, keyTx := k.1, keyRx := k.2.1, saltTx := k.2.2.1, saltRx := k.2.2.2,
                       keygen := 1 - x.keygen, txctr := 0, rxctr := 0, rekeypend := false, initiator := false,
                       rekeyDone := (x.rekeyDone + 1) % 2 ^ 48 }

/-- A REKEY frame in order: taken as any sequenced frame is (R306). -/
def Dev.rekeyFrame (d : Dev) (a : Arrival) : Dev × Bool :=
  let r := d.received a
  if !r.2 then r
  else
    let o := r.1.inOrder a
    if o.2 then (o.1.putPort a.port (o.1.port a.port).advance.accept, true) else o

/-- REKEY_INIT: answered with RESP, and new keys derived; RESP carries the acknowledgement. When both sides sent INIT, that of the lower
identity stands, and the other side's INIT, though kept until it is acknowledged (R306), starts nothing (R310). -/
def rekeyInit (a : Arrival) (key nonce : Nat) (sigOk : Bool) (d : Dev) : Dev :=
  let p := a.port
  let r := d.rekeyFrame a
  let d := r.1
  let x := d.port p
  if !r.2 then d
  else if !sigOk ∨ (x.initiator ∧ Config.identity < x.peerid) then d.sendCtrl p false
  else ((d.putPort p { x with rekeypend := true, initiator := false }).sendRekey p 1).newKeys p key nonce

def execRekeyInit (a : Arrival) (key nonce : Nat) (sigOk : Bool) (s : State) : Host.Outcome State Fault Refusal :=
  onLink (rekeyInit a key nonce sigOk) s

/-- REKEY_RESP completes the rekey that this side started; its acknowledgement is the first frame under the new key. -/
def rekeyResp (a : Arrival) (key nonce : Nat) (sigOk : Bool) (d : Dev) : Dev :=
  let p := a.port
  let r := d.rekeyFrame a
  if !r.2 then r.1
  else (if (r.1.port p).initiator ∧ sigOk then r.1.newKeys p key nonce else r.1).sendCtrl p false

def execRekeyResp (a : Arrival) (key nonce : Nat) (sigOk : Bool) (s : State) : Host.Outcome State Fault Refusal :=
  onLink (rekeyResp a key nonce sigOk) s

/-- REKEY_RETRY: no RESP within 1 ms; INIT is sent again and the failed attempt counted. -/
def execRekeyRetry (p : Nat) (s : State) : Host.Outcome State Fault Refusal :=
  onLink (fun d =>
    let x := d.port p
    if x.state = 3 ∧ x.initiator then
      let d := d.atNs (x.lastInit + 1000000)
      (d.putPort p { d.port p with rekeyFail := (x.rekeyFail + 1) % 2 ^ 16 }).sendRekey p 0
    else d) s

/-- COUNTER_STOP: the next CTR has reached 2^62 and the port sends nothing more (R311). -/
def execCounterStop (p : Nat) (s : State) : Host.Outcome State Fault Refusal :=
  onLink (fun d => if (d.port p).state = 3 ∧ ctrStop ≤ (d.port p).txctr.toNat then
      let d := (d.putPort p { d.port p with downcause := 6 }).enter p 4
      if p = 4 ∧ d.pair.state = 2 then d.setPairState 3 else d
    else d) s

/-! ### Wake bursts (R317, R319) -/

/-- The bits of the wake block in the order sent: the sync header 0b10, then the content, least significant bit first (R317). -/
def wakeBlock : List Bool := [true, false] ++ (List.range 64).map (fun j => bitOf 0x4C1AD3E70B956F28 j)

/-- WAKE_BURST_TIMER: a DOWN port with WAKESEND repeats the burst every 1 ms, up to 100 bursts, then raises an event. -/
def wakeBurstTimer (p : Nat) (d : Dev) : Dev :=
  let x := d.port p
  if x.state = 0 ∧ x.wakesend ∧ (x.wakeAsk ∨ x.queue.any (fun f => f.type == 1)) ∧ x.bursts < 100 then
    let d := if x.bursts = 0 then d else d.atNs (x.lastBurst + 1000000)
    let fin := x.bursts + 1 = 100
    let d := (d.putPort p { d.port p with bursts := x.bursts + 1, lastBurst := d.ns, wakeAsk := x.wakeAsk && !fin }).emit (.burst p 0 64 wakeBlock)
    if fin then d.linkEvent p else d
  else d

def execWakeBurstTimer (p : Nat) (s : State) : Host.Outcome State Fault Refusal := onLink (wakeBurstTimer p) s

/-! ### Time exchange (R315, R316) -/

/-- A timestamp at the resolution of 0.25 ns, in 2^-16 ns (R316). -/
def quarterNs (t : Nat) : Nat := t / 16384 * 16384

/-- This module distributes time: as a master LOCKED to PPS_IN or PTM, or forwarding its LOCKED rill source (R315). -/
def Dev.givesTime (d : Dev) : Bool :=
  (d.link.master && d.cad.dev == 1 && (d.cad.sel == 1 || d.cad.sel == 2)) || (d.cad.sel == 3 && d.cad.rill.state == 2)

/-- HOPS this module reports: one more than its own source's when it forwards (R315). -/
def Dev.myHops (d : Dev) : Nat := if d.cad.sel = 3 then d.link.hops + 1 else 0

/-- TIME_SYNC_SEND: every 1 ms, SYNC at t1 and FOLLOW with t1, state, selected source and HOPS, on a port whose FWD bit is
set. -/
def timeSyncSend (p : Nat) (d : Dev) : Dev :=
  if p < 4 ∧ bitOf d.link.fwd p ∧ (d.port p).state = 3 ∧ d.givesTime then
    let d := d.atNs ((d.port p).lastSync + 1000000)
    let t1 := quarterNs d.cad.ct
    let d := d.putPort p { d.port p with lastSync := d.ns }
    let d := d.transmit p { type := 3, tsub := 0 }
    d.transmit p { type := 3, tsub := 1, payload := leBytes 8 (t1 / 65536) ++ leBytes 2 (t1 % 65536) ++ leBytes 1 d.cad.dev ++
                                                     leBytes 1 d.cad.sel ++ leBytes 1 d.myHops }
  else d

def execTimeSyncSend (p : Nat) (s : State) : Host.Outcome State Fault Refusal := onLink (timeSyncSend p) s

/-- A TIME frame is for this slave: an UP rill port that is the enabled source port. -/
def Dev.slaveOn (d : Dev) (p : Nat) : Bool := decide (p < 4) && d.link.srcen && d.link.srcport == p && (d.port p).state == 3

/-- SYNC: t2 is taken, and DREQ is sent at t3. -/
def syncFrame (a : Arrival) (d : Dev) : Dev :=
  let r := d.timeFrame a
  if r.2 ∧ r.1.slaveOn a.port then
    let d := r.1
    let t := quarterNs d.cad.ct
    (d.setLink { d.link with t2 := some t, t3 := some t, t1 := none }).transmit a.port { type := 3, tsub := 2 }
  else r.1

def execSyncFrame (a : Arrival) (s : State) : Host.Outcome State Fault Refusal := onLink (syncFrame a) s

/-- FOLLOW: t1 and what the master says of itself; the exchange counts only from a LOCKED master with HOPS at most 63. -/
def followFrame (a : Arrival) (t1 : Nat) (locked : Bool) (hops : Nat) (d : Dev) : Dev :=
  let r := d.timeFrame a
  if r.2 ∧ r.1.slaveOn a.port then
    r.1.setLink { r.1.link with t1 := some (quarterNs t1), masterOk := locked && decide (hops ≤ 63), hops := hops }
  else r.1

def execFollowFrame (a : Arrival) (t1 : Nat) (locked : Bool) (hops : Nat) (s : State) : Host.Outcome State Fault Refusal :=
  onLink (followFrame a t1 locked hops) s

/-- DREQ: a master returns t4 in DRESP. -/
def dreqFrame (a : Arrival) (d : Dev) : Dev :=
  let r := d.timeFrame a
  let d := r.1
  if r.2 ∧ a.port < 4 ∧ bitOf d.link.fwd a.port ∧ d.givesTime then
    let t := quarterNs d.cad.ct
    d.transmit a.port { type := 3, tsub := 3, payload := leBytes 8 (t / 65536) ++ leBytes 2 (t % 65536) }
  else d

def execDreqFrame (a : Arrival) (s : State) : Host.Outcome State Fault Refusal := onLink (dreqFrame a) s

/-- The offset of R316 in 2^-16 ns: own CT minus the master's. -/
def timeOffset (t1 t2 t3 t4 : Nat) (asym : Int) : Int :=
  ((((t2 : Int) - t1) - ((t4 : Int) - t3)) - asym * 65536) / 2

/-- DRESP: the slave computes the offset; an exchange that counts moves the rill source and corrects CT (R234, R237, R316); any other
counts as a missing time frame. -/
def drespFrame (a : Arrival) (t4 : Nat) (d : Dev) : Dev :=
  let r := d.timeFrame a
  let d := r.1
  if !r.2 ∨ !d.slaveOn a.port then d
  else
    match d.link.t1, d.link.t2, d.link.t3 with
    | some t1, some t2, some t3 =>
      let d := d.setLink { d.link with t1 := none, t2 := none, t3 := none }
      if !d.link.masterOk then d.withSources { d.cad with rill := d.cad.rill.broken }
      else
        let err := -(timeOffset t1 t2 t3 (quarterNs t4) (signedOf 16 (d.port a.port).asym))
        (d.withSources { d.cad with rill := countNext d.cad.rill d.cad.ct 64 1000000 (50 * 65536) err }).correctFrom 3 err
    | _, _, _ => d

def execDrespFrame (a : Arrival) (t4 : Nat) (s : State) : Host.Outcome State Fault Refusal := onLink (drespFrame a t4) s

end Sys2Proof.Machine
end

