-- ==== Sys2Proof/Machine/Fence.lean ====
section
/-! DEFINITION. Fault handling: uncorrectable and corrected errors, fences, spares, epochs, quarantine and control-core takeover
(R205, R343 to R354). -/

namespace Sys2Proof.Machine

open Sys2Proof

/-- A day and a second in nanoseconds (R343). -/
def dayNs : Nat := 86400000000000
def secNs : Nat := 1000000000

/-! ### Fences (R343 to R347) -/

/-- BASIN_FAULT_DETECTED (R343): an immediate fence of class 0x01, whichever of its causes it is. -/
def basinFaultDetected (b : Nat) (d : Dev) : Dev := d.fence b 1
def execBasinFaultDetected (b _cause : Nat) (s : State) : Host.Outcome State Fault Refusal := onCore (basinFaultDetected b) s

/-- PLANNED_FENCE (R343): at the next frame boundary, the spare having restored during the frame. -/
def plannedFence (b : Nat) (d : Dev) : Dev :=
  if b ∈ d.flt.planned ∧ d.inService b then
    let d := d.atNs d.nextFrame
    d.fencePlanned b 3
  else d
def execPlannedFence (b : Nat) (s : State) : Host.Outcome State Fault Refusal := onCore (plannedFence b) s

/-- SPARE_RESTORE_DONE (R346): the fence having completed, the restored segments are tagged and the spare is IN_SERVICE. -/
def spareRestoreDone (row : Nat) (d : Dev) : Dev :=
  let d := d.fenceRow row
  let r := Tab.at d.flt.rows {} row
  match r.restoreEnd with
  | some t =>
    if r.spstate = 1 then
      let d := (d.atNs t).restoreModels (row * 17 + 16) (row * 16 + r.fcol)
      d.setFlt { d.flt with rows := Tab.put d.flt.rows row { r with spstate := 2, restoreEnd := none } }
    else d
  | none => d
def execSpareRestoreDone (row : Nat) (s : State) : Host.Outcome State Fault Refusal := onCore (spareRestoreDone row) s

/-! ### Cistern and accumulator errors (R205) -/

/-- The first uncorrectable word that a range touches, and the words with a correctable error. -/
def Basin.badIn (x : Basin) (a n : Nat) : Option Nat := x.cis.badWords.find? (fun w => decide (w < a + n) && decide (a < w + eccWidth w))
def Basin.softIn (x : Basin) (a n : Nat) : List Nat := x.cis.softWords.filter (fun w => decide (w < a + n) && decide (a < w + eccWidth w))

/-- Record in CIS_ECCLOG when the log is free. -/
def CisRegs.log (c : CisRegs) (unc scrub : Bool) (a : Nat) : CisRegs :=
  if c.eccValid then c else { c with eccValid := true, eccUncorr := unc, eccScrub := scrub, eccAddr := a }

/-- A corrected error: written back, counted, and reported only when the log takes it; more than 1,024 within one second ask
for a planned fence (R205, R343). -/
def Dev.eccSoft (d : Dev) (b w : Nat) (scrub : Bool) : Dev :=
  let x := d.basin b
  let free := !x.cis.eccValid
  let times := (d.ns :: x.cis.ceTimes).filter (fun t => decide (d.ns < t + secNs))
  let c := { x.cis.log false scrub w with cecnt := x.cis.cecnt + 1, softWords := x.cis.softWords.filter (· ≠ w), ceTimes := times.take 1025 }
  let d := d.putBasin b { x with cis := c }
  let d := if free then d.eccEvent b w 0 scrub else d
  if 1024 < times.length ∧ b ∉ d.flt.planned ∧ d.inService b then d.setFlt { d.flt with planned := b :: d.flt.planned } else d

/-- Every corrected error of a range that was read. -/
def Dev.eccCorrect (d : Dev) (b : Nat) (ws : List Nat) : Dev := ws.foldl (fun d w => d.eccSoft b w false) d

/-- An uncorrectable error: logged when the log is free, reported, and counted once per word until it is written; a second one
within 24 hours fences the basin at once (R205, R343). A repeat that the scrubber finds says nothing. -/
def Dev.eccHard (d : Dev) (b w : Nat) (scrub : Bool) : Dev :=
  let x := d.basin b
  let again := x.cis.lastUe == some w
  if again && scrub then d
  else
    let times := if again then x.cis.ueTimes else (d.ns :: x.cis.ueTimes).filter (fun t => decide (d.ns < t + dayNs))
    let d := d.putBasin b { x with cis := { x.cis.log true scrub w with lastUe := some w, ueTimes := times.take 2 } }
    d.eccEvent b w 1 scrub

/-- The basin has met its second uncorrectable error within 24 hours. -/
def Dev.secondUe (d : Dev) (b : Nat) : Bool := decide (2 ≤ (d.basin b).cis.ueTimes.length) && d.inService b

/-- An uncorrectable word read for the run on a basin: the run faults with 0x07 at `pc`, and a second error fences (R205, R354). -/
def Dev.eccRun (d : Dev) (b w pc : Nat) : Dev :=
  let d := (d.eccHard b w false).stopRun b 7 pc
  if d.secondUe b then d.fence b 2 else d

/-- CISTERN_SCRUB (R205): the patrol reads a word; `finding` 0 clean, 1 correctable, 2 uncorrectable. 3 and 4 are errors that arise in
the word and that no read has met yet: 3 correctable, 4 uncorrectable (notes/assumptions/95.md). -/
def cisternScrub (b addr finding : Nat) (d : Dev) : Dev :=
  if ¬ b < 272 ∨ 0x440000 ≤ addr then d
  else
    let w := addr / eccWidth addr * eccWidth addr
    let x := d.basin b
    let with_ (ws : List Nat) : List Nat := if w ∈ ws then ws else w :: ws
    let broken := d.putBasin b { x with cis := { x.cis with badWords := with_ x.cis.badWords } }
    let found (d : Dev) : Dev := let d := d.eccHard b w true; if d.secondUe b then d.fence b 2 else d
    if finding = 1 then d.eccSoft b w true
    else if finding = 2 then found broken
    else if finding = 3 then d.putBasin b { x with cis := { x.cis with softWords := with_ x.cis.softWords } }
    else if finding = 4 then broken
    else if w ∈ x.cis.badWords then found d
    else if w ∈ x.cis.softWords then d.eccSoft b w true
    else d
def execCisternScrub (b addr finding : Nat) (s : State) : Host.Outcome State Fault Refusal := onCore (cisternScrub b addr finding) s

/-! ### Control cores (R349) -/

/-- CORE_MISCOMPARE: both cores halt, the cores in `pass` passed the self-test; the one that passes is paired with the spare
core. Requests in progress are answered by the mailbox, see `coreMiscompare`. -/
def Fh.paired (f : Fh) (pass : List Nat) : Fh :=
  let pair := (List.range 3).filter (fun c => bitOf f.corePair c)
  let spare := (List.range 3).filter (fun c => !bitOf f.corePair c && !bitOf f.failed c)
  let good := pair.filter (fun c => c ∈ pass)
  let bad := pair.filter (fun c => c ∉ pass)
  let keep := good.take 1
  let np := (keep ++ spare.take 1).foldl (fun n c => n + 2 ^ c) 0
  { f with corePair := np, failed := bad.foldl (fun n c => if bitOf n c then n else n + 2 ^ c) f.failed }

/-! ### Epochs (R350 to R352) -/

/-- The more restrictive of two states: FENCED over QUIESCED over IN_SERVICE (R352). -/
def restrictive (a b : Nat) : Nat := max a b

/-- EPOCH_REISSUE (R352): at the slot start after the disagreement, the more restrictive of the two states under a new epoch. A unit
that has changed in this slot already waits for the next slot start; where a fence came first, the reissue is dropped (R350). -/
def epochReissue (u : Nat) (d : Dev) : Dev :=
  if u ∉ d.flt.reissueDue then d
  else
    let d := d.setFlt { d.flt with reissueDue := d.flt.reissueDue.filter (· ≠ u) }
    let st := restrictive (d.mgmtView u).state (d.ownView u).state
    if u ∈ d.flt.changed then (if st = 2 then d else d.setFlt { d.flt with reissue := d.flt.reissue ++ [u] })
    else d.writeState u st
def execEpochReissue (u : Nat) (s : State) : Host.Outcome State Fault Refusal := onCore (epochReissue u) s

/-! ### Quarantine (R353) -/

/-- Traffic that fails back: a request gets an error, a write is discarded, and the run that issued it stops under R111, its period
completing with CODE 0x0300 (R353). R111 lists no code for it: BSN_FAULT and the event carry code 0x00 with the index of the instruction
that issued the traffic (notes/assumptions/98.md). Traffic of a fenced unit is discarded without failing back. -/
def Dev.failBack (d : Dev) (q : Quar) : Dev :=
  if (d.mgmtView q.src).state = 2 then d
  else
    let d := if q.write then d else d.emit (.reply q.recv [] false false true)
    if q.src < 272 then
      match (d.basin q.src).seq.active with
      | some a =>
        if a.epoch = BitVec.ofNat 32 q.epoch then
          let d := d.haltRun q.src (some 0x300)
          let x := d.basin q.src
          (d.putBasin q.src { x with seq := { x.seq with fault := { code := 0, pc := q.pc } } }).raiseS 1 q.src (runIndex a.run) a.run.lbasin 0 q.pc
        else d
      | none => d
    else d

/-- QUARANTINE_FAILBACK (R353): at the end of the slot in which it arrived, what unit `u` sent and still does not match fails back. -/
def quarantineFailback (u : Nat) (d : Dev) : Dev :=
  let hit (q : Quar) : Bool := q.src == u && !d.epochOk u (BitVec.ofNat 32 q.epoch)
  let mine := d.flt.quar.filter hit
  if mine = [] then d
  else
    let d := if mine.any (fun q => q.slot == d.slotStart) then d.atNs (d.slotStart + d.slen) else d
    mine.foldl (fun d q => d.failBack q) (d.setFlt { d.flt with quar := d.flt.quar.filter (fun q => !hit q) })
def execQuarantineFailback (u : Nat) (s : State) : Host.Outcome State Fault Refusal := onCore (quarantineFailback u) s

/-- STACK_READY_LOSS (R354 class 0x05): the stack or its controller has failed, and the module resets. -/
def stackReadyLoss (n : Nat) (d : Dev) : Dev :=
  if n < 8 ∧ (d.ctrl n).ready then d.moduleFatal else d
def execStackReadyLoss (n : Nat) (s : State) : Host.Outcome State Fault Refusal := onCore (stackReadyLoss n) s

end Sys2Proof.Machine
end

