-- ==== Sys2Proof/Machine/Operands.lean ====
section
/-! DEFINITION. Operand forms: instruction and descriptor fields, element packing, block-scaled operands, tensor scales, the
derivation of block scales and the encoding of elements on store (chapters 02, 04, 05, 06, 07). -/

namespace Sys2Proof.Machine

open Sys2Proof

/-! ### Instructions (R107) -/

/-- The fields of a sequencer instruction. -/
structure Ins where
  opc : Nat
  sd : Nat
  sa : Nat
  sb : Nat
  fn : Nat
  imm : Nat
  deriving DecidableEq, Repr

def insOf (w : W64) : Ins :=
  let n := w.toNat
  ⟨bitsOf n 63 56, bitsOf n 55 51, bitsOf n 50 46, bitsOf n 45 41, bitsOf n 40 32, bitsOf n 31 0⟩

/-- The fields of a micro-op (R191). -/
structure Mop where
  op : Nat
  vd : Nat
  va : Nat
  vb : Nat
  vc : Nat
  mod : Nat
  rm : Nat
  im : Bool
  imm : Nat
  deriving DecidableEq, Repr

def mopOf (w : W64) : Mop :=
  let n := w.toNat
  ⟨bitsOf n 63 58, bitsOf n 57 54, bitsOf n 53 50, bitsOf n 49 46, bitsOf n 45 42, bitsOf n 41 38, bitsOf n 37 36, bitOf n 35, bitsOf n 31 0⟩

/-! ### Formats (R53, R54) -/

/-- Format codes of R54. -/
def fRaw : Nat := 0
def fL16 : Nat := 1
def fL8 : Nat := 2
def fL4 : Nat := 3
def fT2 : Nat := 4
def fT5P : Nat := 5
def fF4 : Nat := 6
def fI8 : Nat := 7
def fI4 : Nat := 8
def fA32 : Nat := 9
def fA16 : Nat := 10
def fB32 : Nat := 11
def fB64 : Nat := 12
def fU8 : Nat := 13
def fU16 : Nat := 14

/-- Bits of an element; T5P is handled apart. -/
def fmtBits (f : Nat) : Nat :=
  if f = fL16 ∨ f = fA16 ∨ f = fU16 then 16 else if f = fA32 ∨ f = fB32 then 32 else if f = fB64 then 64
  else if f = fL4 ∨ f = fI4 ∨ f = fF4 then 4 else if f = fT2 then 2 else 8

/-- Bytes of a packed row of n elements (R53, R44). -/
def rowBytes (f n : Nat) : Nat := if f = fT5P then cdiv n 5 else cdiv (n * fmtBits f) 8

/-- The formats that carry block scales (R47). -/
def isBlock (f : Nat) : Bool := f == fL8 || f == fL4 || f == fT2 || f == fT5P

/-- Element j of a row at `base`, as its code. A T5P trit t is given as t + 1, and as 3 in an invalid byte (R43). -/
def readElem (rd : Nat → Byte) (f base j : Nat) : Nat :=
  if f = fT5P then
    let b := (rd (base + j / 5)).toNat
    if 243 ≤ b then 3 else b / 3 ^ (j % 5) % 3
  else
    let w := fmtBits f
    if w < 8 then (rd (base + j * w / 8)).toNat / 2 ^ (j * w % 8) % 2 ^ w
    else leNat ((List.range (w / 8)).map (fun k => rd (base + j * (w / 8) + k)))

/-- Codes packed below one byte, `k` of `w` bits each. -/
def packSub (w k : Nat) (cs : List Nat) (fuel : Nat) : List Byte :=
  match fuel with
  | 0 => []
  | n + 1 => match cs with
    | [] => []
    | _ => BitVec.ofNat 8 ((cs.take k).zipIdx.foldl (fun a p => a + p.1 * 2 ^ (w * p.2)) 0) :: packSub w k (cs.drop k) n

/-- Trit codes (0, 1, 3 as T2) packed five to a byte; padding is trit 0 (R43, R44). -/
def packTrits (cs : List Nat) (fuel : Nat) : List Byte :=
  match fuel with
  | 0 => []
  | n + 1 => match cs with
    | [] => []
    | _ =>
      let d (c : Nat) : Nat := if c = 1 then 2 else if c = 3 then 0 else 1
      BitVec.ofNat 8 ((List.range 5).foldl (fun a i => a + d (cs.getD i 0) * 3 ^ i) 0) :: packTrits (cs.drop 5) n

/-- A packed row (R53). -/
def packRow (f : Nat) (cs : List Nat) : List Byte :=
  if f = fT5P then packTrits cs cs.length
  else
    let w := fmtBits f
    if w < 8 then packSub w (8 / w) cs cs.length else cs.flatMap (fun c => leBytes (w / 8) c)

/-! ### Tensor scales and block-scaled operands -/

/-- A valid tensor scale: S = 0 and E from 1 to 32766 (R48). -/
def tsOk (t : Nat) : Bool := decide (1 ≤ t) && decide (t ≤ 32766)

/-- An operand in log form: NaN, an infinity, zero, or a sign and a log offset in L16 ulps. -/
inductive Opd where
  | nan
  | inf (neg : Bool)
  | zero
  | fin (neg : Bool) (d : Int)
  deriving DecidableEq, Repr

/-- An L16 code as an operand, offset E − 16256. -/
def opdL16 (c : Nat) : Opd :=
  match l16.read c with
  | .nan => .nan
  | .inf s => .inf s
  | .zero _ => .zero
  | .fin s _ => .fin s ((c % 2 ^ 15 : Nat) - 16256)

/-- A block-scaled element: code `c` of format `f` under scale code `s` (R47, R49, R50). -/
def opdScaled (f c s : Nat) : Opd × W32 :=
  if s = 0xFF then (.nan, if f = fL8 then 0 else flINV)
  else if s = 0 then (.zero, 0)
  else
    let sc : Int := 128 * ((s : Int) - 127)
    if f = fL8 then
      if c = 0x80 then (.nan, 0) else if c % 128 = 0 then (.zero, 0)
      else (.fin (128 ≤ c) (16 * ((c % 128 : Nat) - 64 : Int) + sc), 0)
    else if f = fL4 then
      if c % 8 = 0 then (.zero, 0) else (.fin (8 ≤ c) (64 * ((c % 8 : Nat) - 7 : Int) + sc), 0)
    else if f = fT2 then
      if c = 0 then (.zero, 0) else if c = 2 then (.zero, flINV) else (.fin (c == 3) sc, 0)
    else if c = 1 then (.zero, 0) else if c = 3 then (.zero, flINV) else (.fin (c == 0) sc, 0)

/-- The product of two operands: what R65 says before the range check. A zero times ∞ is NaN with INV. -/
inductive Prod where
  | nan (inv : Bool)
  | inf (neg : Bool)
  | zero
  | fin (neg : Bool) (p : Int)
  deriving DecidableEq, Repr

def Opd.mul (a b : Opd) : Prod :=
  match a, b with
  | .nan, _ => .nan false
  | _, .nan => .nan false
  | .zero, .inf _ => .nan true
  | .inf _, .zero => .nan true
  | .zero, _ => .zero
  | _, .zero => .zero
  | .inf s, .inf t => .inf (s != t)
  | .inf s, .fin t _ => .inf (s != t)
  | .fin s _, .inf t => .inf (s != t)
  | .fin s x, .fin t y => .fin (s != t) (x + y)

/-- The product in the accumulator format (R65, R66). -/
def Prod.conv (p : Prod) (f : Fmt) (keep : Bool) (d : Dir) (aoff : Int) : Flagged :=
  match p with
  | .nan inv => (f.nan, if inv then flINV else 0)
  | .inf s => (f.signed s f.inf, 0)
  | .zero => (0, 0)
  | .fin s x => product f keep d aoff s x

/-! ### Values in log form before a store -/

/-- An operand as an L16 code under the range rules of R59. -/
def Opd.toL16 (v : Opd) (keep : Bool) (d : Dir) : Flagged :=
  match v with
  | .nan => (0x8000, 0)
  | .inf s => (l16.code s 32767, 0)
  | .zero => (0, 0)
  | .fin s x => l16.round keep d (.fin s (.root 128 x))

/-- The operand with its log offset moved by `k` ulps. -/
def Opd.move (v : Opd) (k : Int) : Opd := match v with | .fin s x => .fin s (x + k) | _ => v

/-! ### Block scales on store (R61, R150 to R154) -/

/-- The derived scale code of a block of L16 codes, and whether the whole block is NaN with INV (R150, R151). -/
def deriveScale (f blift : Nat) (es : List Nat) : Nat × Bool :=
  let fields := es.filterMap (fun c => match opdL16 c with
    | .fin _ d => some d
    | .inf _ => some 16510
    | _ => none)
  let anyNan := es.any (· == 0x8000)
  if es.all (· == 0) then (0, false)
  else if anyNan && f != fL8 then (0xFF, true)
  else match fields with
    | [] => (0x7F, false)
    | x :: r =>
      let e := r.foldl max x
      let s : Int := if f = fL8 then 127 + e / 128 - blift else if f = fL4 then 128 + (e - 32) / 128 else 127 - (-e) / 128
      ((max 1 (min 0xFE s)).toNat, false)

/-- One element encoded under a block scale: its code, its flags, and whether it vanished (R58, R61, R153). Two points are readings
(DEDUCED, notes/assumptions/93.md): a NaN element of L4, T2 or T5P under a pinned scale, be it made by an invalid tensor scale
(R48), is code 0 with INV and the pin stays (R61, R153); and under PINS 0x00 a non-zero T2 or T5P element vanishes as R153 says
of every format. -/
def encodeElem (f s : Nat) (d : Dir) (c : Nat) : Nat × W32 × Bool :=
  if s = 0xFF then (0, 0, false)
  else if s = 0 then
    if c = 0 then (0, 0, false) else if c = 0x8000 then (0, if f = fL8 then 0 else flINV, false) else (0, flVANISH, true)
  else
    let sc : Int := 128 * ((s : Int) - 127)
    match opdL16 c with
    | .zero => (0, 0, false)
    | .nan => if f = fL8 then (0x80, 0, false) else (0, flINV, false)
    | .inf neg =>
      if f = fL8 then ((if neg then 128 else 0) + 127, flOVF ||| flINX, false)
      else if f = fL4 then ((if neg then 8 else 0) + 7, flOVF ||| flINX, false)
      else (if neg then 3 else 1, flOVF ||| flINX, false)
    | .fin neg x =>
      let v := x - sc
      if f = fL8 ∨ f = fL4 then
        let step : Int := if f = fL8 then 16 else 64
        let qq := if f = fL8 then 8 else 2
        let top : Int := if f = fL8 then 127 else 7
        let mid : Int := if f = fL8 then 64 else 7
        let k := v / step
        let rem := v % step
        let up : Bool := match d with
          | .trunc => false
          | .draw r => rem != 0 && decide (r < (Mag.root 128 v).between qq k)
          | _ => decide (step ≤ 2 * rem)
        let e := mid + (if up then k + 1 else k)
        let sg := if neg then (if f = fL8 then 128 else 8) else 0
        if top < e then (sg + top.toNat, flOVF ||| flINX, false)
        else if e < 1 then (0, flVANISH ||| flINX, true)
        else (sg + e.toNat, if rem = 0 then 0 else flINX, false)
      else
        let t := if neg then 3 else 1
        if 0 < v then (t, flOVF ||| flINX, false)
        else if v = 0 then (t, 0, false)
        else
          let one : Bool := match d with
            | .trunc => false
            | .draw r => decide (r < ((Mag.root 128 v).scaled 24).1)
            | _ => decide (-128 ≤ v)
          (if one then t else 0, flINX, false)

/-- A whole block on store: scale code, element codes, flags of each element with its vanish mark, and flags of the block.
`pin` gives a pinned or passed scale. A block stored as NaN has codes 0 and INV (R151, R153). -/
def encodeBlock (f blift : Nat) (pin : Option Nat) (pass : Bool) (es : List Nat) (ds : List Dir) :
    Nat × List (Nat × W32 × Bool) × W32 :=
  let der := deriveScale f blift es
  let s := match pin with | some p => p | none => der.1
  let zero : List (Nat × W32 × Bool) := es.map (fun _ => (0, 0, false))
  if s = 0xFF then (s, zero, if pin.isSome && pass then 0 else flINV)
  else if pass && s = 0 then (s, zero, 0)
  else (s, (es.zip ds).map (fun p => encodeElem f s p.2 p.1), 0)

/-! ### Descriptors -/

/-- The 32-bit word at byte `o` of a descriptor. -/
def dw (bs : List Byte) (o : Nat) : Nat := leNat ((bs.drop o).take 4)

/-- The 64-bit word at byte `o` of a descriptor. -/
def dq (bs : List Byte) (o : Nat) : Nat := leNat ((bs.drop o).take 8)

/-- A layer descriptor (R97). -/
structure Layer where
  (prec em rm mlen : Nat)
  (keep blk tscl : Bool)
  (aoff : Int)
  (acci epi wpk : Bool)
  (rows cols red descId jfirst jcount ofirst ocount : Nat)
  (waddr wsaddr xaddr xsaddr oaddr eaddr osaddr : Nat)
  (odst efmt eop : Nat)
  (oblk opin pair : Bool)
  (pins wts xts ots ovb wpitch xpitch opitch epitch : Nat)
  deriving DecidableEq, Repr

def layerOf (b : List Byte) : Layer :=
  let c := dw b 0
  let e := dw b 0x28
  { prec := bitsOf c 31 28, em := bitsOf c 27 26, rm := bitsOf c 25 24, mlen := bitsOf c 23 20, keep := bitOf c 19, blk := bitOf c 18,
    tscl := bitOf c 17, aoff := signedOf 7 (bitsOf c 16 10), acci := bitOf c 9, epi := bitOf c 8, wpk := bitOf c 7,
    rows := bitsOf (dw b 4) 15 0, cols := bitsOf (dw b 4) 31 16, red := bitsOf (dw b 8) 23 0, descId := bitsOf (dw b 8) 31 24,
    jfirst := bitsOf (dw b 12) 5 0, jcount := bitsOf (dw b 12) 12 6, ofirst := bitsOf (dw b 12) 21 16, ocount := bitsOf (dw b 12) 27 22,
    waddr := bitsOf (dw b 0x10) 22 0, wsaddr := bitsOf (dw b 0x14) 22 0, xaddr := bitsOf (dw b 0x18) 22 0,
    xsaddr := bitsOf (dw b 0x1C) 22 0, oaddr := bitsOf (dw b 0x20) 22 0, eaddr := bitsOf (dw b 0x24) 22 0,
    osaddr := bitsOf (dw b 0x3C) 22 0, odst := bitsOf e 31 28, efmt := bitsOf e 27 24, eop := bitsOf e 23 22, oblk := bitOf e 21,
    opin := bitOf e 20, pair := bitOf e 19, pins := bitsOf e 7 0, wts := bitsOf (dw b 0x2C) 15 0, xts := bitsOf (dw b 0x2C) 31 16,
    ots := bitsOf (dw b 0x30) 15 0, ovb := bitsOf (dw b 0x30) 31 16, wpitch := bitsOf (dw b 0x34) 15 0, xpitch := bitsOf (dw b 0x34) 31 16,
    opitch := bitsOf (dw b 0x38) 15 0, epitch := bitsOf (dw b 0x38) 31 16 }

/-- The layer's accumulator is A16 (R27). -/
def Layer.a16 (l : Layer) : Bool := l.prec == 1 || l.prec == 3 || l.prec == 5 || l.prec == 7 || l.prec == 9 || l.prec == 11

def Layer.acc (l : Layer) : Fmt := if l.a16 then f16 else f32

/-- Products a lane sums in a clock or mist step (R27, R131); a compensated pair counts as one. -/
def Layer.k (l : Layer) : Nat :=
  if l.prec = 12 then max 1 (256 / 2 ^ l.mlen) else [1, 2, 2, 4, 4, 8, 8, 16, 2, 4, 2, 4, 1, 1].getD l.prec 1

/-- Formats of the stationary (or facet) operand at WADDR and of the streamed operand at XADDR (R27, R119). Pairs are two
L16 elements (R78). -/
def Layer.wfmt (l : Layer) : Nat :=
  if l.prec = 0 ∨ l.prec = 1 ∨ l.prec = 13 then fL16 else if l.prec = 2 ∨ l.prec = 3 ∨ l.prec = 12 then fL8
  else if l.prec = 4 ∨ l.prec = 5 then fL4 else if l.prec = 10 ∨ l.prec = 11 then fF4 else if l.wpk then fT5P else fT2

def Layer.xfmt (l : Layer) : Nat :=
  if l.prec = 0 ∨ l.prec = 1 ∨ l.prec = 10 ∨ l.prec = 13 then fL16 else if l.prec = 4 ∨ l.prec = 5 then fL4
  else if l.prec = 6 ∨ l.prec = 7 then fT2 else fL8

def Layer.facet (l : Layer) : Bool := l.prec == 10 || l.prec == 11

/-- Bytes of a packed operand row. -/
def Layer.wrow (l : Layer) : Nat := if l.prec = 13 then 4 * l.red else rowBytes l.wfmt l.red
def Layer.xrow (l : Layer) : Nat := if l.prec = 13 then 4 * l.red else rowBytes l.xfmt l.red
def Layer.orow (l : Layer) : Nat := rowBytes (if l.pair then fL16 else l.odst) l.rows
def Layer.erow (l : Layer) : Nat := if l.pair then 4 * l.rows else rowBytes l.efmt l.rows

/-- Whether each scale tensor is used (R119, R98). -/
def Layer.wsUsed (l : Layer) : Bool := isBlock l.wfmt || l.facet
def Layer.xsUsed (l : Layer) : Bool := isBlock l.xfmt
def Layer.osUsed (l : Layer) : Bool := l.epi && (l.odst == fL8 || l.odst == fL4 || l.odst == fT2)
def Layer.eUsed (l : Layer) : Bool := l.epi && (l.eop != 0 || l.pair)

/-- Block sizes of the inputs and of the output. -/
def Layer.bs (l : Layer) : Nat := if l.blk then 32 else 16
def Layer.obs (l : Layer) : Nat := if l.oblk then 32 else 16

/-- A sluice descriptor (R209). -/
structure Sluice where
  (zero ppbv : Bool)
  (cvtw src dst nelem nrows spitch dpitch ppb tag : Nat)
  deriving DecidableEq, Repr

def sluiceOf (b : List Byte) : Sluice :=
  { zero := bitOf (dw b 0) 31, ppbv := bitOf (dw b 0) 30, cvtw := dw b 4, src := dq b 8, dst := dq b 0x10,
    nelem := bitsOf (dw b 0x18) 23 0, nrows := bitsOf (dw b 0x1C) 23 0, spitch := dw b 0x20, dpitch := dw b 0x24,
    ppb := bitsOf (dw b 0x28) 22 0, tag := dw b 0x2C }

/-- A conversion control word (R54). -/
structure Cvt where
  (src dst rm : Nat)
  (keep blk tscl : Bool)
  (aoff : Int)
  (sgn mode : Bool)
  deriving DecidableEq, Repr

def cvtOf (w : Nat) : Cvt :=
  { src := bitsOf w 31 28, dst := bitsOf w 27 24, rm := bitsOf w 23 22, keep := bitOf w 21, blk := bitOf w 20, tscl := bitOf w 19,
    aoff := signedOf 7 (bitsOf w 18 12), sgn := bitOf w 11, mode := bitOf w 10 }

/-- The conversion paths of R62; raw copy is (0, 0) (R55). -/
def pathOk (s d : Nat) : Bool :=
  if s = fRaw then d == fRaw
  else if s = fL16 then d == fL16 || isBlock d || d == fB32 || d == fB64 || d == fA32 || d == fA16
  else if d = fL16 then s != 15
  else (s == fB32 && d == fA32) || (s == fA32 && d == fB32) || (s == fA32 && d == fA16) || (s == fA16 && d == fA32)

/-- A prism parameter block (R147). -/
structure Ppb where
  (ssrc sdst amx iaddr cvtw2 rowlen : Nat)
  (stg2 spass amxen tsrc opin : Bool)
  (blift : Nat)
  (igran : Bool)
  (pins iz ic tscale : Nat)
  deriving DecidableEq, Repr

def ppbOf (b : List Byte) : Ppb :=
  let p := dw b 0x28
  { ssrc := dq b 0 % 2 ^ 52, sdst := dq b 8 % 2 ^ 52, amx := dq b 0x10 % 2 ^ 52, iaddr := dq b 0x18 % 2 ^ 52, cvtw2 := dw b 0x20,
    rowlen := bitsOf (dw b 0x24) 23 0, stg2 := bitOf p 31, spass := bitOf p 30, amxen := bitOf p 29, tsrc := bitOf p 28, opin := bitOf p 27,
    blift := bitsOf p 26 24, igran := bitOf p 23, pins := bitsOf p 15 8, iz := bitsOf (dw b 0x2C) 15 0, ic := bitsOf (dw b 0x2C) 31 16,
    tscale := bitsOf (dw b 0x30) 15 0 }

/-- A cascade descriptor (R172). -/
structure Csc where
  (op em rm : Nat)
  (keep : Bool)
  (sfmt dfmt scope : Nat)
  (bcast varn : Bool)
  (aoff : Int)
  (n rows saddr spitch xpitch daddr xaddr idxbase gfirst gcount gtag tau stag : Nat)
  deriving DecidableEq, Repr

def cscOf (b : List Byte) : Csc :=
  let c := dw b 0
  { op := bitsOf c 31 28, em := bitsOf c 27 26, rm := bitsOf c 25 24, keep := bitOf c 23, sfmt := bitsOf c 22 19, dfmt := bitsOf c 18 15,
    scope := bitsOf c 14 13, bcast := bitOf c 12, varn := bitOf c 11, aoff := signedOf 7 (bitsOf c 10 4), n := bitsOf (dw b 4) 23 0,
    rows := bitsOf (dw b 8) 15 0, saddr := bitsOf (dw b 0xC) 22 0, spitch := bitsOf (dw b 0x10) 15 0, xpitch := bitsOf (dw b 0x10) 31 16,
    daddr := bitsOf (dw b 0x14) 22 0, xaddr := bitsOf (dw b 0x18) 22 0, idxbase := dw b 0x1C, gfirst := bitsOf (dw b 0x20) 7 0,
    gcount := bitsOf (dw b 0x20) 16 8, gtag := bitsOf (dw b 0x20) 31 24, tau := bitsOf (dw b 0x24) 15 0, stag := dw b 0x28 }

/-- A runnel descriptor, before its count is known. -/
structure Rnl where
  (entry em rm : Nat)
  (keep : Bool)
  (afmt bfmt dfmt : Nat)
  (cntsrc : Bool)
  (count aaddr baddr daddr raddr cntaddr ecap icap rcap stag : Nat)
  (aoff : Int)
  (idxbase : Nat)
  deriving DecidableEq, Repr

def rnlOf (b : List Byte) : Rnl :=
  let c := dw b 0
  { entry := bitsOf c 31 21, em := bitsOf c 20 19, rm := bitsOf c 18 17, keep := bitOf c 16, afmt := bitsOf c 15 12, bfmt := bitsOf c 11 8,
    dfmt := bitsOf c 7 4, cntsrc := bitOf c 3, count := bitsOf (dw b 4) 23 0, aaddr := bitsOf (dw b 8) 22 0, baddr := bitsOf (dw b 0xC) 22 0,
    daddr := bitsOf (dw b 0x10) 22 0, raddr := bitsOf (dw b 0x14) 22 0, cntaddr := bitsOf (dw b 0x18) 22 0, ecap := bitsOf (dw b 0x1C) 23 0,
    icap := dw b 0x20, rcap := bitsOf (dw b 0x24) 23 0, stag := dw b 0x28, aoff := signedOf 7 (bitsOf (dw b 0x2C) 6 0), idxbase := dw b 0x30 }

/-! ### Device addresses (R201 to R203) -/

/-- What a device address names. -/
inductive Place where
  /-- a reservoir address -/
  | rsv (a : Nat)
  /-- basin-local space, by physical number -/
  | locPhys (b off : Nat)
  /-- basin-local space, by logical number -/
  | locLog (l off : Nat)
  /-- a region reached by management only: basin or block, region, offset -/
  | mgmt (logb : Bool) (b region off : Nat)
  /-- an address error -/
  | bad
  deriving DecidableEq, Repr

/-- The size of a region of a basin or block (R201). -/
def regionSize (b region : Nat) : Nat :=
  if b < 272 then [0x440000, 0x10000, 0x10000, 0xA000].getD region 0
  else if region ≠ 1 then 0
  else if 0x1F8 ≤ b ∧ b ≤ 0x1FF then 0x80000
  else if 0x1F0 ≤ b ∧ b ≤ 0x1F5 then 0x10000 else 0

def placeOf (a : Nat) : Place :=
  if 2 ^ 52 ≤ a then .bad
  else if bitOf a 51 then
    if bitsOf a 50 39 ≠ 0 then .bad else if bitsOf a 38 0 < 0x6000000000 then .rsv (bitsOf a 38 0) else .bad
  else
    let l := bitOf a 50
    let b := bitsOf a 35 27
    let r := bitsOf a 26 24
    let o := bitsOf a 23 0
    if bitsOf a 49 36 ≠ 0 then .bad
    else if l && decide (256 ≤ b) then .bad
    else if regionSize b r ≤ o then .bad
    else if r = 0 then (if l then .locLog b o else .locPhys b o) else .mgmt l b r o

end Sys2Proof.Machine
end

