-- ==== Sys2Proof/Machine/Reservoir.lean ====
section
/-! DEFINITION. The reservoir controllers: reads, writes, atomics, amax rings, scrubbing; quarantine release; remote cistern reads
and sunk packets (R157, R160, R201 to R206, R212, R216, R220 to R227, R353). -/

namespace Sys2Proof.Machine

open Sys2Proof

/-- The unit number of a reservoir controller. -/
def ctrlUnit (a : Nat) : Nat := 0x1F8 + ctrlOf a

/-- An uncorrectable reservoir error at an address: counted, logged when the log is free, reported; more than 16 in one second
are a module fault (R224, R354). -/
def Dev.rsvUe (d : Dev) (a : Nat) (scrub : Bool) : Dev :=
  let n := ctrlOf a
  let c := d.ctrl n
  let times := (d.ns :: c.ueTimes).filter (fun t => decide (d.ns < t + secNs))
  let c := { c with uecnt := c.uecnt + 1, ueTimes := times.take 17, eccValid := true, eccAddr := if c.eccValid then c.eccAddr else a }
  let d := (d.putCtrl n c).eccEvent (0x1F8 + n) a 1 scrub
  if 16 < times.length then d.moduleFatal else d

/-- What the stacks hold for data unit `u` of 64 B: its plaintext under AES-256-XTS with the keys of the domain that owns its page, or of
the firmware region, and tweak `u` (R224, R241, R262). None where the page has no owner. -/
def Dev.unitAtRest (d : Dev) (u : Nat) : Option (List Byte) :=
  let page := u / 32768
  let e := Tab.at d.rsv.pages {} page
  let keys := if 195584 ≤ page then some d.boot.fwkey else if e.valid then Tab.find? d.rsv.keys e.owner else none
  keys.map (fun k => xtsSeal (beBytes 32 k.1) (beBytes 32 k.2) u (Mem.readBytes d.rsv.mem (u * 64) 64))

/-- What an access gets back. -/
inductive RsvAns where
  | ok (data : List Byte)
  /-- part or all of the range is denied: its bytes, zeros where they are (R223) -/
  | denied (data : List Byte)
  | poisoned
  /-- an address error (R203) -/
  | bad
  deriving DecidableEq, Repr

/-- Corrected errors of 32 B units that are read: each is counted and gone (R224). -/
def Dev.rsvSoft (d : Dev) (us : List Nat) : Dev :=
  us.foldl (fun d u =>
    let n := ctrlOf (u * 32)
    let d := d.putCtrl n { d.ctrl n with cecnt := (d.ctrl n).cecnt + 1 }
    d.setRsv { d.rsv with soft := d.rsv.soft.filter (· ≠ u) }) d

/-- A part of a range is read: counted against the domain's budget, its corrected errors counted, and every uncorrectable unit of it
counted and reported (R224, R225). -/
def Dev.rsvTouch (d : Dev) (dom a n : Nat) : Dev :=
  let d := (d.setRsv (d.rsv.charge dom a n)).rsvSoft (unitsIn d.rsv.soft a n)
  (unitsIn d.rsv.poison a n).foldl (fun d u => d.rsvUe (u * 32) false) d

/-- A read of `n` bytes for a domain (R203, R223 to R225). -/
def Dev.rsvRead (d : Dev) (dom a n : Nat) : Dev × RsvAns :=
  if !rsvPopulated a n then (d, .bad)
  else
    let e := (d.rsv.reach dom a n).foldl (fun d p => d.rsvTouch dom p.1 p.2) d
    if !d.rsv.owned dom a n then
      (e.deny dom a n 0, .denied ((pageParts a n).flatMap (fun p =>
        if d.rsv.ownedPage dom (p.1 / 0x200000) then Mem.readBytes d.rsv.mem p.1 p.2 else List.replicate p.2 0)))
    else if d.rsv.poisoned a n then (e, .poisoned)
    else (e, .ok (Mem.readBytes d.rsv.mem a n))

/-- Bytes stored by the controllers. A data unit written in part is read first: its corrected errors are counted, and one that holds a
poisoned unit keeps its bytes and is reported; whether any was (R224). -/
def Dev.rsvStore (d : Dev) (a : Nat) (bs : List Byte) : Dev × Bool :=
  let lost := d.rsv.lostUnits a bs.length
  let d := d.rsvSoft (d.rsv.soft.filter (fun u => u / 2 ∈ partUnits a bs.length))
  let d := d.setRsv ((d.rsv.pieces a bs).foldl (fun r p => r.write p.1 p.2) d.rsv)
  (lost.foldl (fun d u => d.eccEvent (ctrlUnit (u * 64)) (u * 64) 1 false) d, !lost.isEmpty)

/-- A write for a domain: what falls in pages of others is denied, the rest is stored (R203, R223 to R225). -/
def Dev.rsvWrite (d : Dev) (dom a : Nat) (bs : List Byte) : Dev × RsvAns :=
  if !rsvPopulated a bs.length then (d, .bad)
  else
    let w := (d.rsv.reach dom a bs.length).foldl (fun (e : Dev × Bool) p =>
      let r := (e.1.setRsv (e.1.rsv.charge dom p.1 p.2)).rsvStore p.1 ((bs.drop (p.1 - a)).take p.2)
      (r.1, e.2 || r.2)) (d, false)
    if !d.rsv.owned dom a bs.length then (w.1.deny dom a bs.length 1, .denied [])
    else if w.2 then (w.1, .poisoned)
    else (w.1, .ok [])

/-- The controller's answer to a request on the weir. -/
def Dev.replyRsv (d : Dev) (a : Nat) (r : RsvAns) : Dev :=
  match r with
  | .ok bs => d.emit (.reply (ctrlUnit a) bs false false false)
  | .denied bs => d.emit (.reply (ctrlUnit a) bs true false false)
  | .poisoned => d.emit (.reply (ctrlUnit a) [] false true false)
  | .bad => d.emit (.reply (ctrlUnit a) [] false false true)

/-- Hold traffic with another epoch, or fail it back when the quarantine is full (R353). -/
def Dev.holdOr (d : Dev) (q : Quar) : Dev :=
  let r := d.quarantine q
  if r.2 then r.1 else d.failBack q

/-- RESERVOIR_READ. -/
def reservoirRead (src : Nat) (epoch : W32) (domain handle addr len : Nat) (d : Dev) : Dev :=
  if !d.epochOk src epoch then
    d.holdOr { recv := ctrlUnit addr, src := src, epoch := epoch.toNat, domain := domain, addr := addr, len := len, handle := handle }
  else let r := d.rsvRead domain addr len; r.1.replyRsv addr r.2
def execReservoirRead (src : Nat) (epoch : W32) (domain handle addr len : Nat) (s : State) : Host.Outcome State Fault Refusal :=
  onCore (reservoirRead src epoch domain handle addr len) s

/-- RESERVOIR_WRITE. A denied write is discarded. -/
def reservoirWrite (src : Nat) (epoch : W32) (domain handle addr : Nat) (data : List Byte) (d : Dev) : Dev :=
  if !d.epochOk src epoch then
    d.holdOr { recv := ctrlUnit addr, src := src, epoch := epoch.toNat, domain := domain, addr := addr, len := data.length, write := true,
               bytes := data, handle := handle }
  else let r := d.rsvWrite domain addr data; r.1.replyRsv addr r.2
def execReservoirWrite (src : Nat) (epoch : W32) (domain handle addr : Nat) (data : List Byte) (s : State) :
    Host.Outcome State Fault Refusal :=
  onCore (reservoirWrite src epoch domain handle addr data) s

/-! ### Atomics (R227) -/

/-- What an atomic makes of the word, where it changes it, what it returns, and whether it took over an expired lease (R227). A
SEMREL by another than the owner returns no success (DEDUCED, notes/assumptions/95.md). -/
def Atomic.on (k : Atomic) (stream w : Nat) : Option Nat × List Byte × Bool :=
  match k with
  | .fadd v => (some ((w + v) % 2 ^ 64), leBytes 8 w, false)
  | .cas c v => (if w = c then some v else none, leBytes 8 w, false)
  | .semAcq start fin =>
    if w = 0 ∨ w % 2 ^ 48 ≤ start then (some (stream * 2 ^ 48 + fin), leBytes 8 w ++ [1], decide (w ≠ 0)) else (none, leBytes 8 w ++ [0], false)
  | .semRel => if w / 2 ^ 48 = stream then (some 0, [1], false) else (none, [0], false)

/-- A stream index acquires a semaphore from now: the slot's start and end in CT microseconds modulo 2^48. -/
def Dev.semAcq (d : Dev) : Atomic := .semAcq (d.slotStart / 1000 % 2 ^ 48) ((d.slotStart + d.slen) / 1000 % 2 ^ 48)

/-- An atomic carried out by its controller: checked under R223, its word read, changed and answered. -/
def Dev.atomic (d : Dev) (dom handle addr : Nat) (k : Atomic) : Dev :=
  if addr % 8 ≠ 0 ∨ !rsvPopulated addr 8 then d.replyRsv addr .bad
  else if !d.rsv.owned dom addr 8 then (d.deny dom addr 8 2).replyRsv addr (.denied (List.replicate 8 0))
  else
    let e := d.rsvTouch dom addr 8
    if d.rsv.poisoned addr 8 then e.replyRsv addr .poisoned
    else
      let g := k.on (handle / 65536) (Mem.readLe d.rsv.mem addr 8)
      let e : Dev × Bool := match g.1 with
        | some v => (e.setRsv (e.rsv.charge dom addr 8)).rsvStore addr (leBytes 8 v)
        | none => (e, false)
      if e.2 then e.1.replyRsv addr .poisoned
      else
        let c := e.1.ctrl (ctrlOf addr)
        let e := if g.2.2 then e.1.putCtrl (ctrlOf addr) { c with leasecnt := c.leasecnt + 1 } else e.1
        e.replyRsv addr (.ok g.2.1)

/-- An atomic as it arrives: held when its epoch does not match (R353). -/
def atomicOp (src : Nat) (epoch : W32) (domain handle addr : Nat) (k : Dev → Atomic) (d : Dev) : Dev :=
  if !d.epochOk src epoch then
    d.holdOr { recv := ctrlUnit addr, src := src, epoch := epoch.toNat, domain := domain, addr := addr, len := 8, handle := handle,
               atomic := some (k d) }
  else d.atomic domain handle addr (k d)

/-- ATOMIC_FADD: w := w + v modulo 2^64. -/
def execAtomicFadd (src : Nat) (epoch : W32) (domain handle addr : Nat) (v : W64) (s : State) : Host.Outcome State Fault Refusal :=
  onCore (atomicOp src epoch domain handle addr (fun _ => .fadd v.toNat)) s

/-- CAS: w := v when w = c. -/
def execAtomicCas (src : Nat) (epoch : W32) (domain handle addr : Nat) (c v : W64) (s : State) : Host.Outcome State Fault Refusal :=
  onCore (atomicOp src epoch domain handle addr (fun _ => .cas c.toNat v.toNat)) s

/-- SEMACQ: free, or its lease has ended by the start of the request's slot. -/
def execSemAcq (src : Nat) (epoch : W32) (domain handle addr : Nat) (s : State) : Host.Outcome State Fault Refusal :=
  onCore (atomicOp src epoch domain handle addr Dev.semAcq) s

/-- SEMREL: cleared by its owner only. -/
def execSemRel (src : Nat) (epoch : W32) (domain handle addr : Nat) (s : State) : Host.Outcome State Fault Refusal :=
  onCore (atomicOp src epoch domain handle addr (fun _ => .semRel)) s

/-! ### Amax rings (R156 to R160) -/

/-- A ring header (R156). -/
structure Ring where
  (len : Nat)
  (hdr : Int)
  (pin : Bool)
  (cur pinval curmin curmax head fill slotct pamx : Nat)
  (pv : Bool)
  (clamp nextct next commits : Nat)
  deriving DecidableEq, Repr

def ringOf (m : Mem) (a : Nat) : Ring :=
  let w (o n : Nat) : Nat := Mem.readLe m (a + o) n
  let c := w 0 4
  { len := bitsOf c 10 0, hdr := signedOf 8 (bitsOf c 23 16), pin := bitOf c 24, cur := w 4 2, pinval := w 6 2, curmin := w 8 2, curmax := w 10 2,
    head := bitsOf (w 0xC 4) 9 0, fill := bitsOf (w 0xC 4) 26 16, slotct := w 0x10 8, pamx := w 0x18 2, pv := bitOf (w 0x18 4) 16,
    clamp := w 0x1C 4, nextct := w 0x20 8, next := w 0x28 8, commits := w 0x30 4 }

/-- A header as its fields are written back. -/
def Ring.bytes (r : Ring) : List Byte :=
  leBytes 4 (r.len + patternOf 8 r.hdr * 2 ^ 16 + bit01 r.pin * 2 ^ 24) ++ leBytes 2 r.cur ++ leBytes 2 r.pinval ++ leBytes 2 r.curmin
    ++ leBytes 2 r.curmax ++ leBytes 4 (r.head + r.fill * 2 ^ 16) ++ leBytes 8 r.slotct ++ leBytes 4 (r.pamx + bit01 r.pv * 2 ^ 16)
    ++ leBytes 4 r.clamp ++ leBytes 8 r.nextct ++ leBytes 8 r.next ++ leBytes 4 r.commits

/-- A header is valid (R160). -/
def Ring.ok (r : Ring) : Bool :=
  decide (16 ≤ r.len) && decide (r.len ≤ 1024) && decide (r.head < r.len) && decide (r.fill ≤ r.len) && tsOk r.cur && tsOk r.curmin
    && tsOk r.curmax && decide (r.curmin ≤ r.curmax) && (!r.pin || tsOk r.pinval)

/-- derive(h) of R157: the new CUR, and how often it was clamped. -/
def Ring.derive (r : Ring) (entries : List Nat) : Ring :=
  if r.pin then { r with cur := r.pinval }
  else
    let m : Nat := (entries.take r.fill).foldl (fun a e => max a (e % 2 ^ 15)) 0
    if m = 0 then r
    else
      let e := (min 32766 (max 1 ((m : Int) + 128 * r.hdr))).toNat
      let lo := r.curmin % 2 ^ 15
      let hi := r.curmax % 2 ^ 15
      let r := if e < lo then { r with clamp := (r.clamp + 1) % 2 ^ 32 } else r
      let e := max e lo
      let r := if hi < e then { r with clamp := (r.clamp + 1) % 2 ^ 32 } else r
      { r with cur := min e hi }

/-- One header operation (R157): memory after it, and CUR. -/
def ringOp (m : Mem) (a ct : Nat) (amax : Option Nat) : Mem × Nat :=
  let r := ringOf m a
  let late := decide (r.slotct < ct)
  let commit := late && r.pv
  let m := if commit then Mem.writeLe m (a + 0x40 + 2 * r.head) 2 r.pamx else m
  let r := if commit then
      { r with head := (r.head + 1) % r.len, fill := min (r.fill + 1) r.len, pv := false, pamx := 0, commits := (r.commits + 1) % 2 ^ 32 }
    else r
  let r := if late && decide (r.nextct ≠ 0) && decide (r.nextct ≤ ct) then
      { r with hdr := signedOf 8 (bitsOf r.next 7 0), pin := bitOf r.next 8, pinval := bitsOf r.next 31 16, curmin := bitsOf r.next 47 32,
               curmax := bitsOf r.next 63 48, nextct := 0 }
    else r
  let r := if late then
      { r.derive ((List.range r.fill).map (fun k => Mem.readLe m (a + 0x40 + 2 * k) 2)) with slotct := ct }
    else r
  let r := match amax with
    | some v => { r with pamx := max r.pamx v, pv := true }
    | none => r
  (Mem.writeBytes m a r.bytes, r.cur)

/-- A ring is usable by a domain: its header's page is owned and the header is valid (R160). -/
def Dev.ringOk (d : Dev) (dom ring : Nat) : Bool := rsvPopulated ring 64 && d.rsv.owned dom ring 64 && (ringOf d.rsv.mem ring).ok

/-- Bytes that a ring operation moves: the header both ways, and the entries that a first operation of a slot reads and writes. -/
def ringMoved (r : Ring) (ct : Nat) : Nat := 128 + (if r.slotct < ct then 2 * (min (r.fill + bit01 r.pv) r.len + bit01 r.pv) else 0)

/-- The device after a ring operation, and CUR. -/
def Dev.ring (d : Dev) (ring ct : Nat) (amax : Option Nat) : Dev × Nat :=
  let r := ringOp d.rsv.mem ring ct amax
  (d.setRsv { d.rsv.moved (ringMoved (ringOf d.rsv.mem ring) ct) with mem := r.1 }, r.2)

/-- A ring operation on a page that the domain does not own is denied (R223); elsewhere nothing happens. -/
def Dev.ringDenied (d : Dev) (dom ring : Nat) : Dev := if rsvPopulated ring 64 then d.deny dom ring 64 2 else d

/-- A ring operation by the controller that holds the header. The ring of another domain and an invalid header are left unchanged
(R160); the table's row names no source and no epoch, so none is checked (notes/assumptions/95.md). -/
def amaxOp (ring domain ct : Nat) (amax : Option Nat) (d : Dev) : Dev :=
  if d.ringOk domain ring then
    let r := d.ring ring ct amax
    r.1.emit (.reply (ctrlUnit ring) (leBytes 2 r.2) false false false)
  else if rsvPopulated ring 64 && !d.rsv.owned domain ring 64 then (d.ringDenied domain ring).replyRsv ring (.denied [0, 0])
  else d.replyRsv ring .bad

def execAmaxGet (ring domain slotCt : Nat) (s : State) : Host.Outcome State Fault Refusal := onCore (amaxOp ring domain slotCt none) s
def execAmaxMerge (ring domain amax slotCt : Nat) (s : State) : Host.Outcome State Fault Refusal :=
  onCore (amaxOp ring domain slotCt (some amax)) s

/-! ### Scrubbing (R224) -/

/-- RESERVOIR_SCRUB: the patrol reads a 32 B unit; `finding` 0 clean, 1 a single-symbol error, 2 an uncorrectable one. 3 and 4 are errors
that arise in the unit and that no read has met yet: 3 correctable, 4 uncorrectable (notes/assumptions/95.md). -/
def reservoirScrub (addr finding : Nat) (d : Dev) : Dev :=
  let u := addr / 32
  let with_ (us : List Nat) : List Nat := if u ∈ us then us else u :: us
  if !rsvPopulated addr 1 then d
  else if finding = 1 then d.rsvSoft [u]
  else if finding = 2 then (d.setRsv { d.rsv with poison := with_ d.rsv.poison }).rsvUe (u * 32) true
  else if finding = 3 then d.setRsv { d.rsv with soft := with_ d.rsv.soft }
  else if finding = 4 then d.setRsv { d.rsv with poison := with_ d.rsv.poison }
  else if u ∈ d.rsv.poison then d.rsvUe (u * 32) true
  else if u ∈ d.rsv.soft then d.rsvSoft [u]
  else d
def execReservoirScrub (addr finding : Nat) (s : State) : Host.Outcome State Fault Refusal := onCore (reservoirScrub addr finding) s

/-! ### The weir at a basin (R206, R212, R216) -/

/-- A segment is open to a request from elsewhere: valid, not being zeroed, and of the request's domain (R206). -/
def Basin.openTo (x : Basin) (dom a n : Nat) : Bool :=
  (List.range (cdiv (a % 65536 + n) 65536)).all (fun k =>
    let t := Tab.at x.tags SegTag.reset (a / 65536 + k)
    t.valid && !t.zeroing && t.domain == dom)

/-- An operation in flight holds a write claim on a segment of the range (R212). -/
def Basin.writeClaimed (x : Basin) (a n : Nat) : Bool :=
  x.seq.ops.any (fun o => o.writeSegs.any (fun k => decide (k * 65536 < a + n) && decide (a < k * 65536 + 65536)))

/-- A sunk packet: counted, its credit returned, a read answered with an error (R216). -/
def Dev.sink (d : Dev) (b : Nat) (read : Bool) : Dev :=
  let x := d.basin b
  let d := d.putBasin b { x with cis := { x.cis with sinkcnt := x.cis.sinkcnt + 1 } }
  if read then d.emit (.reply b [] false false true) else d

/-- ROUTER_SINK_PACKET: a packet for a basin that is fenced. -/
def routerSinkPacket (b : Nat) (read : Bool) (d : Dev) : Dev := if b < 272 ∧ (d.basin b).cis.weirFenced then d.sink b read else d
def execRouterSinkPacket (b : Nat) (read : Bool) (s : State) : Host.Outcome State Fault Refusal := onCore (routerSinkPacket b read) s

/-- A read of another basin's cistern, as its router serves it: it waits while an operation in flight there claims the segment for
writing; another domain's segment, or an address outside the cistern, gets an error. -/
def Dev.remoteRead (d : Dev) (b domain addr len : Nat) : Dev :=
  let x := d.basin b
  if 0x400000 < addr + len then d.emit (.reply b [] false false true)
  else if !x.openTo domain addr len then d.emit (.reply b [] false false true)
  else if x.writeClaimed addr len then d
  else match x.badIn addr len with
    | some w =>
      let d := (d.eccHard b w false).emit (.reply b [] false true false)
      if d.secondUe b then d.fence b 2 else d
    | none => (d.eccCorrect b (x.softIn addr len)).emit (.reply b (Mem.readBytes x.store addr len) false false false)

/-- REMOTE_CISTERN_READ: a fenced basin's router sinks it; an epoch that differs is quarantined. -/
def remoteCisternRead (b src : Nat) (epoch : W32) (domain handle addr len : Nat) (d : Dev) : Dev :=
  if ¬ b < 272 then d
  else if (d.basin b).cis.weirFenced then d.sink b true
  else if !d.epochOk src epoch then
    d.holdOr { recv := b, src := src, epoch := epoch.toNat, domain := domain, addr := addr, len := len, handle := handle }
  else d.remoteRead b domain addr len
def execRemoteCisternRead (b src : Nat) (epoch : W32) (domain handle addr len : Nat) (s : State) : Host.Outcome State Fault Refusal :=
  onCore (remoteCisternRead b src epoch domain handle addr len) s

/-! ### Quarantine release (R353) -/

/-- One held request served after its epoch has come to match. -/
def Dev.serveHeld (d : Dev) (q : Quar) : Dev :=
  match q.atomic with
  | some k => d.atomic q.domain q.handle q.addr k
  | none =>
    if q.len = 0 ∧ !q.write then d
    else if q.recv < 272 then (if (d.basin q.recv).cis.weirFenced then d.sink q.recv true else d.remoteRead q.recv q.domain q.addr q.len)
    else if q.recv < 0x1F8 then d
    else
      let r := if q.write then d.rsvWrite q.domain q.addr q.bytes else d.rsvRead q.domain q.addr q.len
      r.1.replyRsv q.addr r.2

/-- QUARANTINE_RELEASE: what unit `u` sent and now matches is served in arrival order. -/
def quarantineRelease (u : Nat) (d : Dev) : Dev :=
  let hit (q : Quar) : Bool := q.src == u && d.epochOk u (BitVec.ofNat 32 q.epoch)
  let mine := d.flt.quar.filter hit
  let d := d.setFlt { d.flt with quar := d.flt.quar.filter (fun q => !hit q) }
  mine.foldl (fun d q => d.serveHeld q) d
def execQuarantineRelease (u : Nat) (s : State) : Host.Outcome State Fault Refusal := onCore (quarantineRelease u) s

end Sys2Proof.Machine
end

