-- ==== Sys2Proof/Machine/Mirror.lean ====
section
/-! DEFINITION. What pairing and training share with the cadence unit and the headworks: Heninaward messages, deltas, digests and
resynchronisation (R326 to R341), and the training context with its periods and phase timers (R269, R277 to R284). -/

namespace Sys2Proof.Machine

open Sys2Proof

/-! ### Heninaward messages (R330 to R332) -/

/-- A submission entry as it stands in the ring (R253). -/
def entryBytes (x : Desc) : List Byte :=
  leBytes 4 x.seq ++ leBytes 4 (bit01 x.notify * 16) ++ leBytes 8 x.src ++ leBytes 4 x.len ++ leBytes 4 x.outmax ++ leBytes 8 x.outaddr
    ++ leBytes 8 x.notbefore ++ leBytes 8 x.cookie ++ List.replicate 16 0

/-- POST: twin handle, period tag, ring index. -/
def Dev.sendPost (d : Dev) (twin tag idx : Nat) : Dev :=
  (d.sendMsg 3 twin (leBytes 4 twin ++ leBytes 8 tag ++ leBytes 4 idx)).setPair { d.pair with posts := d.pair.posts + 1 }

/-- The delta record of a period, on mirror class 2 (R332); POST follows once it is acknowledged (R330). -/
def Dev.sendDelta (d : Dev) (i tag idx : Nat) : Dev :=
  let s := d.stream i
  match d.plan i s.planno with
  | none => d.sendPost s.twin tag idx
  | some p =>
    if p.deltaLen = 0 then d.sendPost s.twin tag idx
    else
      let d := (d.setRsv (d.rsv.moved p.deltaLen)).sendBytes 4 2 s.twin 0 tag (Mem.readBytes d.rsv.mem p.deltaAddr p.deltaLen)
      (d.setPair { d.pair with owed := d.pair.owed ++ [(s.twin, 3, leBytes 4 s.twin ++ leBytes 8 tag ++ leBytes 4 idx)] }).sendOwed

/-- The record a primary forwards: entry, ring index, arrival CT, input bytes, on mirror class 1 (R331). -/
def Dev.sendForward (d : Dev) (i : Nat) (x : Desc) (data : List Byte) : Dev :=
  d.sendBytes 4 1 (d.stream i).twin 0 0 (entryBytes x ++ leBytes 4 x.index ++ leBytes 8 ((x.arr.getD 0) / 65536) ++ data)

/-- HB_SEND at a slot start, while the mirror link is UP (R330, R333). A pair that two missed heartbeats isolated with the link still UP
joins again here (R324; notes/assumptions/100.md). -/
def Dev.hbSend (d : Dev) : Dev :=
  if d.pair.state = 0 ∨ (d.port 4).state ≠ 3 then d
  else
    let d := if d.pair.state = 3 then d.joinAgain else d
    let p := d.pair
    let d := d.sendMsg 2 0 (leBytes 8 d.slotStart ++ leBytes 8 d.ns ++ leBytes 8 p.rxSend ++ leBytes 8 p.rxArr ++ leBytes 4 p.prevPosts
      ++ leBytes 4 d.svcStatus.toNat)
    d.setPair { d.pair with txSend := d.ns }

/-- The digest of a hot period: the first 16 bytes of SHA-384 over tag, OUTLEN, CSTAT bits 31:1 and output (R338). -/
def periodDigest (tag outlen cstat : Nat) (out : List Byte) : Nat :=
  leNat ((sha384 (leBytes 8 tag ++ leBytes 4 outlen ++ leBytes 4 (cstat / 2) ++ out)).take 16)

/-- The state pages of a stream's plan, as bytes (R294, R341). -/
def Dev.stateBytes (d : Dev) (i : Nat) : List Byte :=
  match d.plan i (d.stream i).planno with
  | none => []
  | some p => p.statePages.flatMap (fun k => Mem.readBytes d.rsv.mem (k * 0x200000) 0x200000)

/-- Load bytes into a stream's state pages in order (R341). -/
def Dev.loadState (d : Dev) (i : Nat) (bs : List Byte) : Dev :=
  match d.plan i (d.stream i).planno with
  | none => d
  | some p =>
    p.statePages.zipIdx.foldl (fun (d : Dev) k =>
      d.setRsv ((d.rsv.write (k.1 * 0x200000) ((bs.drop (k.2 * 0x200000)).take 0x200000)).moved 0x200000)) d

/-- The mode and the role that are in force or, where a PAIR_MIRROR waits for its boundary, that it gave (R325). -/
def Stream.nextMode (s : Stream) : Nat := if s.nmode = 0 then s.mirror else s.nmode
def Stream.nextRole (s : Stream) : Nat := if s.nmode = 0 then s.role else s.nrole

/-- Resynchronisation starts: SUSP on both twins, and the primary sends RESYNC, then the state pages, and RESYNC with DONE once they are
acknowledged, so that DONE on class 0 does not overtake them (R341). -/
def Dev.resync (d : Dev) (i boundary : Nat) : Dev :=
  let s := d.stream i
  if s.nextMode = 0 then d
  else
    let d := d.putStream i { s with susp := true, resyncing := true }
    if s.nextRole = 0 then
      let bs := d.stateBytes i
      let msg (done : Nat) : List Byte := leBytes 4 s.twin ++ leBytes 8 boundary ++ leBytes 8 bs.length ++ leBytes 1 done
      let d := (d.setRsv (d.rsv.moved bs.length)).sendMsg 6 s.twin (msg 0)
      let d := d.sendBytes 4 2 s.twin 0 0 bs
      (d.setPair { d.pair with owed := d.pair.owed ++ [(s.twin, 6, msg 1)],
                               dones := d.pair.dones.filter (fun e => e.1 ≠ i) ++ [(i, boundary)] }).sendOwed
    else d

/-- Resynchronisations that fall due at a frame boundary; a rejoining module with HOME = 0 returns to standby there (R338,
R342). -/
def Dev.startResyncs (d : Dev) (now : Nat) : Dev :=
  let go := d.pair.resyncs.filter (fun x => decide (x.2.1 ≤ now))
  let d := d.setPair { d.pair with resyncs := d.pair.resyncs.filter (fun x => decide (now < x.2.1)) }
  go.foldl (fun d x =>
    let d := if x.2.2 then d.putStream x.1 { d.stream x.1 with role := 1, promoted := false } else d
    d.resync x.1 now) d

/-- SLEN, NSLOT and slot boundaries as a JOIN gives them, against the active table's: 0, or what JOINERR shows (R323, R355). -/
def Dev.alignment (d : Dev) (j : Join) : Nat :=
  match d.cad.activeTable with
  | none => 0
  | some t =>
    if j.slen = 0 then 0
    else if j.slen ≠ t.slen ∨ j.nslot ≠ t.nslot then 2
    else if j.fmod ≠ t.fstart % (t.slen * t.nslot) then 3 else 0

/-- Streams that both modules hold as primary are resynchronised at the next frame boundary, and the module with HOME = 0 returns to
standby there (R342). -/
def Dev.rejoin (d : Dev) (j : Join) : Dev :=
  let both := d.streams.filter (fun p => p.2.mirror != 0 && p.2.role == 0 && j.streams.any (fun t => t.1 == p.2.twin && t.2.1 == 0))
  d.setPair { d.pair with resyncs := d.pair.resyncs ++ both.map (fun p => (p.1, d.nextFrame, !p.2.home)) }

/-- The two JOINs against each other. A disagreement keeps the pair in JOINING, recorded and reported; where either module has no table yet,
it stays in JOINING until that module's first swap; else the pair is PAIRED (R323, R324). A twin that joins again while this module
is still PAIRED is sent a JOIN in answer (notes/assumptions/100.md). -/
def Dev.tryPair (d : Dev) (j : Join) : Dev :=
  let e := if j.version / 2 ^ 24 ≠ d.fh.fwversion.toNat / 2 ^ 24 then 1 else d.alignment j
  if d.pair.state = 0 ∨ (d.port 4).state ≠ 3 then d
  else if e ≠ 0 then (d.setPair { d.pair with state := 1, joinerr := e }).pairEvent
  else if d.pair.state = 2 then d.sendJoin.rejoin j
  else if !d.cad.active ∨ j.slen = 0 then d
  else ((d.setPair { d.pair with joinerr := 0, hbmiss := 0, promoted := false }).setPairState 2).rejoin j

/-- The first swap of a module whose JOIN named no table: it sends a JOIN that names one, and compares with the twin's (R323). -/
def Dev.comparePend (d : Dev) : Dev :=
  if !d.pair.cmpPend ∨ d.pair.state ≠ 1 ∨ (d.port 4).state ≠ 3 then d
  else
    let d := d.sendJoin
    match d.pair.join with
    | none => d
    | some j => d.tryPair j

/-- The module takes part of a mirrored stream as its standby (R258). -/
def Stream.standby (s : Stream) : Bool := s.mirror != 0 && s.role == 1

/-- A warm standby's plan: its runs are DELAY slots late, also after promotion (R326, R336). -/
def Stream.delayed (s : Stream) : Bool := s.mirror == 1 && !s.home

/-! ### The training context (R277) -/

/-- Buckets from their records in the reservoir (R284). -/
def bucketsAt (m : Mem) (a n : Nat) : List Bucket :=
  (List.range n).map (fun k =>
    { addr := Mem.readLe m (a + 32 * k) 8, bytes := Mem.readLe m (a + 32 * k + 8) 4, xstart := Mem.readLe m (a + 32 * k + 12) 4,
      efoff := Mem.readLe m (a + 32 * k + 16) 8 })

/-- TCTL. -/
def Train.tctl (t : Train) : Nat :=
  t.tstate + bit01 (t.dmode == 1) * 4 + t.cmode * 8 + bit01 t.carry * 16 + bit01 t.avg * 32 + t.rank * 2 ^ 8 + t.nrank * 2 ^ 14
    + bit01 t.diverged * 2 ^ 21

/-- The context's words 0x04 to 0x4F. -/
def Train.words (t : Train) : List Nat :=
  let two (n : Nat) : List Nat := [n % 2 ^ 32, n / 2 ^ 32]
  [t.tctl] ++ two t.seed.toNat ++ two t.period.toNat ++ [t.evalEvery + t.evalOff * 2 ^ 16, t.kfrac] ++ two t.bucketsAddr
    ++ [t.buckets.length, t.hopns] ++ two t.efaddr ++ two t.carryaddr ++ two t.twinoff ++ [t.ckEvery + t.ckShare * 2 ^ 16, t.optoff]

/-- The fields that TRAIN_SET changes, from the words 0x04 to 0x4F: all but PERIOD and DIVERGED (R278). -/
def Train.setWords (t : Train) (m : Mem) (ws : List Nat) : Train :=
  let w (k : Nat) : Nat := ws.getD k 0
  let w2 (k : Nat) : Nat := w k + w (k + 1) * 2 ^ 32
  { t with tstate := bitsOf (w 0) 1 0, dmode := bitsOf (w 0) 2 2, cmode := bitsOf (w 0) 3 3, carry := bitOf (w 0) 4, avg := bitOf (w 0) 5,
           rank := bitsOf (w 0) 13 8, nrank := bitsOf (w 0) 20 14, seed := BitVec.ofNat 64 (w2 1), evalEvery := bitsOf (w 5) 15 0,
           evalOff := bitsOf (w 5) 31 16, kfrac := bitsOf (w 6) 15 0, bucketsAddr := w2 7,
           buckets := (bucketsAt m (w2 7) (w 9)).zipIdx.map (fun p => { p.1 with carried := (t.buckets.getD p.2 {}).carried }),
           hopns := bitsOf (w 10) 23 0, efaddr := w2 11, carryaddr := w2 13, twinoff := w2 15, ckEvery := bitsOf (w 17) 15 0,
           ckShare := bitsOf (w 17) 31 16, optoff := w 18 }

/-- Bucket state at the start of a period. -/
def Bucket.fresh (b : Bucket) : Bucket :=
  { addr := b.addr, bytes := b.bytes, xstart := b.xstart, efoff := b.efoff, carried := b.carried }

/-- The start of a period: changes that name it take effect, and a rank that was resynchronised for it takes part again under the
period's number (R278, R288, R292). -/
def Train.begin (t : Train) (m : Mem) (start : Nat) : Train :=
  let n := t.period.toNat
  let t := (t.pendSet.filter (fun p => decide (p.1 ≤ n))).foldl (fun t p => t.setWords m p.2) t
  let t := (t.pendState.filter (fun p => decide (p.1 ≤ n))).foldl (fun (t : Train) p => { t with tstate := p.2 }) t
  let back := t.resumeAt.any (fun r => decide (r.2 ≤ 1))
  let normal := t.tstate == 1
  let period := if back then BitVec.ofNat 64 ((t.resumeAt.map Prod.fst).getD n) else t.period
  { t with pendSet := t.pendSet.filter (fun p => decide (n < p.1)), pendState := t.pendState.filter (fun p => decide (n < p.1)),
           diverged := t.diverged && !back, period := period, seedr := t.seed + period,
           resumeAt := if back then none else t.resumeAt.map (fun r => (r.1, r.2 - 1)), startCt := start, buckets := t.buckets.map Bucket.fresh,
           abandoned := false, optOk := true, kv := [], doneRuns := [], flushEf := normal && !t.prevNormal, residualZero := !normal && t.prevNormal,
           phases := t.phases.map (fun p => { p with first := none, fin := none }) }

/-- A phase timer at the end of a period (R279). -/
def Phase.close (p : Phase) : Phase :=
  match p.first, p.fin with
  | some a, some b =>
    let v := min (b - a) 0xFFFFFFFF
    { first := none, fin := none, last := v, max := Nat.max p.max v, sum := p.sum + BitVec.ofNat 64 v }
  | _, _ => { p with first := none, fin := none }

/-- The checkpoint of the period that is open is due: EVERY divides its number, and its copy has not started (R294). -/
def Train.ckNow (t : Train) : Bool :=
  t.ckEvery != 0 && t.period.toNat % t.ckEvery == 0 && t.ckLast != some t.period.toNat && (t.phases.getD 3 {}).fin.isSome

/-- The end of a period: timers close, PERIOD counts it, LASTMASK is the AND of the buckets' masks; a checkpoint that has not started stays
due (R277, R279, R294). -/
def Train.finish (t : Train) : Train :=
  { t with ckDue := if t.ckNow then some t.period.toNat else t.ckDue, phases := t.phases.map Phase.close, period := t.period + 1, prevNormal := t.tstate == 1,
           lastmask := BitVec.ofNat 64 (t.buckets.foldl (fun a b => Nat.land a b.mask) (2 ^ 64 - 1)) }

/-- Evaluation runs work in period n when EVERY is not 0 and (n − EOFF) mod EVERY = 0 (R281). -/
def Train.evalDue (t : Train) : Bool :=
  t.evalEvery != 0 && (((t.period.toNat : Int) - t.evalOff) % (t.evalEvery : Int) == 0)

/-- A training run's own conditions: not while diverged, evaluation only when due, the optimiser only when every bucket came, no
backward run after an abandonment (R281, R283, R292). -/
def Train.allows (t : Train) (ph : Nat) : Bool :=
  !t.diverged && (ph != 4 || t.evalDue) && (ph != 3 || t.optOk) && (ph != 1 || !t.abandoned)

end Sys2Proof.Machine
end

