-- ==== Sys2Proof/Machine/Cadence.lean ====
section
/-! DEFINITION. The cadence unit: slot strobes, table swaps, time steps, and the start and end of runs (R32 to R34, R96, R106, R110, R207,
R239 to R246, R272, R276, R347, R352, R464). -/

namespace Sys2Proof.Machine

open Sys2Proof

/-! ### Slot strobe (R20, R239, R240) -/

/-- The absolute number, within the active table, of the slot that the next strobe starts. Slots whose strobe was not driven,
during a freeze, are passed over. -/
def Dev.nextSlot (d : Dev) (t : Table) : Nat :=
  let cur := d.cad.frameInTable * t.nslot + d.cad.slot
  max (if d.cad.strobed then cur + 1 else cur) ((d.ns - t.fstart) / t.slen)

/-- A run placed by start offset (R243). -/
def insertRun (r : Run) (l : List Run) : List Run :=
  match l with
  | [] => [r]
  | x :: xs => if r.tstart < x.tstart then r :: x :: xs else x :: insertRun r xs

/-- Deliver one run of the next slot to the basin that carries its logical number, or note it as absent (R13, R23, R240). -/
def Dev.deliverRun (d : Dev) (r : Run) : Dev :=
  match d.physOf r.lbasin with
  | some b => d.putBasin b { d.basin b with coming := insertRun r (d.basin b).coming }
  | none => d.setCad { d.cad with absentNext := insertRun r d.cad.absentNext }

/-- Deliver the runs of slot `a` of the table in `copy`, which starts at `start` (R240); none before a release's hold ends (R438). -/
def Dev.deliverSlot (d : Dev) (copy a start : Nat) : Dev :=
  match d.cad.table copy with
  | none => d
  | some t =>
    let d := d.setCad { d.cad with ahead := some (copy, a), absentNext := [] }
    let d := d.setBasins (Tab.mapv d.basins (fun _ x => { x with coming := [] }))
    if start < d.cad.holdUntil ∨ t.nslot = 0 then d else (Tab.at t.runs [] (a % t.nslot)).foldl (fun d r => d.deliverRun r) d

/-- During a slot, deliver the runs of the next one: of slot `a` of the active table, or of slot 0 of the shadow where a swap falls on
its start (R240). -/
def Dev.deliverNext (d : Dev) (t : Table) (a : Nat) : Dev :=
  let start := t.fstart + a * t.slen
  if d.cad.swapAt = some start then d.deliverSlot d.cad.shadow 0 start else d.deliverSlot d.cad.copy a start

/-- At a slot start, what was delivered for it becomes what its basins start from (R20, R240). -/
def Dev.takeDelivered (d : Dev) : Dev :=
  (d.setBasins (Tab.mapv d.basins (fun _ x => { x with delivered := x.coming, coming := [] }))).setCad
    { d.cad with absent := d.cad.absentNext, absentNext := [], ahead := none }

/-- A period fails with a code unless one was there already; a run without a program belongs to no period (R264, R464). -/
def Dev.failRun (d : Dev) (r : Run) (code : Nat) : Dev :=
  let i := runIndex r
  if r.entry.isSome && (d.stream i).gen == r.handle % 65536 then d.putStream i (failPeriod (d.stream i) code) else d

/-- What the module's monitors read at the slot boundary (R460). -/
def Dev.monitor (d : Dev) (m : Readings) : Dev :=
  let d := d.setMd { d.md with pin := m.pin, vin := m.vin, tinlet := m.tinlet, thbm := m.thbm, tjmax := m.tj, inletHigh := decide (45 < m.tinlet) }
  d.setPow { d.pow with avsFails := if m.avsOk then 0 else d.pow.avsFails + 1 }

/-- A change between Run and Trim takes effect at a slot boundary (R29, R384). -/
def Dev.trimSwitch (d : Dev) : Dev :=
  match d.pow.latched with
  | some t =>
    if t < 2 ∧ d.pow.state < 2 then
      (d.setPow { d.pow with state := t, target := t, latched := none }).raiseO 0x14 0x1F3 d.pow.state t 0
    else d
  | none => d

/-- SLOT_BUDGET_LOAD: every controller takes the slot's budget list and counts again from 0 (R225). -/
def Dev.loadBudgets (d : Dev) (l : List (Nat × Nat)) : Dev :=
  d.setRsv { d.rsv with ctrls := d.rsv.ctrls.map (fun c => { c with budget := l.foldl (fun t q => Tab.put t q.1 q.2) [], used := [] }) }

/-! ### Swaps and time steps (R237, R245, R246, R252) -/

/-- DRAINING_DISCARD: a stream that leaves ADMITTED or DRAINING becomes IDLE; a standby that a detach left without a mode is then an
ordinary stream again (R340); the descriptors no run has taken are discarded and
counted in NMISS (R252). -/
def Stream.leave (s : Stream) : Stream :=
  { s with state := 1, role := if s.mirror = 0 then 0 else s.role, nmiss := s.nmiss + BitVec.ofNat 64 s.descs.length, descs := [] }

/-- The stream handles a table names. -/
def Table.handles (t : Table) : List Nat := t.runs.flatMap (fun p => (p.2.filter (fun r => r.entry.isSome)).map Run.handle)

/-- The state a stream has by the tables that name it (R250). -/
def Dev.settle (d : Dev) : Dev :=
  let act := (d.cad.activeTable.map Table.handles).getD []
  let sh := ((d.cad.table d.cad.shadow).map Table.handles).getD []
  d.setStreams (Tab.mapv d.streams (fun i s =>
    let h := handleOf i s
    if s.state = 0 ∨ s.state = 4 then s
    else if h ∈ sh then { s with state := 2 }
    else if h ∈ act then { s with state := if (d.cad.table d.cad.shadow).isNone then 2 else 3 }
    else if s.state = 1 then s else s.leave))

/-- TABLE_SWAP: the shadow becomes active on one strobe, and the copy that was active holds no table; or the first table
starts. -/
def tableSwap (d : Dev) : Dev :=
  match d.cad.swapAt with
  | none => d
  | some w =>
    if d.cad.active && d.cad.stepPend.isSome && decide (d.nextFrame ≤ w) then d
    else
      let d := d.atNs w
      let c := d.cad
      let n := c.shadow
      let t := (c.table n).getD {}
      let c := c.setTable c.copy none
      let c := { c with copy := n, active := true, slot := 0, frameInTable := 0, strobed := false, swapAt := none,
                        swapcnt := c.swapcnt + 1, frame := if c.active && (c.strobed || c.slot != 0) then c.frame + 1 else c.frame }
      let act := t.handles
      let d := (d.setCad c).setStreams (Tab.mapv d.streams (fun i s =>
        if s.state = 2 ∨ s.state = 3 then (if handleOf i s ∈ act then { s with state := 2 } else s.leave) else s))
      (d.raiseO 0x17 0x1F1 t.gen n 0).comparePend
def execTableSwap (s : State) : Host.Outcome State Fault Refusal := onCore tableSwap s

/-- A table whose frames start later or earlier by a step. -/
def Table.shift (t : Table) (n : Int) : Table := { t with fstart := ((t.fstart : Int) + n).toNat }

/-- TIME_STEP_APPLY: at the frame boundary CT steps, and the new frame starts at the stepped CT. A swap that is pending keeps its
boundary in frames (R237, R246). -/
def timeStepApply (d : Dev) : Dev :=
  match d.cad.stepPend, d.cad.activeTable with
  | some n, some t =>
    let d := d.atNs d.nextFrame
    let c := d.cad
    let c := c.setTable c.copy (some (t.shift n))
    let c := match c.swapAt with
      | some w => { (c.setTable c.shadow ((c.table c.shadow).map (fun (x : Table) => x.shift n))) with swapAt := some ((w : Int) + n).toNat }
      | none => c
    (d.setCad { c with slew := 0, diverged := false, stepPend := none,
                       frameInTable := c.frameInTable + 1, slot := 0, strobed := false, frame := c.frame + 1 }).stepCt (n * 65536)
  | _, _ => d
def execTimeStepApply (s : State) : Host.Outcome State Fault Refusal := onCore timeStepApply s

/-! ### Taking a descriptor (R33, R244, R327, R335) -/

/-- The end of a period: its ingress slot is freed, and what remains of it waits for its completion. A period that took nothing,
or that a warm standby does not cover, leaves nothing behind (R244, R255, R335). -/
def Stream.closePeriod (s : Stream) : Stream :=
  match s.period with
  | none => s
  | some p =>
    let s := match p.desc with
      | some x => { s with heldIb := s.heldIb.filter (fun n => n ≠ x.ib) }
      | none => s
    let keep := p.desc.isSome && !(s.standby && s.mirror == 1 && !p.covering)
    { s with period := none, due := if keep then s.due ++ [p] else s.due,
             coverTags := if p.covering && s.mirror == 1 then (p.tag :: s.coverTags).take 256 else s.coverTags }

/-- A stream's period ends; a training stream's step is counted (R277). -/
def Dev.closePeriod (d : Dev) (i : Nat) : Dev :=
  let d := match d.train i with
    | some t => if (d.stream i).period.isSome then d.putTrain i t.finish else d
    | none => d
  d.putStream i (d.stream i).closePeriod

/-- A descriptor qualifies at CT `at'` (2^-16 ns): its frame arrived strictly before, and NOTBEFORE allows (R33). -/
def Desc.ready (x : Desc) (at' : Nat) : Bool :=
  (match x.arr with | some t => decide (t < at') | none => false) && (x.notbefore == 0 || decide (x.notbefore * 65536 ≤ at'))

/-- A take moves the ring position it gives (R256). -/
def Stream.nextTake (s : Stream) : Stream :=
  { s with takeIdx := (s.takeIdx + 1) % 2 ^ s.cqLog, takePhase := if s.takeIdx + 1 = 2 ^ s.cqLog then 1 - s.takePhase else s.takePhase }

/-- No descriptor is taken: NMISS counts it; a standby that does not hold POST and delta and so could not cover the period counts it in
NUNCOV with an event (R33, R329). -/
def Dev.missed (d : Dev) (i : Nat) (s : Stream) (p : Period) (held : Bool) : Dev :=
  if s.standby && !held then
    (d.putStream i { s with period := some p, nmiss := s.nmiss + 1, nuncov := s.nuncov + 1 }).raiseS 0xF 0x1F5 i (p.tag % 2 ^ 32) (p.tag / 2 ^ 32) 0
  else d.putStream i { s with period := some p, nmiss := s.nmiss + 1 }

/-- DESCRIPTOR_TAKE at the start of a TAKE run: the oldest untaken descriptor, if it qualifies, else a missed input. On a warm
standby the arrival at the primary counts against the primary's own start, DELAY slots before; the period is covered unless POST
and delta are held (R33, R327, R331, R335). -/
def Dev.take (d : Dev) (r : Run) : Dev :=
  let i := runIndex r
  let d := if (d.stream i).period.isSome then d.closePeriod i else d
  let s := d.stream i
  let late := if s.delayed then s.delay * d.slen else 0
  let tag := d.slotStart - late
  let held := s.standby && s.mirror == 1 && decide (tag ∈ s.postTags) && decide (tag ∈ s.deltaTags)
  let s := { s with postTags := s.postTags.filter (fun x => decide (tag < x)), deltaTags := s.deltaTags.filter (fun x => decide (tag < x)) }
  let due := d.slotStart + (match d.cad.activeTable with
    | some t => slotsToPost t r.handle d.cad.slot r.tstart * t.slen
    | none => 0) + s.deadl
  let none' : Period := { tag := tag, deadline := due }
  match s.descs with
  | x :: rest =>
    if x.ready (d.cad.ct - (if x.fwd then late * 65536 else 0)) then
      let p : Period := { desc := some x, tag := tag, cqIndex := s.takeIdx, cqPhase := s.takePhase, deadline := due, covering := s.standby && !held }
      d.putStream i { s.nextTake with descs := rest, heldIb := x.ib :: s.heldIb, period := some p }
    else d.missed i s none' held
  | [] => d.missed i s none' held

/-- The start of a training period (R278). -/
def Dev.trainBegin (d : Dev) (i : Nat) : Dev :=
  match d.train i with
  | some t => d.putTrain i (t.begin d.rsv.mem d.slotStart)
  | none => d

/-- What a TAKE run does for its stream before it starts, also where it is not started at all (R464). A stream of no mode whose
module stood by it takes nothing (R340). -/
def Dev.takeFor (d : Dev) (r : Run) : Dev :=
  let i := runIndex r
  let s := d.stream i
  if !r.take || r.entry.isNone || s.gen != r.handle % 65536 || (s.mirror == 0 && s.role == 1) then d
  else (d.take r).trainBegin i

/-- A run of the posting step that ends, or is not started, ends the period; `fin` is the end of its window (R244). -/
def Dev.postEnds (d : Dev) (r : Run) (fin : Nat := r.tend) : Dev :=
  let i := runIndex r
  let s := d.stream i
  if !r.post || r.entry.isNone || s.gen != r.handle % 65536 then d
  else
    let p := s.period.map (fun (p : Period) =>
      { p with postCt := some d.ns, postSlot := d.cad.slot, postFrame := d.cad.frame.toNat, postEnd := d.slotStart + fin,
               outsize := ((d.planStep r).map PlanStep.outsize).getD 0 })
    (d.putStream i { s with period := p }).closePeriod i

/-- A run that no basin can start: its period takes its descriptor and fails, and one that posts ends it (R23, R464). -/
def Dev.neverStarts (d : Dev) (r : Run) (code : Nat) : Dev := ((d.takeFor r).failRun r code).postEnds r

/-- What is left of a slot at its end: runs of absent basins have failed at their start offsets, and runs that a fence stopped and no
spare replayed have failed (R23, R464, R347). -/
def Dev.slotOver (d : Dev) : Dev :=
  let d := d.cad.absent.foldl (fun d r => d.neverStarts r 0x200) d
  d.flt.replays.foldl (fun d r => (d.failRun r.2 0x600).postEnds r.2) d

/-- SLOT_STROBE at the next slot start. It waits for a swap or a time step that is due first (R246). -/
def slotStrobe (m : Readings) (d : Dev) : Dev :=
  match d.cad.activeTable with
  | none => d
  | some t =>
    if t.slen = 0 ∨ t.nslot = 0 then d
    else
      let c := d.cad
      let a := d.nextSlot t
      let fr := a / t.nslot
      let k := a % t.nslot
      let start := t.fstart + a * t.slen
      let cur := c.frameInTable * t.nslot + c.slot
      if c.swapAt.any (fun w => decide (w ≤ start)) || (c.stepPend.isSome && decide (c.frameInTable < fr)) then d
      else
        let d := (d.atNs start).due.monitor m
        if 3 ≤ d.pow.avsFails then d.moduleFatal
        else
          let n := if c.strobed then c.slots + (a - cur - 1) else c.slots + (a - cur)
          let d := d.slotOver
          let d := d.setCad { d.cad with slot := k, frameInTable := fr, strobed := true, slots := n + 1,
                                         frame := c.frame + BitVec.ofNat 64 (fr - c.frameInTable) }
          let d := (d.trimSwitch.governor m d.rsv.slotBytes t.slen).setTherm
          let d := (d.setRsv { d.rsv with slotBytes := 0 }).loadBudgets (Tab.at t.budgets [] k)
          let d := d.setBasins (Tab.mapv d.basins (fun _ x => x.slotReseed d.boot.devseed n))
          let d := d.setFlt { d.flt with changed := [], replays := [], replayAt := [],
                                          reissue := [], reissueDue := d.flt.reissueDue ++ d.flt.reissue }
          let d := if k = 0 then d.startResyncs start else d
          let d := if d.cad.ahead = some (d.cad.copy, a) then d else d.deliverSlot d.cad.copy a start
          let d := d.takeDelivered.deliverNext t (a + 1)
          let d := d.setPair { d.pair with prevPosts := d.pair.posts, posts := 0, hbDone := false }
          d.hbSend
def execSlotStrobe (m : Readings) (s : State) : Host.Outcome State Fault Refusal := onCore (slotStrobe m) s

/-! ### Run start -/

/-- SEGMENT_ZEROING: each segment of the run that is invalid or another domain's is zeroed and tagged (R207). -/
def Basin.zeroSegs (x : Basin) (r : Run) : Basin :=
  ((List.range 64).filter (fun k => bitOf r.segs k)).foldl (fun (x : Basin) k =>
    let t := Tab.at x.tags SegTag.reset k
    if t.valid && t.domain == r.domain then x
    else x.fillSeg k r.domain []) x

/-- APERTURE_ZEROING: each aperture segment last held by another stream is zeroed, its tile flags cleared (R96). -/
def Basin.zeroAperture (x : Basin) (r : Run) : Basin :=
  ((List.range 4).filter (fun a => bitOf r.apseg a)).foldl (fun (x : Basin) a =>
    if List.find? (fun (p : Nat × Nat) => p.1 == a) x.apHolder = some (a, r.handle) then x
    else ({ x with store := Mem.zero x.store (0x400000 + a * 65536) 65536, tileFlags := Tab.clear x.tileFlags (a * 256) 256,
                   tileCover := Tab.clear x.tileCover (a * 256) 256,
                   apHolder := Tab.put x.apHolder a r.handle }).mend (0x400000 + a * 65536) 65536) x

/-- The registers that a run start clears or loads (R82, R86, R106, R118, R142, R168, R200, R231, R297). -/
def Basin.clearRun (x : Basin) (r : Run) (slot : Nat) : Basin :=
  let e := x.eng
  { x with flags := EngineFlags.reset,
           eng := { EngineRegs.reset with skipcnt := e.skipcnt, ftblcnt := e.ftblcnt, blkcnt := e.blkcnt, zblkcnt := e.zblkcnt,
                                          vancnt := e.vancnt, dropcnt := e.dropcnt, trunccnt := e.trunccnt, drawcnt := e.drawcnt,
                                          reseedcnt := e.reseedcnt, refusecnt := e.refusecnt },
           cis := { x.cis with sluErr := 0 },
           seq := { x.seq with active := none, held := none, ops := [], det := r.det, apseg := r.apseg, base := r.base, limit := r.limit,
                               pc := r.entry.getD 0, last := r.entry.getD 0, fault := { code := 0, pc := 0 },
                               regs := Tab.put (Tab.put (Tab.put [] 1 (BitVec.ofNat 32 r.handle)) 2 (BitVec.ofNat 32 r.planStep)) 3
                                 (BitVec.ofNat 32 slot) } }

/-- SEEDR: of a training stream as its period's start latched it (R272). -/
def Dev.seedr (d : Dev) (r : Run) : Nat :=
  match d.train (runIndex r) with
  | some t => t.seedr.toNat
  | none => r.handle

/-- The run does work: its period took a descriptor, has not failed, and its mode and training state allow it (R244, R335, R340,
R464). -/
def Dev.works (d : Dev) (r : Run) : Bool :=
  let i := runIndex r
  let s := d.stream i
  r.entry.isSome && s.gen == r.handle % 65536 &&
    (match s.period with
     | some p => p.desc.isSome && p.fail == 0 && (!s.standby || s.mirror == 2 || p.covering)
     | none => false) &&
    (match d.train i with
     | some t => t.allows (((d.planStep r).map PlanStep.phase).getD 0)
     | none => true)

/-- The run as the sequencer holds it from its start. -/
def Dev.active (d : Dev) (r : Run) (start fin : Nat) (epoch : W32) : Active :=
  let train := d.train (runIndex r)
  { run := r, slot := d.cad.slot, frame := d.cad.frame.toNat, slotCt := d.slotStart, start := start, fin := fin, clk0 := d.clocks,
    epoch := epoch, ended := false, nextSeq := 0, gseqs := [], novf := 0, nsat := 0, nvan := 0, novb := 0, trunc := false, seedr := d.seedr r,
    evalTags := train.isSome && d.phaseOf r == 4 }

/-- Start a run on a basin at the present CT: zeroing, tagging, reseeding, and the run itself where it does work; one that does none
ends at once, its phase with it, and what its root held is discarded (R33, R96, R106, R184, R207, R276, R279). `start` and `fin` are its
window. -/
def Dev.startRun (d : Dev) (b : Nat) (r : Run) (start fin : Nat) : Dev :=
  let x := (((d.basin b).zeroSegs r).zeroAperture r).clearRun r d.cad.slot
  let x := if r.det then x.runReseed (d.seedr r) r.planStep r.lbasin else x
  let d := (d.putBasin b x).phaseMark r Train.phaseStart
  if d.works r then
    let d := d.putBasin b { x with seq := { x.seq with active := some (d.active r start fin x.epoch) } }
    match d.train (runIndex r) with
    | some t => if d.phaseOf r = 4 ∧ (t.phases.getD 4 {}).fin.isNone then d.putTrain (runIndex r) { t with neval := t.neval + 1 } else d
    | none => d
  else ((d.putBasin b (x.dropPartials r.handle)).phaseMark r Train.phaseEnd).postEnds r

/-- EPOCH_DISAGREEMENT: the run does not start, its period fails with 0x0300, an epoch event is raised and counted, and the unit's
state is to be reissued (R352). -/
def Dev.epochClash (d : Dev) (b : Nat) (r : Run) : Dev :=
  let m := d.mgmtView b
  let o := d.ownView b
  let d := d.setFlt { d.flt with epochev := d.flt.epochev + 1, reissue := if b ∈ d.flt.reissue then d.flt.reissue else d.flt.reissue ++ [b] }
  (d.failRun r 0x300).raiseO 7 b b (m.state + o.state * 256) (m.epoch + 1).toNat

/-- The physical basin is a spare that has not restored yet, or one whose fence is not complete (R344, R346). -/
def Dev.restoring (d : Dev) (b : Nat) : Bool := d.fencing b || (b % 17 == 16 && (Tab.at d.flt.rows {} (b / 17)).spstate == 1)

/-- The slot of the fence whose restore a basin waits for, by its start CT (R347). -/
def Dev.fenceSlot (d : Dev) (b : Nat) : Nat :=
  match d.flt.fencing.find? (fun f => f.basin == b) with
  | some f => f.slot
  | none => (Tab.at d.flt.rows {} (b / 17)).fencedSlot

/-- Where a run of a row that is being fenced is to start, a fence that is over by then completes first, and its run moves to the spare
with the number (R344, R346). -/
def Dev.fenceFirst (d : Dev) (b : Nat) : Dev :=
  match d.flt.fencing.filter (fun f => f.basin / 17 == b / 17 && (f.basin == b || b % 17 == 16)) with
  | [] => d
  | f :: _ =>
    match (d.basin b).delivered with
    | [] => d.fenceRow (b / 17)
    | r :: _ => if f.tf + 3000 ≤ d.slotStart + r.tstart then d.fenceRow (b / 17) else d

/-- A run that does not start on its basin: the partials its root held for it are discarded (R184), and its period fails. -/
def Dev.notStarted (d : Dev) (b : Nat) (r : Run) (f : Dev → Dev) : Dev := (f (d.putBasin b ((d.basin b).dropPartials r.handle))).postEnds r

/-- RUN_START: the next run delivered to a basin starts at its start offset, or does not start (R32, R345, R346, R352). From 272
on, `b` names the runs of logical basin b − 272, which is absent (R23). A run that starts while the spare still restores waits for the
reserve only in the slot of the fence (R347). -/
def runStart (b : Nat) (d : Dev) : Dev :=
  if 272 ≤ b then
    match d.cad.absent.filter (fun r => r.lbasin == b - 272) with
    | [] => d
    | r :: _ =>
      let d := d.atNs (d.slotStart + r.tstart)
      (d.setCad { d.cad with absent := d.cad.absent.erase r }).neverStarts r 0x200
  else
    let d := d.fenceFirst b
    match (d.basin b).delivered with
    | [] => d
    | r :: rest =>
      if (d.basin b).seq.active.isSome then d
      else
        let d := d.atNs (d.slotStart + r.tstart)
        let d := (d.putBasin b { d.basin b with delivered := rest }).takeFor r
        if d.restoring b then
          if d.replayable r && d.fenceSlot b == d.slotStart then
            d.setFlt { d.flt with replays := d.flt.replays ++ [((d.basin b).logical, r)] }
          else d.notStarted b r (fun d => d.failRun r 0x600)
        else if d.mgmtView b ≠ d.ownView b ∨ (d.mgmtView b).state ≠ 0 then d.notStarted b r (fun d => d.epochClash b r)
        else d.startRun b r r.tstart r.tend
def execRunStart (b : Nat) (s : State) : Host.Outcome State Fault Refusal := onCore (runStart b) s

/-- REPLAY_START: in the reserve the spare replays the next run that the fence stopped, with its setup and its window length; one
that would not end by the slot's end under the largest slew is not replayed (R347). -/
def replayStart (b : Nat) (d : Dev) : Dev :=
  let d := if b % 17 = 16 then d.fenceRow (b / 17) else d
  let l := (d.basin b).logical
  match d.flt.replays.filter (fun r => r.1 == l) with
  | [] => d
  | (_, r) :: _ =>
    if (d.basin b).seq.active.isSome ∨ d.restoring b ∨ ¬ (b < 272) then d
    else
      let floor := (d.cad.activeTable.map Table.floor).getD 0
      let bits (n k : Nat) : Nat := ((List.range k).filter (fun j => bitOf n j)).length
      let setup := 2000 + (if floor = 0 then 0 else (32 * bits r.segs 64 + 64 * bits r.apseg 4) * 10000 / floor)
      let from' := Tab.at d.flt.replayAt (limTenths d.slen) l
      let start := from' + setup
      let fin := start + (r.tend - r.tstart) * 10
      let d := d.setFlt { d.flt with replays := d.flt.replays.erase (l, r) }
      if effTenths d.slen < fin then (d.failRun r 0x600).postEnds r
      else
        let d := d.atNs (d.slotStart + start / 10)
        let d := d.setFlt { d.flt with replaycnt := d.flt.replaycnt + 1, replayAt := Tab.put d.flt.replayAt l fin }
        d.startRun b r (start / 10) (fin / 10)
def execReplayStart (b : Nat) (s : State) : Host.Outcome State Fault Refusal := onCore (replayStart b) s

/-! ### Run end -/

/-- RUN_END_OFFSET: a run still executing at its end offset is stopped with code 0x08 (R34, R110). -/
def runEndOffset (b : Nat) (d : Dev) : Dev :=
  match (d.basin b).seq.active with
  | none => d
  | some a => ((d.atNs (a.slotCt + a.fin)).stopRun b 8 (d.basin b).seq.pc).postEnds a.run a.fin
def execRunEndOffset (b : Nat) (s : State) : Host.Outcome State Fault Refusal := onCore (runEndOffset b) s

/-- A training run has retired: what it produces is there (R289). -/
def Dev.runRetired (d : Dev) (r : Run) : Dev :=
  match d.train (runIndex r) with
  | some t => if r.entry.isSome then d.putTrain (runIndex r) { t with doneRuns := t.doneRuns ++ [(r.planStep, r.lbasin)] } else d
  | none => d

/-- RUN_FLAG_MERGE: END has issued and every operation has retired; flags and counts go to the stream and the run ends, by its end
offset at the latest (R82, R110, R142, R184). -/
def runFlagMerge (b : Nat) (d : Dev) : Dev :=
  let x := d.basin b
  match x.seq.active with
  | none => d
  | some a =>
    if !a.ended || !x.seq.ops.isEmpty || decide ((a.slotCt + a.fin) * 65536 < d.cad.ct) then d
    else
      let d := (d.mergeFlags b a).runRetired a.run
      let y := (d.basin b).dropPartials a.run.handle
      (d.putBasin b { y with seq := { y.seq with active := none, held := none } }).postEnds a.run a.fin
def execRunFlagMerge (b : Nat) (s : State) : Host.Outcome State Fault Refusal := onCore (runFlagMerge b) s

end Sys2Proof.Machine
end

