-- ==== Sys2Proof/Machine/Streams.lean ====
section
/-! DEFINITION. Rings, doorbells, ingress, posting and completions (R33, R253 to R259, R331 to R338, R362, R365, R368, R464). -/

namespace Sys2Proof.Machine

open Sys2Proof

/-! ### Doorbells (R254, R365) -/

/-- A domain is bound to a function (R362). -/
def Dev.boundTo (d : Dev) (dom f : Nat) : Bool :=
  match (d.domain dom).bind with
  | some p => p.1 == f
  | none => false

/-- A doorbell write that is refused is counted (R254). -/
def Dev.rejectDb (d : Dev) : Dev := d.setHw { d.hw with dbrej := d.hw.dbrej + 1 }

/-- A doorbell's value for the index it was written to, accepted or not (R254, R362). -/
def Dev.doorbellOk (d : Dev) (f i v : Nat) : Bool :=
  let s := d.stream i
  s.gen == bitsOf v 47 32 && (s.state == 1 || s.state == 2 || s.state == 3) && d.boundTo s.domain f
    && decide (bitsOf v 11 0 < 2 ^ s.sqLog) && decide (bitsOf v 27 16 < 2 ^ s.cqLog) && bitsOf v 63 48 == i && !(d.func f).inReset

/-- DOORBELL: a write in the doorbell region of BAR0. -/
def doorbell (f off width : Nat) (v : W64) (d : Dev) : Dev :=
  if off < 0x80000 ∨ 0x100000 ≤ off then d
  else if width ≠ 8 ∨ off % 8 ≠ 0 then d.rejectDb
  else
    let i := (off - 0x80000) / 8
    let s := d.stream i
    if d.doorbellOk f i v.toNat then
      d.putStream i { s with sqTail := bitsOf v.toNat 11 0, cqHead := bitsOf v.toNat 27 16, dbCt := d.cad.ct }
    else
      let d := d.rejectDb
      if s.state = 0 then d else d.putStream i { s with nstaledb := s.nstaledb + 1 }
def execDoorbell (f off width : Nat) (v : W64) (s : State) : Host.Outcome State Fault Refusal := onCore (doorbell f off width v) s

/-! ### Ingress (R253, R255, R331, R368) -/

/-- Bytes whose values the spec leaves open. -/
def Dev.openBytes (d : Dev) (n : Nat) : List Byte × Dev :=
  ((List.range n).map (fun k => (Config.freeValue (d.free + k)).truncate 8), d.setFree (d.free + n))

/-- A submission entry's fields (R253). -/
def descOf (bs : List Byte) (index ib : Nat) : Desc :=
  let w (o n : Nat) : Nat := leNat ((bs.drop o).take n)
  { seq := w 0 4, notify := bitOf (w 4 4) 4, src := w 8 8, len := w 0x10 4, outmax := w 0x14 4, outaddr := w 0x18 8, notbefore := w 0x20 8,
    cookie := w 0x28 8, index := index, ib := ib }

/-- An entry with a reserved OP, a length of 0 or above the slot size, or an unaligned address (R255). -/
def entryBad (s : Stream) (bs : List Byte) (x : Desc) : Bool :=
  leNat ((bs.drop 4).take 4) % 16 != 0 || x.len == 0 || decide (s.slotkb * 1024 < x.len) || x.src % 64 != 0 || x.outaddr % 64 != 0

/-- INVALID_SUBMISSION: code 0x0500 without a run, posted by the primary; a standby only moves on (R255, R258). -/
def Dev.invalid (d : Dev) (i : Nat) (x : Desc) : Dev :=
  let s := d.stream i
  if s.standby then d.putStream i (advanceRing s.nextTake)
  else (d.putStream i s.nextTake).complete i x 0x500 d.ns 0 d.cad.slot d.cad.frame.toNat false false

/-- An ingress slot that no descriptor and no period holds. -/
def Stream.freeIb (s : Stream) : Option Nat :=
  (List.range s.nib).find? (fun n => decide (n ∉ s.heldIb) && s.descs.all (fun x => x.ib != n))

/-- This module fetches the stream's entries itself: not as the standby of a pair that is together, nor after a detach (R331, R336,
R340). -/
def Dev.fetches (d : Dev) (s : Stream) : Bool := s.role == 0 || (s.mirror != 0 && d.pair.state == 3)

/-- SUBMISSION_FETCH: the next pending entry of an ADMITTED or DRAINING stream, one at a time, into a free ingress slot. `ok` says
that the host read succeeded; what a failed read names is open. -/
def submissionFetch (i : Nat) (ok : Bool) (entry : List Byte) (d : Dev) : Dev :=
  let s := d.stream i
  match s.freeIb with
  | none => d
  | some ib =>
    if ¬ (s.state = 2 ∨ s.state = 3) ∨ s.sqHead = s.sqTail ∨ s.descs.any (fun x => x.arr.isNone) ∨ !d.fetches s then d
    else
      let x := descOf entry s.sqHead ib
      let d := d.putStream i { s with sqHead := (s.sqHead + 1) % 2 ^ s.sqLog, fwdidx := if s.standby then (s.sqHead + 1) % 2 ^ s.sqLog else s.fwdidx }
      if !ok then
        let a := d.openValue
        let b := a.2.openValue
        b.2.invalid i { seq := a.1.toNat % 2 ^ 32, cookie := b.1.toNat }
      else if entryBad s entry x then d.invalid i x
      else d.putStream i { d.stream i with descs := s.descs ++ [x] }
def execSubmissionFetch (i : Nat) (ok : Bool) (entry : List Byte) (s : State) : Host.Outcome State Fault Refusal :=
  onCore (submissionFetch i ok entry) s

/-- The descriptor whose frame is on its way. -/
def Stream.inFlight (s : Stream) : Option Desc := s.descs.find? (fun x => x.arr.isNone)

/-- The stream without the descriptor whose frame is on its way. -/
def Stream.dropFlight (s : Stream) : Stream := { s with descs := s.descs.filter (fun x => x.arr.isSome) }

/-- FRAME_ARRIVAL: the controllers acknowledge the last byte of the frame; a landing write that is denied ends the entry with
0x0500. The primary of a mirrored stream forwards the record (R255, R331). -/
def frameArrival (i : Nat) (data : List Byte) (d : Dev) : Dev :=
  let s := d.stream i
  match s.inFlight with
  | none => d
  | some x =>
    if data.length ≠ x.len then d
    else
      let r := d.rsvWrite s.domain (s.ibuf + x.ib * s.slotkb * 1024) data
      let d := r.1
      let refused := match r.2 with
        | .denied _ => true
        | .bad => true
        | _ => false
      if refused then (d.putStream i s.dropFlight).invalid i x
      else
        let y := { x with arr := some d.cad.ct }
        let d := d.putStream i { s with descs := s.descs.map (fun z => if z.arr.isNone then y else z), lastarr := d.ns }
        if s.mirror ≠ 0 ∧ s.role = 0 ∧ d.pair.state = 2 then
          (d.putStream i { d.stream i with fwdidx := (x.index + 1) % 2 ^ s.sqLog }).sendForward i y data
        else d
def execFrameArrival (i : Nat) (data : List Byte) (s : State) : Host.Outcome State Fault Refusal := onCore (frameArrival i data) s

/-- INGRESS_READ_FAILURE: a completion timeout or error on an ingress read (R368). -/
def ingressReadFailure (i : Nat) (d : Dev) : Dev :=
  let s := d.stream i
  match s.inFlight with
  | none => d
  | some x => (d.putStream i s.dropFlight).invalid i x
def execIngressReadFailure (i : Nat) (s : State) : Host.Outcome State Fault Refusal := onCore (ingressReadFailure i) s

/-! ### Posting (R256 to R259, R332, R334, R335, R338) -/

/-- The time a transfer of `n` bytes takes at a share in MB/s, ns. -/
def shareNs (n share : Nat) : Nat := if share = 0 then 0 else cdiv (n * 1000) share

/-- The output of a period: its length and its code (R256). -/
def Period.out (p : Period) (x : Desc) : Nat × Nat := if x.outmax < p.outsize then (x.outmax, 0x400) else (p.outsize, 0)

/-- The output bytes in OBUF: a denied read gives zeros (R223), and a poisoned one bytes that the spec leaves open. -/
def Dev.output (d : Dev) (s : Stream) (n : Nat) : List Byte × Dev :=
  if n = 0 then ([], d)
  else
    let r := d.rsvRead s.domain s.obuf n
    match r.2 with
    | .ok bs => (bs, r.1)
    | .poisoned => r.1.openBytes n
    | _ => (List.replicate n 0, r.1)

/-- When a period's completion is written: after the output's transfer at ESHARE from the end of the posting run; under FIXEDPOST at the
time that the plan fixes, its end offset and the transfer of the plan's output size (R257, R263). -/
def Stream.postTime (s : Stream) (p : Period) (n : Nat) : Nat :=
  if s.fixedpost then p.postEnd + shareNs p.outsize s.eshare else p.postCt.getD 0 + shareNs n s.eshare

/-- CSTAT of a period that completes. -/
def cstatOf (s : Stream) (p : Period) (code : Nat) : Nat :=
  s.cqPhase + bit01 p.trunc * 2 + bit01 (s.flags ≠ 0) * 4 + bit01 p.ovb * 8 + s.lost * 256 + code * 65536

/-- A mismatch of digests: both twins count it, raise an event, and the stream is resynchronised from the next frame boundary
(R338). -/
def Dev.mismatch (d : Dev) (i tag : Nat) : Dev :=
  let s := d.stream i
  let d := (d.putStream i { s with nmismatch := s.nmismatch + 1 }).setPair
    { d.pair with mismatchcnt := d.pair.mismatchcnt + 1, resyncs := d.pair.resyncs ++ [(i, d.nextFrame, false)] }
  d.raiseS 0xD 0x1F5 i (tag % 2 ^ 32) (tag / 2 ^ 32) 0

/-- Compare the two digests of a hot period once both are held (R338). -/
def Dev.compareDigests (d : Dev) (i tag : Nat) : Dev :=
  let s := d.stream i
  match Tab.find? s.myDigests tag, Tab.find? s.twinDigests tag with
  | some a, some b =>
    let d := d.putStream i { s with myDigests := Tab.del s.myDigests tag, twinDigests := Tab.del s.twinDigests tag }
    if a = b then d else d.mismatch i tag
  | _, _ => d

/-- The digest of a hot period is formed, sent to the twin, and compared where the twin's is held (R330, R338). -/
def Dev.formDigest (d : Dev) (i : Nat) (p : Period) (code outlen : Nat) (out : List Byte) : Dev :=
  let s := d.stream i
  let g := periodDigest p.tag outlen (cstatOf s p code) out
  let d := d.putStream i { s with lastdig := BitVec.ofNat 64 g, myDigests := Tab.put s.myDigests p.tag g }
  let d := if d.pair.state = 2 then
      d.sendMsg 4 s.twin (leBytes 4 s.twin ++ leBytes 8 p.tag ++ leBytes 4 outlen ++ leBytes 4 code ++ leBytes 16 g) else d
  d.compareDigests i p.tag

/-- A covering standby posts at the ring index its own take gave, counts it and raises an event (R334, R335). -/
def Dev.covering (d : Dev) (i : Nat) (p : Period) : Dev :=
  let s := d.stream i
  let d := (d.putStream i { s with cqTail := p.cqIndex, cqPhase := p.cqPhase, ncover := s.ncover + 1 }).setPair
    { d.pair with covercnt := d.pair.covercnt + 1 }
  d.raiseS 0xC 0x1F5 i (p.tag % 2 ^ 32) (p.tag / 2 ^ 32) 0

/-- Write a period's output, `out`, and its completion (R257, R259). -/
def Dev.postPeriod (d : Dev) (i : Nat) (p : Period) (x : Desc) (out : List Byte) : Dev :=
  let n := p.out x
  (d.hostWriteFor (d.stream i).domain x.outaddr out).complete i x n.2 (p.postCt.getD 0) n.1 p.postSlot p.postFrame p.trunc p.ovb

/-- POSTING: the first period due that did not fail. The primary posts, and so does a warm standby that covers; a hot standby waits
for its check (R258, R334, R335). The primary of a pair says so: POST at once under hot mode, after the delta under warm. -/
def posting (i : Nat) (d : Dev) : Dev :=
  let s := d.stream i
  match s.due.find? (fun p => p.fail == 0) with
  | none => d
  | some p =>
    match p.desc with
    | none => d
    | some x =>
      let d1 := d.putStream i { s with due := s.due.erase p }
      if ((d.train i).map Train.diverged).getD false then d1
      else if s.role = 1 ∧ ¬ (s.mirror = 1 ∧ p.covering) then (if s.mirror = 2 then d else d1)
      else
        let n := p.out x
        let d := d1.atNs (s.postTime p n.1)
        let d := if s.role = 1 then d.covering i p else d
        let hot := s.mirror = 2
        let o := d.output s n.1
        let d := if hot then o.2.formDigest i p n.2 n.1 o.1 else o.2
        let d := d.postPeriod i p x o.1
        if s.mirror = 0 ∨ s.role = 1 ∨ d.pair.state ≠ 2 then d
        else if hot then d.sendPost s.twin p.tag p.cqIndex
        else d.sendDelta i p.tag p.cqIndex
def execPosting (i : Nat) (s : State) : Host.Outcome State Fault Refusal := onCore (posting i) s

/-- HOT_COVER_CHECK: 3 µs after its own posting would start, longer by the skew while SKEWHI, a hot standby that holds no POST for
the period posts it; otherwise its result is only held for the digest (R334, R338, R339). -/
def hotCoverCheck (i : Nat) (d : Dev) : Dev :=
  let s := d.stream i
  match s.due.find? (fun p => p.fail == 0) with
  | none => d
  | some p =>
    match p.desc with
    | none => d
    | some x =>
      if ¬ (s.mirror = 2 ∧ s.role = 1) then d
      else
        let n := p.out x
        let check := (if s.fixedpost then p.postEnd else p.postCt.getD 0) + 3000 + (if d.pair.skewhi then d.pair.skew.natAbs else 0)
        let d := d.atNs check
        let posted := decide (p.tag ∈ s.postTags)
        let d := d.putStream i { s with due := s.due.erase p, postTags := s.postTags.filter (fun t => decide (p.tag < t)) }
        let o := d.output s n.1
        let d := o.2.formDigest i p n.2 n.1 o.1
        if posted then d
        else ((d.covering i p).atNs (check + shareNs (if s.fixedpost then p.outsize else n.1) s.eshare)).postPeriod i p x o.1
def execHotCoverCheck (i : Nat) (s : State) : Host.Outcome State Fault Refusal := onCore (hotCoverCheck i) s

/-- A standby could not cover a period: NUNCOV and an event (R329). -/
def Dev.uncovered (d : Dev) (i tag : Nat) : Dev :=
  let s := d.stream i
  (d.putStream i { s with nuncov := s.nuncov + 1 }).raiseS 0xF 0x1F5 i (tag % 2 ^ 32) (tag / 2 ^ 32) 0

/-- FAILED_PERIOD_COMPLETION: at the period's deadline its error completion is written. A module that is primary of a mirrored stream
writes none and only moves its ring on; a standby could not cover the period, and writes the error completion at the index its take gave
where the twin has not posted (R329, R334, R464). -/
def failedPeriodCompletion (i : Nat) (d : Dev) : Dev :=
  let s0 := d.stream i
  let open' := s0.period.any (fun p => p.fail != 0)
  let d := if s0.due.all (fun p => p.fail == 0) ∧ open' then d.closePeriod i else d
  let s := d.stream i
  match s.due.find? (fun p => p.fail != 0) with
  | none => d
  | some p =>
    match p.desc with
    | none => d
    | some x =>
      let d := (d.atNs p.deadline).putStream i { s with due := s.due.erase p }
      let s := d.stream i
      let write (d : Dev) : Dev :=
        d.complete i x p.fail (p.postCt.getD d.ns) 0 (if p.postCt.isSome then p.postSlot else d.cad.slot)
          (if p.postCt.isSome then p.postFrame else d.cad.frame.toNat) p.trunc p.ovb
      if s.mirror = 0 then (if s.role = 1 then d else write d)
      else if s.role = 0 then d.putStream i (advanceRing s)
      else
        let d := d.uncovered i p.tag
        if p.tag ∈ s.postTags then d else write (d.putStream i { d.stream i with cqTail := p.cqIndex, cqPhase := p.cqPhase })
def execFailedPeriodCompletion (i : Nat) (s : State) : Host.Outcome State Fault Refusal := onCore (failedPeriodCompletion i) s

end Sys2Proof.Machine
end

