-- ==== Sys2Proof/Machine/Boot.lean ====
section
/-! DEFINITION. The update journal, images, and the boot ROM (R8, R24, R208, R276, R402 to R416, R423 to R429). -/

namespace Sys2Proof.Machine

open Sys2Proof

/-! ### Manifests and images (R405, R406) -/

/-- A manifest from its bytes, when MAGIC, MLEN, NCHUNK and LASTLEN are consistent and every reserved field is zero (R405). -/
def manifestOf (bs : List Byte) : Option Manifest :=
  let w (o n : Nat) : Nat := leNat ((bs.drop o).take n)
  let n := w 0x14 4
  let m := w 4 4
  if w 0 4 = 0x4D56514C ∧ 1 ≤ n ∧ n ≤ 1528 ∧ m = 0xC0 + 48 * n + 96 ∧ m ≤ bs.length ∧ 1 ≤ w 0x18 4 ∧ w 0x18 4 ≤ 16384 ∧
      w 0x0C 4 < 4096 ∧ w 0x0C 1 ≤ 128 ∧ w 0x10 4 < 2 ^ 26 ∧ w 0x20 32 = 0 ∧ w 0xA1 31 = 0 then
    some { mlen := m, version := w 8 4, svn := w 0x0C 1, revoke := bitsOf (w 0x0C 4) 11 8, part := bitsOf (w 0x10 4) 15 0,
           stepmin := bitsOf (w 0x10 4) 23 16, keyidx := bitsOf (w 0x10 4) 25 24, nchunk := n, lastlen := w 0x18 4, libver := w 0x1C 4,
           pubkey := (bs.drop 0x40).take 128, hashes := (List.range n).map (fun k => beNat ((bs.drop (0xC0 + 48 * k)).take 48)),
           digest := leNat ((sha384 (bs.take m)).take 16) }
  else none

/-- The key of a manifest is accepted: an unrevoked IMGKEY slot, or in BLANK the factory key (R406). -/
def keyOk (f : Mem) (m : Manifest) : Bool :=
  let h := sha384 m.pubkey
  if lifeCycle f = 0 then beNat h == Config.factoryKey
  else h == Mem.readBytes f (0x40 + 48 * m.keyidx) 48 && !keyRevoked f m.keyidx

/-- Every check of R406 but the signature, the security version and the chunk hashes. The die is stepping B0 (R6). -/
def manifestFits (f : Mem) (m : Manifest) : Bool := m.part == 0x7210 && decide (m.stepmin ≤ 0x10) && keyOk f m

/-- The length of a chunk (R405). -/
def Manifest.chunkLen (m : Manifest) (i : Nat) : Nat := if i + 1 = m.nchunk then m.lastlen else 16384

/-- A chunk matches its hash (R405). -/
def chunkOk (m : Manifest) (t : Tab (List Byte)) (i : Nat) : Bool := beNat (sha384 ((Tab.at t [] i).take (m.chunkLen i))) == m.hashes.getD i 0

/-- An image area holds a valid image (R406). -/
def Area.valid (a : Area) (f : Mem) : Bool :=
  match a.manifest with
  | none => false
  | some m => a.sigOk && manifestFits f m && decide (fuseSvn f ≤ m.svn) && (List.range m.nchunk).all (chunkOk m a.chunks)

/-! ### The journal (R413 to R416) -/

/-- What the journal shows. -/
structure JView where
  (active : Nat := 0)
  (shadow : Nat := 1)
  (staging : Nat := 2)
  /-- the last ROLES record has TRY = 1; a TRY_START and a TRY_FAIL or PROMOTE follow it -/
  (try_ started ended : Bool := false)
  (state nchunk version svn digest : Nat := 0)
  (present pend : List Nat := [])
  (erase prog : Option (Nat × Nat) := none)
  /-- still within the records that head a new half -/
  (head : Bool := false)
  deriving DecidableEq, Repr

/-- The chunks of a sector of an image area are dropped. -/
def JView.drop (v : JView) (sector : Nat) : JView := { v with present := v.present.filter (fun c => c / 4 ≠ sector) }

/-- A sector that must be erased afresh (R416). -/
def JView.unerase (v : JView) (sector : Nat) : JView :=
  { v.drop sector with pend := if sector ∈ v.pend then v.pend else v.pend ++ [sector] }

/-- One record read (R413, R415). -/
def JView.read (v : JView) (r : JRec) : JView :=
  match r with
  | .eraseBegin a s => { (if a = v.staging then v.drop s else v) with erase := some (a, s), head := false }
  | .eraseDone a s => { v with erase := none, pend := if a = v.staging then v.pend.filter (· ≠ s) else v.pend, head := false }
  | .progBegin a c => { v with prog := some (a, c), head := false }
  | .chunkDone c => { v with present := if c ∈ v.present then v.present else v.present ++ [c], prog := none, head := false }
  | .manifestOk d ver svn n =>
    { v with state := if v.head then v.state else 1, present := if v.head then v.present else [], digest := d, version := ver, svn := svn, nchunk := n }
  | .roles a s t y =>
    { v with active := a, shadow := s, staging := t, try_ := y, started := false, ended := false, state := if y then 3 else 0, present := [],
             nchunk := 0, version := 0, svn := 0, digest := 0, pend := [], head := false }
  | .tryStart => { v with started := true, head := false }
  | .tryFail => { v with ended := true, state := 0, head := false }
  | .promote _ => { v with ended := true, state := 0, head := false }
  | .abort => { v with state := 0, present := [], nchunk := 0, version := 0, svn := 0, digest := 0, head := false }
  | .checkpoint a s t y st n =>
    { v with active := a, shadow := s, staging := t, try_ := y, started := false, ended := false, state := st, nchunk := n, present := [], head := true }
  | .bitmap k cs =>
    { v with present := v.present.filter (fun c => c / 352 ≠ k) ++ cs }

/-- Interrupted work is settled: the sector of an unfinished erase or program counts as unerased (R416); with every chunk present
the set is COMPLETE. -/
def JView.settle (v : JView) : JView :=
  let v := match v.erase with
    | some (a, s) => if a = v.staging then v.unerase s else v
    | none => v
  let v := match v.prog with
    | some (a, c) => if a = v.staging then v.unerase (c / 4) else v
    | none => v
  { v with state := if v.state = 1 ∧ v.nchunk ≠ 0 ∧ v.nchunk ≤ v.present.length then 2 else if v.state = 2 ∧ v.present.length < v.nchunk then 1 else v.state }

/-- The journal as it reads before interrupted work is settled, and after. -/
def Boot.rawView (b : Boot) : JView := b.journal.foldl JView.read {}
def Boot.view (b : Boot) : JView := b.rawView.settle

/-- Append a record; a half that holds 8,000 is exchanged for a new one that begins with CHECKPOINT, BITMAP records and the last
MANIFEST_OK (R414). -/
def Boot.append (b : Boot) (r : JRec) : Boot :=
  if b.journal.length < 8000 then { b with journal := b.journal ++ [r] }
  else
    let v := b.rawView
    let heads : List JRec := [.checkpoint v.active v.shadow v.staging v.try_ v.state v.nchunk]
      ++ (List.range (cdiv v.nchunk 352)).map (fun k => .bitmap k (v.present.filter (fun c => c / 352 == k)))
      ++ (if v.nchunk = 0 then [] else [.manifestOk v.digest v.version v.svn v.nchunk])
      ++ (if v.started then [.tryStart] else []) ++ (if v.ended then [.tryFail] else [])
    { b with journal := heads ++ [r], journalHalf := 1 - b.journalHalf }

/-- An erase of a sector, recorded as begun and as done (R413, R415). -/
def Boot.erased (b : Boot) (area sector : Nat) : Boot := (b.append (.eraseBegin area sector)).append (.eraseDone area sector)

/-- The update state as the journal shows it, taken over into SRAM (R416, R421). -/
def Boot.replayed (b : Boot) : Boot :=
  let v := b.view
  { b with updState := v.state, present := v.present, erasePend := v.pend, erasing := none, queue := [], pieces := [], quarters := [],
           staged := if v.state = 0 ∨ v.state = 3 then none else (b.areas.getD v.staging {}).manifest }

/-- An UPDATE event (R377). -/
def Dev.updateEvent (d : Dev) : Dev := d.raiseO 0x18 0x1F2 d.boot.updState 0 0

/-! ### The boot ROM (R407 to R412) -/

/-- Time limits of B1 to B8, ns (R407). -/
def bootLimit (k : Nat) : Nat :=
  [0, 50000000, 10000000, 100000000, 2000000000, 20000000, 15000000000, 20000000000, 100000000].getD k 0

/-- The next step begins. -/
def Dev.bootStep (d : Dev) (k : Nat) : Dev := d.setBoot { d.boot with step := k, stepCt := d.ns }

/-- An attempt begins at B1, which waits while PERST_N is low; FH_BOOTATT counts it (R409, R454). -/
def Dev.attempt (d : Dev) : Dev :=
  (d.setBoot { d.boot with attempts := if d.boot.attempts = 0xFFFFFFFF then d.boot.attempts else d.boot.attempts + 1, backoff := none,
                           waiting := d.md.perst }).bootStep 1

/-- The boot ROM may run: U4 is done, nothing is frozen, and auxiliary power is there. -/
def Dev.bootOn (d : Dev) : Bool := d.awake && d.md.auxOk && decide (2 ≤ d.pow.stable)

/-- BOOT_START: after U4, or after a reset that leaves the AON domain powered (R407). -/
def bootStart (d : Dev) : Dev :=
  if d.boot.ready ∨ d.boot.step ≠ 0 ∨ d.boot.backoff.isSome ∨ d.boot.retired then d else d.attempt
def execBootStart (s : State) : Host.Outcome State Fault Refusal := answer (onlyIf Dev.bootOn bootStart) s

/-- BOOT_FAILURE: every domain but AON resets, the cause is recorded, and the wait before the next attempt is min(2^(n−1), 64) s
(R409). -/
def Dev.bootFail (d : Dev) (cause detail : Nat) : Dev :=
  let e := d.resetCore
  let n := e.boot.fails + 1
  e.setBoot { e.boot with cause := cause, detail := detail, fails := n, step := 0xF, backoff := some (d.ns + min (2 ^ (n - 1)) 64 * 1000000000) }

/-- What the configuration set sets at boot (R425). -/
def Dev.applyConfig (d : Dev) : Dev :=
  match d.boot.config with
  | none => d.setBoot { d.boot with smbAddr := 0x62 }
  | some c =>
    let it (k v : Nat) : Nat := Tab.at c.items v k
    let d := d.setBoot { d.boot with smbAddr := it 1 0x62 }
    let d := d.setPow { d.pow with wakeen := it 2 d.pow.wakeen, cap := it 3 d.pow.cap, floor := it 4 d.pow.floor }
    d.setCad { d.cad with holdlim := BitVec.ofNat 32 (it 5 d.cad.holdlim.toNat) }

/-- B3: the journal is replayed and settled, and the candidate is chosen; or reception of a recovery image is entered (R408, R412,
R416). -/
def Dev.bootB3 (d : Dev) : Dev :=
  let d := (d.setBoot d.boot.replayed).applyConfig
  if d.boot.recoverNext then (d.setBoot { d.boot with recoverNext := false, resumeStep := 3 }).bootStep 0xE
  else
    let v := d.boot.view
    let b := if v.try_ && !v.started && !v.ended then { (d.boot.append .tryStart).replayed with candidate := v.shadow, trial := true }
      else if v.started && !v.ended then { (d.boot.append .tryFail).replayed with candidate := v.active, trial := false }
      else { d.boot with candidate := v.active, trial := false }
    (d.setBoot b).bootStep 4

/-- B4: the candidate is loaded and checked, then the other image of the pair; a trial that fails receives TRY_FAIL (R408). -/
def Dev.bootB4 (d : Dev) : Dev :=
  let b := d.boot
  let v := b.view
  let ok (a : Nat) : Bool := (b.areas.getD a {}).valid b.fuses
  let other := if b.candidate = v.active then v.shadow else v.active
  let run (b : Boot) (a : Nat) (fb : Bool) : Dev :=
    ((d.setBoot { b with running := (b.areas.getD a {}).manifest, fwFromFlash := true, image := a, fallback := fb }).setFh
      { d.fh with sram := (b.areas.getD a {}).chunks }).bootStep 5
  if ok b.candidate then run b b.candidate false
  else
    let c := if b.trial then { (b.append .tryFail).replayed with trial := false, candidate := v.active } else b
    if ok other then run c other (!b.trial) else (d.setBoot c).bootFail 4 0

/-- B5: the lockstep pair is formed of two cores that passed; `bad` has a bit for each core that failed (R407). -/
def Dev.bootB5 (d : Dev) (bad : Nat) : Dev :=
  match (List.range 3).filter (fun c => !bitOf bad c) with
  | a :: b :: _ => (d.setFh { d.fh with corePair := 2 ^ a + 2 ^ b, failed := bad % 8 }).bootStep 6
  | _ => d.bootFail 7 0

/-- B6: the stacks are trained; ownership tables and key slots are cleared (R220, R222, R224). -/
def Dev.bootB6 (d : Dev) (bad : Nat) : Dev :=
  if bad % 256 ≠ 0 then d.bootFail 5 (bad % 256)
  else (d.setRsv { ({} : Rsv) with ctrls := d.rsv.ctrls.map (fun c => { c with ready := true, selfref := false }) }).bootStep 7

/-- A basin as B7 leaves it: zeroed, IN_SERVICE under its logical number, or fenced (R13, R24, R208, R357). -/
def bootBasin (rows : Tab SpareRow) (bad : List Nat) (p : Nat) : Basin :=
  let x := Basin.reset
  if p ∈ bad then { x with logical := 0x1FF, ustate := 2, cis := { x.cis with weirFenced := true } }
  else
    let r := Tab.at rows {} (p / 17)
    let l := if p % 17 ≠ 16 then p / 17 * 16 + p % 17 else if r.spstate = 2 then p / 17 * 16 + r.fcol else 0x1FF
    { x with logical := l, ustate := 0 }

/-- The spare map after B7: a row's spare takes the number of its first failed column (R24, R345). -/
def bootRows (bad : List Nat) : Tab SpareRow :=
  (List.range 16).map (fun r =>
    let cols := (List.range 17).filter (fun c => decide (r * 17 + c ∈ bad))
    let row := (if 16 ∈ cols then [16] ++ cols.filter (· ≠ 16) else cols).foldl (fun (x : SpareRow) c =>
      let y := x.fence c 0 0
      if y.spstate = 1 then { y with spstate := 2, restoreEnd := none } else y) {}
    (r, row))

/-- A logical basin that spare mapping at boot leaves absent raises the event of R23 as a fence of its column does. The spec says only
that the same mapping applies at boot (R24); that it raises the event is the model's choice (DESIGN CHOICE, notes/assumptions/96.md). -/
def Dev.absentEvents (d : Dev) : Dev :=
  ((List.range 256).filter (fun l => d.absent l)).foldl (fun d l => d.raiseO 6 (l / 16 * 17 + l % 16) l 0 1) d

/-- B7: spares are mapped, stores zeroed and loaded, RUN_LIBVER set (R24, R197, R208, R407). -/
def Dev.bootB7 (d : Dev) (bad : List Nat) : Dev :=
  let rows := bootRows bad
  let d := d.setBasins ((List.range 272).map (fun p => (p, bootBasin rows bad p)))
  let views : Tab View := ((List.range 272).filter (fun p => decide (p ∈ bad))).map (fun p => (p, { epoch := 0, state := 2 }))
  let d := d.setFlt { ({} : Fault3) with rows := rows, mgmt := views }
  let d := d.setLib { libver := BitVec.ofNat 32 ((d.boot.running.map Manifest.libver).getD 0), fns := [] }
  ((List.range 272).foldl (fun d p => d.loadStores p) d).absentEvents.bootStep 8

/-- TRIAL_PROMOTE and the burns that every Ready of the active image repeats (R423). -/
def Dev.promote (d : Dev) : Dev :=
  match d.boot.running with
  | none => d
  | some m =>
    let v := d.boot.view
    let burnAll (b : Boot) : Boot := { b with fuses := burnRevoke (burnSvn b.fuses m.svn) m.revoke m.keyidx }
    if !d.boot.fwFromFlash then d
    else if d.boot.trial then
      let b := (d.boot.append (.promote v.shadow)).append (.roles v.shadow v.active v.staging false)
      (d.setBoot { burnAll b with updState := 0, trial := false, present := [], erasePend := [], staged := none }).updateEvent
    else if d.boot.fallback then d else d.setBoot (burnAll d.boot)

/-- B8: firmware starts, domain 0 and its keys are made, the mailboxes are enabled and the module is Ready (R8, R224, R260, R407). -/
def Dev.bootB8 (d : Dev) : Dev :=
  let d := d.setFh { d.fh with fwversion := BitVec.ofNat 32 ((d.boot.running.map Manifest.version).getD 0), running := true, mbReady := true }
  let d := d.putDomain 0 { state := 1, maxStreams := 65536, maxPages := 195584, maxModels := 256, maxBudget := 1000, bind := some (0, 0) }
  let k := d.drawKeys
  let d := k.2.setRsv { k.2.rsv with keys := Tab.put k.2.rsv.keys 0 k.1 }
  let d := (d.setBoot { d.boot with ready := true, step := 0, fails := 0 }).promote
  if d.boot.fallback then d.updateEvent else d

/-- Fuses, life-cycle state and DBGDIS leave STILL_N its effect (R432, R440). -/
def Boot.stillHeard (b : Boot) : Bool := b.fusesRead && decide (lifeCycle b.fuses < 2) && !b.dbgdis

/-- BOOT_STEP_COMPLETE: `ok` and `mask` are what the step found: fuses read, random source healthy, flash as required; failing
cores, failing stacks; `fails` the basins that failed self-test. With STILL_N low the boot freezes at the end of B1 (R434). -/
def bootStepComplete (ok : Bool) (mask : Nat) (fails : List Nat) (d : Dev) : Dev :=
  let b := d.boot
  if b.waiting then d
  else match b.step with
  | 1 =>
    if !ok then d.bootFail 1 0
    else
      let r := completeTransition b.fuses
      let d := d.setBoot { b with fuses := r.1, completed := r.2, fusesRead := true }
      if lifeCycle r.1 = 3 then d.setBoot { d.boot with retired := true, step := 0 }
      else if d.md.still ∧ d.boot.stillHeard then (d.bootStep 2).freeze else d.bootStep 2
  | 2 =>
    if !ok then d.bootFail 2 0
    else
      let a := d.random
      let k := a.2.drawKeys
      (k.2.setBoot { b with devseed := a.1, fwkey := k.1 }).bootStep 3
  | 3 => if !ok then d.bootFail 3 0 else d.bootB3
  | 4 => d.bootB4
  | 5 => d.bootB5 mask
  | 6 => d.bootB6 mask
  | 7 => d.bootB7 fails
  | 8 => d.bootB8
  | _ => d
def execBootStepComplete (ok : Bool) (mask : Nat) (fails : List Nat) (s : State) : Host.Outcome State Fault Refusal :=
  answer (onlyIf Dev.bootOn (bootStepComplete ok mask fails)) s

/-- BOOT_STEP_TIMEOUT: a step overruns its limit, cause 0x06 with the step (R407). -/
def bootStepTimeout (d : Dev) : Dev :=
  let k := d.boot.step
  if k = 0 ∨ 8 < k ∨ d.boot.waiting then d else (d.atNs (d.boot.stepCt + bootLimit k)).bootFail 6 k
def execBootStepTimeout (s : State) : Host.Outcome State Fault Refusal := answer (onlyIf Dev.bootOn bootStepTimeout) s

/-- BOOT_BACKOFF_EXPIRY: the wait ends and the next attempt starts (R409). -/
def bootBackoffExpiry (d : Dev) : Dev :=
  match d.boot.backoff with
  | none => d
  | some t => if d.boot.step = 0xF then (d.atNs t).attempt else d
def execBootBackoffExpiry (s : State) : Host.Outcome State Fault Refusal := answer (onlyIf Dev.bootOn bootBackoffExpiry) s

/-- RECOVERY_TIMEOUT: 60 s after its last piece the image is abandoned; the interrupted attempt or back-off continues (R411). -/
def recoveryTimeout (d : Dev) : Dev :=
  match d.boot.recovery with
  | none => d
  | some r =>
    let d := d.atNs (r.lastCt + 60000000000)
    let d := d.setBoot { d.boot with recovery := none }
    if d.boot.step ≠ 0xE then d
    else if d.boot.backoff.isSome then d.setBoot { d.boot with step := 0xF }
    else (d.setBoot { d.boot with resumeStep := 0 }).bootStep d.boot.resumeStep
def execRecoveryTimeout (s : State) : Host.Outcome State Fault Refusal := answer (onlyIf Dev.bootOn recoveryTimeout) s

end Sys2Proof.Machine
end

