-- ==== Sys2Proof/Machine/Local.lean ====
section
/-! DEFINITION. Basin-local space for a run: address checks, claims, retirement of an engine operation (R93 to R96, R111, R112, R114,
R205, R206). -/

namespace Sys2Proof.Machine

open Sys2Proof

/-- Cistern segments that a range touches; the part in the aperture touches none. -/
def segsOf (a n : Nat) : List Nat :=
  if a < 0x400000 then (List.range (cdiv (a % 65536 + min n (0x400000 - a)) 65536)).map (fun k => a / 65536 + k) else []

/-- Tiles that a range touches, 16 × jet + tile; the part in the cistern touches none (R93). -/
def tilesOf (a n : Nat) : List Nat :=
  let lo := max a 0x400000
  if lo < a + n then (List.range (cdiv (lo % 256 + (a + n - lo)) 256)).map (fun k => (lo - 0x400000) / 256 + k) else []

/-- The tiles whose flag a value of `n` bytes stored at `a` sets: its conversion saturated (R52, R95). -/
def satTilesAt (fl : W32) (a n : Nat) : List Nat := if fl &&& flSAT = 0 then [] else tilesOf a n

/-- A tile lies in the aperture segments of a run (R96). -/
def tileIn (apseg tile : Nat) : Bool := bitOf apseg (tile / 256)

/-- A segment is open to a run (R206). -/
def Basin.segOpen (x : Basin) (r : Run) (k : Nat) : Bool :=
  let t := Tab.at x.tags SegTag.reset k
  bitOf r.segs k && t.valid && !t.zeroing && t.domain == r.domain

/-- The fault code of an access to a range, 0 where it is allowed (R93, R96, R111, R206). R93 says that an address of 0x44_0000 or
above faults the run, not with which code: the model takes 0x04 (DEDUCED, notes/assumptions/94.md). -/
def Basin.rangeCode (x : Basin) (r : Run) (a n : Nat) : Nat :=
  if 0x440000 < a + n then 4
  else if !(segsOf a n).all (x.segOpen r) then 4
  else if !(tilesOf a n).all (tileIn r.apseg) then 5
  else 0

/-- The fault code of a cistern-only access. -/
def Basin.cisCode (x : Basin) (r : Run) (a n : Nat) : Nat := if a + n ≤ 0x400000 then x.rangeCode r a n else 4

/-- No operation in flight conflicts: none claims one of the tiles, none writes a segment to be read, none reads or writes a
segment to be written. `but` lifts the tile claims of merged layers (R112 to R114). -/
def Seq.clear (q : Seq) (tiles reads writes : List Nat) (but : Op → Bool) : Bool :=
  q.ops.all (fun o =>
    (but o || tiles.all (fun t => t ∉ o.tiles)) && reads.all (fun k => k ∉ o.writeSegs)
      && writes.all (fun k => k ∉ o.writeSegs && k ∉ o.readSegs))

/-- A layer, the class limited to four in flight (R109). -/
def Op.isLayer (o : Op) : Bool := o.engine == .jet

/-- There is room for one more operation (R109). -/
def Seq.room (q : Seq) (e : Engine) : Bool :=
  decide (q.ops.length < 16) && (e != .jet || decide ((q.ops.filter Op.isLayer).length < 4))

/-- The engine flag words after an operation posts its flags (R81). -/
def EngineFlags.post (f : EngineFlags) (o : Op) : EngineFlags :=
  let f := { f with jet := o.jetFlags.foldl (fun t p => Tab.put t p.1 (Tab.at t 0 p.1 ||| p.2)) f.jet }
  match o.engine with
  | .jet => f
  | .tile => f
  | .sluice => { f with prz := f.prz ||| o.flags }
  | .cascade => { f with csc := f.csc ||| o.flags }
  | .runnel0 => { f with run0 := f.run0 ||| o.flags }
  | .runnel1 => { f with run1 := f.run1 ||| o.flags }
  | .loupe => { f with lpe := f.lpe ||| o.flags }

/-- The tiles that writes touch. -/
def tilesWritten (ws : List (Nat × Byte)) : List Nat := (ws.flatMap (fun w => tilesOf w.1 1)).dedup

/-- Words of the ECC that writes cover in part only: they are read before they are written (R205). -/
def partWords (ws : List (Nat × Byte)) (bad : List Nat) : Option Nat :=
  bad.find? (fun w =>
    let n := ((List.range (eccWidth w)).filter (fun k => ws.any (fun p => p.1 == w + k))).length
    decide (0 < n) && decide (n < eccWidth w))

/-- A basin after the writes of an operation: errors of written words are gone, tile flags set and cleared, and any sequence of
STW toward a full tile is broken (R95, R205). -/
def Basin.commit (x : Basin) (o : Op) : Basin :=
  let x := { x with store := Mem.apply x.store o.writes }
  let x := o.writes.foldl (fun x w => x.mend w.1 1) x
  let t := o.tileClear.foldl (fun t k => Tab.del t k) x.tileFlags
  let t := o.tileSet.foldl (fun t k => Tab.put t k true) t
  { x with tileFlags := t, tileCover := (tilesWritten o.writes).foldl (fun c k => Tab.del c k) x.tileCover }

/-- Retire an operation: its writes are made, its flags posted, its claims released (R112). A part write over an uncorrectable
word faults the run instead (R205). -/
def Dev.retire (d : Dev) (b : Nat) (o : Op) : Dev :=
  let x := d.basin b
  match partWords o.writes x.cis.badWords with
  | some w => d.eccRun b w o.pc
  | none =>
    let y := x.commit o
    d.putBasin b { y with flags := y.flags.post o, seq := { y.seq with ops := y.seq.ops.filter (fun p => p.seq ≠ o.seq) } }

/-- Ranges read for a run: corrected errors are reported, an uncorrectable one faults the run (R205). `k` goes on otherwise. -/
def Dev.readFor (d : Dev) (b pc : Nat) (rs : List (Nat × Nat)) (k : Dev → Dev) : Dev :=
  let x := d.basin b
  match rs.findSome? (fun r => x.badIn r.1 r.2) with
  | some w => d.eccRun b w pc
  | none => k (d.eccCorrect b ((rs.flatMap (fun r => x.softIn r.1 r.2)).dedup))

/-- The in-flight operation numbered `q` on a basin. -/
def Basin.op (x : Basin) (q : Nat) : Option Op := x.seq.ops.find? (fun o => o.seq == q)

/-- The oldest operation in flight of an engine. -/
def Basin.oldest (x : Basin) (e : Engine) : Option Op := x.seq.ops.find? (fun o => o.engine == e)

/-- A basin with an operation in flight replaced. -/
def Basin.setOp (x : Basin) (o : Op) : Basin :=
  { x with seq := { x.seq with ops := x.seq.ops.map (fun p => if p.seq = o.seq then o else p) } }

/-- A basin with one more operation in flight. -/
def Basin.addOp (x : Basin) (o : Op) : Basin := { x with seq := { x.seq with ops := x.seq.ops ++ [o] } }

/-- Writes of a list of bytes from an address. -/
def writesAt (a : Nat) (bs : List Byte) : List (Nat × Byte) := bs.zipIdx.map (fun p => (a + p.2, p.1))

end Sys2Proof.Machine
end

