-- ==== Sys2Proof/Machine/Jets.lean ====
section
/-! DEFINITION. The jets: descriptor checks, passes, facet tables, mist steps, accumulators and the epilogue (R64 to R73, R79, R80,
R90 to R104, R113, R119 to R142, R275). A layer is computed lane by lane, each lane taking its clocks in the order of R99 or R124. -/

namespace Sys2Proof.Machine

open Sys2Proof

/-! ### Shape and checks -/

def Layer.rowGroups (l : Layer) : Nat := cdiv l.rows 8
def Layer.gq (l : Layer) : Nat := cdiv l.rowGroups l.jcount
def Layer.cgs (l : Layer) : Nat := cdiv l.cols 8
def Layer.nbIn (l : Layer) : Nat := cdiv l.red l.bs
def Layer.nbOut (l : Layer) : Nat := cdiv l.rows l.obs
def Layer.slots (l : Layer) : Nat := if l.a16 then 32 else 16
/-- Column groups of a facet batch (R124). -/
def Layer.cb (l : Layer) : Nat := l.ocount / l.gq

/-- A pitch is a multiple of 64 and no shorter than the row; unchecked with one row (R98). -/
def pitchOk (pitch row n : Nat) : Bool := decide (n ≤ 1) || (pitch % 64 == 0 && decide (row ≤ pitch))

/-- Bytes from the first to the last row of a tensor. -/
def tensorSpan (pitch row n : Nat) : Nat := (n - 1) * pitch + row

/-- The output codes of R97. -/
def odstOk (f : Nat) : Bool := f == fL16 || f == fL8 || f == fL4 || f == fT2 || f == fA32 || f == fA16 || f == fB32 || f == fB64

/-- Descriptor validity, code 0x03 (R98, R124). -/
def Layer.valid (l : Layer) : Bool :=
  decide (l.prec < 14)
    && (if l.prec = 12 then decide (6 ≤ l.mlen) && decide (l.mlen ≤ 12) else l.mlen == 0)
    && l.rows != 0 && l.cols != 0 && l.red != 0 && l.jcount != 0
    && decide (l.jfirst + l.jcount ≤ 64)
    && l.ocount != 0 && decide (l.ofirst + l.ocount ≤ l.slots)
    && (!l.epi || (l.eop != 3 && (l.eop == 0 || l.efmt == fL16 || l.efmt == fA32) && odstOk l.odst && (!l.pair || l.prec == 13)))
    && (!l.wpk || (decide (6 ≤ l.prec) && decide (l.prec ≤ 9)))
    && pitchOk l.wpitch l.wrow l.rows && pitchOk l.xpitch l.xrow l.cols
    && (!l.epi || pitchOk l.opitch l.orow l.cols) && (!l.eUsed || pitchOk l.epitch l.erow l.cols)
    && (!l.facet || decide (l.gq ≤ l.ocount))

/-- The ranges a layer reads and writes (R98, R114), as (address, bytes). -/
def Layer.reads (l : Layer) : List (Nat × Nat) :=
  [(l.waddr, tensorSpan l.wpitch l.wrow l.rows), (l.xaddr, tensorSpan l.xpitch l.xrow l.cols)]
    ++ (if l.facet then [(l.wsaddr, 32 * cdiv l.red 64)] else if l.wsUsed then [(l.wsaddr, l.rows * l.nbIn)] else [])
    ++ (if l.xsUsed then [(l.xsaddr, l.cols * l.nbIn)] else [])
    ++ (if l.epi && l.eop != 0 then [(l.eaddr, tensorSpan l.epitch l.erow l.cols)] else [])

def Layer.writesTo (l : Layer) : List (Nat × Nat) :=
  if l.epi then
    [(l.oaddr, tensorSpan l.opitch l.orow l.cols)] ++ (if l.osUsed then [(l.osaddr, l.cols * l.nbOut)] else [])
      ++ (if l.pair then [(l.eaddr, tensorSpan l.epitch l.erow l.cols)] else [])
  else []

/-- Rows start on 64 B boundaries; facet codebooks are aligned too (R98, R119). -/
def Layer.aligned (l : Layer) : Bool :=
  l.waddr % 64 == 0 && l.xaddr % 64 == 0 && (!l.facet || l.wsaddr % 64 == 0) && (!l.epi || l.oaddr % 64 == 0) && (!l.eUsed || l.eaddr % 64 == 0)

/-- Tiles of the output slots in each jet (R94, R112). -/
def Layer.tiles (l : Layer) : List Nat :=
  (List.range l.jcount).flatMap (fun q =>
    ((List.range l.ocount).map (fun s => 16 * (l.jfirst + q) + (if l.a16 then (l.ofirst + s) / 2 else l.ofirst + s))).dedup)

/-- The rows of a tensor, as (address, bytes). -/
def tensorRows (a pitch row n : Nat) : List (Nat × Nat) := (List.range n).map (fun r => (a + r * pitch, row))

/-- The ranges that a layer reads word by word: the rows themselves, without the gaps that a pitch leaves (R205). -/
def Layer.rowReads (l : Layer) : List (Nat × Nat) :=
  tensorRows l.waddr l.wpitch l.wrow l.rows ++ tensorRows l.xaddr l.xpitch l.xrow l.cols
    ++ (if l.facet then [(l.wsaddr, 32 * cdiv l.red 64)] else if l.wsUsed then [(l.wsaddr, l.rows * l.nbIn)] else [])
    ++ (if l.xsUsed then [(l.xsaddr, l.cols * l.nbIn)] else [])
    ++ (if l.epi && l.eop != 0 then tensorRows l.eaddr l.epitch l.erow l.cols else [])

/-- The fault code of a layer at issue (R98). Where a descriptor meets several faults the spec does not say which one is recorded: the
model takes the first of 0x03, 0x06, 0x04 and 0x05 (DESIGN CHOICE, notes/assumptions/94.md). -/
def Layer.code (l : Layer) (x : Basin) (r : Run) : Nat :=
  if !l.valid then 3
  else if !l.aligned then 6
  else if !(l.reads ++ l.writesTo).all (fun p => x.cisCode r p.1 p.2 == 0) then 4
  else if !l.tiles.all (tileIn r.apseg) then 5
  else 0

/-- A later layer merges with an earlier one in flight (R113). -/
def Layer.merges (l f : Layer) (det : Bool) : Bool :=
  !det && l.acci && f.acci && !l.epi && !f.epi && l.a16 == f.a16 && l.aoff == f.aoff && l.em == f.em && l.rows == f.rows && l.cols == f.cols
    && l.jfirst == f.jfirst && l.jcount == f.jcount && l.ofirst == f.ofirst && l.ocount == f.ocount

/-! ### Clocks of a jet -/

/-- What a jet does next: a clock or mist step, or the end of a batch. -/
inductive JetEv where
  /-- output slot, row group, column group, first reduction position; the first of its output block; layer it belongs to -/
  | clk (slot rg cg r0 : Nat) (first : Bool) (tag : Nat)
  /-- a batch is finished: its output blocks as (slot, row group, column group) -/
  | batch (bs : List (Nat × Nat × Nat))
  deriving DecidableEq, Repr

/-- The passes of one iteration of g and b (R99, R131). -/
def Layer.passes (l : Layer) (tag rg b : Nat) : List JetEv :=
  let lo := b * l.ocount
  let hi := min l.cgs ((b + 1) * l.ocount)
  let cs := (List.range (hi - lo)).map (fun c => lo + c)
  (List.range (cdiv l.red (8 * l.k))).flatMap (fun d => cs.flatMap (fun c => (List.range 8).map (fun s =>
    JetEv.clk (l.ofirst + c % l.ocount) rg c (d * 8 * l.k + s * l.k) (d == 0 && s == 0) tag)))
    ++ [.batch (cs.map (fun c => (l.ofirst + c % l.ocount, rg, c)))]

/-- The order of R99 for jet q of the layer. -/
def Layer.order (l : Layer) (tag q : Nat) : List JetEv :=
  (List.range l.gq).flatMap (fun g =>
    if q + g * l.jcount < l.rowGroups then (List.range (cdiv l.cgs l.ocount)).flatMap (fun b => l.passes tag (q + g * l.jcount) b) else [])

/-- The order of R124 for jet q of a facet layer. -/
def Layer.facetOrder (l : Layer) (tag q : Nat) : List JetEv :=
  let gs := (List.range l.gq).filter (fun g => decide (q + g * l.jcount < l.rowGroups))
  (List.range (cdiv l.cgs l.cb)).flatMap (fun b =>
    let lo := b * l.cb
    let hi := min l.cgs ((b + 1) * l.cb)
    let cs := (List.range (hi - lo)).map (fun c => lo + c)
    let slot (g c : Nat) : Nat := l.ofirst + g * l.cb + (c - lo)
    cs.flatMap (fun c => (List.range (cdiv l.red l.k)).flatMap (fun d => gs.map (fun g =>
      JetEv.clk (slot g c) (q + g * l.jcount) c (d * l.k) (d == 0) tag)))
      ++ [.batch (gs.flatMap (fun g => cs.map (fun c => (slot g c, q + g * l.jcount, c))))])

def Layer.events (l : Layer) (tag q : Nat) : List JetEv := if l.facet then l.facetOrder tag q else l.order tag q

/-! ### Operands -/

/-- The element of a block-scaled or L16 tensor at a row and position, with flags of the read. -/
def tensorOpd (rd : Nat → Byte) (fmt base pitch row sbase nb bs pos : Nat) : Opd × W32 :=
  let c := readElem rd fmt (base + row * pitch) pos
  if fmt = fL16 then (opdL16 c, 0) else opdScaled fmt c (rd (sbase + row * nb + pos / bs)).toNat

/-- The weight at a row and position (R97, R122). -/
def Layer.w (l : Layer) (rd : Nat → Byte) (row pos : Nat) : Opd × W32 :=
  if l.rows ≤ row then (.zero, 0)
  else if l.facet then
    let q := readElem rd fF4 (l.waddr + row * l.wpitch) pos
    (opdL16 (leNat [rd (l.wsaddr + 32 * (pos / 64) + 2 * q), rd (l.wsaddr + 32 * (pos / 64) + 2 * q + 1)]), 0)
  else tensorOpd rd l.wfmt l.waddr l.wpitch row l.wsaddr l.nbIn l.bs pos

/-- The streamed element of a column at a position. -/
def Layer.x (l : Layer) (rd : Nat → Byte) (col pos : Nat) : Opd × W32 :=
  if l.cols ≤ col then (.zero, 0) else tensorOpd rd l.xfmt l.xaddr l.xpitch col l.xsaddr l.nbIn l.bs pos

/-- hi and lo of a compensated pair; lo is ignored where hi is 0, NaN or ±∞ (R78). -/
def pairOpd (rd : Nat → Byte) (base pos : Nat) : Opd × Opd :=
  let hi := opdL16 (readElem rd fL16 base (2 * pos))
  match hi with
  | .fin _ _ => (hi, opdL16 (readElem rd fL16 base (2 * pos + 1)))
  | _ => (hi, .zero)

/-! ### One lane -/

/-- What a lane's passes of one layer have raised: flags, tiles whose flag was set (R95), overflow events and the SAT events among
them (R139), skipped products (R121). -/
structure LaneLog where
  (flags : W32 := 0)
  (sat : List Nat := [])
  (ov ovSat skipped : Nat := 0)
  deriving DecidableEq, Repr

/-- What a lane carries along. -/
structure Lane where
  /-- its generator, and the mist generators of its row and column -/
  (g gr gc : Gen)
  /-- accumulator patterns by slot -/
  (acc : Tab Nat)
  /-- the layer whose pass is in progress, and what the passes of each layer have raised (R141) -/
  (tag : Nat)
  (logs : List LaneLog)
  /-- tiles whose flag the first pass cleared (R95) -/
  (cleared : List Nat)
  /-- finished elements: (row, column, pattern, draws for steps 1, 3 and 5) -/
  outs : List (Nat × Nat × Nat × Nat × Nat × Nat)
  deriving DecidableEq, Repr

/-- Take a draw from the lane's generator where the mode is stochastic (R275). -/
def Lane.draw (s : Lane) (stoch : Bool) : Nat × Lane :=
  if stoch then let r := s.g.next; (r.1, { s with g := r.2 }) else (0, s)

/-- Take n draws in order. -/
def Lane.draws (s : Lane) (stoch : Bool) (n : Nat) : List Nat × Lane :=
  match n with
  | 0 => ([], s)
  | k + 1 => let r := s.draw stoch; let t := r.2.draws stoch k; (r.1 :: t.1, t.2)

/-- The direction of a jet rounding (R72). -/
def emDir (em r : Nat) : Dir := if em = 2 then .draw r else .away

/-- Change the log of the layer whose pass is in progress. -/
def Lane.log (s : Lane) (f : LaneLog → LaneLog) : Lane := { s with logs := s.logs.set s.tag (f (s.logs.getD s.tag {})) }

/-- Record flags of one product, conversion or addition: SAT also marks the tile; OVF and SAT are overflow events (R71, R139). -/
def Lane.note (s : Lane) (tile : Nat) (fl : W32) : Lane :=
  let sat := fl &&& flSAT != 0
  let ovf := fl &&& flOVF != 0
  s.log (fun g => { g with flags := g.flags ||| fl, sat := if sat && tile ∉ g.sat then tile :: g.sat else g.sat,
                           ov := g.ov + (if sat || ovf then 1 else 0), ovSat := g.ovSat + (if sat then 1 else 0) })

/-- One rounded addition of a lane. -/
def Lane.plus (s : Lane) (f : Fmt) (keep : Bool) (em tile a b r : Nat) : Nat × Lane :=
  let v := f.add keep (emDir em r) a b
  (v.1, s.note tile v.2)

/-- One level of the pre-tree: adjacent pairs, left to right (R69). -/
def Lane.level (s : Lane) (f : Fmt) (keep : Bool) (em tile : Nat) (stoch : Bool) (ps : List Nat) : List Nat × Lane :=
  match ps with
  | a :: b :: r =>
    let d := s.draw stoch
    let v := d.2.plus f keep em tile a b d.1
    let t := v.2.level f keep em tile stoch r
    (v.1 :: t.1, t.2)
  | _ => (ps, s)

/-- The pre-tree (R69). -/
def Lane.tree (s : Lane) (f : Fmt) (keep : Bool) (em tile : Nat) (stoch : Bool) (fuel : Nat) (ps : List Nat) : Nat × Lane :=
  match fuel with
  | 0 => (ps.headD 0, s)
  | k + 1 => match ps with
    | [] => (0, s)
    | [p] => (p, s)
    | _ => let t := s.level f keep em tile stoch ps; t.2.tree f keep em tile stoch k t.1

/-- A pass begins: the first pass into an output block under ACCI = 0 replaces its content by zero and clears the tile's flag, before
what its own products and sums raise (R95, R101). -/
def Lane.start (s : Lane) (acci first : Bool) (slot tile tag : Nat) : Lane :=
  let s := { s with tag := tag }
  if first && !acci then
    { s with cleared := if tile ∈ s.cleared then s.cleared else tile :: s.cleared, acc := Tab.put s.acc slot 0,
             logs := s.logs.map (fun g => { g with sat := g.sat.filter (· ≠ tile) }) }
  else s

/-- Add a clock's sum to the accumulator element (R70). -/
def Lane.accumulate (s : Lane) (l : Layer) (slot tile v : Nat) : Lane :=
  let d := s.draw (l.em == 2)
  let r := d.2.plus l.acc l.keep l.em tile (Tab.at d.2.acc 0 slot) v d.1
  { r.2 with acc := Tab.put r.2.acc slot r.1 }

/-- The products of one clock at positions r0 to r0 + k − 1, converted (R64 to R66, R120, R126). A trit of value 0 is skipped and
counted also where R100 computes a row or column beyond the layer with zero elements (R121); a position beyond RED has no product. -/
def Lane.products (s : Lane) (l : Layer) (rd : Nat → Byte) (row col tile : Nat) (ps : List Nat) : List Nat × Lane :=
  match ps with
  | [] => ([], s)
  | p :: r =>
    let d := s.draw (l.em == 2)
    if l.red ≤ p then
      let t := d.2.products l rd row col tile r
      (0 :: t.1, t.2)
    else
      let w := l.w rd row p
      let x := l.x rd col p
      let tern (f : Nat) (o : Opd) : Bool := (f == fT2 || f == fT5P) && o == .zero
      let skip := tern l.wfmt w.1 || tern l.xfmt x.1
      let v : Flagged := if skip then (0, 0) else (w.1.mul x.1).conv l.acc l.keep (emDir l.em d.1) l.aoff
      let s := d.2.log (fun g => { g with flags := g.flags ||| w.2 ||| x.2, skipped := g.skipped + bit01 skip })
      let t := (s.note tile v.2).products l rd row col tile r
      (v.1 :: t.1, t.2)

/-- One clock of a compensated pair (R79). -/
def Lane.pair (s : Lane) (l : Layer) (rd : Nat → Byte) (row col tile p : Nat) : Nat × Lane :=
  let r := s.draws (l.em == 2) 5
  let s := r.2
  let dr (k : Nat) : Nat := r.1.getD k 0
  if l.red ≤ p then (0, s)
  else
    let w : Opd × Opd := if row < l.rows then pairOpd rd (l.waddr + row * l.wpitch) p else (.zero, .zero)
    let x : Opd × Opd := if col < l.cols then pairOpd rd (l.xaddr + col * l.xpitch) p else (.zero, .zero)
    let c (a b : Opd) (k : Nat) : Flagged := (a.mul b).conv f32 l.keep (emDir l.em (dr k)) l.aoff
    let p1 := c w.1 x.2 0
    let p2 := c w.2 x.1 1
    let p3 := c w.1 x.1 2
    let s := ((s.note tile p1.2).note tile p2.2).note tile p3.2
    let a := s.plus f32 l.keep l.em tile p1.1 p2.1 (dr 3)
    a.2.plus f32 l.keep l.em tile a.1 p3.1 (dr 4)

/-! ### Mist (R129 to R134) -/

/-- The threshold θ of an L8 code under a scale code; none for NaN (R129, R134). -/
def mistTheta (c s : Nat) : Option Nat :=
  if s = 0xFF then none
  else if s = 0 then some (2 ^ 23)
  else if c = 0x80 then none
  else if c % 128 = 0 then some (2 ^ 23)
  else
    let m := (roundAt (.root 8 ((c % 128 : Nat) - 127)) (-23) false .away).1
    some (if 128 ≤ c then 2 ^ 23 - m else 2 ^ 23 + m)

/-- n stream bits against a threshold, counting agreements with the other stream: ones of the XNOR (R130). -/
def mistBits (gr gc : Gen) (tw tx : Nat) (n ones : Nat) : Gen × Gen × Nat :=
  match n with
  | 0 => (gr, gc, ones)
  | k + 1 =>
    let a := gr.next
    let b := gc.next
    mistBits a.2 b.2 tw tx k (if decide (a.1 < tw) == decide (b.1 < tx) then ones + 1 else ones)

/-- The products of a mist step: generators after it, z, and whether a product is NaN, with flags (R131, R132, R134). Absent
positions draw and add nothing. -/
def Layer.mist (l : Layer) (rd : Nat → Byte) (row col : Nat) (ps : List Nat) (gr gc : Gen) (z : Int) (nan : Bool) (fl : W32) :
    Gen × Gen × Int × Bool × W32 :=
  match ps with
  | [] => (gr, gc, z, nan, fl)
  | p :: r =>
    let n := 2 ^ l.mlen
    let sc (base rw : Nat) : Nat := (rd (base + rw * l.nbIn + p / l.bs)).toNat
    let present := decide (p < l.red)
    let cw := if present && decide (row < l.rows) then readElem rd fL8 (l.waddr + row * l.wpitch) p else 0
    let cx := if present && decide (col < l.cols) then readElem rd fL8 (l.xaddr + col * l.xpitch) p else 0
    let tw := mistTheta cw (if present && decide (row < l.rows) then sc l.wsaddr row else 0)
    let tx := mistTheta cx (if present && decide (col < l.cols) then sc l.xsaddr col else 0)
    let b := mistBits gr gc (tw.getD (2 ^ 23)) (tx.getD (2 ^ 23)) n 0
    let bad := present && (tw.isNone || tx.isNone)
    let inx := present && tw.isSome && tx.isSome && tw != some (2 ^ 23) && tx != some (2 ^ 23)
    l.mist rd row col r b.1 b.2.1 (if present then z + 2 * (b.2.2 : Int) - n else z) (nan || bad) (if inx then fl ||| flINX else fl)

/-- One mist step of a lane: z × 2^(s_w + s_x − 254 − MLEN − AOFF) added to the accumulator (R132). -/
def Lane.mistStep (s : Lane) (l : Layer) (rd : Nat → Byte) (row col tile slot r0 : Nat) : Lane :=
  let m := l.mist rd row col ((List.range l.k).map (r0 + ·)) s.gr s.gc 0 false 0
  let z := m.2.2.1
  let p := min r0 (l.red - 1)
  let sw := if row < l.rows then (rd (l.wsaddr + row * l.nbIn + p / l.bs)).toNat else 0
  let sx := if col < l.cols then (rd (l.xsaddr + col * l.nbIn + p / l.bs)).toNat else 0
  let s := { s with gr := m.1, gc := m.2.1 }.log (fun g => { g with flags := g.flags ||| m.2.2.2.2 })
  let d := s.draw (l.em == 2)
  let v : Num := if m.2.2.2.1 then .nan else if z = 0 then .zero false
    else .fin (decide (z < 0)) (.rat z.natAbs 1 ((sw : Int) + sx - 254 - l.mlen - l.aoff))
  let c := f32.acc l.keep (emDir l.em d.1) v
  (d.2.note tile c.2).accumulate l slot tile c.1

/-! ### A lane's whole layer -/

/-- The tile of a slot in a jet. -/
def Layer.tileOf (l : Layer) (jet slot : Nat) : Nat := 16 * jet + (if l.a16 then slot / 2 else slot)

/-- The aperture address of lane (i, j)'s element in an output slot (R93, R94). -/
def Layer.accAddr (l : Layer) (jet slot i j : Nat) : Nat :=
  if l.a16 then 0x400000 + 4096 * jet + 256 * (slot / 2) + 2 * (8 * (8 * (slot % 2) + i) + j)
  else 0x400000 + 4096 * jet + 256 * slot + 4 * (8 * i + j)

/-- One event of lane (i, j) of a jet; `ls` are the layers by tag. -/
def Lane.event (ls : List Layer) (rd : Nat → Byte) (jet i j : Nat) (s : Lane) (e : JetEv) : Lane :=
  match e with
  | .clk slot rg cg r0 first tag =>
    match ls[tag]? with
    | none => s
    | some l =>
      let tile := l.tileOf jet slot
      let row := 8 * rg + i
      let col := 8 * cg + j
      let s := s.start l.acci first slot tile tag
      if l.prec = 12 then s.mistStep l rd row col tile slot r0
      else if l.prec = 13 then
        let v := s.pair l rd row col tile r0
        v.2.accumulate l slot tile v.1
      else
        let ps := s.products l rd row col tile ((List.range l.k).map (r0 + ·))
        let t := ps.2.tree l.acc l.keep l.em tile (l.em == 2) 5 ps.1
        t.2.accumulate l slot tile t.1
  | .batch bs =>
    match ls with
    | [] => s
    | l :: _ =>
      if !l.epi then s
      else (bs.mergeSort (fun a b => decide (a.1 ≤ b.1))).foldl (fun s b =>
        let r := s.draws (l.rm == 2) 3
        { r.2 with outs := r.2.outs ++ [(8 * b.2.1 + i, 8 * b.2.2 + j, Tab.at r.2.acc 0 b.1, r.1.getD 0 0, r.1.getD 1 0, r.1.getD 2 0)] }) s

/-- A lane before `n` merged layers: its generators and the accumulator elements of the layer's slots. -/
def Layer.lane (l : Layer) (x : Basin) (n jet i j : Nat) : Lane :=
  { g := x.gen (64 * jet + 8 * i + j), gr := x.gen (4096 + 16 * jet + i), gc := x.gen (4096 + 16 * jet + 8 + j),
    acc := (List.range l.ocount).map (fun s => (l.ofirst + s, Mem.readLe x.store (l.accAddr jet (l.ofirst + s) i j) (if l.a16 then 2 else 4))),
    tag := 0, logs := List.replicate n {}, cleared := [], outs := [] }

/-- Two orders of passes interleaved by the open choice of R113. -/
def interleave (k : Nat) (a b : List JetEv) (fuel : Nat) : List JetEv :=
  match fuel with
  | 0 => a ++ b
  | n + 1 => match a, b with
    | [], _ => b
    | _, [] => a
    | e :: r, f :: t => if Config.mergeLater k then f :: interleave (k + 1) a t n else e :: interleave (k + 1) r b n

/-- The events of jet q for the merged layers. -/
def mergedEvents (ls : List Layer) (k q : Nat) : List JetEv :=
  (ls.zipIdx.map (fun p => p.1.events p.2 q)).foldl (fun a b => interleave k a b (a.length + b.length)) []

/-! ### The epilogue (R103, R104, R133, R154) -/

/-- A tensor scale's log offset under TSCL; none where it is invalid (R48). -/
def tsMove (t : Nat) : Option Int := if tsOk t then some ((t : Int) - 16256) else none

/-- Addition in log form, without a range check (R74, step 3). -/
def Opd.add (a b : Opd) : Opd × W32 :=
  match a, b with
  | .nan, _ => (.nan, 0)
  | _, .nan => (.nan, 0)
  | .inf s, .inf t => if s == t then (.inf s, 0) else (.nan, flINV)
  | .inf s, _ => (.inf s, 0)
  | _, .inf t => (.inf t, 0)
  | .zero, y => (y, 0)
  | x, .zero => (x, 0)
  | .fin s x, .fin t y =>
    match logSum s x t y with
    | none => (.zero, 0)
    | some (u, e, inx) => (.fin u e, if inx then flINX else 0)

/-- Multiplication in log form (step 3 with EOP multiply). -/
def Opd.times (a b : Opd) : Opd × W32 :=
  match a.mul b with
  | .nan inv => (.nan, if inv then flINV else 0)
  | .inf s => (.inf s, 0)
  | .zero => (.zero, 0)
  | .fin s p => (.fin s p, 0)

/-- The L16 value of an accumulator pattern with the offset removed (R62). -/
def accToL16 (f : Fmt) (keep : Bool) (d : Dir) (aoff : Int) (p : Nat) : Flagged :=
  if f.isSub p && !keep then (0, flFLUSH ||| flUNF) else l16.round keep d ((f.read p).shift aoff)

/-- A magnitude rounded to a whole number of L16 ulps (R57), without a range check, and whether it moved. -/
def logRound (d : Dir) (x : Mag) : Int × Bool :=
  let k := x.floorLog 128
  if x.isRoot 128 k then (k, false)
  else
    let up : Bool := match d with
      | .trunc => false
      | .draw r => decide (r < x.between 128 k)
      | _ => x.floorLog 256 % 2 == 1
    (if up then k + 1 else k, true)

/-- Step 1 of R103: an accumulator pattern as a log field whose range is checked only at the end of step 4. -/
def accToOpd (f : Fmt) (keep : Bool) (d : Dir) (aoff : Int) (p : Nat) : Opd × W32 :=
  if f.isSub p && !keep then (.zero, flFLUSH ||| flUNF)
  else match (f.read p).shift aoff with
    | .nan => (.nan, 0)
    | .inf s => (.inf s, 0)
    | .zero _ => (.zero, 0)
    | .fin s x => let k := logRound d x; (.fin s k.1, if k.2 then flINX else 0)

/-- Steps 1 to 4 for one element: an L16 code and its flags. R275 gives the range check at the end of step 4 no draw of its own: under
RM 0b10 the below-m row of R59 takes the draw of step 5 (DEDUCED, notes/assumptions/17.md). -/
def Layer.epiValue (l : Layer) (rd : Nat → Byte) (row col p r1 r3 r5 : Nat) : Flagged :=
  let s1 := accToOpd l.acc l.keep (rmDir l.rm r1) l.aoff p
  let v := s1.1
  let v := if l.prec = 12 then v.move 2016 else v
  let bad := l.tscl && !(tsOk l.wts && tsOk l.xts && tsOk l.ots)
  let ts (t : Nat) : Int := if l.tscl then ((tsMove t).getD 0) else 0
  let v := v.move (ts l.wts + ts l.xts)
  let e : Opd × W32 := if l.eop = 0 then (.zero, 0)
    else if l.efmt = fA32 then accToOpd f32 l.keep (rmDir l.rm r3) l.aoff (readElem rd fA32 (l.eaddr + col * l.epitch) row)
    else (opdL16 (readElem rd fL16 (l.eaddr + col * l.epitch) row), 0)
  let w : Opd × W32 := if l.eop = 1 then v.add e.1 else if l.eop = 2 then v.times e.1 else (v, 0)
  let u := w.1.move (-(ts l.ots))
  let c := u.toL16 l.keep (rmDir l.rm r5)
  if bad then (0x8000, s1.2 ||| flINV) else (c.1, s1.2 ||| e.2 ||| w.2 ||| c.2)

/-- The direct path of R104 applies. -/
def Layer.direct (l : Layer) : Bool := (l.odst == fA32 || l.odst == fA16) && !l.tscl && l.eop == 0 && l.prec != 12

/-- An element into a linear output (R62). -/
def Layer.linear (l : Layer) (d : Dir) (v : Num) : Flagged :=
  if l.odst = fA32 then f32.acc l.keep d (v.shift (-l.aoff)) else if l.odst = fA16 then f16.acc l.keep d (v.shift (-l.aoff))
  else if l.odst = fB32 then f32.prism l.keep d v else f64.prism l.keep d v

/-- An accumulator pattern by the direct path: its own format unchanged, the other one converted at the same offset. -/
def Layer.directOut (l : Layer) (d : Dir) (p : Nat) : Flagged :=
  let g := if l.odst = fA32 then f32 else f16
  if g = l.acc then (p, 0) else let v := l.acc.operand l.keep p; let r := g.acc l.keep d v.1; (r.1, v.2 ||| r.2)

/-- hi and the A32 residual of a pair output: the result less hi converted back, and +0 for a result of 0, NaN or ±∞ (R80). The pair is
written as it is whatever TSCL and EOP say, and its three roundings take the draws of steps 1, 3 and 5 in the order hi, hi converted
back, subtraction (DEDUCED, notes/assumptions/94.md). -/
def Layer.pairOut (l : Layer) (r1 r3 r5 p : Nat) : Nat × Nat × W32 :=
  let h := accToL16 f32 l.keep (rmDir l.rm r1) l.aoff p
  match (f32.operand l.keep p).1 with
  | .fin _ _ =>
    let back := f32.acc l.keep (rmDir l.rm r3) ((l16.read h.1).shift (-l.aoff))
    let neg := if back.1 = 0 then 0 else Nat.xor back.1 (2 ^ 31)
    let s := f32.add l.keep (rmDir l.rm r5) p neg
    (h.1, s.1, h.2 ||| back.2 ||| s.2)
  | _ => (h.1, 0, h.2)

/-- The jet, as its index in the layer, that produces a row. -/
def Layer.jetOf (l : Layer) (row : Nat) : Nat := l.jfirst + row / 8 % l.jcount

/-- What an epilogue leaves: writes, jet flags, overflow events, SAT events, vanishes. -/
structure EpiOut where
  (writes : List (Nat × Byte) := [])
  (flags : Tab W32 := [])
  (ov sat van : Nat := 0)
  deriving DecidableEq, Repr

def EpiOut.flag (o : EpiOut) (jet : Nat) (f : W32) : EpiOut := { o with flags := Tab.put o.flags jet (Tab.at o.flags 0 jet ||| f) }

/-- Count the stored element's OVF or SAT, and its vanish (R139). -/
def EpiOut.count (o : EpiOut) (f : W32) (van : Bool) : EpiOut :=
  let sat := f &&& flSAT != 0
  { o with ov := o.ov + (if sat || f &&& flOVF != 0 then 1 else 0), sat := o.sat + bit01 sat, van := o.van + bit01 van }

/-- One output row, the elements of a column over ROWS, as (row, pattern, draws). -/
def Layer.epiColumn (l : Layer) (rd : Nat → Byte) (o : EpiOut) (col : Nat) (es : List (Nat × Nat × Nat × Nat × Nat)) : EpiOut :=
  let oa := l.oaddr + col * l.opitch
  if l.pair then
    let vs := es.map (fun e => (e.1, l.pairOut e.2.2.1 e.2.2.2.1 e.2.2.2.2 e.2.1))
    let o := vs.foldl (fun o v => (o.flag (l.jetOf v.1) v.2.2.2).count v.2.2.2 false) o
    { o with writes := o.writes ++ writesAt oa (packRow fL16 (vs.map (fun v => v.2.1)))
               ++ writesAt (l.eaddr + col * l.epitch) (packRow fA32 (vs.map (fun v => v.2.2.1))) }
  else if l.direct then
    let vs := es.map (fun e => (e.1, l.directOut (rmDir l.rm e.2.2.2.2) e.2.1))
    let o := vs.foldl (fun o v => (o.flag (l.jetOf v.1) v.2.2).count v.2.2 false) o
    { o with writes := o.writes ++ writesAt oa (packRow l.odst (vs.map (fun v => v.2.1))) }
  else
    let vs := es.map (fun e => (e.1, l.epiValue rd e.1 col e.2.1 e.2.2.1 e.2.2.2.1 e.2.2.2.2, rmDir l.rm e.2.2.2.2))
    let o := vs.foldl (fun o v => o.flag (l.jetOf v.1) v.2.1.2) o
    if l.odst = fL16 then
      let o := vs.foldl (fun o v => o.count v.2.1.2 false) o
      { o with writes := o.writes ++ writesAt oa (packRow fL16 (vs.map (fun v => v.2.1.1))) }
    else if isBlock l.odst then
      let bs := (List.range l.nbOut).map (fun k =>
        let part := (vs.drop (k * l.obs)).take l.obs
        (part, encodeBlock l.odst 0 (if l.opin then some l.pins else none) false (part.map (fun v => v.2.1.1)) (part.map (fun v => v.2.2))))
      let o := bs.foldl (fun o b =>
        let o := (b.1.zip b.2.2.1).foldl (fun o p => (o.flag (l.jetOf p.1.1) p.2.2.1).count (p.1.2.1.2 ||| p.2.2.1) p.2.2.2) o
        ((b.1.map (fun v => l.jetOf v.1)).dedup).foldl (fun o j => o.flag j b.2.2.2) o) o
      { o with writes := o.writes ++ writesAt oa (packRow l.odst (bs.flatMap (fun b => b.2.2.1.map (fun e => e.1))))
                 ++ writesAt (l.osaddr + col * l.nbOut) (bs.map (fun b => BitVec.ofNat 8 b.2.1)) }
    else
      let ws := vs.map (fun v => let w := l.linear v.2.2 (l16.read v.2.1.1); (v.1, w.1, v.2.1.2 ||| w.2))
      let o := ws.foldl (fun o v => (o.flag (l.jetOf v.1) v.2.2).count v.2.2 false) o
      { o with writes := o.writes ++ writesAt oa (packRow l.odst (ws.map (fun v => v.2.1))) }

/-- The epilogue over all columns. -/
def Layer.epilogue (l : Layer) (rd : Nat → Byte) (outs : List (Nat × Nat × Nat × Nat × Nat × Nat)) : EpiOut :=
  (List.range l.cols).foldl (fun o c =>
    let es := ((outs.filter (fun e => e.2.1 == c && decide (e.1 < l.rows))).map (fun e => (e.1, e.2.2))).mergeSort
      (fun a b => decide (a.1 ≤ b.1))
    l.epiColumn rd o c es) {}

/-! ### The whole layer -/

/-- The lanes of a jet. -/
def lanes : List (Nat × Nat) := (List.range 8).flatMap (fun i => (List.range 8).map (fun j => (i, j)))

/-- The output slots that a jet's passes write. -/
def slotsOf (es : List JetEv) : List Nat :=
  (es.filterMap (fun e => match e with | .clk s _ _ _ _ _ => some s | .batch _ => none)).dedup

/-- What the passes of the layer numbered `t` raised: flags by jet, tiles, overflow and SAT events, skipped products. -/
def laneSums (rs : List (Nat × Lane)) (t : Nat) : Tab W32 × List Nat × Nat × Nat × Nat :=
  let g (r : Nat × Lane) : LaneLog := r.2.logs.getD t {}
  let sum (f : LaneLog → Nat) : Nat := rs.foldl (fun n r => n + f (g r)) 0
  (rs.foldl (fun f r => Tab.put f r.1 (Tab.at f 0 r.1 ||| (g r).flags)) [], (rs.flatMap (fun r => (g r).sat)).dedup,
   sum LaneLog.ov, sum LaneLog.ovSat, sum LaneLog.skipped)

/-- The largest count of R139. -/
def countTop : Nat := 0xFFFF

/-- An operation in flight with what its own passes raise once another layer has merged with it (R113, R141). -/
def Op.remerged (o : Op) (s : Tab W32 × List Nat × Nat × Nat × Nat) (inv : W32) : Op :=
  { o with jetFlags := Tab.mapv s.1 (fun _ f => f ||| inv), tileSet := s.2.1, ovCount := min countTop s.2.2.1, satCount := min countTop s.2.2.2.1,
           skipped := s.2.2.2.2 }

/-- Accumulator words that a layer's first pass adds to, as ranges (R101, R205). -/
def Layer.accReads (l : Layer) : List (Nat × Nat) :=
  if !l.acci then []
  else (List.range l.jcount).flatMap (fun q => (slotsOf (l.events 0 q)).map (fun s => (l.accAddr (l.jfirst + q) s 0 0, if l.a16 then 128 else 256)))

/-- Compute a layer on a basin at its grant: the operation with its buffered results, the operations it merges with with theirs, and
the basin with its generators advanced. `others` are the layers in flight with which it merges, `k` numbers the open choices. A
block's elements of rows beyond ROWS and columns beyond COLS take their zero sums: R100 does not write them to the output, and of the
tile it says nothing (DESIGN CHOICE, notes/assumptions/94.md). -/
def Layer.compute (l : Layer) (x : Basin) (o : Op) (others : List (Op × Layer)) (k : Nat) : Op × List Op × Basin :=
  let rd := Mem.read x.store
  let ls := l :: others.map Prod.snd
  let jets := (List.range l.jcount).map (fun q => (l.jfirst + q, mergedEvents ls (k + q) q))
  let rs := jets.flatMap (fun je => lanes.map (fun ij =>
    (je.1, ij, je.2.foldl (Lane.event ls rd je.1 ij.1 ij.2) (l.lane x ls.length je.1 ij.1 ij.2))))
  let used : Tab (List Nat) := jets.map (fun je => (je.1, slotsOf je.2))
  let gens := rs.foldl (fun (t : Tab Gen) r =>
    let n := r.1
    let t := if l.em = 2 ∨ (l.epi ∧ l.rm = 2) then Tab.put t (64 * n + 8 * r.2.1.1 + r.2.1.2) r.2.2.g else t
    if l.prec = 12 then
      let t := if r.2.1.2 = 0 then Tab.put t (4096 + 16 * n + r.2.1.1) r.2.2.gr else t
      if r.2.1.1 = 0 then Tab.put t (4096 + 16 * n + 8 + r.2.1.2) r.2.2.gc else t
    else t) x.gens
  let acc := rs.flatMap (fun r => (r.2.2.acc.filter (fun e => decide (e.1 ∈ Tab.at used [] r.1))).flatMap (fun e =>
    writesAt (l.accAddr r.1 e.1 r.2.1.1 r.2.1.2) (leBytes (if l.a16 then 2 else 4) e.2)))
  let ep : EpiOut := if l.epi then l.epilogue rd (rs.flatMap (fun r => r.2.2.outs)) else {}
  let inv (m : Layer) : W32 := (if m.em = 1 ∨ m.em = 3 then flINV else 0) ||| (if m.epi then rmFlag m.rm else 0)
  let sums (t : Nat) : Tab W32 × List Nat × Nat × Nat × Nat := laneSums (rs.map (fun r => (r.1, r.2.2))) t
  let s := sums 0
  ({ o with tiles := l.tiles, readSegs := (l.reads.flatMap (fun r => segsOf r.1 r.2)).dedup,
            writeSegs := (l.writesTo.flatMap (fun r => segsOf r.1 r.2)).dedup, writes := acc ++ ep.writes,
            jetFlags := Tab.mapv s.1 (fun j f => f ||| Tab.at ep.flags 0 j ||| inv l),
            tileSet := s.2.1, tileClear := (rs.flatMap (fun r => r.2.2.cleared)).dedup,
            ovCount := min countTop (s.2.2.1 + ep.ov), satCount := min countTop (s.2.2.2.1 + ep.sat),
            vanCount := min countTop ep.van, skipped := s.2.2.2.2,
            tables := if l.facet then 8 * l.k * l.cgs * cdiv l.red l.k else 0, merged := others != [] },
   others.zipIdx.map (fun p => p.1.1.remerged (sums (p.2 + 1)) (inv p.1.2)),
   { x with gens := gens })

end Sys2Proof.Machine
end

