-- ==== Sys2Proof/Machine/Prism.lean ====
section
/-! DEFINITION. The prism: conversion stages, scale tensors, integer and codebook expansion, derivation on store, and the refusals
(R37 to R63, R144 to R168, R463). -/

namespace Sys2Proof.Machine

open Sys2Proof

/-- Integer formats of R46. -/
def isInt (f : Nat) : Bool := f == fI8 || f == fI4 || f == fU8 || f == fU16

/-- Width of an integer element. -/
def intBits (f : Nat) : Nat := if f = fI4 then 4 else if f = fU16 then 16 else 8

/-- An integer code's value under SGN_INT; U8 and U16 are unsigned (R46). -/
def intVal (f q : Nat) (sgn : Bool) : Int := if sgn && (f == fI8 || f == fI4) then signedOf (intBits f) q else (q % 2 ^ intBits f : Nat)

/-- An integer as a value. -/
def numOfInt (i : Int) : Num := if i = 0 then .zero false else .fin (decide (i < 0)) (.rat i.natAbs 1 0)

/-- (q − z) × c, with a tensor scale of 2^(k/128): one rounding, one range check (R46, R165). -/
def expandInt (c : Cvt) (q z sc : Nat) (d : Dir) (k : Int) : Flagged :=
  let v := intVal c.src q c.sgn - intVal c.src z c.sgn
  if v = 0 then (0, 0)
  else match opdL16 sc with
    | .nan => (0x8000, 0)
    | .inf s => (l16.code (decide (v < 0) != s) 32767, 0)
    | .zero => (0, 0)
    | .fin s e =>
      let q := l16.round c.keep d ((numOfInt v).flip s)
      let r := ((opdL16 q.1).move (e + k)).toL16 c.keep d
      (r.1, q.2 ||| r.2)

/-- A binary pattern of the prism's source: flushed, or a signalling NaN with INV (R62). -/
def prismRead (f : Fmt) (ieee keep : Bool) (p : Nat) : Num × W32 :=
  if f.isSub p && !keep then (.zero false, flFLUSH ||| flUNF) else (f.read p, if ieee && f.isSnan p then flINV else 0)

/-- The stage rounds every element: its path has a rounding in the table of R62. -/
def Cvt.rounds (c : Cvt) : Bool := !(c.dst == fL16 && (c.src == fL16 || isBlock c.src || c.src == fF4 || (isInt c.src && !c.mode)))

/-- An element that reaches L16 without a rounding: code q, its block scale s, table or codebook entry `t` (R45, R46, R49). -/
def exactOpd (c : Cvt) (q s t : Nat) : Opd × W32 :=
  if c.src = fL16 then (opdL16 q, 0) else if isBlock c.src then opdScaled c.src q s else (opdL16 t, 0)

/-- The stage takes a draw for every element, whatever the data (R275): its path rounds, or, under keep, its result may fall below
m, where the stochastic row of R59 needs one (DEDUCED, notes/assumptions/20.md). -/
def Cvt.draws (c : Cvt) : Bool := c.rm == 2 && c.src != fRaw && (c.rounds || (c.keep && (isBlock c.src || c.tscl)))

/-- One element of a stage that loads into L16: code q, its block scale s, table or codebook entry `t`, zero point and scale, and
the tensor factor 2^(k/128) (R45, R46, R49, R62). One draw serves the rounding and the below-m row (notes/assumptions/93.md). -/
def loadElem (c : Cvt) (q s t z sc : Nat) (k : Int) (d : Dir) : Flagged :=
  if !c.rounds then let o := exactOpd c q s t; let r := (o.1.move k).toL16 c.keep d; (r.1, o.2 ||| r.2)
  else if isInt c.src then expandInt c q z sc d k
  else
    let f := if c.src = fA32 ∨ c.src = fB32 then f32 else if c.src = fA16 then f16 else f64
    let ieee := c.src == fB32 || c.src == fB64
    let v := prismRead f ieee c.keep q
    let r := l16.roundBy c.keep d (v.1.shift (if ieee then 0 else c.aoff)) k
    (r.1, v.2 ||| r.2)

/-- An L16 code into a linear format (R62). -/
def storeLinear (c : Cvt) (d : Dir) (code : Nat) : Flagged :=
  let v := l16.read code
  if c.dst = fA32 then f32.acc c.keep d (v.shift (-c.aoff)) else if c.dst = fA16 then f16.acc c.keep d (v.shift (-c.aoff))
  else if c.dst = fB32 then f32.prism c.keep d v else f64.prism c.keep d v

/-- A direct conversion between linear formats (R62). Its rows are silent on a signalling NaN: it gives NaN without a flag (DEDUCED,
notes/assumptions/93.md). -/
def directElem (c : Cvt) (d : Dir) (q : Nat) : Flagged :=
  if c.src = fB32 then let v := prismRead f32 false c.keep q; let r := f32.acc c.keep d (v.1.shift (-c.aoff)); (r.1, v.2 ||| r.2)
  else if c.dst = fB32 then let v := prismRead f32 false c.keep q; let r := f32.prism c.keep d (v.1.shift c.aoff); (r.1, v.2 ||| r.2)
  else if c.src = fA32 then let v := prismRead f32 false c.keep q; let r := f16.acc c.keep d v.1; (r.1, v.2 ||| r.2)
  else let v := prismRead f16 false c.keep q; let r := f32.acc c.keep d v.1; (r.1, v.2 ||| r.2)

/-! ### Refusals (R55, R145) -/

/-- The effective second stage. -/
def Ppb.b (p : Ppb) : Cvt := cvtOf p.cvtw2

/-- Whether a conversion needs a parameter block (R147). A direct conversion ignores TSCL (R144). -/
def needsPpb (c : Cvt) : Bool :=
  c.src != fRaw && (isBlock c.src || isBlock c.dst || (c.tscl && (c.src == fL16 || c.dst == fL16)) || isInt c.src || c.src == fF4)

/-- The last stage of a transfer. -/
def lastStage (c : Cvt) (p : Ppb) : Cvt := if p.stg2 then p.b else c

/-- SPASS conditions (R166). -/
def spassOk (c : Cvt) (p : Ppb) : Bool := p.stg2 && isBlock c.src && isBlock p.b.dst && c.blk == p.b.blk && !c.tscl && !p.b.tscl

/-- The refusal that the words themselves give, under the codes of R168; 0 for none. -/
def refuseWords (c : Cvt) (p : Ppb) (nelem : Nat) : Nat :=
  let b := p.b
  let fmts := [c.src, c.dst] ++ (if p.stg2 then [b.src, b.dst] else [])
  if !pathOk c.src c.dst then 1
  else if p.stg2 && (c.dst != fL16 || b.src != fL16) then 2
  else if p.stg2 && !pathOk b.src b.dst then 1
  else if p.stg2 && c.tscl && b.tscl then 3
  else if p.spass && !spassOk c p then 4
  else if p.amxen && !fmts.any (· == fL16) then 5
  else if p.blift = 7 then 6
  else if p.igran && !c.mode then 7
  else if c.src = fU16 ∧ !c.mode then 0xA
  else if fmts.any isBlock && (p.rowlen == 0 || decide (p.rowlen < nelem)) then 0xB
  else 0

/-! ### Rows -/

/-- Codes of a scale-tensor row (R148). -/
def Ppb.nb (p : Ppb) (blk : Bool) : Nat := cdiv p.rowlen (if blk then 32 else 16)

def Cvt.bs (c : Cvt) : Nat := if c.blk then 32 else 16

/-- A draw of element lane j mod 128, where the stage rounds the element (R275). -/
def Basin.laneDraw (x : Basin) (j : Nat) (on : Bool) : Nat × Basin :=
  if on then let r := (x.gen (5120 + j % 128)).next; (r.1, { x with gens := Tab.put x.gens (5120 + j % 128) r.2 }) else (0, x)

/-- What the prism has produced so far. -/
structure PrismOut where
  (rows : List (List Byte) := [])
  (scales : List (List Byte) := [])
  (flags : W32 := 0)
  (amax novf nvan blocks zblocks : Nat := 0)
  /-- A32 and A16 elements that saturated: row, and byte offset in it (R52) -/
  (sats : List (Nat × Nat) := [])
  deriving DecidableEq, Repr

/-- The magnitude a code counts for in an amax (R155). -/
def amaxOf (c : Nat) : Nat := if c = 0x8000 then 0 else min 0x7FFE (c % 2 ^ 15)

/-- What a transfer's conversion needs to know beside the row itself. -/
structure PrismCtx where
  (c : Cvt)
  (p : Ppb)
  (nelem : Nat)
  /-- the destination is the issuing basin's own space -/
  (toOwn : Bool)
  (ts : Nat)
  /-- source scale tensor, and integer table, zero points or codebooks -/
  (sc ia : List Byte)
  deriving DecidableEq, Repr

/-- The factor of a stage's tensor scale in L16 ulps: multiplied on load, divided on store (R144). -/
def PrismCtx.factor (x : PrismCtx) (c : Cvt) : Int :=
  if !c.tscl then 0
  else
    let loads := if c.dst = fL16 ∧ c.src ≠ fL16 then true else if c.src = fL16 ∧ c.dst ≠ fL16 then false else x.toOwn
    if loads then (x.ts : Int) - 16256 else 16256 - x.ts

def PrismCtx.loads (x : PrismCtx) (c : Cvt) : Bool := if c.dst = fL16 ∧ c.src ≠ fL16 then true else if c.src = fL16 ∧ c.dst ≠ fL16 then false else x.toOwn

/-- The stage's tensor scale is not valid (R48). -/
def PrismCtx.badTs (x : PrismCtx) (c : Cvt) : Bool := c.tscl && !tsOk x.ts

/-- The table entry or codebook entry of element j with code q (R45, R46, R463). -/
def PrismCtx.entry (x : PrismCtx) (c : Cvt) (j q : Nat) : Nat :=
  leNat ((x.ia.drop (2 * (if c.src = fF4 then 16 * (j / 64) + q else q))).take 2)

/-- The scale code of element j of row r. -/
def PrismCtx.scaleOf (x : PrismCtx) (c : Cvt) (r j : Nat) : Nat := (x.sc.getD (r * x.p.nb c.blk + j / c.bs) 0).toNat

/-- Element j of a row into L16 by a stage, with the draw d. -/
def PrismCtx.loadAt (x : PrismCtx) (c : Cvt) (r : Nat) (row : List Byte) (j d : Nat) : Flagged :=
  let q := readElem (fun i => row.getD i 0) c.src 0 j
  let half (i : Nat) : Nat := leNat ((x.ia.drop (2 * i)).take 2)
  let z := if x.p.igran then half (2 * r) else x.p.iz
  let k := if x.p.igran then half (2 * r + 1) else x.p.ic
  if x.badTs c then (0x8000, flINV) else loadElem c q (x.scaleOf c r j) (x.entry c j q) z k (x.factor c) (rmDir c.rm d)

/-- The draws of a row's elements from j on, stage A then stage B, in the order of the transfer (R275). -/
def PrismCtx.rowDraws (x : PrismCtx) (b : Basin) (r j n : Nat) : List (Nat × Nat) × Basin :=
  match n with
  | 0 => ([], b)
  | m + 1 =>
    let u := b.laneDraw (r * x.nelem + j) x.c.draws
    let v := u.2.laneDraw (r * x.nelem + j) (x.p.stg2 && x.p.b.draws)
    let t := x.rowDraws v.2 r (j + 1) m
    ((u.1, v.1) :: t.1, t.2)

/-- A row into L16 by a stage: codes and flags. -/
def PrismCtx.load (x : PrismCtx) (c : Cvt) (r : Nat) (row : List Byte) (ds : List Nat) : List Flagged :=
  (List.range x.nelem).map (fun j => x.loadAt c r row j (ds.getD j 0))

/-- How many of a list of results raised OVF (R154). -/
def ovfIn (vs : List Flagged) : Nat := (vs.filter (fun v => v.2 &&& flOVF != 0)).length

/-- How many elements raised OVF in the first of two moves of one stage and not in the second, which counts its own: an element's
stage is one OVF event (R154). -/
def ovfBefore (vs : List Flagged) (ws : List W32) : Nat := ((vs.zip ws).filter (fun p => p.1.2 &&& flOVF != 0 && p.2 &&& flOVF == 0)).length

/-- The OR of the flags of a list of results. -/
def orFlags (f : W32) (vs : List Flagged) : W32 := vs.foldl (fun a v => a ||| v.2) f

/-- The codes of a list of results. -/
def codesOf (vs : List Flagged) : List Nat := vs.map (fun v => v.1)

/-- L16 codes with the stage's tensor scale applied (R144). -/
def PrismCtx.scaled (x : PrismCtx) (c : Cvt) (codes : List Nat) (dirs : List Dir) : List Flagged :=
  (codes.zip dirs).map (fun p =>
    if x.badTs c then (0x8000, flINV) else if x.factor c = 0 then (p.1, 0) else ((opdL16 p.1).move (x.factor c)).toL16 c.keep p.2)

/-- The scale a block is stored under when it is not derived: passed through, or pinned (R152, R166). -/
def PrismCtx.pin (x : PrismCtx) (r k : Nat) : Option Nat :=
  if x.p.spass then some (x.sc.getD (r * x.p.nb x.c.blk + k) 0).toNat else if x.p.opin then some x.p.pins else none

/-- A row of blocks stored (R150 to R153). -/
def PrismCtx.blocks (x : PrismCtx) (c : Cvt) (r : Nat) (cs : List Nat) (dirs : List Dir) : List (Nat × List (Nat × W32 × Bool) × W32) :=
  (List.range (cdiv cs.length c.bs)).map (fun k =>
    encodeBlock c.dst x.p.blift (x.pin r k) x.p.spass ((cs.drop (k * c.bs)).take c.bs) ((dirs.drop (k * c.bs)).take c.bs))

/-- A stored row of blocks: packed row, scale codes and counts. -/
def PrismOut.addBlocks (o : PrismOut) (f : Nat) (spass : Bool) (bs : List (Nat × List (Nat × W32 × Bool) × W32)) : PrismOut :=
  let els : List (Nat × W32 × Bool) := bs.flatMap (fun b => b.2.1)
  let fl : W32 := bs.foldl (fun a b => a ||| b.2.2) o.flags
  { o with rows := o.rows ++ [packRow f (els.map (fun e => e.1))], scales := o.scales ++ [bs.map (fun b => BitVec.ofNat 8 b.1)],
           flags := els.foldl (fun a e => a ||| e.2.1) fl,
           novf := o.novf + (els.filter (fun e => e.2.1 &&& flOVF != 0)).length, nvan := o.nvan + (els.filter (fun e => e.2.2)).length,
           blocks := if spass then o.blocks else o.blocks + bs.length, zblocks := o.zblocks + (bs.filter (fun b => b.1 == 0)).length }

/-- Byte offsets of the elements of an accumulator-format row that saturated (R52). -/
def satOffsets (f : Nat) (ws : List Flagged) : List Nat :=
  if f = fA32 ∨ f = fA16 then
    ((List.range ws.length).filter (fun k => (ws.getD k (0, 0)).2 &&& flSAT != 0)).map (fun k => k * (if f = fA32 then 4 else 2))
  else []

/-- A row of results packed in a format. -/
def PrismOut.addRow (o : PrismOut) (f : Nat) (ws : List Flagged) : PrismOut :=
  { o with rows := o.rows ++ [packRow f (codesOf ws)], flags := orFlags o.flags ws, novf := o.novf + ovfIn ws,
           sats := o.sats ++ (satOffsets f ws).map (fun k => (o.rows.length, k)) }

/-- L16 codes out of a stage: packed row, scale codes and counts (R61, R150 to R153, R166). R275 gives a stage one draw per element:
under RM 0b10 it decides both the below-m row of R59, where the tensor scale takes the element there, and the rounding (DEDUCED,
notes/assumptions/93.md). -/
def PrismCtx.store (x : PrismCtx) (c : Cvt) (r : Nat) (codes : List Nat) (ds : List Nat) (o : PrismOut) : PrismOut :=
  let dirs := (List.range codes.length).map (fun j => rmDir c.rm (ds.getD j 0))
  let moved := x.scaled c codes dirs
  if c.dst = fL16 then o.addRow fL16 moved
  else
    let o := { o with flags := orFlags o.flags moved }
    if isBlock c.dst then
      let bs : List (Nat × List (Nat × W32 × Bool) × W32) := x.blocks c r (codesOf moved) dirs
      let o := { o with novf := o.novf + ovfBefore moved (bs.flatMap (fun (b : Nat × List (Nat × W32 × Bool) × W32) => b.2.1.map (fun (e : Nat × W32 × Bool) => e.2.1))) }
      o.addBlocks c.dst x.p.spass bs
    else
      let ws : List Flagged := ((codesOf moved).zip dirs).map (fun p => storeLinear c p.2 p.1)
      { o with novf := o.novf + ovfBefore moved (ws.map (fun (w : Flagged) => w.2)) }.addRow c.dst ws

/-- The largest magnitude of a row of codes. -/
def maxOf (o : PrismOut) (cs : List Nat) : PrismOut := { o with amax := cs.foldl (fun m c => max m (amaxOf c)) o.amax }

/-- One source row through both stages; the amax is taken on the unscaled side, else at the join or on the L16 side (R155). -/
def PrismCtx.row (x : PrismCtx) (r : Nat) (row : List Byte) (ds : List (Nat × Nat)) (o : PrismOut) : PrismOut :=
  let c := x.c
  let da := ds.map (fun p => p.1)
  let db := ds.map (fun p => p.2)
  if c.src = fRaw then { o with rows := o.rows ++ [row] }
  else if c.src ≠ fL16 ∧ c.dst ≠ fL16 then
    let rd (i : Nat) : Byte := row.getD i 0
    let ws : List Flagged := (List.range x.nelem).map (fun j => directElem c (rmDir c.rm (da.getD j 0)) (readElem rd c.src 0 j))
    o.addRow c.dst ws
  else
    let rd (i : Nat) : Byte := row.getD i 0
    let raw := (List.range x.nelem).map (fun j => readElem rd c.src 0 j)
    if c.dst ≠ fL16 then x.store c r raw da (if c.tscl || c.src = fL16 then maxOf o raw else o)
    else
      let vs := x.load c r row da
      let o := { o with flags := orFlags o.flags vs, novf := o.novf + ovfIn vs }
      let cs := codesOf vs
      let aStores := c.tscl && !x.loads c
      if !x.p.stg2 then
        let o := if aStores then maxOf o raw else maxOf o cs
        { o with rows := o.rows ++ [packRow fL16 cs] }
      else
        let b := x.p.b
        let bLoads := b.tscl && b.dst == fL16 && x.loads b
        let o := if aStores then maxOf o raw else if bLoads then o else maxOf o cs
        let n := x.store b r cs db o
        if bLoads then
          let last := n.rows.getLastD []
          maxOf n ((List.range x.nelem).map (fun j => readElem (fun i => last.getD i 0) fL16 0 j))
        else n

/-- Rows in order, each with its draws (R149, R275). -/
def PrismCtx.run (x : PrismCtx) (b : Basin) (r : Nat) (rows : List (List Byte)) (o : PrismOut) : PrismOut × Basin :=
  match rows with
  | [] => (o, b)
  | row :: rest =>
    let d := x.rowDraws b r 0 x.nelem
    x.run d.2 (r + 1) rest (x.row r row d.1 o)

/-- INV for a reserved rounding mode in either stage (R56). -/
def PrismCtx.modeFlags (x : PrismCtx) : W32 := (if x.c.src = fRaw then 0 else rmFlag x.c.rm) ||| (if x.p.stg2 then rmFlag x.p.b.rm else 0)

end Sys2Proof.Machine
end

