-- ==== Sys2Proof/Machine/Sluice.lean ====
section
/-! DEFINITION. The sluice: checks at issue, the start of a transfer with the prism's refusals and the ring GET, and retirement
(R95, R144 to R149, R154 to R160, R168, R209 to R213). -/

namespace Sys2Proof.Machine

open Sys2Proof

/-- One side of a transfer, as the sluice resolves its address (R202, R210): CIS_SLUSTAT.ERR and the run fault code where it is
refused (R213). -/
inductive Side where
  | own (off : Nat)
  | rsv (a : Nat)
  | other (b off : Nat)
  | err (slu code : Nat)
  deriving DecidableEq, Repr

/-- Resolve a device address for the sluice of basin b. A region that R210 does not list is a descriptor error; under LOGB = 0 another
physical basin is an address error whatever its region (R202). -/
def Dev.side (d : Dev) (b : Nat) (dst : Bool) (a : Nat) : Side :=
  match placeOf a with
  | .rsv a => .rsv a
  | .bad => .err 7 4
  | .mgmt l n _ _ => if !l && decide (n < 272) && decide (n ≠ b) then .err 7 4 else if l && d.absent n then .err 8 4 else .err 9 3
  | .locPhys p o => if p = b then .own o else .err 7 4
  | .locLog l o =>
    if l = (d.basin b).logical then .own o
    else match d.physOf l with
      | none => .err 8 4
      | some p => if dst then .err 5 3 else if 0x400000 ≤ o then .err 9 3 else .other p o

/-- The rows of a side as (offset, bytes); a pitch is used only with several rows. -/
def rowsAt (base pitch row n : Nat) : List (Nat × Nat) :=
  if n ≤ 1 then [(base, row)] else (List.range n).map (fun r => (base + r * pitch, row))

/-- The parameter block read at issue, if there was one to read. -/
def Op.ppb (o : Op) : Option Ppb := if o.bytes.length = 128 then some (ppbOf (o.bytes.drop 64)) else none

/-- A block with every field 0, for a transfer that names none. -/
def Ppb.blank : Ppb := ppbOf []

/-- Packed source and destination rows (R53, R209). -/
def Sluice.srow (s : Sluice) : Nat := let c := cvtOf s.cvtw; if c.src = fRaw then s.nelem else rowBytes c.src s.nelem
def Sluice.drow (s : Sluice) (p : Ppb) : Nat :=
  let c := cvtOf s.cvtw
  let f := (lastStage c p).dst
  if c.src = fRaw then s.nelem else rowBytes f s.nelem

/-- The error and fault code of a run's access to its own basin's rows (R206, R213). -/
def Basin.rowsCode (x : Basin) (r : Run) (rows : List (Nat × Nat)) : Nat × Nat :=
  match rows.find? (fun p => x.rangeCode r p.1 p.2 != 0) with
  | none => (0, 0)
  | some p => if 0x440000 < p.1 + p.2 then (7, 4) else if x.rangeCode r p.1 p.2 = 5 then (0xA, 5) else (2, 4)

/-- The check of one side's rows: alignment (R210), then segments and tiles. -/
def Basin.sideCode (x : Basin) (r : Run) (v : Side) (pitch row n : Nat) : Nat × Nat :=
  match v with
  | .err e c => (e, c)
  | .own o => if o % 64 ≠ 0 ∨ (1 < n ∧ pitch % 64 ≠ 0) then (4, 6) else x.rowsCode r (rowsAt o pitch row n)
  | .rsv a => if a % 64 ≠ 0 ∨ (1 < n ∧ pitch % 64 ≠ 0) then (4, 6) else (0, 0)
  | .other _ o =>
    if o % 64 ≠ 0 ∨ (1 < n ∧ pitch % 64 ≠ 0) then (4, 6)
    else if (rowsAt o pitch row n).all (fun p => decide (p.1 + p.2 ≤ 0x400000)) then (0, 0)
    else if (rowsAt o pitch row n).all (fun p => decide (p.1 + p.2 ≤ 0x440000)) then (9, 3) else (7, 4)

/-- The checks at issue (R210, R213): CIS_SLUSTAT.ERR and the fault code, both 0 where the transfer may issue. -/
def Dev.sluiceCheck (d : Dev) (b : Nat) (r : Run) (s : Sluice) (p : Ppb) : Nat × Nat :=
  let x := d.basin b
  let c := cvtOf s.cvtw
  let src := d.side b false s.src
  let dst := d.side b true s.dst
  if s.nelem = 0 ∨ s.nrows = 0 then (9, 3)
  else if s.zero && !(c.src == fRaw && c.dst == fRaw) then (9, 3)
  else
    let places : Nat × Nat := match s.zero, src, dst with
      | _, _, .err e c => (e, c)
      | true, _, .other _ _ => (5, 3)
      | true, _, _ => (0, 0)
      | false, .err e c, _ => (e, c)
      | false, .own _, _ => (0, 0)
      | false, _, .own _ => (0, 0)
      | false, _, _ => (9, 3)
    if places ≠ (0, 0) then places
    else if 1 < s.nrows ∧ ((!s.zero ∧ s.spitch < s.srow) ∨ s.dpitch < s.drow p) then (9, 3)
    else if !s.zero && needsPpb c && !s.ppbv then (9, 3)
    else
      let f := x.sideCode r dst s.dpitch (s.drow p) s.nrows
      if s.zero then f
      else
        let e := x.sideCode r src s.spitch s.srow s.nrows
        if e ≠ (0, 0) then e else f

/-- The side of a device address in the parameter block. -/
def Dev.ppbSide (d : Dev) (b : Nat) (dst : Bool) (a : Nat) : Side := d.side b dst a

/-- Blocks of a scale-tensor row that the transfer touches (R149). -/
def Cvt.touched (c : Cvt) (nelem : Nat) : Nat := cdiv nelem c.bs

/-- Rows of the source and destination scale tensors, where the transfer uses them (R148). -/
def scaleRows (p : Ppb) (c : Cvt) (s : Sluice) (base : Nat) : List (Nat × Nat) :=
  (List.range s.nrows).map (fun r => (base + r * p.nb c.blk, c.touched s.nelem))

/-- Bytes of the integer table, the per-row pairs, or the codebooks (R164, R165, R463). -/
def iaBytes (c : Cvt) (p : Ppb) (s : Sluice) : Nat :=
  if c.src = fF4 then 32 * cdiv s.nelem 64
  else if isInt c.src then (if !c.mode then (if c.src = fI4 then 32 else 512) else if p.igran then 4 * s.nrows else 0)
  else 0

/-- Segments and tiles that a transfer claims in its own basin: for reading, for writing, and tiles (R112, R114). -/
def Dev.sluiceClaims (d : Dev) (b : Nat) (s : Sluice) (p : Ppb) : List Nat × List Nat × List Nat :=
  let c := cvtOf s.cvtw
  let own (v : Side) (rows : Nat → List (Nat × Nat)) : List (Nat × Nat) := match v with | .own o => rows o | _ => []
  let rd := if s.zero then [] else
    own (d.side b false s.src) (fun o => rowsAt o s.spitch s.srow s.nrows)
      ++ (if isBlock c.src then own (d.ppbSide b false p.ssrc) (scaleRows p c s) else [])
      ++ (if iaBytes c p s ≠ 0 then own (d.ppbSide b false p.iaddr) (fun o => [(o, iaBytes c p s)]) else [])
  let wr := own (d.side b true s.dst) (fun o => rowsAt o s.dpitch (s.drow p) s.nrows)
    ++ (if !s.zero && isBlock (lastStage c p).dst then own (d.ppbSide b true p.sdst) (scaleRows p (lastStage c p) s) else [])
  ((rd.flatMap (fun q => segsOf q.1 q.2)).dedup, (wr.flatMap (fun q => segsOf q.1 q.2)).dedup,
   ((rd ++ wr).flatMap (fun q => tilesOf q.1 q.2)).dedup)

/-- The prism's registers after a transfer that ended without a result, `e` its cause: stage B did not end, and no scale and no amax are
its own (R168). -/
def EngineRegs.przFailed (r : EngineRegs) (e : Nat) : EngineRegs :=
  { r with przBusy := false, przRingop := false, przErr := e, przStg2 := false, przSpass := false, przTs := 0, przAmx := 0 }

/-- CIS_SLUSTAT.ERR of a failed transfer. No register and no event of the spec has a field for the descriptor's TAG (R209). -/
def Basin.sluErr (x : Basin) (slu : Nat) : Basin := { x with cis := { x.cis with sluErr := slu } }

/-- A transfer ends with an error status, and the run faults at the instruction that issued it (R213); `e` is the prism's cause. -/
def Dev.sluiceEnd (d : Dev) (b : Nat) (o : Op) (slu code e : Nat) : Dev :=
  let x := (d.basin b).sluErr slu
  (d.putBasin b { x with eng := x.eng.przFailed e }).stopRun b code o.pc

/-- A failed transfer: CIS_SLUSTAT.ERR, and the run faults at the instruction that issued it (R213). -/
def Dev.sluiceFail (d : Dev) (b : Nat) (o : Op) (slu code : Nat) : Dev := d.sluiceEnd b o slu code 0

/-- The prism refuses the transfer: INV, PRZ_STATUS.ERR, and the error status (R145, R168). -/
def Dev.prismRefuse (d : Dev) (b : Nat) (o : Op) (e : Nat) : Dev :=
  let x := d.basin b
  (d.putBasin b { x with flags := { x.flags with prz := x.flags.prz ||| flINV } }).sluiceEnd b o 1 3 e

/-- An uncorrectable word of the issuing basin ends a transfer: ERR 0x06, and the run faults with 0x07 (R205, R213). -/
def Dev.sluiceEcc (d : Dev) (b w pc : Nat) : Dev :=
  let x := (d.basin b).sluErr 6
  (d.putBasin b { x with eng := x.eng.przFailed 0 }).eccRun b w pc

/-- What a read of a side gives. -/
inductive SideAns where
  | ok (rows : List (List Byte))
  | fail (slu code : Nat)
  /-- an uncorrectable word of a cistern: basin and word -/
  | ecc (b w : Nat)
  /-- a write claim on the other basin's segment is in the way (R212) -/
  | wait
  deriving DecidableEq, Repr

/-- Reservoir rows, one after another. -/
def Dev.readRsvRows (d : Dev) (dom : Nat) (rows : List (Nat × Nat)) (got : List (List Byte)) : Dev × SideAns :=
  match rows with
  | [] => (d, .ok got)
  | p :: t =>
    let r := d.rsvRead dom p.1 p.2
    match r.2 with
    | .ok bs => r.1.readRsvRows dom t (got ++ [bs])
    | .denied _ => (r.1, .fail 3 4)
    | .poisoned => (r.1, .fail 6 7)
    | .bad => (r.1, .fail 7 4)

/-- Read rows of a side for a run on basin b. -/
def Dev.readSide (d : Dev) (b : Nat) (run : Run) (v : Nat → List (Nat × Nat)) (s : Side) : Dev × SideAns :=
  match s with
  | .err e c => (d, .fail e c)
  | .rsv a => d.readRsvRows run.domain (v a) []
  | .own o =>
    let x := d.basin b
    let rows := v o
    let e := x.rowsCode run rows
    if e ≠ (0, 0) then (d, .fail e.1 e.2)
    else match rows.findSome? (fun p => x.badIn p.1 p.2) with
      | some w => (d, .ecc b w)
      | none => (d.eccCorrect b ((rows.flatMap (fun p => x.softIn p.1 p.2)).dedup), .ok (rows.map (fun p => Mem.readBytes x.store p.1 p.2)))
  | .other c o =>
    let x := d.basin c
    let rows := v o
    if x.cis.weirFenced then (d.sink c false, .fail 7 4)
    else if !rows.all (fun p => decide (p.1 + p.2 ≤ 0x400000)) then (d, .fail 7 4)
    else if !rows.all (fun p => x.openTo run.domain p.1 p.2) then (d, .fail 2 4)
    else if rows.any (fun p => x.writeClaimed p.1 p.2) then (d, .wait)
    else match rows.findSome? (fun p => x.badIn p.1 p.2) with
      | some w => (d, .ecc c w)
      | none => (d.eccCorrect c ((rows.flatMap (fun p => x.softIn p.1 p.2)).dedup), .ok (rows.map (fun p => Mem.readBytes x.store p.1 p.2)))

/-- Several sides read in order; the first that does not succeed ends it. -/
def Dev.readSides (d : Dev) (b : Nat) (run : Run) (vs : List ((Nat → List (Nat × Nat)) × Side)) (got : List (List (List Byte))) :
    Dev × List (List (List Byte)) × SideAns :=
  match vs with
  | [] => (d, got, .ok [])
  | v :: t =>
    let r := d.readSide b run v.1 v.2
    match r.2 with
    | .ok rows => r.1.readSides b run t (got ++ [rows])
    | a => (r.1, got, a)

/-- An address of the block that the conversion uses is unaligned or outside the run's domain (PRZ_STATUS.ERR 0x09, R145). -/
def Dev.ppbBad (d : Dev) (b : Nat) (run : Run) (c : Cvt) (p : Ppb) (s : Sluice) : Bool :=
  let x := d.basin b
  let bad (dst : Bool) (a : Nat) (rows : Nat → List (Nat × Nat)) : Bool := match d.ppbSide b dst a with
    | .err _ _ => true
    | .own o => x.rowsCode run (rows o) != (0, 0)
    | .rsv q => !(rows q).all (fun z => rsvPopulated z.1 z.2 && d.rsv.owned run.domain z.1 z.2)
    | .other t o => !(rows o).all (fun z => decide (z.1 + z.2 ≤ 0x400000) && (d.basin t).openTo run.domain z.1 z.2)
  (isBlock c.src && bad false p.ssrc (scaleRows p c s)) || (isBlock (lastStage c p).dst && bad true p.sdst (scaleRows p (lastStage c p) s))
    || (iaBytes c p s != 0 && (p.iaddr % 64 != 0 || bad false p.iaddr (fun o => [(o, iaBytes c p s)])))

/-- The ring address of a block: a reservoir address aligned to 64 B. -/
def Ppb.ring (p : Ppb) : Option Nat := match placeOf p.amx with | .rsv a => (if a % 64 = 0 then some a else Option.none) | _ => Option.none

/-- A stage of the transfer applies a tensor scale (R144): a direct conversion ignores it. -/
def usesTs (c : Cvt) (p : Ppb) : Bool :=
  (c.tscl && (c.src == fL16 || c.dst == fL16)) || (p.stg2 && p.b.tscl)

/-- The refusal of a transfer, 0 for none (R145). -/
def Dev.refusal (d : Dev) (b : Nat) (run : Run) (c : Cvt) (po : Option Ppb) (named : Bool) (s : Sluice) : Nat :=
  let p := po.getD Ppb.blank
  if named && po.isNone then 9
  else
    let w := refuseWords c p s.nelem
    if w ≠ 0 then w
    else if c.src ≠ fRaw && d.ppbBad b run c p s then 9
    else if p.amxen || p.tsrc then
      match p.ring with
      | none => 9
      | some a => if d.ringOk run.domain a then 0 else 8
    else 0

/-- Writes of a side. -/
def Side.put (v : Side) (rows : Nat → List (Nat × List Byte)) : List (Nat × Byte) × List (Nat × Byte) :=
  match v with
  | .own o => ((rows o).flatMap (fun p => writesAt p.1 p.2), [])
  | .rsv a => ([], (rows a).flatMap (fun p => writesAt p.1 p.2))
  | _ => ([], [])

/-- Rows placed at a pitch. -/
def placed (pitch : Nat) (rows : List (List Byte)) (base : Nat) : List (Nat × List Byte) := rows.zipIdx.map (fun p => (base + p.2 * pitch, p.1))

/-- Tiles that writes cover in all 256 bytes (R95). -/
def fullTiles (ws : List (Nat × Byte)) : List Nat :=
  (tilesWritten ws).filter (fun t => decide ((ws.map (fun w => w.1)).dedup.countP (fun a => decide (0x400000 ≤ a) && (a - 0x400000) / 256 == t) = 256))

/-- Tiles of the issuing basin into which an element saturated (R52). -/
def Side.satTiles (v : Side) (pitch : Nat) (sats : List (Nat × Nat)) : List Nat :=
  match v with
  | .own o => (sats.flatMap (fun p => tilesOf (o + p.1 * pitch + p.2) 1)).dedup
  | _ => []

/-- The operation after its conversion: buffered writes, flags and counts. -/
def Op.loaded (o : Op) (s : Sluice) (p : Ppb) (c : Cvt) (dst sdst : Side) (x : PrismCtx) (out : PrismOut) : Op :=
  let a := dst.put (placed s.dpitch out.rows)
  let z := if isBlock (lastStage c p).dst then sdst.put (placed (p.nb (lastStage c p).blk) out.scales) else ([], [])
  let ws := a.1 ++ z.1
  { o with phase := .started, writes := ws, rsvWrites := a.2 ++ z.2, flags := out.flags ||| x.modeFlags, ovCount := out.novf, vanCount := out.nvan,
           blocks := out.blocks, zblocks := out.zblocks, amax := out.amax, tscale := if usesTs c p then x.ts else 0, tileSet := dst.satTiles s.dpitch out.sats, tileClear := fullTiles ws }

/-- The units beyond the issuing basin that a transfer reaches: the sides of its data, its scale tensors and tables, its ring. -/
def Dev.farUnits (d : Dev) (b : Nat) (s : Sluice) (p : Ppb) : List Nat :=
  let c := cvtOf s.cvtw
  let far (v : Side) : List Nat := match v with | .rsv a => [ctrlUnit a] | .other t _ => [t] | _ => []
  (if s.zero then [] else
    far (d.side b false s.src) ++ (if isBlock c.src then far (d.ppbSide b false p.ssrc) else [])
      ++ (if isBlock (lastStage c p).dst then far (d.ppbSide b true p.sdst) else [])
      ++ (if iaBytes c p s ≠ 0 then far (d.ppbSide b false p.iaddr) else [])
      ++ (if p.amxen || p.tsrc then (match p.ring with | some a => [ctrlUnit a] | none => []) else []))
    ++ far (d.side b true s.dst)

/-- The transfer has reservoir or weir traffic (R211). -/
def Sluice.metered (d : Dev) (b : Nat) (s : Sluice) (p : Ppb) : Bool := !(d.farUnits b s p).isEmpty

/-- A transfer's requests under the epoch its run began with: they go, or wait in quarantine at their receiver (R351, R353). -/
def Dev.gated (d : Dev) (b : Nat) (a : Active) (pc : Nat) (s : Sluice) (p : Ppb) (k : Dev → Dev) : Dev :=
  match d.farUnits b s p with
  | [] => k d
  | u :: _ =>
    if d.epochOk b a.epoch then k d
    else if d.flt.quar.any (fun q => q.src == b && q.len == 0 && !q.write) then d
    else d.holdOr { recv := u, src := b, epoch := a.epoch.toNat, domain := a.run.domain, addr := s.dst, handle := a.run.handle, pc := pc }

/-- The transfer's conversion once the scale is known. -/
def Dev.convert (d : Dev) (b : Nat) (a : Active) (o : Op) (s : Sluice) (ts : Nat) : Dev :=
  let c := cvtOf s.cvtw
  let p := (o.ppb).getD Ppb.blank
  let src := d.side b false s.src
  let dst := d.side b true s.dst
  let sdst := d.ppbSide b true p.sdst
  if s.zero then
    let rows := List.replicate s.nrows (List.replicate s.nelem (0 : Byte))
    let ctx : PrismCtx := { c := c, p := Ppb.blank, nelem := s.nelem, toOwn := true, ts := 0, sc := [], ia := [] }
    d.putBasin b ((d.basin b).setOp (o.loaded s Ppb.blank c dst dst ctx { rows := rows }))
  else
    let scs := if isBlock c.src then [(scaleRows p c s, d.ppbSide b false p.ssrc)] else []
    let ias := if iaBytes c p s ≠ 0 then [((fun q => [(q, iaBytes c p s)]), d.ppbSide b false p.iaddr)] else []
    let r := d.readSides b a.run ([((fun q => rowsAt q s.spitch s.srow s.nrows), src)] ++ scs ++ ias) []
    match r.2.2 with
    | .wait => d
    | .fail e k => r.1.sluiceFail b o e k
    | .ecc t w =>
      if t = b then r.1.sluiceEcc b w o.pc
      else
        let d2 := (r.1.eccHard t w false).sluiceFail b o 6 7
        if d2.secondUe t then d2.fence t 2 else d2
    | .ok _ =>
      let rows := r.2.1.getD 0 []
      let nb := p.nb c.blk
      let sc := if isBlock c.src then (r.2.1.getD 1 []).flatMap (fun l => l ++ List.replicate (nb - l.length) 0) else []
      let ia := if iaBytes c p s ≠ 0 then ((r.2.1.getLastD []).headD []) else []
      let ctx : PrismCtx := { c := c, p := p, nelem := s.nelem, toOwn := (match dst with | .own _ => true | _ => false), ts := ts, sc := sc, ia := ia }
      let y := r.1.basin b
      let out := ctx.run y 0 rows {}
      let z := out.2.setOp (o.loaded s p c dst sdst ctx out.1)
      r.1.putBasin b { z with eng := { z.eng with przBusy := decide (c.src ≠ fRaw), przRingop := p.amxen } }

/-- SLUICE_TRANSFER_START: the oldest queued transfer starts when no other is running. One with reservoir or weir traffic under a share
of 0 stays (R211). A transfer whose block has TSRC = 1 makes its GET first (R157). -/
def sluiceTransferStart (b : Nat) (d : Dev) : Dev :=
  let x := d.basin b
  match x.seq.active, x.oldest .sluice with
  | some a, some o =>
    if o.phase ≠ .granted then d
    else
      let s := sluiceOf o.bytes
      let c := cvtOf s.cvtw
      let p := if s.zero then Ppb.blank else (o.ppb).getD Ppb.blank
      if s.metered d b p && a.run.share == 0 then d
      else
        let e := if s.zero then 0 else d.refusal b a.run c o.ppb s.ppbv s
        if e = 8 then (match p.ring with | some ring => d.ringDenied a.run.domain ring | none => d).prismRefuse b o e
        else if e ≠ 0 then d.prismRefuse b o e
        else d.gated b a o.pc s p (fun d =>
          if p.tsrc then
            match p.ring with
            | none => d.prismRefuse b o 9
            | some ring =>
              let r := d.ring ring a.slotCt none
              r.1.convert b a o s r.2
          else d.convert b a o s p.tscale)
  | _, _ => d
def execSluiceTransferStart (b : Nat) (s : State) : Host.Outcome State Fault Refusal := onCore (sluiceTransferStart b) s

/-- Runs of consecutive addresses in a list of byte writes. -/
def spans (ws : List (Nat × Byte)) : List (Nat × List Byte) :=
  match ws with
  | [] => []
  | w :: r => match spans r with
    | [] => [(w.1, [w.2])]
    | p :: t => if p.1 = w.1 + 1 then (w.1, w.2 :: p.2) :: t else (w.1, [w.2]) :: p :: t

/-- The reservoir writes of a transfer, in order; the error and fault code of the first that is not acknowledged. -/
def Dev.writeSpans (d : Dev) (dom : Nat) (ps : List (Nat × List Byte)) : Dev × Nat × Nat :=
  match ps with
  | [] => (d, 0, 0)
  | p :: t =>
    let r := d.rsvWrite dom p.1 p.2
    match r.2 with
    | .ok _ => r.1.writeSpans dom t
    | .denied _ => (r.1, 3, 4)
    | .poisoned => (r.1, 6, 7)
    | .bad => (r.1, 7, 4)

/-- The prism's registers and the run's narrow counts after a transfer ends (R154, R168). -/
def Basin.transferEnded (x : Basin) (o : Op) (a : Active) (p : Ppb) (raw : Bool) : Basin :=
  let e := { x.eng with przBusy := false, przRingop := false, przStg2 := !raw && p.stg2, przSpass := !raw && p.spass && p.stg2, przErr := 0,
                        przTs := o.tscale, przAmx := if !raw && p.amxen then o.amax else 0, blkcnt := x.eng.blkcnt + BitVec.ofNat 64 o.blocks,
                        zblkcnt := x.eng.zblkcnt + BitVec.ofNat 64 o.zblocks, vancnt := x.eng.vancnt + BitVec.ofNat 64 o.vanCount }
  { x with eng := e, seq := { x.seq with active := some { a with novf := a.novf + o.ovCount, nvan := a.nvan + o.vanCount } } }

/-- The writes and the MERGE of a transfer that has moved its last element, and its end. -/
def Dev.transferDone (d : Dev) (b : Nat) (a : Active) (o : Op) (p : Ppb) (raw : Bool) : Dev :=
  let w := d.writeSpans a.run.domain (spans o.rsvWrites)
  if w.2 ≠ (0, 0) then w.1.sluiceFail b { o with rsvWrites := [] } w.2.1 w.2.2
  else
    let d := w.1
    let merge : Option Nat := if !raw && p.amxen then p.ring else none
    let bad := match merge with | some ring => !d.ringOk a.run.domain ring | none => false
    if bad then (match merge with | some ring => d.ringDenied a.run.domain ring | none => d).prismRefuse b o 8
    else
      let d := match merge with | some ring => (d.ring ring a.slotCt (some o.amax)).1 | none => d
      match partWords o.writes (d.basin b).cis.badWords with
      | some w => d.sluiceEcc b w o.pc
      | none => (d.putBasin b ((d.basin b).transferEnded o a p raw)).retire b o

/-- TRANSFER_RETIRE: the writes are acknowledged, the MERGE is made, and the transfer ends (R157, R212). Its writes and its MERGE carry
the epoch of the run's start and wait in quarantine under another (R351, R353). -/
def transferRetire (b q : Nat) (d : Dev) : Dev :=
  let x := d.basin b
  match x.seq.active, x.op q with
  | some a, some o =>
    if o.engine ≠ .sluice ∨ o.phase ≠ .started then d
    else
      let s := sluiceOf o.bytes
      let p := if s.zero then Ppb.blank else (o.ppb).getD Ppb.blank
      let raw := s.zero || (cvtOf s.cvtw).src == fRaw
      if o.rsvWrites = [] ∧ (raw ∨ !p.amxen) then d.transferDone b a o p raw
      else d.gated b a o.pc s p (fun d => d.transferDone b a o p raw)
  | _, _ => d
def execTransferRetire (b q : Nat) (s : State) : Host.Outcome State Fault Refusal := onCore (transferRetire b q) s

end Sys2Proof.Machine
end

