-- ==== Sys2Proof/Machine/Cascade.lean ====
section
/-! DEFINITION. The cascade: descriptor checks, the reduction tree, result records, groups of basins (R169 to R186, R200, R272). -/

namespace Sys2Proof.Machine

open Sys2Proof

/-! ### Checks and claims (R173, R112, R114) -/

def Csc.xform (c : Csc) : Bool := c.op == 5
def Csc.srow (c : Csc) : Nat := rowBytes c.sfmt c.n

/-- Descriptor validity, code 0x03. -/
def Csc.valid (c : Csc) : Bool :=
  decide (c.op < 8) && decide (c.scope < 3) && (c.sfmt == fL16 || c.sfmt == fA32 || c.sfmt == fA16 || c.sfmt == fB32)
    && (c.dfmt == fL16 || c.dfmt == fA32) && c.n != 0 && c.rows != 0 && c.gcount != 0
    && pitchOk c.spitch c.srow c.rows && (!c.xform || pitchOk c.xpitch (2 * c.n) c.rows)
    && (c.scope == 0 || (decide (c.gcount * c.rows ≤ 1024) && ((c.op != 5 && c.op != 7) || c.bcast)))
    && (c.op != 7 || (decide (0 < c.tau) && decide (c.tau < 0x8000)))

/-- This basin writes the result: a local operation, the root, or a member that gets the broadcast. -/
def Csc.writesHere (c : Csc) (logical : Nat) : Bool := c.scope == 0 || c.bcast || logical == c.gfirst

def Csc.reads (c : Csc) : List (Nat × Nat) := rowsAt c.saddr c.spitch c.srow c.rows

def Csc.writesTo (c : Csc) (logical : Nat) : List (Nat × Nat) :=
  if c.writesHere logical then
    [(c.daddr, 16 * c.rows)] ++ (if c.op = 5 then rowsAt c.xaddr c.xpitch (2 * c.n) c.rows else if c.op = 7 then [(c.xaddr, 2 * c.rows)] else [])
  else []

def Csc.aligned (c : Csc) : Bool := c.saddr % 64 == 0 && c.daddr % 16 == 0 && (c.op != 5 || c.xaddr % 64 == 0)

/-- The fault code of a cascade operation at issue. -/
def Csc.code (c : Csc) (x : Basin) (r : Run) : Nat :=
  if !c.valid then 3
  else if !c.aligned then 6
  else match (c.reads ++ c.writesTo x.logical).find? (fun p => x.rangeCode r p.1 p.2 != 0) with
    | some p => x.rangeCode r p.1 p.2
    | none => 0

/-! ### Draws (R175, R272) -/

/-- What an operation's roundings depend on. -/
structure CscEnv where
  (c : Csc)
  /-- run seed and tensor tag -/
  (seed tag : Nat)
  deriving DecidableEq, Repr

/-- Flags raised and generator outputs taken so far. -/
abbrev CscAcc := W32 × Nat

/-- Position of rounding k of chunk ch of row r. -/
def CscEnv.pos (e : CscEnv) (r ch k : Nat) : Nat := 2 ^ 48 * r + 2 ^ 16 * ((e.c.idxbase + 64 * ch) % 2 ^ 32) + k

/-- The direction of a rounding under the EM at a position. -/
def CscEnv.em (e : CscEnv) (p : Nat) : Dir := if e.c.em = 2 then .draw (sprayDraw e.seed e.tag p) else .away

/-- The direction of an output conversion under the RM. -/
def CscEnv.rm (e : CscEnv) (p : Nat) : Dir := if e.c.rm = 2 then .draw (sprayDraw e.seed e.tag p) else rmDir e.c.rm 0

/-- n roundings were made under a mode that draws or does not. -/
def CscEnv.took (stoch : Bool) (n : Nat) (fl : W32) (a : CscAcc) : CscAcc := (a.1 ||| fl, if stoch then a.2 + n else a.2)

/-- Sums run in the log domain (R170). -/
def Csc.log (c : Csc) : Bool := c.em == 1 && (c.op == 0 || c.op == 6 || c.op == 7)

/-! ### Inputs -/

/-- An input's value, AOFF applied; a subnormal under flush reads as zero (R58, R62). -/
def Csc.value (c : Csc) (p : Nat) : Num × W32 :=
  if c.sfmt = fL16 then (l16.read p, 0)
  else
    let f := if c.sfmt = fA16 then f16 else f32
    let v := f.operand c.keep p
    (v.1.shift (if c.sfmt = fB32 then 0 else c.aoff), v.2 ||| (if c.sfmt = fB32 ∧ f.isSnan p then flINV else 0))

/-- An input as an L16 code, to nearest. -/
def Csc.toL16 (c : Csc) (p : Nat) : Flagged :=
  let v := c.value p
  if c.sfmt = fL16 then (p, 0) else let r := l16.round c.keep .away v.1; (r.1, v.2 ||| r.2)

/-- An input as A32 at AOFF. -/
def Csc.toA32 (c : Csc) (d : Dir) (p : Nat) : Flagged :=
  let v := c.value p
  let r := f32.acc c.keep d (v.1.shift (-c.aoff))
  (r.1, v.2 ||| r.2)

/-- round(2^(f/128) × 2^23), the significand table of R67. -/
def sigOf (f : Nat) : Nat := (roundAt (.root 128 f) (-23) false .away).1

/-- An input of LSE or SOFTMAX, AOFF applied: a subnormal under flush reads as zero with its flags (R52), and no NaN raises one
(R178). -/
def Csc.exact (c : Csc) (p : Nat) : Num × W32 := let v := c.value p; (v.1, v.2 &&& ~~~flINV)

/-- The exponent F(x) of R178; none where the input is NaN or infinite. -/
def fexp (c : Csc) (p : Nat) : Option Int × W32 :=
  let v := c.exact p
  let m : Option (Bool × Mag) := match v.1 with
    | .fin s (.root _ k) => some (s, .rat (sigOf (k % 128).toNat) 1 (k / 128 - 23))
    | .fin s x => some (s, x)
    | _ => none
  match m with
  | none => (match v.1 with | .zero _ => some 0 | _ => none, v.2)
  | some (s, x) =>
    if 52 ≤ x.floorLog 1 then (none, v.2 ||| flOVF ||| flINX)
    else
      let n := (roundAt (mulExact x (.rat 0xB8AA3B29 1 (-21))) 0 false .away).1
      (some (if s then -(n : Int) else n), v.2)

/-- The order key of an element for MAX and MIN, a subnormal under flush as zero; none for NaN (R52, R176). -/
def extKey (keep : Bool) (f p : Nat) : Option Int :=
  if f = fL16 then (if p = 0x8000 then none else some (if 0x8000 ≤ p then -((p - 0x8000 : Nat) : Int) else p))
  else
    let g := if f = fA16 then f16 else f32
    if g.isNan p then none else if g.isSub p && !keep then some 0 else some (if g.sign ≤ p then -((p % g.sign : Nat) : Int) else (p % g.sign : Nat))

/-- Element j of a row as the leaf of the tree. R175 gives the input conversion of MEANVAR no draw: it rounds to nearest
(DEDUCED, notes/assumptions/40.md). -/
def CscEnv.leaf (e : CscEnv) (r j p : Nat) (a : CscAcc) : Partial × CscAcc :=
  let c := e.c
  let at0 := e.pos r (j / 64) (1024 + j % 64)
  let st := c.em == 2
  if c.op = 1 ∨ c.op = 2 then (.ext p ((c.idxbase + j) % 2 ^ 32), a)
  else if c.op = 3 then
    match (c.value p).1 with
    | .nan => (.wel 1 f32.nan f32.nan false, a)
    | .inf _ => (.wel 1 f32.nan f32.nan false, (a.1 ||| flINV, a.2))
    | _ => let v := c.toA32 .away p; (.wel 1 v.1 0 (v.2 &&& flSAT != 0), (a.1 ||| v.2, a.2))
  else if c.op = 4 ∨ c.op = 5 then
    let f := fexp c p
    match f.1 with
    | some k => (.lse (some k) 130048 0 false, (a.1 ||| f.2, a.2))
    | none => match (c.exact p).1 with
      | .nan => (.lse none 0 0 true, (a.1 ||| f.2, a.2))
      | .inf s => (if s then .none else .lse none 0 1 false, (a.1 ||| f.2, a.2))
      | .fin s _ => (if s then .none else .lse none 0 1 false, (a.1 ||| f.2, a.2))
      | .zero _ => (.none, a)
  else if c.op = 0 then
    if c.log then let v := c.toL16 p; (.log v.1, (a.1 ||| v.2, a.2))
    else let v := c.toA32 (e.em at0) p; (.lin v.1 (v.2 &&& flSAT != 0), CscEnv.took st 1 v.2 a)
  else
    let q := c.toL16 p
    if c.log then let v := l16.mul c.keep q.1 q.1; (.log v.1, (a.1 ||| q.2 ||| v.2, a.2))
    else
      let v := ((opdL16 q.1).mul (opdL16 q.1)).conv f32 c.keep (e.em at0) c.aoff
      (.lin v.1 (v.2 &&& flSAT != 0), CscEnv.took st 1 (q.2 ||| v.2) a)

/-! ### Nodes (R170) -/

/-- One A32 division of the Welford merge and of the variance. -/
def accDiv (keep : Bool) (d : Dir) (a b : Num) : Flagged :=
  let v : Num × W32 := match a, b with
    | .nan, _ => (.nan, 0)
    | _, .nan => (.nan, 0)
    | .inf s, .fin t _ => (.inf (s != t), 0)
    | .fin s x, .fin t y => (.fin (s != t) (divExact x y), 0)
    | .zero _, .fin _ _ => (.zero false, 0)
    | .fin _ _, .inf _ => (.zero false, 0)
    | .zero _, .inf _ => (.zero false, 0)
    | _, _ => (.nan, flINV)
  let r := f32.acc keep d v.1
  (r.1, v.2 ||| r.2)

/-- A count as a value. -/
def numOfNat (n : Nat) : Num := if n = 0 then .zero false else .fin false (.rat n 1 0)

/-- A quotient of exact counts in A32: two conversions and a division from rounding i (R177). -/
def CscEnv.quot (e : CscEnv) (p m n : Nat) : Flagged :=
  let a := f32.acc e.c.keep (e.em p) (numOfNat m)
  let b := f32.acc e.c.keep (e.em (p + 1)) (numOfNat n)
  let r := accDiv e.c.keep (e.em (p + 2)) (f32.read a.1) (f32.read b.1)
  (r.1, a.2 ||| b.2 ||| r.2)

/-- An A32 pattern with its sign inverted. -/
def neg32 (p : Nat) : Nat := if p % 2 ^ 31 = 0 then p else Nat.xor p (2 ^ 31)

/-- The Welford merge (R177): thirteen roundings from position p. -/
def CscEnv.welford (e : CscEnv) (p : Nat) (na ma m2a nb mb m2b : Nat) : Nat × Nat × Nat × W32 :=
  let k := e.c.keep
  let n := na + nb
  let dl := f32.add k (e.em p) mb (neg32 ma)
  let q1 := e.quot (p + 1) nb n
  let t1 := f32.mul k (e.em (p + 4)) 0 dl.1 q1.1
  let mu := f32.add k (e.em (p + 5)) ma t1.1
  let s := f32.add k (e.em (p + 6)) m2a m2b
  let sq := f32.mul k (e.em (p + 7)) e.c.aoff dl.1 dl.1
  let q2 := e.quot (p + 8) (na * nb) n
  let t2 := f32.mul k (e.em (p + 11)) 0 sq.1 q2.1
  let m2 := f32.add k (e.em (p + 12)) s.1 t2.1
  (n, mu.1, m2.1, dl.2 ||| q1.2 ||| t1.2 ||| mu.2 ||| s.2 ||| sq.2 ||| q2.2 ||| t2.2 ||| m2.2)

/-- A guard field moved down by k: below 1 it is zero, without a flag (R179). -/
def gShift (s : Nat) (k : Int) : Nat := if s = 0 then 0 else let g : Int := (s : Int) + k; if g < 1 then 0 else g.toNat

/-- Combine two partials with the operation's node; p is the position of its rounding 0. -/
def CscEnv.node (e : CscEnv) (p : Nat) (x y : Partial) (a : CscAcc) : Partial × CscAcc :=
  let st := e.c.em == 2
  match x, y with
  | .none, _ => (y, a)
  | _, .none => (x, a)
  | .lin u s, .lin v t =>
    let r := f32.add e.c.keep (e.em p) u v
    (.lin r.1 (s || t || r.2 &&& flSAT != 0), CscEnv.took st 1 r.2 a)
  | .log u, .log v => let r := l16.add e.c.keep u v; (.log r.1, (a.1 ||| r.2, a.2))
  | .ext u i, .ext v j =>
    let low := if i ≤ j then x else y
    (match extKey e.c.keep e.c.sfmt u, extKey e.c.keep e.c.sfmt v with
      | none, none => low
      | none, some _ => x
      | some _, none => y
      | some m, some n => if m = n then low else if decide (n < m) == (e.c.op == 1) then x else y, a)
  | .wel na ma m2a s, .wel nb mb m2b t =>
    let r := e.welford p na ma m2a nb mb m2b
    (.wel r.1 r.2.1 r.2.2.1 (s || t || r.2.2.2 &&& flSAT != 0), CscEnv.took st 13 r.2.2.2 a)
  | .lse fa sa ia na, .lse fb sb ib nb =>
    if na || nb then (.lse none 0 0 true, a)
    else if 0 < ia + ib then (.lse none 0 (ia + ib) false, a)
    else match fa, fb with
    | some m, some n =>
      let top := max m n
      let r := lgf.add e.c.keep (gShift sa (m - top)) (gShift sb (n - top))
      (.lse (some top) r.1 (ia + ib) (na || nb), (a.1 ||| r.2, a.2))
    | some m, none => (.lse (some m) sa (ia + ib) (na || nb), a)
    | none, f => (.lse f sb (ia + ib) (na || nb), a)
  | _, _ => (x, a)

/-- One level of the tree: nodes numbered from `k`. -/
def CscEnv.level (e : CscEnv) (r ch k : Nat) (l : List Partial) (a : CscAcc) : List Partial × CscAcc :=
  match l with
  | x :: y :: t =>
    let n := e.node (e.pos r ch (16 * k)) x y a
    let u := e.level r ch (k + 1) t n.2
    (n.1 :: u.1, u.2)
  | _ => (l, a)

/-- The tree of a chunk of at most 64 leaves (R169): absent positions are `none`. -/
def CscEnv.tree (e : CscEnv) (r ch : Nat) (l : List Partial) (a : CscAcc) : Partial × CscAcc :=
  let full := l ++ List.replicate (64 - l.length) Partial.none
  let t := [0, 32, 48, 56, 60, 62].foldl (fun s k => e.level r ch k s.1 s.2) (full, a)
  (t.1.headD .none, t.2)

/-- Leaves of a row from element j. -/
def CscEnv.leaves (e : CscEnv) (rd : Nat → Byte) (r j n : Nat) (a : CscAcc) : List Partial × CscAcc :=
  match n with
  | 0 => ([], a)
  | m + 1 =>
    let v := e.leaf r j (readElem rd e.c.sfmt (e.c.saddr + r * e.c.spitch) j) a
    let t := e.leaves rd r (j + 1) m v.2
    (v.1 :: t.1, t.2)

/-- The running result over the chunks from `ch`; the first one starts it (R169). -/
def CscEnv.chunks (e : CscEnv) (r ch : Nat) (l : List Partial) (fuel : Nat) (acc : Partial) (a : CscAcc) : Partial × CscAcc :=
  match fuel with
  | 0 => (acc, a)
  | n + 1 => match l with
    | [] => (acc, a)
    | _ =>
      let t := e.tree r ch (l.take 64) a
      let u := if ch = 0 then t else e.node (e.pos r ch 1008) acc t.1 t.2
      e.chunks r (ch + 1) (l.drop 64) n u.1 u.2

/-- The plus infinities that a partial has met, and whether it has met a NaN (R178, R180). -/
def Partial.pinf (v : Partial) : Nat := match v with | .lse _ _ i _ => i | _ => 0
def Partial.hasNan (v : Partial) : Bool := match v with | .lse _ _ _ b => b | _ => false

/-- A basin's own partial of a row. A NaN or a plus infinity among the inputs of LSE or SOFTMAX leaves no sum to form. -/
def CscEnv.row (e : CscEnv) (rd : Nat → Byte) (r : Nat) (a : CscAcc) : Partial × CscAcc :=
  let l := e.leaves rd r 0 e.c.n a
  let k := l.1.foldl (fun n v => n + v.pinf) 0
  if l.1.any Partial.hasNan then (.lse none 0 0 true, l.2)
  else if 0 < k then (.lse none 0 k false, l.2)
  else e.chunks r 0 l.1 (cdiv e.c.n 64) .none l.2

/-- All rows from r on. -/
def CscEnv.rows (e : CscEnv) (rd : Nat → Byte) (r n : Nat) (a : CscAcc) : List Partial × CscAcc :=
  match n with
  | 0 => ([], a)
  | m + 1 =>
    let v := e.row rd r a
    let t := e.rows rd (r + 1) m v.2
    (v.1 :: t.1, t.2)

/-! ### Result records (R174, R177 to R180, R186) -/

/-- ln 2 as a fraction of 2^200, rounded down (notes/assumptions/12.md). -/
def ln2Num : Nat := 1113844574712631719546256151097547306333272293549090750737802

/-- An A32 result into DFMT. -/
def CscEnv.outA32 (e : CscEnv) (p q : Nat) : Flagged := if e.c.dfmt = fA32 then (q, 0) else accToL16 f32 e.c.keep (e.rm p) e.c.aoff q

/-- An L16 result into DFMT. -/
def CscEnv.outL16 (e : CscEnv) (p q : Nat) : Flagged :=
  if e.c.dfmt = fL16 then (q, 0) else f32.acc e.c.keep (e.rm p) ((l16.read q).shift (-e.c.aoff))

/-- The clip scale of a sum, and whether the sum is not finite (R186). `nan` and `inf` are of the sum itself, `s` is the sum in L16; one
beyond L16's range has an infinite root. -/
def Csc.clip (c : Csc) (nan inf : Bool) (s : Nat) : Nat × Bool × W32 :=
  if nan then (0, true, flINV)
  else if inf then (0, true, 0)
  else
    let r : Nat := if s % 2 ^ 15 = 0 ∨ s % 2 ^ 15 = 0x7FFF then s % 2 ^ 15 else (16256 - ((16256 - (s % 2 ^ 15 : Nat) : Int) / 2)).toNat
    if c.tau = 0x7FFF ∨ r ≤ c.tau then (0x3F80, false, 0)
    else let q := l16.div c.keep c.tau r; (q.1, false, q.2)

/-- The record of a row: VALUE, SECOND, COUNT, STATUS, and the clip scale of GNORM. -/
structure CscRec where
  (value second count status : Nat := 0)
  (clip : Nat := 0)
  /-- a conversion into DFMT saturated (R52) -/
  (full : W32 := 0)
  deriving DecidableEq, Repr

def CscRec.bytes (r : CscRec) : List Byte := leBytes 4 r.value ++ leBytes 4 r.second ++ leBytes 4 r.count ++ leBytes 4 r.status

def nonfin32 (p : Nat) : Bool := decide (f32.inf ≤ p % f32.sign)

/-- The natural log of the sum (R179, R180), as an L16 code. -/
def CscEnv.lseCode (e : CscEnv) (p : Nat) (v : Partial) : Flagged :=
  match v with
  | .lse f s pinf nan =>
    if nan then (0x8000, 0) else if 0 < pinf then (0x7FFF, 0)
    else match f with
      | none => (0xFFFF, 0)
      | some m =>
        let k : Int := m + s - 130048
        if k = 0 then (0, 0) else l16.round e.c.keep (e.rm p) (.fin (decide (k < 0)) (.rat (k.natAbs * ln2Num) 1 (-210)))
  | _ => (0xFFFF, 0)

/-- A row's record from its final partial. -/
def CscEnv.record (e : CscEnv) (r : Nat) (v : Partial) (a : CscAcc) : CscRec × CscAcc :=
  let c := e.c
  let p := e.pos r 0 1100
  let st := c.rm == 2
  let one (b : Bool) : Nat := if b then 1 else 0
  match v with
  | .ext q i =>
    let bad := match extKey c.keep c.sfmt q with
      | none => true
      | some _ => if c.sfmt = fL16 then q % 2 ^ 15 == 0x7FFF else
          let g := if c.sfmt = fA16 then f16 else f32
          q % g.sign == g.inf
    ({ value := q, second := i, status := one bad }, a)
  | .wel n mu m2 sat =>
    let m := e.outA32 p mu
    let a := CscEnv.took (st && c.dfmt == fL16) 1 m.2 a
    let w : Flagged := if c.varn ∧ n = 1 then (f32.nan, flINV)
      else accDiv c.keep (e.em (p + 1)) (f32.operand c.keep m2).1 (numOfNat (if c.varn then n - 1 else n))
    let a := CscEnv.took (c.em == 2 && !(c.varn && n == 1)) 1 w.2 a
    let s := e.outA32 (p + 2) w.1
    ({ value := m.1, second := s.1, count := n % 2 ^ 32, status := one (nonfin32 mu) + 2 * one (sat || w.2 &&& flSAT != 0), full := w.2 &&& flSAT },
     CscEnv.took (st && c.dfmt == fL16) 1 s.2 a)
  | .lin q sat =>
    let m := e.outA32 p q
    let a := CscEnv.took (st && c.dfmt == fL16) 1 m.2 a
    if c.op = 7 then
      let z := accToL16 f32 c.keep (e.rm (p + 1)) c.aoff q
      let k := c.clip (f32.isNan q) (q % f32.sign == f32.inf) z.1
      ({ value := m.1, second := k.1, status := one (nonfin32 q || k.2.1) + 2 * one sat, clip := k.1 }, CscEnv.took st 1 (z.2 ||| k.2.2) a)
    else ({ value := m.1, status := one (nonfin32 q) + 2 * one sat }, a)
  | .log q =>
    let m := e.outL16 p q
    let a := CscEnv.took (st && c.dfmt == fA32) 1 m.2 a
    let bad := q == 0x8000 || q % 2 ^ 15 == 0x7FFF
    if c.op = 7 then
      let k := c.clip (q == 0x8000) (q % 2 ^ 15 == 0x7FFF) q
      ({ value := m.1, second := k.1, status := one (bad || k.2.1), clip := k.1, full := m.2 &&& flSAT }, (a.1 ||| k.2.2, a.2))
    else ({ value := m.1, status := one bad, full := m.2 &&& flSAT }, a)
  | w =>
    let z := e.lseCode p w
    let m := e.outL16 (p + 1) z.1
    ({ value := m.1, status := one (z.1 == 0x8000 || z.1 % 2 ^ 15 == 0x7FFF), full := m.2 &&& flSAT },
     CscEnv.took (st && c.dfmt == fA32) 1 m.2 (CscEnv.took st 1 z.2 a))

/-- The SOFTMAX probability of an element (R179, R180). -/
def CscEnv.prob (e : CscEnv) (r : Nat) (v : Partial) (j p : Nat) (a : CscAcc) : Nat × CscAcc :=
  let c := e.c
  let d := e.rm (e.pos r (j / 64) (1152 + j % 64))
  let st := c.rm == 2
  match v with
  | .lse f s pinf nan =>
    if nan then (0x8000, a)
    else
      let x := fexp c p
      let top := match x.1, (c.exact p).1 with | none, .inf false => true | none, .fin false _ => true | _, _ => false
      if 0 < pinf then
        (if top then let q := l16.round c.keep d (.fin false (.rat 1 pinf 0)); (q.1, CscEnv.took st 1 q.2 a) else (0, a))
      else match f, x.1 with
        | some m, some k =>
          let q := l16.round c.keep d (.fin false (.root 1024 (k - m - ((s : Int) - 130048))))
          (q.1, CscEnv.took st 1 q.2 a)
        | _, _ => (0, a)
  | _ => (0x8000, (a.1 ||| flINV, a.2))

/-- The probabilities of a row. -/
def CscEnv.probs (e : CscEnv) (rd : Nat → Byte) (r : Nat) (v : Partial) (j n : Nat) (a : CscAcc) : List Nat × CscAcc :=
  match n with
  | 0 => ([], a)
  | m + 1 =>
    let q := e.prob r v j (readElem rd e.c.sfmt (e.c.saddr + r * e.c.spitch) j) a
    let t := e.probs rd r v (j + 1) m q.2
    (q.1 :: t.1, t.2)

/-- The records of the rows from r on: a local operation's, or the root's (R174, R185). -/
def CscEnv.records (e : CscEnv) (r : Nat) (vs : List Partial) (a : CscAcc) : List CscRec × CscAcc :=
  match vs with
  | [] => ([], a)
  | v :: t =>
    let k := e.record r v a
    let u := e.records (r + 1) t k.2
    (k.1 :: u.1, u.2)

/-- What a basin writes for its rows: the records, its own probabilities and the clip scales (R179, R185, R186). -/
def CscEnv.outs (e : CscEnv) (rd : Nat → Byte) (r : Nat) (vs : List (Partial × CscRec)) (a : CscAcc) : List (Nat × Byte) × CscAcc :=
  match vs with
  | [] => ([], a)
  | v :: t =>
    let c := e.c
    let w := writesAt (c.daddr + 16 * r) v.2.bytes
    let z : List (Nat × Byte) × CscAcc :=
      if c.op = 5 then let q := e.probs rd r v.1 0 c.n a; (writesAt (c.xaddr + r * c.xpitch) (packRow fL16 q.1), q.2)
      else if c.op = 7 then (writesAt (c.xaddr + 2 * r) (leBytes 2 v.2.clip), a)
      else ([], a)
    let u := e.outs rd (r + 1) t z.2
    (w ++ z.1 ++ u.1, u.2)

/-! ### Operations -/

/-- The seed and tag a run presents (R272). -/
def Active.env (a : Active) (c : Csc) : CscEnv :=
  { c := c, seed := a.seedr, tag := if a.evalTags then Nat.xor c.stag (2 ^ 31) else c.stag }

/-- INV for a reserved EM or RM (R56, R72). -/
def Csc.modeFlags (c : Csc) : W32 := (if c.em = 3 then flINV else 0) ||| rmFlag c.rm

/-- CSC_STATUS shows the oldest operation in the cascade, and its second pass; the last one stays shown (R200). -/
def Basin.cscShow (x : Basin) : Basin :=
  let ops := x.seq.ops.filter (fun o => o.engine == .cascade)
  { x with eng := match ops with
    | o :: _ => { x.eng with cscBusy := true, cscOp := (cscOf o.bytes).op, cscPass2 := (cscOf o.bytes).op == 5 && o.phase == .granted }
    | [] => { x.eng with cscBusy := false, cscPass2 := false } }

/-- The operation and basin with outputs written from the final partials and their records. -/
def Basin.cscFinish (x : Basin) (a : Active) (o : Op) (c : Csc) (vs : List Partial) (rs : List CscRec) (acc : CscAcc) : Basin :=
  let r := (a.env c).outs (Mem.read x.store) 0 (vs.zip rs) acc
  let o := { o with phase := .granted, writes := r.1, flags := r.2.1, partials := vs,
                    tileSet := (rs.zipIdx.flatMap (fun p => satTilesAt p.1.full (c.daddr + 16 * p.2) 16)).dedup }
  ({ x.setOp o with eng := { x.eng with drawcnt := x.eng.drawcnt + BitVec.ofNat 64 r.2.2 } }).cscShow

/-- A cascade operation at its grant: the local reduction, and the outputs where it is local (R171, R182). -/
def Basin.cscStart (x : Basin) (a : Active) (o : Op) (c : Csc) : Basin :=
  let r := (a.env c).rows (Mem.read x.store) 0 c.rows (c.modeFlags, 0)
  let gs := Tab.at a.gseqs 0 c.gtag
  let rd := (c.reads.flatMap (fun p => segsOf p.1 p.2)).dedup
  let wr := c.writesTo x.logical
  let o := { o with readSegs := rd, writeSegs := (wr.flatMap (fun p => segsOf p.1 p.2)).dedup,
                    tiles := ((c.reads ++ wr).flatMap (fun p => tilesOf p.1 p.2)).dedup, flags := r.2.1, partials := r.1, gseq := gs,
                    phase := if c.scope = 0 then .granted else .waiting }
  let a := if c.scope = 0 then a else { a with gseqs := Tab.put a.gseqs c.gtag (gs + 1) }
  let x := { (x.addOp o) with eng := { x.eng with drawcnt := x.eng.drawcnt + BitVec.ofNat 64 r.2.2 } }
  let x := { x with seq := { x.seq with active := some a } }
  if c.scope = 0 then
    let k := (a.env c).records 0 r.1 (o.flags, 0)
    x.cscFinish a o c r.1 k.1 k.2
  else x.cscShow

/-- The root's router has received every partial of a member that gets no broadcast; it then retires (R182). -/
def Op.sentAll (o : Op) (c : Csc) (logical : Nat) : Bool :=
  o.phase == .waiting && c.scope != 0 && !c.bcast && logical != c.gfirst && decide (c.rows ≤ o.blocks)

/-- CASCADE_RETIRE: in program order (R171). -/
def cascadeRetire (b q : Nat) (d : Dev) : Dev :=
  let x := d.basin b
  match x.seq.active, x.oldest .cascade with
  | some _, some o =>
    if o.seq ≠ q then d
    else
      let c := cscOf o.bytes
      if o.phase = .granted ∨ o.sentAll c x.logical then
        let d := d.retire b o
        d.putBasin b (d.basin b).cscShow
      else d
  | _, _ => d
def execCascadeRetire (b q : Nat) (s : State) : Host.Outcome State Fault Refusal := onCore (cascadeRetire b q) s

/-! ### Groups (R182 to R186) -/

/-- An operation of a stream's group. -/
def Basin.groupOp (x : Basin) (handle gtag gseq : Nat) : Option Op :=
  match x.seq.active with
  | none => none
  | some a =>
    if a.run.handle = handle then
      x.seq.ops.find? (fun o => o.engine == .cascade && (o.phase == .waiting || o.phase == .started) && (cscOf o.bytes).scope != 0
        && (cscOf o.bytes).gtag == gtag && o.gseq == gseq)
    else none

/-- A run of the stream on this basin in the current slot whose end offset has not passed (R183). -/
def Dev.servesRun (d : Dev) (b handle : Nat) : Bool :=
  let x := d.basin b
  (match x.seq.active with | some a => a.run.handle == handle && decide (d.ns < a.slotCt + a.fin) | none => false)
    || x.delivered.any (fun r => r.handle == handle && r.entry.isSome && decide (d.ns < d.slotStart + r.tend))

/-- PARTIAL_ARRIVAL: a partial of a member reaches the root's router (R182, R183). A partial that a member in flight did not form
does not arrive. -/
def partialArrival (b : Nat) (v : HeldPartial) (d : Dev) : Dev :=
  let x := d.basin b
  if x.cis.weirFenced then d.sink b false
  else
    let sender := List.find? (fun (p : Nat × Basin) => p.2.logical == v.member && (p.2.groupOp v.handle v.gtag v.seq).isSome) d.basins
    let ok := match sender with
      | none => true
      | some p => ((p.2.groupOp v.handle v.gtag v.seq).bind (fun o => o.partials[v.row]?)) == some v.value
    if !ok then d
    else
      let d := match sender with
        | none => d
        | some p => match p.2.groupOp v.handle v.gtag v.seq with
          | some o => d.putBasin p.1 (p.2.setOp { o with blocks := o.blocks + 1 })
          | none => d
      let x := d.basin b
      if d.servesRun b v.handle && decide (x.partials.length < 1024) then d.putBasin b { x with partials := x.partials ++ [v] }
      else d.putBasin b { x with eng := { x.eng with dropcnt := x.eng.dropcnt + 1 } }
def execPartialArrival (b : Nat) (v : HeldPartial) (s : State) : Host.Outcome State Fault Refusal := onCore (partialArrival b v) s

/-- The partials of a row in the order in which they are combined. -/
def rowPartials (ps : List HeldPartial) (row : Nat) (det : Bool) : List HeldPartial :=
  let l := ps.filter (fun p => p.row == row)
  if det then l.mergeSort (fun p q => decide (p.member ≤ q.member)) else l

/-- The root's combination of the members' partials of a row. -/
def CscEnv.combine (e : CscEnv) (row : Nat) (ps : List HeldPartial) (a : CscAcc) : Partial × CscAcc :=
  match ps with
  | [] => (.none, a)
  | p :: t => t.foldl (fun s q => e.node (e.pos row 0 (2048 + 16 * (q.member - e.c.gfirst))) s.1 q.value s.2) (p.value, a)

/-- All rows combined. -/
def CscEnv.combineRows (e : CscEnv) (ps : List HeldPartial) (det : Bool) (row n : Nat) (a : CscAcc) : List Partial × CscAcc :=
  match n with
  | 0 => ([], a)
  | m + 1 =>
    let v := e.combine row (rowPartials ps row det) a
    let t := e.combineRows ps det (row + 1) m v.2
    (v.1 :: t.1, t.2)

/-- The final result: the root `b`, whose operation is `o`, forms the records, and writes them at its DADDR and, under BCAST = 1, at
every member's; each member makes its own second pass (R185). -/
def Dev.groupFinal (d : Dev) (b : Nat) (a : Active) (o : Op) (vs : List Partial) : Dev :=
  let c := cscOf o.bytes
  let k := (a.env c).records 0 vs (o.flags, 0)
  d.setBasins (Tab.mapv d.basins (fun n x =>
    if n = b then x.cscFinish a o c vs k.1 k.2
    else if c.bcast ∧ c.gfirst ≤ x.logical ∧ x.logical < c.gfirst + c.gcount then
      match x.seq.active, x.groupOp a.run.handle c.gtag o.gseq with
      | some a, some o => x.cscFinish a o (cscOf o.bytes) vs k.1 (o.flags, 0)
      | _, _ => x
    else x))

/-- The send time of a group operation of a run in its slot's CT, where its plan step states one (R293). -/
def Dev.sendTime (d : Dev) (a : Active) (gtag gseq : Nat) : Option Nat :=
  ((d.planStep a.run).bind (fun p => List.find? (fun (s : Nat × Nat × Nat) => s.1 == gtag && s.2.1 == gseq) p.sends)).map
    (fun s => a.slotCt + s.2.2)

/-- This device's result of a group operation is late: counted in NLATE of its stream's training context, with the straggler event;
the bucket it names is open (R289, R293). -/
def Dev.lateResult (d : Dev) (b : Nat) (a : Active) : Dev :=
  match d.train (runIndex a.run) with
  | some t =>
    let v := d.openValue
    (v.2.putTrain (runIndex a.run) { t with nlate := t.nlate + 1 }).raiseS 0x10 b (runIndex a.run) (v.1.toNat % 4096)
      (t.period.toNat % 2 ^ 32) (t.period.toNat / 2 ^ 32)
  | none => d

/-- GROUP_COMBINE: the root has all partials of every row. Under SCOPE 0b10 it hands its device result to the rill collective and
waits; a hand-over after the send time in the plan is late (R185, R293). -/
def groupCombine (b q : Nat) (d : Dev) : Dev :=
  let x := d.basin b
  match x.seq.active, x.op q with
  | some a, some o =>
    let c := cscOf o.bytes
    if o.engine ≠ .cascade ∨ o.phase ≠ .waiting ∨ c.gfirst ≠ x.logical then d
    else
      let mine (p : HeldPartial) : Bool := p.handle == a.run.handle && p.gtag == c.gtag && p.seq == o.gseq
      let ps := x.partials.filter mine
      let whole := (List.range c.rows).all (fun r => (List.range c.gcount).all (fun m => ps.any (fun p => p.row == r && p.member == c.gfirst + m)))
      if !whole then d
      else
        let r := (a.env c).combineRows ps a.run.det 0 c.rows (o.flags, 0)
        let o := { o with flags := r.2.1, partials := r.1, phase := if c.scope = 2 then .started else .waiting }
        let x := { x.setOp o with partials := x.partials.filter (fun p => !mine p),
                                  eng := { x.eng with drawcnt := x.eng.drawcnt + BitVec.ofNat 64 r.2.2 } }
        let d := d.putBasin b x
        if c.scope ≠ 2 then d.groupFinal b a o r.1
        else match d.sendTime a c.gtag o.gseq with
          | some t => if t < d.ns then d.lateResult b a else d
          | none => d
  | _, _ => d
def execGroupCombine (b q : Nat) (s : State) : Host.Outcome State Fault Refusal := onCore (groupCombine b q) s

/-- COLLECTIVE_RESULT: the rill collective returns the combined result of the ring, formed in ascending ring rank of what the devices
handed over in time. A root that has handed nothing over by then is late, and the result leaves it out (R185, R293). -/
def collectiveResult (b q : Nat) (vals : List Partial) (d : Dev) : Dev :=
  let x := d.basin b
  match x.seq.active, x.op q with
  | some a, some o =>
    let c := cscOf o.bytes
    if o.engine ≠ .cascade ∨ c.scope ≠ 2 ∨ c.gfirst ≠ x.logical ∨ o.phase = .granted then d
    else
      (if o.phase = .waiting then d.lateResult b a else d).groupFinal b a o vals
  | _, _ => d
def execCollectiveResult (b q : Nat) (vals : List Partial) (s : State) : Host.Outcome State Fault Refusal := onCore (collectiveResult b q vals) s

end Sys2Proof.Machine
end

