-- ==== Sys2Proof/Machine/Registers.lean ====
section
/-! DEFINITION. The register map: where each register lies, what a read of it returns, what a write does, who may read it
(R6 to R11, R18, R26, R81, R118, R143, R168, R200 to R203, R231, R232, R267, R268, R297, R322, R355 to R357, R375, R380, R401,
R431, R443, R444, R460), the BAR0 pages (R363, R373), and the health record (R442). -/

namespace Sys2Proof.Machine

open Sys2Proof

/-! ### Words of registers -/

/-- The 32-bit half at offset `off` of a 64-bit register whose place is a multiple of 8. -/
def half (off v : Nat) : Nat := if off % 8 = 0 then v % 2 ^ 32 else v / 2 ^ 32 % 2 ^ 32

/-- An operation of the engine is in flight. -/
def Seq.uses (q : Seq) (e : Engine) : Bool := q.ops.any (fun o => o.engine == e)

/-- BSN_IDENT of the physical basin `p` (R18). -/
def identWord (p logical : Nat) : Nat :=
  p / 17 * 2 ^ 28 + p % 17 * 2 ^ 23 + p * 2 ^ 14 + logical * 2 ^ 5 + bit01 (p % 17 == 16)

/-- JET_TSTAT of jet `j`: tiles claimed, and tile flags (R118). -/
def Basin.tstatWord (x : Basin) (j : Nat) : Nat :=
  (List.range 16).foldl (fun n t =>
    n + bit01 (Tab.at x.tileFlags false (16 * j + t)) * 2 ^ t + bit01 (x.seq.ops.any (fun o => decide (16 * j + t ∈ o.tiles))) * 2 ^ (16 + t)) 0

/-- A CIS_SEGTAG word (R231). -/
def SegTag.word (t : SegTag) : Nat := bit01 t.valid * 2 ^ 31 + bit01 t.zeroing * 2 ^ 30 + t.domain

/-- A RUN_STATUS word (R200). -/
def runStatus (busy : Bool) (caps upc : Nat) : Nat := bit01 busy * 2 ^ 31 + caps * 2 ^ 28 + upc % 2048

/-- CIS_SLUSTAT (R231). -/
def Basin.slustat (x : Basin) : Nat :=
  let os := x.seq.ops.filter (fun o => o.engine == .sluice)
  bit01 (os.any (fun o => o.phase == .started)) * 2 ^ 31 + (os.filter (fun o => o.phase == .granted)).length * 2 ^ 16 + x.cis.sluErr

/-- CIS_ECCLOG (R231). -/
def CisRegs.ecclog (c : CisRegs) : Nat :=
  bit01 c.eccValid * 2 ^ 63 + bit01 c.eccUncorr * 2 ^ 62 + bit01 c.eccScrub * 2 ^ 61 + c.eccAddr % 2 ^ 23

/-- Clocks of the run in progress, at `clocks` thousandths of a clock (R443). -/
def Basin.running (x : Basin) (clocks : Nat) : Nat := match x.seq.active with | some a => (clocks - a.clk0) / 1000 | none => 0

/-- The 16 counters of a basin, by ascending offset (R442). -/
def Basin.counters (x : Basin) (clocks : Nat) : List (Nat × W64) :=
  [(0x2300, x.eng.skipcnt), (0x2308, x.eng.ftblcnt), (0x2408, x.eng.blkcnt), (0x2410, x.eng.zblkcnt), (0x2418, x.eng.vancnt),
   (0x2508, x.eng.dropcnt), (0x2520, x.eng.trunccnt), (0x2710, x.cis.cecnt), (0x2720, x.cis.sinkcnt), (0x2808, x.eng.drawcnt),
   (0x2810, x.eng.reseedcnt), (0x2818, x.eng.refusecnt), (0x2A00, BitVec.ofNat 64 (clocks / 1000)), (0x2A08, x.perf.runclk + BitVec.ofNat 64 (x.running clocks)),
   (0x2A10, x.perf.jetbusy), (0x2A18, x.perf.stallclk)]

/-- The counter in a list that covers a word offset. -/
def counterAt (l : List (Nat × W64)) (off : Nat) : Nat :=
  match l.find? (fun p => p.1 == off / 8 * 8) with
  | some p => half off p.2.toNat
  | none => 0

/-- The 32-bit word at offset `off` of basin register space; reserved offsets read 0. -/
def Dev.basinWord (d : Dev) (p off : Nat) : Nat :=
  let x := d.basin p
  let q := x.seq
  if 0x2000 ≤ off ∧ off < 0x2100 then (Tab.at x.flags.jet 0 ((off - 0x2000) / 4)).toNat
  else if 0x2200 ≤ off ∧ off < 0x2300 then x.tstatWord ((off - 0x2200) / 4)
  else if 0x2600 ≤ off ∧ off < 0x2700 then (Tab.at x.tags SegTag.reset ((off - 0x2600) / 4)).word
  else match off with
    | 0x0000 => identWord p x.logical
    | 0x1000 => bit01 q.active.isSome * 2 ^ 31 + bit01 q.det * 2 ^ 30 + q.apseg % 16 * 2 ^ 20 + q.ops.length % 32 * 2 ^ 11
    | 0x1004 => q.limit % 8192 * 2 ^ 16 + q.base % 8192
    | 0x1008 => q.pc % 8192
    | 0x100C => q.fault.code % 256 * 2 ^ 24 + q.fault.pc % 8192
    | 0x2100 => x.flags.csc.toNat
    | 0x2104 => x.flags.run0.toNat
    | 0x2108 => x.flags.run1.toNat
    | 0x210C => x.flags.prz.toNat
    | 0x2110 => x.flags.lpe.toNat
    | 0x2114 => x.eng.lpeRnd % 8
    | 0x2118 => x.flags.sum.toNat
    | 0x2310 => bit01 x.eng.ovbExceed * 2 ^ 24 + x.eng.ovbDesc % 256 * 2 ^ 16 + min 0xFFFF x.eng.ovbCount
    | 0x2314 => min 0xFFFF x.eng.narVan * 2 ^ 16 + min 0xFFFF x.eng.narSat
    | 0x2400 => bit01 x.eng.przBusy * 2 ^ 31 + bit01 x.eng.przRingop * 2 ^ 30 + bit01 x.eng.przStg2 * 2 ^ 29 + bit01 x.eng.przSpass * 2 ^ 28
        + x.eng.przErr % 256
    | 0x2404 => x.eng.przTs % 65536 * 65536 + x.eng.przAmx % 65536
    | 0x2500 => bit01 (x.eng.cscBusy || q.uses .cascade) * 2 ^ 31 + bit01 x.eng.cscPass2 * 2 ^ 30 + x.eng.cscOp % 16 * 2 ^ 24
        + min 1024 x.partials.length * 2 ^ 10
    | 0x2510 => runStatus (q.uses .runnel0) x.eng.run0Caps x.eng.run0Upc
    | 0x2514 => runStatus (q.uses .runnel1) x.eng.run1Caps x.eng.run1Upc
    | 0x2518 => d.lib.libver.toNat
    | 0x2700 => x.slustat
    | 0x2708 => half off x.cis.ecclog
    | 0x270C => half off x.cis.ecclog
    | 0x2718 => bit01 x.cis.weirFenced * 2 ^ 31 + x.cis.vcstall % 32
    | 0x2800 => bit01 x.eng.sprRunseed * 2 ^ 29
    | 0x2900 => x.epoch.toNat
    | 0x2904 => (d.flt.quar.filter (fun e => e.recv == p)).length % 256 * 256 + x.ustate % 4
    | _ => counterAt (x.counters d.clocks) off

/-- HW_LINKSTAT (R380). -/
def Dev.linkstat (d : Dev) : Nat :=
  bit01 (d.hw.lastPtm.any (fun t => decide (d.ns ≤ t + 500000000))) * 2 ^ 11 + bit01 d.hw.flit * 2 ^ 10 + d.hw.width % 64 * 16 + d.hw.speed % 16

/-- The word at offset `off` of the headworks' block, 0x1F0 (R268, R380). -/
def Dev.hwWord (d : Dev) (off : Nat) : Nat :=
  if 0x1000 ≤ off ∧ off < 0x2000 then
    match List.find? (fun (p : Nat × Nat) => p.1 == (off - 0x1000) / 4) d.hw.funcmap with
    | some p => 2 ^ 31 + p.2
    | none => 0
  else if off = 0x808 then d.linkstat
  else counterAt [(0x800, d.hw.dbrej), (0x810, d.hw.windeny)] off

/-- The word at offset `off` of the cadence unit's block, 0x1F1: what it holds, without the latches of a low-word read (R267). -/
def Dev.cadWord (d : Dev) (off : Nat) : Nat :=
  let c := d.cad
  match off with
  | 0x00 => d.ns % 2 ^ 32
  | 0x04 => d.ns / 2 ^ 32 % 2 ^ 32
  | 0x08 => c.ct % 65536
  | 0x0C => c.tstat
  | 0x10 => patternOf 32 c.pherr
  | 0x14 => d.holdest
  | 0x18 => c.holdlim.toNat
  | 0x28 => c.copy * 2 ^ 31 + bit01 c.swapAt.isSome * 2 ^ 30 + bit01 c.active * 2 ^ 29 + c.slot % 4096
  | 0x2C => d.slen % 2 ^ 32
  | _ => counterAt [(0x20, c.frame), (0x30, c.swapcnt), (0x38, c.ovrcnt)] off

/-- FH_LCSTATE, as B1 finds the fuses (R428, R431). -/
def Boot.lcstate (b : Boot) : Nat :=
  if b.fusesRead then
    lifeCycle b.fuses * 2 ^ 30 + bit01 b.dbgdis * 2 ^ 29 + bit01 (burnt b.fuses 0x1C) * 2 ^ 28 + bit01 b.completed * 2 ^ 27
      + (List.range 4).foldl (fun n k => n + bit01 (keyRevoked b.fuses k) * 2 ^ k) 0
  else 0

/-- A row of FH_SPAREMAP (R356). -/
def SpareRow.word (r : SpareRow) : Nat := r.spstate % 4 * 2 ^ 30 + r.fcol % 32 * 2 ^ 17 + r.fenced % 2 ^ 17

/-- FH_STILLSTAT (R444). -/
def Still.word (t : Still) : Nat :=
  bit01 t.frozen * 2 ^ 31 + bit01 t.destroyed * 2 ^ 30 + bit01 t.held * 2 ^ 29 + bit01 t.pending * 2 ^ 28 + bit01 t.ignored * 2 ^ 27
    + bit01 t.denied * 2 ^ 26

/-- FH_MODSTAT (R460). -/
def Dev.modstat (d : Dev) : Nat :=
  let m := d.md
  bit01 m.twinpres * 2 ^ 31 + bit01 m.pwren * 2 ^ 30 + bit01 m.perst * 2 ^ 29 + bit01 m.still * 2 ^ 28
    + bit01 (m.ppsLast.any (fun t => decide (d.cad.ct ≤ t + 98304000000000))) * 2 ^ 27 + bit01 m.refok * 2 ^ 26 + bit01 m.vinok * 2 ^ 25
    + bit01 m.therm * 2 ^ 24 + m.shut

/-- The word at offset `off` of Fountainhead's block, 0x1F2 (R356, R380, R431, R444, R460). -/
def Dev.fhWord (d : Dev) (off : Nat) : Nat :=
  let b := d.boot
  if 0x400 ≤ off ∧ off < 0x440 then (Tab.at d.flt.rows {} ((off - 0x400) / 4)).word
  else match off with
    | 0x000 => 0x72101100
    | 0x004 => d.fh.fwversion.toNat
    | 0x008 => 0x40863000
    | 0x00C => d.svcStatus.toNat
    | 0x020 => bit01 d.fh.running * 2 ^ 31 + d.fh.failed % 8 * 8 + d.fh.corePair % 8
    | 0x600 => bit01 b.ready * 2 ^ 31 + bit01 b.fallback * 2 ^ 30 + b.image % 4 * 2 ^ 28 + b.step % 16 * 2 ^ 24
    | 0x604 => b.cause % 256 * 2 ^ 24 + b.detail % 2 ^ 24
    | 0x608 => b.attempts.toNat
    | 0x60C => b.lcstate
    | 0x610 => if b.fusesRead then fuseSvn b.fuses else 0
    | 0x614 => b.updState % 16 * 2 ^ 28 + bit01 (!b.erasePend.isEmpty) * 2 ^ 11 + b.present.length % 2048
    | 0x700 => d.still.word
    | 0x800 => d.modstat
    | 0x804 => d.md.pin % 65536 * 65536 + d.md.vin % 65536
    | 0x808 => d.md.tinlet % 256 * 65536 + d.md.thbm % 256 * 256 + d.md.tjmax % 256
    | _ => counterAt [(0x10, d.fh.cmdcnt), (0x18, d.fh.evlost), (0x440, d.flt.fencecnt), (0x448, d.flt.replaycnt), (0x450, d.flt.epochev),
                      (0x458, d.flt.coresw), (0x708, d.still.stillcnt)] off

/-- PWR_STATUS (R401). -/
def Power.statusWord (p : Power) : Nat :=
  p.state % 8 * 2 ^ 29 + p.stable % 4 * 2 ^ 27 + bit01 p.moving * 2 ^ 26 + p.latched.getD 0 % 8 * 2 ^ 23 + bit01 p.latched.isSome * 2 ^ 22
    + p.step % 16 * 2 ^ 18 + p.bclk % 4096

/-- PWR_GOVSTAT (R401). -/
def Power.govWord (p : Power) : Nat :=
  p.tjmax % 256 * 65536 + bit01 p.capheld * 128 + bit01 p.override * 64 + bit01 p.volt * 32 + bit01 p.curr * 16 + bit01 p.temp * 8
    + bit01 p.bw * 4 + bit01 p.capLim * 2 + bit01 p.atFloor

/-- The word at offset `off` of the power block, 0x1F3 (R401). -/
def Dev.pwrWord (d : Dev) (off : Nat) : Nat :=
  let p := d.pow
  match off with
  | 0x00 => p.target % 8
  | 0x04 => p.statusWord
  | 0x08 => p.wakeen % 64
  | 0x0C => p.wakesrc % 64
  | 0x10 => p.cap % 4096 * 65536 + p.floor % 4096
  | 0x14 => p.govWord
  | 0x18 => p.trk.stalemax % 256 * 2 ^ 24 + p.trk.refk % 16 * 2 ^ 20 + p.trk.mlen % 16 * 2 ^ 16 + p.trk.period % 2 ^ 14
  | 0x20 => half off p.trkwake
  | 0x24 => half off p.trkwake
  | 0x28 => half off p.trkstale
  | 0x2C => half off p.trkstale
  | _ => counterAt [(0x30, p.wakecnt), (0x38, p.trkcnt), (0x40, p.ovrcnt), (0x48, p.capcnt), (0x50, p.abortcnt)] off

/-- RIL_CFG (R322). -/
def Port.cfg (x : Port) : Nat :=
  x.asym % 65536 * 65536 + bit01 x.peerpol * 32 + bit01 x.wakesend * 16 + bit01 x.wakeen * 8 + x.variant % 4 * 2 + bit01 x.enable

/-- RIL_STATUS (R322). -/
def Port.status (x : Port) : Nat :=
  x.state % 8 * 2 ^ 29 + x.keygen % 2 * 2 ^ 28 + bit01 x.rekeypend * 2 ^ 27 + bit01 x.wakeseen * 2 ^ 26 + x.lanes % 16 * 2 ^ 22 + x.downcause % 256

/-- RIL_REKEYCNT (R322). -/
def Port.rekeycnt (x : Port) : W64 := BitVec.ofNat 64 (x.rekeyDone % 2 ^ 48 + x.rekeyFail % 65536 * 2 ^ 48)

/-- The nine counters of a port, by ascending offset (R442). -/
def Port.counters (x : Port) : List (Nat × W64) :=
  [(0x10, x.txfrm), (0x18, x.rxfrm), (0x20, x.retrycnt), (0x28, x.authfail), (0x30, x.fecce), (0x38, x.fecue), (0x40, x.rekeycnt),
   (0x48, x.discard), (0x50, x.wakecnt)]

/-- The word at offset `off` of a port block (R322). -/
def Port.word (x : Port) (off : Nat) : Nat :=
  match off with
  | 0x00 => x.cfg
  | 0x04 => x.status
  | _ => counterAt ((0x08, x.txctr) :: (0x58, BitVec.ofNat 64 (if x.state = 3 then x.peerid else 0)) :: x.counters) off

/-- The word at offset `off` of the rill block, 0x1F4 (R322). -/
def Dev.rilWord (d : Dev) (off : Nat) : Nat :=
  if off < 0x400 then (d.port (off / 256)).word (off % 256)
  else match off with
    | 0x400 => bit01 d.link.master * 256 + d.link.fwd % 16 * 16 + bit01 d.link.srcen * 4 + d.link.srcport % 4
    | 0x404 => d.link.xdim % 16 * 2 ^ 24 + d.link.nrank % 128 * 2 ^ 16 + d.link.rank % 64 * 2 ^ 8 + d.link.mode % 4
    | _ => 0

/-- MIR_PAIRSTAT (R355). -/
def Dev.pairstat (d : Dev) : Nat :=
  d.pair.state % 8 * 2 ^ 29 + d.pair.joinerr % 32 * 2 ^ 24 + min 15 d.pair.hbmiss * 2 ^ 20 + bit01 d.pair.skewhi * 2 ^ 19
    + bit01 d.pair.promoted * 2 ^ 18 + (d.streams.filter (fun p => p.2.mirror ≠ 0)).length % 8192

/-- The word at offset `off` of the mirror link's block, 0x1F5 (R322, R355). -/
def Dev.mirWord (d : Dev) (off : Nat) : Nat :=
  if off < 0x100 then (d.port 4).word off
  else match off with
    | 0x100 => d.pairstat
    | 0x104 => patternOf 32 d.pair.skew
    | _ => counterAt [(0x108, BitVec.ofNat 64 (if d.pair.state = 0 then 0 else d.pair.twin)), (0x110, BitVec.ofNat 64 d.pair.lasthb),
                      (0x118, d.pair.promotecnt), (0x120, d.pair.covercnt), (0x128, d.pair.mismatchcnt)] off

/-- An entry of the ownership table (R222). -/
def Page.entry (p : Page) : Nat := bit01 p.valid * 2 ^ 15 + bit01 p.scrub * 2 ^ 14 + p.owner % 1024

/-- The five counters of a controller (R232, R442). -/
def Ctrl.counters (c : Ctrl) : List (Nat × W64) :=
  [(0x08, c.cecnt), (0x10, c.uecnt), (0x18, c.denycnt), (0x20, c.ovbbytes), (0x28, c.leasecnt)]

/-- The word at offset `off` of reservoir controller `n`'s block (R232). -/
def Dev.rsvWord (d : Dev) (n off : Nat) : Nat :=
  let c := d.ctrl n
  if 0x10000 ≤ off ∧ off < 0x70000 then
    let k := (off - 0x10000) / 2
    (Tab.at d.rsv.pages {} k).entry + (Tab.at d.rsv.pages {} (k + 1)).entry * 65536
  else match off with
    | 0x00 => bit01 c.ready * 2 ^ 31 + bit01 c.selfref * 2 ^ 30 + c.temp % 256 * 65536 + c.refmode % 4
    | 0x30 => half off (bit01 c.eccValid * 2 ^ 63 + c.eccAddr % 2 ^ 39)
    | 0x34 => half off (bit01 c.eccValid * 2 ^ 63 + c.eccAddr % 2 ^ 39)
    | _ => counterAt c.counters off

/-- The 32-bit word at offset `off` of the register space of a basin or device block. -/
def Dev.regWord (d : Dev) (unit off : Nat) : Nat :=
  if unit < 272 then d.basinWord unit off
  else if 0x1F8 ≤ unit then d.rsvWord (unit - 0x1F8) off
  else match unit with
    | 0x1F0 => d.hwWord off
    | 0x1F1 => d.cadWord off
    | 0x1F2 => d.fhWord off
    | 0x1F3 => d.pwrWord off
    | 0x1F4 => d.rilWord off
    | 0x1F5 => d.mirWord off
    | _ => 0

/-! ### Device addresses (R201 to R203, R375) -/

/-- What `n` bytes at a device address name for REG_READ and REG_WRITE (R375). -/
inductive RegTarget where
  /-- an address error, or LOGB = 1: INVALID_ARGUMENT -/
  | invalid
  /-- another region than register space: DENIED -/
  | denied
  /-- register space of a physical basin or device block -/
  | reg (unit off : Nat)
  deriving DecidableEq, Repr

/-- Decode `n` bytes at device address `a` for register access (R201 to R203, R375). -/
def regTarget (a n : Nat) : RegTarget :=
  match placeOf a with
  | .bad => .invalid
  | .rsv r => if rsvPopulated r n then .denied else .invalid
  | .locLog _ _ => .invalid
  | .locPhys _ o => if regionSize 0 0 < o + n then .invalid else .denied
  | .mgmt l u r o => if l ∨ regionSize u r < o + n then .invalid else if r = 1 then .reg u o else .denied

/-- The registers that every domain may read, by word (R18, R267, R356, R380, R401, R431). -/
def granted (unit off : Nat) : Bool :=
  if unit < 272 then off == 0
  else match unit with
    | 0x1F0 => off == 0x808
    | 0x1F1 => decide (off < 0x10)
    | 0x1F2 => decide (off < 0x10) || (decide (0x400 ≤ off) && decide (off < 0x440)) || off == 0x60C || off == 0x610
    | 0x1F3 => off == 0x04 || off == 0x10
    | _ => false

/-- One aligned read of 4 or 8 bytes; a 4 B read of CAD_CT's low word latches the high word and CAD_CTF until both have been read
(R267, R375). -/
def Dev.regRead (d : Dev) (unit off width : Nat) : Nat × Dev :=
  let c := d.cad
  let frac := c.latchFrac.getD (d.cadWord 8)
  if width = 4 then
    if unit = 0x1F1 ∧ off = 0 then (d.regWord unit 0, cadCtLowRead d)
    else if unit = 0x1F1 ∧ off = 4 then (c.latchHigh.getD (d.cadWord 4), d.setCad (c.sawLatch true false))
    else if unit = 0x1F1 ∧ off = 8 then (frac, d.setCad (c.sawLatch false true))
    else (d.regWord unit off, d)
  else if unit = 0x1F1 ∧ off = 8 then (frac + d.regWord unit 12 * 2 ^ 32, d.setCad (c.sawLatch false true))
  else (d.regWord unit off + d.regWord unit (off + 4) * 2 ^ 32, d)

/-- Consecutive reads of one width. -/
def Dev.regReads (d : Dev) (unit off width n : Nat) : List Nat × Dev :=
  match n with
  | 0 => ([], d)
  | k + 1 =>
    let r := d.regRead unit off width
    let rest := r.2.regReads unit (off + width) width k
    (r.1 :: rest.1, rest.2)

/-! ### Writes (R10, R11) -/

/-- A W1C write to a flag word: the bits of R81 that are written 1 clear. -/
def w1c (w : W32) (v : Nat) : W32 := w &&& ~~~(BitVec.ofNat 32 (v % 256))

/-- A write to basin register space. -/
def Basin.regWrite (x : Basin) (off v : Nat) : Basin :=
  let f := x.flags
  if 0x2000 ≤ off ∧ off < 0x2100 then
    let j := (off - 0x2000) / 4
    { x with flags := { f with jet := Tab.put f.jet j (w1c (Tab.at f.jet 0 j) v) } }
  else match off with
    | 0x2100 => { x with flags := { f with csc := w1c f.csc v } }
    | 0x2104 => { x with flags := { f with run0 := w1c f.run0 v } }
    | 0x2108 => { x with flags := { f with run1 := w1c f.run1 v } }
    | 0x210C => { x with flags := { f with prz := w1c f.prz v } }
    | 0x2110 => { x with flags := { f with lpe := w1c f.lpe v } }
    | 0x2114 => { x with eng := { x.eng with lpeRnd := v % 8 } }
    | 0x270C => if bitOf v 31 then { x with cis := { x.cis with eccValid := false } } else x
    | _ => x

/-- A write to RIL_CFG: ENABLE rising trains the port, ENABLE falling takes it DOWN and destroys its keys (R301, R322). -/
def Dev.cfgWrite (d : Dev) (p v : Nat) : Dev :=
  let x := d.port p
  let y := { x with asym := bitsOf v 31 16, peerpol := bitOf v 5, wakesend := bitOf v 4, wakeen := bitOf v 3, variant := bitsOf v 2 1,
                    enable := bitOf v 0 }
  if bitOf v 0 then (if x.enable then d.putPort p y else (d.putPort p y).tryTrain p)
  else if x.enable ∨ x.state ≠ 0 then (d.putPort p { y with bursts := 0 }).portDown p 7
  else d.putPort p y

/-- A write to a port block. -/
def Dev.portWrite (d : Dev) (p off v : Nat) : Dev :=
  match off with
  | 0x00 => d.cfgWrite p v
  | 0x04 => if bitOf v 26 then d.putPort p { d.port p with wakeseen := false } else d
  | _ => d

/-- One aligned 4 B write of `v` at offset `off` of a unit's register space. Reserved fields and RO fields ignore it (R10, R11). -/
def Dev.wordWrite (d : Dev) (unit off v : Nat) : Dev :=
  if unit < 272 then d.putBasin unit ((d.basin unit).regWrite off v)
  else if 0x1F8 ≤ unit then
    (if off = 0x34 ∧ bitOf v 31 then d.putCtrl (unit - 0x1F8) { d.ctrl (unit - 0x1F8) with eccValid := false } else d)
  else match unit with
    | 0x1F1 => if off = 0x18 then d.setCad { d.cad with holdlim := BitVec.ofNat 32 v } else d
    | 0x1F3 =>
      if off = 0x08 then d.setPow { d.pow with wakeen := v % 64 }
      else if off = 0x0C then d.setPow { d.pow with wakesrc := Nat.land d.pow.wakesrc (Nat.xor 63 (v % 64)) }
      else d
    | 0x1F4 =>
      if off < 0x400 then d.portWrite (off / 256) (off % 256) v
      else if off = 0x400 then
        d.setLink { d.link with master := bitOf v 8, fwd := bitsOf v 7 4, srcen := bitOf v 2, srcport := bitsOf v 1 0 }
      else if off = 0x404 then rilTopoWrite (BitVec.ofNat 32 v) d
      else d
    | 0x1F5 => if off < 0x100 then d.portWrite 4 off v else d
    | _ => d

/-- One aligned write of 4 or 8 bytes (R375). -/
def Dev.regWrite (d : Dev) (unit off width v : Nat) : Dev :=
  if width = 8 then (d.wordWrite unit off (v % 2 ^ 32)).wordWrite unit (off + 4) (v / 2 ^ 32 % 2 ^ 32)
  else d.wordWrite unit off (v % 2 ^ 32)

/-! ### BAR0 (R363, R366, R369, R373) -/

/-- Vectors of a function's MSI-X table (R360). -/
def vectorsOf (f : Nat) : Nat := if f = 0 then 2048 else 256

/-- Requests of function `f` in progress. -/
def Dev.inprogOf (d : Dev) (f : Nat) : Nat := (d.fh.inprog.filter (fun r => r.func == f && !r.cut)).length

/-- FH_MB_STATUS (R373). -/
def Dev.mbStatus (d : Dev) (f : Nat) : Nat :=
  let x := d.func f
  bit01 d.fh.mbReady * 2 ^ 31 + bit01 d.fh.recov * 2 ^ 30 + d.inprogOf f % 8 * 2 ^ 16 + x.rsptail % 64 * 256 + x.reqhead % 64

/-- What a 4 B host read of BAR0 of function `f` returns (R363, R373). -/
def Dev.bar0Word (d : Dev) (f off : Nat) : Nat :=
  let x := d.func f
  match off with
  | 0x0000 => 0x72101100
  | 0x0004 => d.fh.fwversion.toNat
  | 0x0008 => d.svcStatus.toNat
  | 0x000C => d.cad.tstat
  | 0x0010 => d.cadWord 0
  | 0x0014 => d.cadWord 4
  | 0x0018 => d.linkstat
  | 0x1000 => half off x.reqbase
  | 0x1004 => half off x.reqbase
  | 0x1008 => half off x.rspbase
  | 0x100C => half off x.rspbase
  | 0x1010 => bit01 x.rspvecEn * 2 ^ 27 + x.rspvec % 2048 * 65536 + bit01 x.enable
  | 0x1014 => d.mbStatus f
  | 0x1018 => x.reqtail
  | 0x101C => x.rsphead
  | 0x1020 => x.evqHead
  | 0x1024 => x.evqTail
  | _ =>
    if 0x2000 ≤ off ∧ off < 0x2000 + 16 * vectorsOf f then
      let v := (off - 0x2000) / 16
      if off % 16 = 12 then bit01 (decide (v ∉ x.unmasked)) else Mem.readLe x.msixTable (off - 0x2000) 4
    else if 0xA000 ≤ off ∧ off < 0xB000 then
      (List.range 32).foldl (fun n k => n + bit01 (decide ((off - 0xA000) * 8 + k ∈ x.pending)) * 2 ^ k) 0
    else 0

/-- FH_MB_CTRL with ENABLE rising: Fountainhead sets REQHEAD and RSPTAIL to 0, and the response ring starts its first pass (R369,
R371); the supervisor records the function that owns the ring (R349). -/
def Func.enabled (x : Func) (f : Nat) : Func :=
  if x.enable then x else { x with enable := true, reqhead := 0, rsptail := 0, rspPhase := 1, ringOwner := some f }

/-- A vector unmasked by host software is sent if it was pending (R366). -/
def Dev.unmask (d : Dev) (f v : Nat) : Dev :=
  let x := d.func f
  let d := d.putFunc f { x with unmasked := if v ∈ x.unmasked then x.unmasked else v :: x.unmasked, pending := x.pending.filter (· ≠ v) }
  if v ∈ x.pending then d.emit (.msix f v) else d

/-- One aligned 4 B host write to BAR0 of function `f`, outside the doorbells. -/
def Dev.bar0Write (d : Dev) (f off v : Nat) : Dev :=
  let x := d.func f
  let base (old : Nat) (hi : Bool) : Nat := if hi then old % 2 ^ 32 + v * 2 ^ 32 else old / 2 ^ 32 * 2 ^ 32 + v / 4096 * 4096
  match off with
  | 0x1000 => if x.enable then d else d.putFunc f { x with reqbase := base x.reqbase false }
  | 0x1004 => if x.enable then d else d.putFunc f { x with reqbase := base x.reqbase true }
  | 0x1008 => if x.enable then d else d.putFunc f { x with rspbase := base x.rspbase false }
  | 0x100C => if x.enable then d else d.putFunc f { x with rspbase := base x.rspbase true }
  | 0x1010 =>
    let y := { x with rspvecEn := bitOf v 27, rspvec := bitsOf v 26 16 }
    d.putFunc f (if bitOf v 0 then y.enabled f else { y with enable := false })
  | 0x1018 => d.putFunc f { x with reqtail := v % 2 ^ 14 }
  | 0x101C => d.putFunc f { x with rsphead := v % 2 ^ 14 }
  | 0x1020 => d.putFunc f { x with evqHead := v % 2 ^ 14 }
  | _ =>
    if 0x2000 ≤ off ∧ off < 0x2000 + 16 * vectorsOf f then
      let n := (off - 0x2000) / 16
      if off % 16 = 12 then (if bitOf v 0 then d.putFunc f { x with unmasked := x.unmasked.filter (· ≠ n) } else d.unmask f n)
      else d.putFunc f { x with msixTable := Mem.writeLe x.msixTable (off - 0x2000) 4 v }
    else d

/-- A host write to BAR0, of any width that the region takes; a function in reset takes none, and refuses its doorbells (R362). -/
def Dev.bar0 (d : Dev) (f off width : Nat) (v : W64) : Dev :=
  if 256 ≤ f then d
  else if 0x80000 ≤ off then doorbell f off width v d
  else if (d.func f).inReset ∨ (width ≠ 4 ∧ width ≠ 8) ∨ off % width ≠ 0 then d
  else if width = 8 then (d.bar0Write f off (v.toNat % 2 ^ 32)).bar0Write f (off + 4) (v.toNat / 2 ^ 32)
  else d.bar0Write f off (v.toNat % 2 ^ 32)

/-- REGISTER_WRITE: a write to BAR0 of a function, or to a register at a device address. -/
def registerWrite (f : Option Nat) (addr width : Nat) (v : W64) (d : Dev) : Dev :=
  match f with
  | some k => d.bar0 k addr width v
  | none =>
    if (width ≠ 4 ∧ width ≠ 8) ∨ addr % width ≠ 0 then d
    else match regTarget addr width with
      | .reg u o => d.regWrite u o width v.toNat
      | _ => d
def execRegisterWrite (f : Option Nat) (addr width : Nat) (v : W64) (s : State) : Host.Outcome State Fault Refusal :=
  onCore (registerWrite f addr width v) s

/-! ### The health record (R442) -/

/-- The 106 counters of BLOCKS, in order. -/
def Dev.blockCounters (d : Dev) : List Nat :=
  [d.hw.dbrej, d.hw.windeny, d.cad.frame, d.cad.swapcnt, d.cad.ovrcnt, d.fh.cmdcnt, d.fh.evlost, d.flt.fencecnt, d.flt.replaycnt,
   d.flt.epochev, d.flt.coresw].map BitVec.toNat
  ++ [d.boot.attempts.toNat, d.still.stillcnt.toNat]
  ++ [d.pow.wakecnt, d.pow.trkcnt, d.pow.ovrcnt, d.pow.capcnt, d.pow.abortcnt].map BitVec.toNat
  ++ (List.range 5).flatMap (fun p => (d.port p).counters.map (fun c => c.2.toNat))
  ++ [d.pair.promotecnt, d.pair.covercnt, d.pair.mismatchcnt].map BitVec.toNat
  ++ (List.range 8).flatMap (fun n => (d.ctrl n).counters.map (fun c => c.2.toNat))

/-- The 8 B value at offset 8k of the record, the header apart. -/
def Dev.healthWord (d : Dev) (k : Nat) : Nat :=
  if k < 8 then 0
  else if k < 8 + 272 * 16 then ((((d.basin ((k - 8) / 16)).counters d.clocks).map (fun c => c.2.toNat)).getD ((k - 8) % 16) 0)
  else d.blockCounters.getD (k - 4360) 0

/-- One page of the record: CTFIRST and CTLAST of the page stand in the record's header (R442). -/
def Dev.healthPage (d : Dev) (off : Nat) : List Byte :=
  let n := min 4096 (35728 - off) / 8
  (List.range n).flatMap (fun i =>
    let k := off / 8 + i
    leBytes 8 (if k = 0 ∨ k = 1 then d.ns else if k = 2 then 35728 else d.healthWord k))

end Sys2Proof.Machine
end

