-- ==== Sys2Proof/Machine/Host.lean ====
section
/-! DEFINITION. The PCIe functions and the mailboxes: rings, requests, responses, BAR2, resets and the control-core takeover (R349,
R358 to R373, R376). -/

namespace Sys2Proof.Machine

open Sys2Proof

/-! ### Mailbox registers (R369, R371, R377) -/

/-- A host write that names function `f`, when it exists and is not being reset. -/
def Dev.onFunc (f : Nat) (g : Dev → Dev) (d : Dev) : Dev := if f < 256 ∧ !(d.func f).inReset then g d else d

def execMbReqtailWrite (f v : Nat) (s : State) : Host.Outcome State Fault Refusal := onCore (Dev.onFunc f (fun d => d.bar0Write f 0x1018 v)) s
/-- MB_ENABLE: fetching starts at slot 0. -/
def execMbEnable (f : Nat) (s : State) : Host.Outcome State Fault Refusal :=
  onCore (Dev.onFunc f (fun d => d.putFunc f ((d.func f).enabled f))) s
/-- MB_DISABLE: fetching stops; requests in progress go on. -/
def execMbDisable (f : Nat) (s : State) : Host.Outcome State Fault Refusal :=
  onCore (Dev.onFunc f (fun d => d.putFunc f { d.func f with enable := false })) s
/-- MB_RSPHEAD_WRITE: response entries are freed. -/
def execMbRspheadWrite (f v : Nat) (s : State) : Host.Outcome State Fault Refusal := onCore (Dev.onFunc f (fun d => d.bar0Write f 0x101C v)) s
/-- EVQ_HEAD_WRITE: event entries are freed. -/
def execEvqHeadWrite (f v : Nat) (s : State) : Host.Outcome State Fault Refusal := onCore (Dev.onFunc f (fun d => d.bar0Write f 0x1020 v)) s

/-! ### Responses (R369, R371, R376, R378) -/

/-- What a command answers: STATUS, DETAIL, RES words and payload. -/
structure Resp where
  (status detail : Nat := 0)
  (res : List Nat := [])
  (payload : List Byte := [])
  deriving DecidableEq, Repr

/-- Status codes of R376. -/
def stBUSY : Nat := 0x100
def stBUSY_RETRY : Nat := 0x101
def stTOO_LATE : Nat := 0x102
def stBAD_OPCODE : Nat := 0x200
def stINVALID : Nat := 0x201
def stBAD_PAYLOAD : Nat := 0x202
def stBAD_SIGNATURE : Nat := 0x203
def stDENIED : Nat := 0x300
def stSTALE : Nat := 0x301
def stNOT_FOUND : Nat := 0x302
def stWRONG_STATE : Nat := 0x303
def stIN_USE : Nat := 0x304
def stLIMIT : Nat := 0x400
def stNO_SPACE : Nat := 0x401
def stREJECTED : Nat := 0x500
def stFLOOR_CONFLICT : Nat := 0x501
def stSHARE : Nat := 0x502
def stTOPOLOGY : Nat := 0x503
def stROLLBACK : Nat := 0x600
def stCHUNK_HASH : Nat := 0x601
def stNOT_PAIRED : Nat := 0x700

/-- The device unchanged, with a status. -/
def Dev.no (d : Dev) (st : Nat) (detail : Nat := 0) : Dev × Resp := (d, { status := st, detail := detail })
/-- The device, with OK. -/
def Dev.yes (d : Dev) (res : List Nat := []) (payload : List Byte := []) : Dev × Resp := (d, { res := res, payload := payload })

/-- A 64-bit value as two RES words, low word first. -/
def words2 (v : Nat) : List Nat := [v % 2 ^ 32, v / 2 ^ 32 % 2 ^ 32]

/-- The 64 B response slot (R369). -/
def slotBytes (r : Req) (x : Resp) (phase ct rlen : Nat) : List Byte :=
  leBytes 2 r.opcode ++ leBytes 2 r.tag ++ leBytes 2 x.status ++ leBytes 2 phase ++ leBytes 4 rlen ++ leBytes 4 x.detail ++ leBytes 8 ct
    ++ (List.range 10).flatMap (fun i => leBytes 4 (x.res.getD i 0))

/-- Write a mailbox response: payload, slot, vector (R371); or send it over MCTP, whose slot has no ring position, so that PHASE is
open (R378). Every answer is counted in FH_CMDCNT (R380). -/
def Dev.respond (d : Dev) (r : Req) (x : Resp) : Dev :=
  if r.cut then d else
  let d := d.setFh { d.fh with cmdcnt := d.fh.cmdcnt + 1 }
  let pay := x.payload.take r.rcap
  if r.mctp then
    let v := d.openValue
    v.2.emit (.mctp (slotBytes r x (v.1.toNat % 2) d.ns pay.length) pay)
  else
    let f := d.func r.func
    let d := if pay = [] then d else d.hostWrite r.raddr pay
    let d := d.hostWrite (f.rspbase + 64 * f.rsptail) (slotBytes r x f.rspPhase d.ns pay.length)
    let d := d.putFunc r.func { f with rsptail := (f.rsptail + 1) % 64, rspPhase := if f.rsptail = 63 then 1 - f.rspPhase else f.rspPhase }
    if f.rspvecEn then d.vector r.func f.rspvec else d

/-! ### Requests (R369, R370, R373, R374) -/

/-- A request slot, parsed (R369). -/
def reqOf (f : Nat) (slot : List Byte) (ct : Nat) : Req :=
  let w (o n : Nat) : Nat := leNat ((slot.drop o).take n)
  { func := f, opcode := w 0 2, tag := w 2 2, domain := w 4 2 % 1024, paddr := w 8 8, plen := w 0x10 4, rcap := w 0x14 4, raddr := w 0x18 8,
    args := (List.range 8).map (fun i => BitVec.ofNat 32 (w (0x20 + 4 * i) 4)), start := ct }

/-- ARG word `i`. -/
def Req.arg (r : Req) (i : Nat) : Nat := (r.args.getD i 0).toNat
/-- The 64-bit argument in ARG words `i` and `i + 1`. -/
def Req.arg64 (r : Req) (i : Nat) : Nat := r.arg i + r.arg (i + 1) * 2 ^ 32

/-- Who may use a command (R373, R374). -/
inductive Perm where
  | operator | domain | any
  deriving DecidableEq, Repr

/-- The command table: the permission of each opcode of R374. D/O commands take `domain`: the object decides. -/
def permOf (op : Nat) : Option Perm :=
  if op ∈ [0x101, 0x102, 0x103, 0x104, 0x106, 0x107, 0x200, 0x201, 0x203, 0x303, 0x304, 0x402, 0x501, 0x502, 0x503, 0x600, 0x601, 0x602,
           0x603, 0x604, 0x901, 0xA01, 0xA02, 0xB01, 0xB02, 0xB03, 0xB04, 0xC00, 0xC01, 0xC02, 0xC03, 0xC04, 0xC05, 0xD01, 0xE02, 0xF00,
           0xF01] then some .operator
  else if op ∈ [0x105, 0x202, 0x204, 0x205, 0x300, 0x301, 0x302, 0x400, 0x401, 0x403, 0x404, 0x405, 0x500, 0x504, 0x700, 0x701, 0x702,
                0x703, 0x704, 0x705, 0x706, 0x707, 0x800, 0x801] then some .domain
  else if op ∈ [0x100, 0x900, 0xA00, 0xB00, 0xD00, 0xE00, 0xE01] then some .any
  else none

/-- Requests of function `f` that Fountainhead may start: one is waiting, fewer than 4 are in progress, and the response ring will
have room for its response (R370, R371). -/
def Dev.startable (d : Dev) (f : Nat) : Bool :=
  let x := d.func f
  let n := d.inprogOf f
  x.enable && !x.inReset && x.reqhead % 64 != x.reqtail % 64 && decide (n < 4) && decide ((x.rsptail + 64 - x.rsphead % 64) % 64 + n + 1 < 64)

/-- The function whose turn it is: the first one startable from `turn` on (R370). -/
def Dev.turnOf (d : Dev) : Option Nat :=
  let fs := (d.funcs.map Prod.fst).filter (fun f => decide (f < 256) && d.startable f)
  match fs.filter (fun f => decide (d.fh.turn ≤ f)) with
  | f :: _ => some f
  | [] => fs.head?

/-- The mailbox of function 0 also carries the later pieces of a recovery image, while the boot ROM receives it (R411, R412). -/
def Dev.receiving (d : Dev) : Bool := d.coreOn && d.boot.step == 0xE

/-- REQUEST_START: Fountainhead fetches the request of the function whose turn it is. `slot` is what it reads from the ring, and
`payload` what it reads at PADDR, none for a read that failed. A request that its slot already condemns is answered at once. -/
def requestStart (f : Nat) (slot : List Byte) (payload : Option (List Byte)) (d : Dev) : Dev :=
  let r := { reqOf f slot d.ns with pair := d.fh.corePair }
  if d.turnOf ≠ some f ∨ 32 ≤ d.fh.inprog.length ∨ (d.receiving ∧ ¬ (f = 0 ∧ r.opcode = 0xC05)) then d
  else
    let x := d.func f
    let d := (d.putFunc f { x with reqhead := (x.reqhead + 1) % 64 }).setFh { d.fh with turn := (f + 1) % 256 }
    if !d.receiving && !d.boundTo r.domain f then d.respond r { status := stDENIED }
    else match permOf r.opcode with
      | none => d.setFh { d.fh with inprog := d.fh.inprog ++ [r] }
      | some p =>
        let none_ := r.paddr = 0 ∨ r.plen = 0
        if r.paddr % 64 ≠ 0 ∨ r.raddr % 64 ≠ 0 ∨ 4096 < r.plen ∨ 4096 < r.rcap ∨ (¬ none_ ∧ payload.isNone) then
          d.respond r { status := stBAD_PAYLOAD }
        else if p = .operator ∧ r.domain ≠ 0 then d.respond r { status := stDENIED }
        else d.setFh { d.fh with inprog := d.fh.inprog ++ [{ r with payload := if none_ then [] else (payload.getD []).take r.plen }] }
def execRequestStart (f : Nat) (slot : List Byte) (payload : Option (List Byte)) (s : State) : Host.Outcome State Fault Refusal :=
  answer (onlyIf (fun d => d.fwOn || d.receiving) (requestStart f slot payload)) s

/-- Serve the oldest request in progress, when it is function `f`'s and carries the opcode: requests take effect in the order in which
they started (R370). -/
def Dev.serve (f op : Nat) (g : Req → Dev → Dev × Resp) (d : Dev) : Dev :=
  match d.fh.inprog with
  | [] => d
  | r :: rest =>
    if r.func = f ∧ r.opcode = op then
      let x := g r (d.setFh { d.fh with inprog := rest })
      x.1.respond r x.2
    else d

/-- A mailbox command row. -/
def onCmd (f op : Nat) (g : Req → Dev → Dev × Resp) (s : State) : Host.Outcome State Fault Refusal :=
  answer (onlyIf Dev.fwOn (fun d => Dev.serve f op g d.due)) s

/-- UNKNOWN_OPCODE: an opcode outside the command table ends with BAD_OPCODE (R374). -/
def unknownOpcode (f : Nat) (d : Dev) : Dev :=
  match d.fh.inprog with
  | [] => d
  | r :: rest =>
    if r.func = f ∧ permOf r.opcode = none then (d.setFh { d.fh with inprog := rest }).respond r { status := stBAD_OPCODE } else d
def execUnknownOpcode (f : Nat) (s : State) : Host.Outcome State Fault Refusal := answer (onlyIf Dev.fwOn (unknownOpcode f)) s

/-! ### BAR2, errors and the link (R361, R364, R368) -/

/-- Vendor ID, device ID and class code of a function's configuration space (R360), which no row of the table reads. -/
def pcieIdent (f : Nat) : Nat × Nat × Nat := (0x1EB9, if f = 0 then 0x7210 else 0x7211, 0x120000)

/-- Log2 of the size of BAR2 of a function: 1 GiB to 512 GiB on function 0, 1 GiB to 64 GiB on a virtual function (R360). -/
def barLog (f : Nat) : Nat := 30 + Config.barStep f % (if f = 0 then 10 else 7)

/-- Count a BAR2 access that was refused or denied. -/
def Dev.winDeny (d : Dev) : Dev := d.setHw { d.hw with windeny := d.hw.windeny + 1 }

/-- The domain of quarter `q` of function `f`. -/
def Dev.slotDomain (d : Dev) (f q : Nat) : Option Nat :=
  (List.find? (fun (p : Nat × Nat) => p.1 == 4 * f + q) d.hw.funcmap).map Prod.snd

/-- BAR2_ACCESS: a host read of `len` bytes, or a write of `data`, at offset `off` of BAR2. PCIe splits requests at 4 KiB, so that none
crosses a quarter. -/
def bar2Access (f off len : Nat) (data : Option (List Byte)) (d : Dev) : Dev :=
  let n := (data.map List.length).getD len
  let quarter := 2 ^ (barLog f - 2)
  let zeros (d : Dev) : Dev := if data.isSome then d else d.emit (.hostData f (List.replicate n 0) false)
  if n = 0 ∨ 4096 < off % 4096 + n ∨ 4 * quarter ≤ off then d
  else match d.slotDomain f (off / quarter) with
    | none => zeros d.winDeny
    | some dom =>
      let a := (d.domain dom).wbase + off % quarter
      if !rsvPopulated a n then zeros d.winDeny
      else if !d.epochOk 0x1F0 (d.ownView 0x1F0).epoch then
        d.holdOr { recv := ctrlUnit a, src := 0x1F0, epoch := (d.ownView 0x1F0).epoch.toNat, domain := dom, addr := a, len := n,
                   write := data.isSome, bytes := data.getD [] }
      else match data with
        | some bs =>
          let r := d.rsvWrite dom a bs
          if r.2 = .denied [] then r.1.winDeny else r.1
        | none =>
          let r := d.rsvRead dom a n
          match r.2 with
          | .ok bs => r.1.emit (.hostData f bs false)
          | .poisoned => let o := r.1.openBytes n; o.2.emit (.hostData f o.1 true)
          | .denied bs => r.1.winDeny.emit (.hostData f bs false)
          | .bad => zeros r.1.winDeny
def execBar2Access (f off len : Nat) (data : Option (List Byte)) (s : State) : Host.Outcome State Fault Refusal :=
  onCore (Dev.onFunc f (bar2Access f off len data)) s

/-- POISONED_TLP: discarded and reported through AER. -/
def execPoisonedTlp (f : Nat) (s : State) : Host.Outcome State Fault Refusal := onCore (Dev.onFunc f (fun d => d.emit (.aer f))) s

/-- The rate of a trained link, in units that order links: lanes times the transfer rate (R361). -/
def linkRate (speed width : Nat) : Nat := width * (if speed = 6 then 4 else if speed = 5 then 2 else if speed = 4 then 1 else 0)

/-- HOSTLINK_RETRAIN: the link has trained at another speed and width. A lower rate under an active table raises a host-link event. -/
def hostlinkRetrain (speed width : Nat) (flit : Bool) (d : Dev) : Dev :=
  let lower := linkRate speed width < linkRate d.hw.speed d.hw.width
  let d := d.setHw { d.hw with speed := speed, width := width, flit := flit, l0 := true }
  if lower ∧ d.cad.active then d.raiseO 0x15 0x1F0 d.linkstat 0 0 else d
def execHostlinkRetrain (speed width : Nat) (flit : Bool) (s : State) : Host.Outcome State Fault Refusal :=
  onCore (hostlinkRetrain speed width flit) s

/-! ### Resets of a function and of the control cores (R349, R362) -/

/-- FUNCTION_RESET: it begins (`fin` false) or ends. The mailbox, its rings and its event queue are as after reset; requests in progress
run on, and their responses are discarded. -/
def functionReset (f : Nat) (fin : Bool) (d : Dev) : Dev :=
  if 256 ≤ f then d
  else if fin then (if (d.func f).inReset then d.putFunc f { d.func f with inReset := false } else d)
  else (d.putFunc f { inReset := true }).setFh
    { d.fh with inprog := d.fh.inprog.map (fun r => if r.func = f then { r with cut := true } else r) }
def execFunctionReset (f : Nat) (fin : Bool) (s : State) : Host.Outcome State Fault Refusal := onCore (functionReset f fin) s

/-- CORE_MISCOMPARE: the cores halt and test themselves, `pass` lists those that passed. The one that passes is paired with the spare core
and firmware resumes; every request in progress is answered BUSY_RETRY and has made no change. With no pair left Fountainhead stays
halted, in recovery. R354 asks for an event and R377 has no type for it: the model raises FENCE with class 7 and no logical basin
(DESIGN CHOICE, notes/assumptions/98.md). -/
def coreMiscompare (pass : List Nat) (d : Dev) : Dev :=
  let two := ((List.range 3).filter (fun c => bitOf (d.fh.paired pass).corePair c)).length == 2
  let d := if two then d.raiseO 6 0x1F2 0x1FF 0 7 else d
  let reqs := d.fh.inprog
  let d := (d.setFh { d.fh.paired pass with inprog := if two then [] else reqs, running := two, recov := !two, mbReady := two }).setFlt
    { d.flt with coresw := if two then d.flt.coresw + 1 else d.flt.coresw }
  if two then reqs.foldl (fun d r => d.respond r { status := stBUSY_RETRY }) d else d
def execCoreMiscompare (pass : List Nat) (s : State) : Host.Outcome State Fault Refusal := answer (onlyIf Dev.fwOn (coreMiscompare pass)) s

end Sys2Proof.Machine
end

