-- ==== Sys2Proof/Machine/Runnel.lean ====
section
/-! DEFINITION. Runnels: descriptor checks, the micro-ops, the caps and retirement (R36, R187 to R200, R272). -/

namespace Sys2Proof.Machine

open Sys2Proof

/-! ### The micro-program store (R197 to R199) -/

/-- The first micro-ops of the installed functions: the library's, and the operator's that have been written (R196, R198). -/
def Dev.muEntry (d : Dev) (i : Nat) : Bool :=
  d.lib.hasEntry i

/-- The micro-ops of an installed function; none for the shipped library, whose words the spec does not print. -/
def Dev.muWords (d : Dev) (i : Nat) : Option (List Mop) := (Tab.find? d.lib.fns i).map (fun p => p.words.map mopOf)

/-- The entry is a function of the shipped library whose words the spec does not print: all but the sigmoid, and but those that an
update has replaced. Its micro-ops are not known one by one; RUNNEL_RETIRE carries the whole function out
(notes/assumptions/28.md). -/
def Dev.libOp (d : Dev) (i : Nat) : Bool := d.lib.libver != 0 && i ∈ libEntries && i != 0x0A0 && (Tab.find? d.lib.fns i).isNone

/-! ### Checks and claims at issue (R196) -/

/-- What the function uses: input A, input B, output D, records. A library function reads A and writes D, and SINCOSQ writes records
too (R199). -/
def Dev.muUses (d : Dev) (i : Nat) : Bool × Bool × Bool × Bool :=
  match d.muWords i with
  | some ws => (ws.any (fun m => m.op == 1 && m.mod % 2 == 0), ws.any (fun m => m.op == 1 && m.mod % 2 == 1), ws.any (fun m => m.op == 2),
                ws.any (fun m => m.op == 3))
  | none => (true, false, true, i == 0x120)

/-- A runnel format: raw words, L16, A32, A16 or binary32. -/
def muFmtOk (f : Nat) : Bool := f == fRaw || f == fL16 || f == fA32 || f == fA16 || f == fB32

/-- Bytes of an element; a raw one is a 32-bit word. -/
def muBytes (f : Nat) : Nat := if f = fL16 ∨ f = fA16 then 2 else 4

/-- Ranges read and written by an operation of `n` elements. -/
def Rnl.ranges (q : Rnl) (u : Bool × Bool × Bool × Bool) (n : Nat) : List (Nat × Nat) × List (Nat × Nat) :=
  ((if u.1 && n != 0 then [(q.aaddr, n * muBytes q.afmt)] else []) ++ (if u.2.1 && n != 0 then [(q.baddr, n * muBytes q.bfmt)] else []),
   (if u.2.2.1 && n != 0 then [(q.daddr, n * muBytes q.dfmt)] else []) ++ [(q.raddr, if u.2.2.2 then 8 + 8 * q.rcap else 4)])

/-- The fault code of a runnel operation at issue. -/
def Dev.rnlCode (d : Dev) (x : Basin) (r : Run) (q : Rnl) (n : Nat) : Nat :=
  if !d.muEntry q.entry then 2
  else if !(muFmtOk q.afmt && muFmtOk q.bfmt && muFmtOk q.dfmt) then 3
  else if q.raddr % 8 ≠ 0 ∨ (q.cntsrc ∧ q.cntaddr % 4 ≠ 0) then 6
  else
    let g := q.ranges (d.muUses q.entry) n
    let rs : List (Nat × Nat) := g.1 ++ g.2 ++ (if q.cntsrc then [(q.cntaddr, 4)] else [])
    match rs.find? (fun p => x.rangeCode r p.1 p.2 != 0) with
    | some p => x.rangeCode r p.1 p.2
    | none => 0

/-- The operation's lane state at its start (R187, R196). -/
def Rnl.start (q : Rnl) (count : Nat) : RunnelOp :=
  let n := min count q.ecap
  { count := n, group := 0, upc := q.entry, entry := q.entry, em := q.em, rm := q.rm, subn := q.keep, afmt := q.afmt, bfmt := q.bfmt,
    dfmt := q.dfmt, aaddr := q.aaddr, baddr := q.baddr, daddr := q.daddr, raddr := q.raddr, icap := q.icap, rcap := q.rcap, stag := q.stag,
    aoff := q.aoff, idxbase := q.idxbase, iters := 0, records := 0, regs := [], ended := decide (n = 0), ecapr := decide (q.ecap < count),
    icapr := false, rcapr := false }

/-- A cap is reached: TRUNC for the period, a cap event, and the counts (R36, R200). -/
def Dev.capped (d : Dev) (b cap : Nat) : Dev :=
  let x := d.basin b
  match x.seq.active with
  | none => d
  | some a =>
    let i := runIndex a.run
    let d := d.putBasin b { x with seq := { x.seq with active := some { a with trunc := true } }, eng := { x.eng with trunccnt := x.eng.trunccnt + 1 } }
    let d := if handleOf i (d.stream i) = a.run.handle then d.putStream i { d.stream i with ntrunc := (d.stream i).ntrunc + 1 } else d
    d.raiseS 3 b i a.run.planStep cap 0

/-- Which runnel's engine: only 0 and 1 exist. -/
def rnlEngine (r : Nat) : Option Engine := if r = 0 then some .runnel0 else if r = 1 then some .runnel1 else none

/-- RUN_STATUS of a runnel: cap bits 30 to 28 and UPC. -/
def EngineRegs.runStatus (e : EngineRegs) (r : Nat) (q : RunnelOp) : EngineRegs :=
  let caps := 4 * bit01 q.ecapr + 2 * bit01 q.icapr + bit01 q.rcapr
  if r = 0 then { e with run0Caps := caps, run0Upc := q.upc } else { e with run1Caps := caps, run1Upc := q.upc }

/-! ### Lanes (R187) -/

/-- The active lanes of the current group. -/
def RunnelOp.lanes (q : RunnelOp) : List Nat := (List.range 32).filter (fun l => decide (32 * q.group + l < q.count))

/-- A lane register: v0 reads 0, and one that nothing has written yet holds an open value. -/
def RunnelOp.reg (q : RunnelOp) (l k : Nat) : Nat := if k = 0 then 0 else (Tab.at q.regs (Config.laneInit k) (16 * l + k)).toNat

/-- A write of a lane register; writes to v0 are ignored. -/
def RunnelOp.setReg (q : RunnelOp) (l k v : Nat) : RunnelOp := if k = 0 then q else { q with regs := Tab.put q.regs (16 * l + k) (BitVec.ofNat 32 v) }

/-- The element index a lane presents: IDXBASE is added to element indices (R192, R196). -/
def RunnelOp.index (q : RunnelOp) (l : Nat) : Nat := (q.idxbase + 32 * q.group + l) % 2 ^ 32

/-- The rounding code of a micro-op: 0b11 takes the descriptor's (R191). -/
def RunnelOp.rmOf (q : RunnelOp) (m : Mop) : Nat := if m.rm = 3 then q.rm else m.rm

/-- The draw of a lane at the current micro-op (R192, R272). -/
def Active.laneDraw (a : Active) (q : RunnelOp) (l : Nat) : Nat :=
  sprayDraw a.seedr (if a.evalTags then Nat.xor q.stag (2 ^ 31) else q.stag) (2 ^ 11 * q.index l + q.upc)

/-! ### Running a micro-op -/

/-- The next micro-op of runnel r, if it is the one asked for, carried out by `k` on the device, the run, the operation and its lane
state. -/
def Dev.mu (d : Dev) (b r : Nat) (sel : Mop → Bool) (k : Dev → Active → Op → RunnelOp → Mop → Dev) : Dev :=
  let x := d.basin b
  match rnlEngine r, x.seq.active with
  | some e, some a =>
    match x.oldest e with
    | none => d
    | some o => match o.rnl with
      | none => d
      | some q =>
        let m := mopOf (d.muWord x q.upc)
        if q.ended || d.libOp q.entry || !sel m then d else k d a o q m
  | _, _ => d

/-- The operation with its lane state after a micro-op. -/
def Dev.putLanes (d : Dev) (b r : Nat) (o : Op) (q : RunnelOp) (draws : Nat) : Dev :=
  let x := d.basin b
  d.putBasin b { x.setOp { o with rnl := some q } with
    eng := { (x.eng.runStatus r q) with drawcnt := x.eng.drawcnt + BitVec.ofNat 64 draws } }

/-- A micro-op that gives each active lane's vd a value from va, vb, vc and a draw, with flags. -/
def Dev.muLanes (d : Dev) (b r : Nat) (sel : Mop → Bool) (stoch : RunnelOp → Mop → Bool)
    (f : RunnelOp → Mop → Nat → Nat → Nat → Nat → Nat → Flagged) (mode : RunnelOp → Mop → W32) : Dev :=
  d.mu b r sel (fun d a o q m =>
    let s := stoch q m
    let n := q.lanes.foldl (fun (t : RunnelOp × W32) l =>
      let v := f q m l (q.reg l m.va) (q.reg l m.vb) (q.reg l m.vc) (if s then a.laneDraw q l else 0)
      (t.1.setReg l m.vd v.1, t.2 ||| v.2)) (q, if q.lanes = [] then 0 else mode q m)
    d.putLanes b r { o with flags := o.flags ||| n.2 } { n.1 with upc := (q.upc + 1) % 2048 } (if s then q.lanes.length else 0))

/-- No draw, no mode flag. -/
def noDraw (_ : RunnelOp) (_ : Mop) : Bool := false
def noMode (_ : RunnelOp) (_ : Mop) : W32 := 0
/-- The micro-op rounds under RM. -/
def rmDraw (q : RunnelOp) (m : Mop) : Bool := q.rmOf m == 2
def rmMode (q : RunnelOp) (m : Mop) : W32 := rmFlag (q.rmOf m)
/-- The micro-op rounds under the EM: 0b11 works as 0b00 with INV (R196). -/
def emDraw (q : RunnelOp) (_ : Mop) : Bool := q.em == 2
def emMode (q : RunnelOp) (_ : Mop) : W32 := if q.em = 3 then flINV else 0

/-- Select by code. -/
def isOp (c : Nat) (m : Mop) : Bool := m.op == c
/-- Select a CVT or LSGN variant. -/
def isVar (c v : Nat) (m : Mop) : Bool := m.op == c && m.mod == v

/-- The LG pattern in a register: bits 18:0 (R188). -/
def lgOf (v : Nat) : Nat := v % 2 ^ 19

/-- An L16 code as LG, G = 8E (R188). -/
def lgOfL16 (c : Nat) : Nat :=
  let e := c % 2 ^ 15
  (if 0x8000 ≤ c then 2 ^ 18 else 0) + (if e = 0x7FFF then 0x3FFFF else 8 * e)

/-- MU_NOP. -/
def execMuNop (b r : Nat) (s : State) : Host.Outcome State Fault Refusal :=
  onCore (fun d => d.mu b r (isOp 0) (fun d _ o q _ => d.putLanes b r o { q with upc := (q.upc + 1) % 2048 } 0)) s

/-- The bytes at an address, with the operation's own pending writes over the store. -/
def Op.view (o : Op) (x : Basin) (a : Nat) : Byte :=
  match o.writes.reverse.find? (fun w => w.1 == a) with
  | some w => w.2
  | none => Mem.read x.store a

/-- IN: an element as LG, as A32, or as 32 raw bits (R192). -/
def muInValue (q : RunnelOp) (m : Mop) (rd : Nat → Byte) (l draw : Nat) : Flagged :=
  let bIn := m.mod % 2 == 1
  let f := if bIn then q.bfmt else q.afmt
  let base := if bIn then q.baddr else q.aaddr
  let j := 32 * q.group + l
  let c := readElem rd (if f = fRaw then fB32 else f) base j
  let dir := rmDir (q.rmOf m) draw
  if f = fL16 then (lgOfL16 c, 0)
  else if f = fA16 then let v := f16.operand q.subn c; let w := f32.acc q.subn dir v.1; (w.1, v.2 ||| w.2)
  else if f = fB32 then let v := f32.operand q.subn c; let w := f32.acc q.subn dir (v.1.shift (-q.aoff)); (w.1, v.2 ||| w.2)
  else (c, 0)

/-- A range that the lanes of a group touch. -/
def RunnelOp.span (q : RunnelOp) (base f : Nat) : Nat × Nat := (base + 32 * q.group * muBytes f, q.lanes.length * muBytes f)

/-- An IN that converts: from A16 or binary32 (R62). -/
def inRounds (q : RunnelOp) (m : Mop) : Bool := let f := if m.mod % 2 = 1 then q.bfmt else q.afmt; f == fB32 || f == fA16

def muIn (b r : Nat) (d : Dev) : Dev :=
  d.mu b r (isOp 1) (fun d a o q m =>
    let x := d.basin b
    let sp := q.span (if m.mod % 2 = 1 then q.baddr else q.aaddr) (if m.mod % 2 = 1 then q.bfmt else q.afmt)
    let code := if q.lanes = [] then 0 else x.rangeCode a.run sp.1 sp.2
    if code ≠ 0 then d.stopRun b code o.pc
    else d.readFor b o.pc [sp] (fun d =>
      d.muLanes b r (isOp 1) (fun q m => rmDraw q m && inRounds q m)
        (fun q m l _ _ _ draw => muInValue q m (o.view (d.basin b)) l draw) (fun q m => if inRounds q m then rmMode q m else 0)))
def execMuIn (b r : Nat) (s : State) : Host.Outcome State Fault Refusal := onCore (muIn b r) s

/-- OUT: va into the output format, an A32 output in the canonical form of R52 (R192). -/
def muOutValue (q : RunnelOp) (m : Mop) (v draw : Nat) : Flagged :=
  let dir := rmDir (q.rmOf m) draw
  if q.dfmt = fL16 then l16.round q.subn dir (lgf.read (lgOf v))
  else if q.dfmt = fA16 then let u := f32.operand q.subn v; let w := f16.acc q.subn dir u.1; (w.1, u.2 ||| w.2)
  else if q.dfmt = fB32 then let u := f32.operand q.subn v; let w := f32.prism q.subn dir (u.1.shift q.aoff); (w.1, u.2 ||| w.2)
  else if q.dfmt = fA32 then let u := f32.operand q.subn v; let w := f32.acc q.subn dir u.1; (w.1, u.2 ||| w.2)
  else (v, 0)

/-- Formats whose OUT rounds. -/
def outRounds (q : RunnelOp) : Bool := q.dfmt == fL16 || q.dfmt == fA16 || q.dfmt == fB32

def muOut (b r : Nat) (d : Dev) : Dev :=
  d.mu b r (isOp 2) (fun d a o q m =>
    let x := d.basin b
    let sp := q.span q.daddr q.dfmt
    let code := if q.lanes = [] then 0 else x.rangeCode a.run sp.1 sp.2
    if code ≠ 0 then d.stopRun b code o.pc
    else
      let st := rmDraw q m && outRounds q
      let n := q.lanes.foldl (fun (t : List (Nat × Byte) × W32 × List Nat) l =>
        let v := muOutValue q m (q.reg l m.va) (if st then a.laneDraw q l else 0)
        let w := q.daddr + (32 * q.group + l) * muBytes q.dfmt
        (t.1 ++ writesAt w (leBytes (muBytes q.dfmt) v.1), t.2.1 ||| v.2, t.2.2 ++ satTilesAt v.2 w (muBytes q.dfmt)))
        ([], if q.lanes ≠ [] ∧ outRounds q then rmMode q m else 0, [])
      d.putLanes b r { o with writes := o.writes ++ n.1, flags := o.flags ||| n.2.1, tileSet := (o.tileSet ++ n.2.2).dedup }
        { q with upc := (q.upc + 1) % 2048 }
        (if st then q.lanes.length else 0))
def execMuOut (b r : Nat) (s : State) : Host.Outcome State Fault Refusal := onCore (muOut b r) s

/-- OUTR: records (va, vb) of the lanes whose vc is not 0, up to the record cap (R196). Records follow the count word at RADDR + 8. -/
def muOutr (b r : Nat) (d : Dev) : Dev :=
  d.mu b r (isOp 3) (fun d _ o q m =>
    let want := q.lanes.filter (fun l => q.reg l m.vc ≠ 0)
    let room := q.rcap - q.records
    let ls := want.take room
    let full := decide (room < want.length)
    let ws := (ls.zipIdx.flatMap (fun p =>
      writesAt (q.raddr + 8 + 8 * (q.records + p.2)) (leBytes 4 (q.reg p.1 m.va) ++ leBytes 4 (q.reg p.1 m.vb))))
    let d := d.putLanes b r { o with writes := o.writes ++ ws }
      { q with upc := (q.upc + 1) % 2048, records := q.records + ls.length, rcapr := q.rcapr || full } 0
    if full && !q.rcapr then d.capped b 2 else d)
def execMuOutr (b r : Nat) (s : State) : Host.Outcome State Fault Refusal := onCore (muOutr b r) s

/-- DONE: the group ends; the next one starts at the entry. -/
def execMuDone (b r : Nat) (s : State) : Host.Outcome State Fault Refusal :=
  onCore (fun d => d.mu b r (isOp 4) (fun d _ o q _ =>
    d.putLanes b r o { q with upc := q.entry, group := q.group + 1, ended := decide (q.count ≤ 32 * (q.group + 1)) } 0)) s

/-- IDX. -/
def execMuIdx (b r : Nat) (s : State) : Host.Outcome State Fault Refusal :=
  onCore (fun d => d.muLanes b r (isOp 5) noDraw (fun q _ l _ _ _ _ => (q.index l, 0)) noMode) s

/-- MU_LI. -/
def execMuLi (b r : Nat) (s : State) : Host.Outcome State Fault Refusal :=
  onCore (fun d => d.muLanes b r (isOp 6) noDraw (fun _ m _ _ _ _ _ => (m.imm, 0)) noMode) s

/-! ### Log micro-ops (R189, R192) -/

/-- LADD. -/
def execMuLadd (b r : Nat) (s : State) : Host.Outcome State Fault Refusal :=
  onCore (fun d => d.muLanes b r (isOp 8) noDraw (fun q _ _ u v _ _ => lgf.add q.subn (lgOf u) (lgOf v)) noMode) s

/-- LSUB: LADD with vb's sign inverted. -/
def execMuLsub (b r : Nat) (s : State) : Host.Outcome State Fault Refusal :=
  onCore (fun d => d.muLanes b r (isOp 9) noDraw (fun q _ _ u v _ _ => lgf.add q.subn (lgOf u) (lgf.neg (lgOf v))) noMode) s

/-- LMUL. -/
def execMuLmul (b r : Nat) (s : State) : Host.Outcome State Fault Refusal :=
  onCore (fun d => d.muLanes b r (isOp 10) noDraw (fun q _ _ u v _ _ => lgf.mul q.subn (lgOf u) (lgOf v)) noMode) s

/-- LDIV. -/
def execMuLdiv (b r : Nat) (s : State) : Host.Outcome State Fault Refusal :=
  onCore (fun d => d.muLanes b r (isOp 11) noDraw (fun q _ _ u v _ _ => lgf.div q.subn (lgOf u) (lgOf v)) noMode) s

/-- LSHF: the offset times 2^k; halvings round under RM, ties to the larger field. -/
def lshf (keep : Bool) (d : Dir) (k : Int) (u : Nat) : Flagged :=
  match lgf.read u with
  | .fin s _ =>
    let x : Int := (u % 2 ^ 18 : Nat) - 130048
    if 0 ≤ k then lgf.clip keep s (130048 + x * 2 ^ k.toNat) 0
    else lgf.round keep d (.fin s (.root (1024 * 2 ^ (-k).toNat) x))
  | _ => (u, 0)
def execMuLshf (b r : Nat) (s : State) : Host.Outcome State Fault Refusal :=
  onCore (fun d => d.muLanes b r (isOp 12) (fun q m => rmDraw q m && decide (8 ≤ m.imm % 16))
    (fun q m _ u _ _ draw => lshf q.subn (rmDir (q.rmOf m) draw) (signedOf 4 (m.imm % 16)) (lgOf u)) (fun q m => if 8 ≤ m.imm % 16 then rmMode q m else 0)) s

/-- A log pattern with a sign; zero and NaN keep theirs. -/
def lgSign (u : Nat) (s : Bool) : Nat := if u % 2 ^ 18 = 0 then u else (if s then 2 ^ 18 else 0) + u % 2 ^ 18

/-- LSGN, absolute value. -/
def execMuLsgnAbs (b r : Nat) (s : State) : Host.Outcome State Fault Refusal :=
  onCore (fun d => d.muLanes b r (isVar 13 0) noDraw (fun _ _ _ u _ _ _ => (lgSign (lgOf u) false, 0)) noMode) s

/-- LSGN, negate. -/
def execMuLsgnNegate (b r : Nat) (s : State) : Host.Outcome State Fault Refusal :=
  onCore (fun d => d.muLanes b r (isVar 13 1) noDraw (fun _ _ _ u _ _ _ => (lgf.neg (lgOf u), 0)) noMode) s

/-- LSGN, the sign of vb. -/
def execMuLsgnSign (b r : Nat) (s : State) : Host.Outcome State Fault Refusal :=
  onCore (fun d => d.muLanes b r (isVar 13 2) noDraw (fun _ _ _ u v _ _ => (lgSign (lgOf u) (bitOf v 18), 0)) noMode) s

/-! ### Linear micro-ops (R52, R192) -/

/-- FADD. -/
def execMuFadd (b r : Nat) (s : State) : Host.Outcome State Fault Refusal :=
  onCore (fun d => d.muLanes b r (isOp 0x10) emDraw (fun q _ _ u v _ draw => f32.add q.subn (emDir q.em draw) u v) emMode) s

/-- FSUB. -/
def execMuFsub (b r : Nat) (s : State) : Host.Outcome State Fault Refusal :=
  onCore (fun d => d.muLanes b r (isOp 0x11) emDraw (fun q _ _ u v _ draw => f32.add q.subn (emDir q.em draw) u (neg32 v)) emMode) s

/-! ### Conversions (R193) -/

/-- The FX NaN. -/
def fxNan : Nat := 2 ^ 31

/-- LG → LG on the L16 grid. -/
def cvtGrid (q : RunnelOp) (d : Dir) (u : Nat) : Flagged := let r := l16.round q.subn d (lgf.read u); (lgOfL16 r.1, r.2)
def execMuCvtLgToLg (b r : Nat) (s : State) : Host.Outcome State Fault Refusal :=
  onCore (fun d => d.muLanes b r (isVar 0x18 0) rmDraw (fun q m _ u _ _ draw => cvtGrid q (rmDir (q.rmOf m) draw) (lgOf u)) rmMode) s

/-- LG → A32 at AOFF. -/
def execMuCvtLgToA32 (b r : Nat) (s : State) : Host.Outcome State Fault Refusal :=
  onCore (fun d => d.muLanes b r (isVar 0x18 1) rmDraw
    (fun q m _ u _ _ draw => f32.acc q.subn (rmDir (q.rmOf m) draw) ((lgf.read (lgOf u)).shift (-q.aoff))) rmMode) s

/-- A32 at AOFF → LG. -/
def cvtA32Lg (q : RunnelOp) (d : Dir) (u : Nat) : Flagged :=
  let v := f32.operand q.subn u
  let r := lgf.round q.subn d (v.1.shift q.aoff)
  (r.1, v.2 ||| r.2)
def execMuCvtA32ToLg (b r : Nat) (s : State) : Host.Outcome State Fault Refusal :=
  onCore (fun d => d.muLanes b r (isVar 0x18 2) rmDraw (fun q m _ u _ _ draw => cvtA32Lg q (rmDir (q.rmOf m) draw) u) rmMode) s

/-- The magnitude of an LG value times m / 2^30 times 2^k, as a rational: an irrational one carries 256 more bits than the result
(notes/assumptions/12.md). -/
def fxMag (g : Int) (m : Nat) (k : Int) : Mag :=
  if g % 1024 = 0 then .rat m 1 (g / 1024 + k - 30)
  else .rat (2 * m * ((Mag.root 1024 (g % 1024)).scaled 256).1 + 1) 1 (g / 1024 + k - 30 - 257)

/-- LG → FX: the exact value under RM as a sign and an integer, and INX. -/
def fxRound (u m k : Nat) (d : Dir) : Option (Bool × Nat × Bool) :=
  match lgf.read u with
  | .fin s _ =>
    if m = 0 then some (s, 0, false)
    else let r := roundAt (fxMag ((u % 2 ^ 18 : Nat) - 130048) m k) 0 s d; some (s, r.1, r.2)
  | .zero _ => some (false, 0, false)
  | _ => none

/-- The factor m: vb as unsigned Q2.30, or 1.0 when VB = 0. -/
def fxFactor (m : Mop) (v : Nat) : Nat := if m.vb = 0 then 2 ^ 30 else v

/-- LG → FX, saturating: the saturated values stand for the infinities, and saturation raises nothing (R89). -/
def cvtLgFx (m : Mop) (u v : Nat) (d : Dir) : Flagged :=
  match lgf.read u with
  | .nan => (fxNan, 0)
  | .inf s => (if s then 2 ^ 31 + 1 else 2 ^ 31 - 1, 0)
  | _ => match fxRound u (fxFactor m v) (m.imm % 32) d with
    | some (s, n, inx) =>
      if 2 ^ 31 - 1 < n then (if s then 2 ^ 31 + 1 else 2 ^ 31 - 1, 0)
      else (if s ∧ n ≠ 0 then 2 ^ 32 - n else n, if inx then flINX else 0)
    | none => (fxNan, 0)
def execMuCvtLgToFx (b r : Nat) (s : State) : Host.Outcome State Fault Refusal :=
  onCore (fun d => d.muLanes b r (isVar 0x18 3) rmDraw (fun q m _ u v _ draw => cvtLgFx m (lgOf u) v (rmDir (q.rmOf m) draw)) rmMode) s

/-- FX → LG. -/
def cvtFxLg (q : RunnelOp) (m : Mop) (u : Nat) (d : Dir) : Flagged :=
  if u = fxNan then (2 ^ 18, 0)
  else if u = 2 ^ 31 - 1 then (0x3FFFF, 0)
  else if u = 2 ^ 31 + 1 then (0x7FFFF, 0)
  else
    let i := signedOf 32 u
    if i = 0 then (0, 0) else lgf.round q.subn d (.fin (decide (i < 0)) (.rat i.natAbs 1 (-(m.imm % 32 : Nat))))
def execMuCvtFxToLg (b r : Nat) (s : State) : Host.Outcome State Fault Refusal :=
  onCore (fun d => d.muLanes b r (isVar 0x18 4) rmDraw (fun q m _ u _ _ draw => cvtFxLg q m u (rmDir (q.rmOf m) draw)) rmMode) s

/-- FX → LG field. -/
def execMuCvtFxToLgField (b r : Nat) (s : State) : Host.Outcome State Fault Refusal :=
  onCore (fun d => d.muLanes b r (isVar 0x18 5) noDraw
    (fun q _ _ u _ _ _ => if u = fxNan then (2 ^ 18, 0) else lgf.clip q.subn false (130048 + signedOf 32 u) 0) noMode) s

/-- LG field → FX. -/
def execMuCvtLgFieldToFx (b r : Nat) (s : State) : Host.Outcome State Fault Refusal :=
  onCore (fun d => d.muLanes b r (isVar 0x18 6) noDraw
    (fun _ _ _ u _ _ _ => match lgf.read (lgOf u) with
      | .fin _ _ => (patternOf 32 ((lgOf u % 2 ^ 18 : Nat) - 130048), 0)
      | _ => (0, 0)) noMode) s

/-- LG → FX, low 32 bits of the exact result. For an infinity the spec states none: an open value of the operands, which repeats as
R117 asks. -/
def cvtLgFxWrap (m : Mop) (u v : Nat) (d : Dir) : Flagged :=
  match lgf.read u with
  | .nan => (fxNan, 0)
  | .inf _ => ((Config.fxOfInf u (fxFactor m v)).toNat, 0)
  | _ => match fxRound u (fxFactor m v) (m.imm % 32) d with
    | some (s, n, inx) => (patternOf 32 (if s then -(n : Int) else n), if inx then flINX else 0)
    | none => (fxNan, 0)
def execMuCvtLgToFxWrap (b r : Nat) (s : State) : Host.Outcome State Fault Refusal :=
  onCore (fun d => d.muLanes b r (isVar 0x18 7) rmDraw
    (fun q m _ u v _ draw => cvtLgFxWrap m (lgOf u) v (rmDir (q.rmOf m) draw)) rmMode) s

/-! ### Compare, select, integers (R192) -/

/-- CMP. -/
def muCompare (m : Mop) (u v : Nat) : Nat :=
  let yes (c : Bool) : Nat := if c then 2 ^ 32 - 1 else 0
  let k := m.mod % 4
  if bitOf m.mod 3 then
    let x := signedOf 32 u
    let y := signedOf 32 (if m.im then m.imm else v)
    yes (if k = 0 then decide (x = y) else if k = 1 then decide (x < y) else if k = 2 then decide (x ≤ y) else false)
  else
    let key (p : Nat) : Option Int :=
      if p = 2 ^ 18 then none else some (if 2 ^ 18 ≤ p then -((p - 2 ^ 18 : Nat) : Int) else p)
    match key (lgOf u), key (lgOf v) with
    | some x, some y => yes (if k = 0 then decide (x = y) else if k = 1 then decide (x < y) else if k = 2 then decide (x ≤ y) else false)
    | _, _ => yes (k == 3)
def execMuCmp (b r : Nat) (s : State) : Host.Outcome State Fault Refusal :=
  onCore (fun d => d.muLanes b r (isOp 0x20) noDraw (fun _ m _ u v _ _ => (muCompare m u v, 0)) noMode) s

/-- SEL. -/
def execMuSel (b r : Nat) (s : State) : Host.Outcome State Fault Refusal :=
  onCore (fun d => d.muLanes b r (isOp 0x21) noDraw (fun _ _ _ u v w _ => (if w ≠ 0 then u else v, 0)) noMode) s

/-- A 32-bit integer micro-op; IM replaces vb by IMM. -/
def Dev.muInt (d : Dev) (b r code : Nat) (f : W32 → W32 → W32) : Dev :=
  d.muLanes b r (isOp code) noDraw
    (fun _ m _ u v _ _ => ((f (BitVec.ofNat 32 u) (BitVec.ofNat 32 (if m.im then m.imm else v))).toNat, 0)) noMode

/-- IADD. -/
def execMuIadd (b r : Nat) (s : State) : Host.Outcome State Fault Refusal := onCore (fun d => d.muInt b r 0x28 (fun u v => u + v)) s
/-- ISUB. -/
def execMuIsub (b r : Nat) (s : State) : Host.Outcome State Fault Refusal := onCore (fun d => d.muInt b r 0x29 (fun u v => u - v)) s
/-- AND. -/
def execMuAnd (b r : Nat) (s : State) : Host.Outcome State Fault Refusal := onCore (fun d => d.muInt b r 0x2A (fun u v => u &&& v)) s
/-- OR. -/
def execMuOr (b r : Nat) (s : State) : Host.Outcome State Fault Refusal := onCore (fun d => d.muInt b r 0x2B (fun u v => u ||| v)) s
/-- XOR. -/
def execMuXor (b r : Nat) (s : State) : Host.Outcome State Fault Refusal := onCore (fun d => d.muInt b r 0x2C (fun u v => u ^^^ v)) s
/-- SHL. -/
def execMuShl (b r : Nat) (s : State) : Host.Outcome State Fault Refusal :=
  onCore (fun d => d.muInt b r 0x2D (fun u v => u <<< (v.toNat % 32))) s
/-- SHR. -/
def execMuShr (b r : Nat) (s : State) : Host.Outcome State Fault Refusal :=
  onCore (fun d => d.muInt b r 0x2E (fun u v => u >>> (v.toNat % 32))) s
/-- SRA. -/
def execMuSra (b r : Nat) (s : State) : Host.Outcome State Fault Refusal :=
  onCore (fun d => d.muInt b r 0x2F (fun u v => u.sshiftRight (v.toNat % 32))) s

/-! ### LUT and branches (R192, R194, R196) -/

/-- LUT. -/
def muLookup (tab : Nat → Byte) (m : Mop) (u : Nat) : Nat :=
  let base := bitsOf m.imm 11 0
  let sh := bitsOf m.imm 16 12
  let cnt := bitsOf m.imm 26 17
  let t (i : Nat) : Int := signedOf 32 (leNat ((List.range 4).map (fun k => tab (base + 4 * i + k))))
  let raw := signedOf 32 u / (2 : Int) ^ sh
  let hi : Int := (cnt : Int) - 1
  let i : Nat := (max 0 (min hi raw)).toNat
  if bitOf m.imm 27 then
    let f : Int := if raw < 0 ∨ hi < raw then 0 else (u % 2 ^ sh : Nat)
    let p := (t (i + 1) - t i) * f
    let step : Int := if 0 ≤ p then (2 * p + 2 ^ sh) / 2 ^ (sh + 1) else -((2 * (-p) + 2 ^ sh) / 2 ^ (sh + 1))
    patternOf 32 (t i + step)
  else patternOf 32 (t i)
def execMuLut (b r : Nat) (s : State) : Host.Outcome State Fault Refusal :=
  onCore (fun d => d.muLanes b r (isOp 0x30) noDraw (fun _ m _ u _ _ _ => (muLookup (d.muTable (d.basin b)) m u, 0)) noMode) s

/-- A branch: a backward one is taken at most ICAP times in the operation (R196). -/
def Dev.muBranch (d : Dev) (b r : Nat) (o : Op) (q : RunnelOp) (m : Mop) (take : Bool) : Dev :=
  let t := bitsOf m.imm 10 0
  let back := decide (t ≤ q.upc)
  if !take then d.putLanes b r o { q with upc := (q.upc + 1) % 2048 } 0
  else if back && decide (q.icap ≤ q.iters) then
    let d := d.putLanes b r o { q with upc := (q.upc + 1) % 2048, icapr := true } 0
    if q.icapr then d else d.capped b 1
  else d.putLanes b r o { q with upc := t, iters := if back then q.iters + 1 else q.iters } 0

/-- BR. -/
def execMuBr (b r : Nat) (s : State) : Host.Outcome State Fault Refusal :=
  onCore (fun d => d.mu b r (isOp 0x38) (fun d _ o q m => d.muBranch b r o q m true)) s
/-- BANY. -/
def execMuBany (b r : Nat) (s : State) : Host.Outcome State Fault Refusal :=
  onCore (fun d => d.mu b r (isOp 0x39) (fun d _ o q m => d.muBranch b r o q m (q.lanes.any (fun l => q.reg l m.vc != 0)))) s
/-- BNONE. -/
def execMuBnone (b r : Nat) (s : State) : Host.Outcome State Fault Refusal :=
  onCore (fun d => d.mu b r (isOp 0x3A) (fun d _ o q m => d.muBranch b r o q m (q.lanes.all (fun l => q.reg l m.vc == 0)))) s

/-- A library function over all elements of an operation (R199): the writes of D, the flags and the records, from input A. The
library's functions take L16 and give L16, SINCOSQ takes raw words; of other formats the spec says nothing, and the results are
open. -/
def RunnelOp.library (q : RunnelOp) (rd : Nat → Byte) : List (Nat × Byte) × W32 × List (Nat × Nat) :=
  let c : LibCall := { entry := q.entry, keep := q.subn, rm := q.rm }
  let sc := q.entry == 0x120
  let ok := q.dfmt == fL16 && q.afmt == (if sc then fRaw else fL16)
  let each (j : Nat) : Flagged × Nat × Nat :=
    let v := readElem rd (if muBytes q.afmt = 2 then fL16 else fB32) q.aaddr j
    if !ok then ((Config.libPick q.entry v % 256 ^ muBytes q.dfmt, 0), Config.libPick (q.entry + 1) v % 2 ^ 32, Config.libPick (q.entry + 2) v % 2 ^ 32)
    else if sc then c.sincosq v else (c.value v, 0, 0)
  let l := (List.range q.count).map each
  (l.zipIdx.flatMap (fun p => writesAt (q.daddr + p.2 * muBytes q.dfmt) (leBytes (muBytes q.dfmt) p.1.1.1)),
   l.foldl (fun f p => f ||| p.1.2) (if q.count = 0 then 0 else rmFlag q.rm), if sc then (l.map Prod.snd).take q.rcap else [])

/-- A library operation carried out whole: its results, its records up to the record cap, and its draws. -/
def Dev.runLibrary (d : Dev) (b r : Nat) (o : Op) (q : RunnelOp) : Dev :=
  let x := d.basin b
  let v := q.library (Mem.read x.store)
  let full := q.entry == 0x120 && decide (q.rcap < q.count)
  let ws := v.1 ++ v.2.2.zipIdx.flatMap (fun p => writesAt (q.raddr + 8 + 8 * p.2) (leBytes 4 p.1.1 ++ leBytes 4 p.1.2))
  let d := d.putLanes b r { o with writes := o.writes ++ ws, flags := o.flags ||| v.2.1 }
    { q with records := v.2.2.length, rcapr := full, ended := true } (if q.rm = 2 then q.count * Config.libDraws q.entry else 0)
  if full then d.capped b 2 else d

/-- The operation at the head of a runnel retires with its count word; RUN_STATUS then shows the next one (R196, R200). -/
def Dev.runnelEnd (d : Dev) (b r : Nat) (o : Op) (q : RunnelOp) : Dev :=
  let x := d.basin b
  let rest := List.find? (fun (p : Op) => p.engine == o.engine && p.seq != o.seq) x.seq.ops
  let e := match rest.bind Op.rnl with
    | some n => x.eng.runStatus r n
    | none => x.eng
  (d.putBasin b { x with eng := e }).retire b { o with writes := o.writes ++ writesAt q.raddr (leBytes 4 q.records) }

/-- RUNNEL_RETIRE (R196): the last group of the oldest operation has ended, or it is a library function. -/
def runnelRetire (b r : Nat) (d : Dev) : Dev :=
  let head (d : Dev) : Option (Op × RunnelOp) :=
    match rnlEngine r, (d.basin b).seq.active with
    | some e, some _ => ((d.basin b).oldest e).bind (fun o => o.rnl.map (fun q => (o, q)))
    | _, _ => none
  match head d with
  | none => d
  | some (o, q) =>
    if q.ended then d.runnelEnd b r o q
    else if d.libOp q.entry then
      d.readFor b o.pc [(q.aaddr, q.count * muBytes q.afmt)] (fun d =>
        let d := d.runLibrary b r o q
        match head d with
        | some (o, q) => d.runnelEnd b r o q
        | none => d)
    else d
def execRunnelRetire (b r : Nat) (s : State) : Host.Outcome State Fault Refusal := onCore (runnelRetire b r) s

end Sys2Proof.Machine
end

