-- ==== Sys2Proof/Machine/Loupe.lean ====
section
/-! DEFINITION. The loupe: its vector descriptor, operations and retirement (R85 to R88, R108). -/

namespace Sys2Proof.Machine

open Sys2Proof

/-- A loupe instruction with its descriptor (R108). -/
structure Lpe where
  /-- operation, rounding code after LPE_CTRL, format, addresses and count -/
  (op rnd : Nat)
  (wide : Bool)
  (a b c d count : Nat)
  deriving DecidableEq, Repr

/-- The rounding code: 0b111 takes LPE_CTRL.RND as it stands at issue (R86). -/
def lpeRound (code rnd : Nat) : Nat := if code = 7 then rnd else code

def lpeOf (fn rnd : Nat) (bs : List Byte) : Lpe :=
  { op := bitsOf fn 8 5, rnd := lpeRound (bitsOf fn 4 2) rnd, wide := bitOf fn 1, a := dw bs 0, b := dw bs 4, c := dw bs 8, d := dw bs 12,
    count := dw bs 16 }

def Lpe.fmt (l : Lpe) : Fmt := if l.wide then f64 else f32
def Lpe.src (l : Lpe) : Nat := if l.wide then 8 else 4
/-- Bytes of a result element: a compare writes words, a convert the other format. -/
def Lpe.dst (l : Lpe) : Nat := if l.op = 8 then 4 else if l.op = 9 then 12 - l.src else l.src

def Lpe.reads (l : Lpe) : List (Nat × Nat) :=
  [(l.a, l.count * l.src)] ++ (if l.op = 5 ∨ l.op = 9 then [] else [(l.b, l.count * l.src)]) ++ (if l.op = 3 then [(l.c, l.count * l.src)] else [])

/-- The fault code at issue. -/
def Lpe.code (l : Lpe) (x : Basin) (r : Run) : Nat :=
  if l.count = 0 ∨ 2 ^ 20 < l.count then 3
  else match (l.reads ++ [(l.d, l.count * l.dst)]).find? (fun p => x.rangeCode r p.1 p.2 != 0) with
    | some p => x.rangeCode r p.1 p.2
    | none => 0

/-- One element (R85, R87, R108). -/
def Lpe.element (l : Lpe) (a b c : Nat) : Flagged :=
  let f := l.fmt
  let d := (loupeDir l.rnd).1
  if l.op = 0 then f.ieeeAdd d a b
  else if l.op = 1 then f.ieeeSub d a b
  else if l.op = 2 then f.ieeeMul d a b
  else if l.op = 3 then f.ieeeFma d a b c
  else if l.op = 4 then f.ieeeDiv d a b
  else if l.op = 5 then f.ieeeSqrt d a
  else if l.op = 6 then f.ieeeMinMax false a b
  else if l.op = 7 then f.ieeeMinMax true a b
  else if l.op = 8 then (f.order a b, if f.isSnan a || f.isSnan b then flINV else 0)
  else f.ieeeConvert (if l.wide then f32 else f64) d a

/-- Every loupe instruction carries the rounding field: a reserved code sets INV whatever the operation (R86). -/
def Lpe.modeFlags (l : Lpe) : W32 := (loupeDir l.rnd).2

/-- The operation computed at its grant. -/
def Lpe.compute (l : Lpe) (x : Basin) (o : Op) : Op :=
  let rd (base k : Nat) : Nat := Mem.readLe x.store (base + k * l.src) l.src
  let vs := (List.range l.count).map (fun k =>
    l.element (rd l.a k) (if l.op = 5 ∨ l.op = 9 then 0 else rd l.b k) (if l.op = 3 then rd l.c k else 0))
  let wr := (l.d, l.count * l.dst)
  { o with readSegs := (l.reads.flatMap (fun p => segsOf p.1 p.2)).dedup, writeSegs := segsOf wr.1 wr.2,
           tiles := ((l.reads ++ [wr]).flatMap (fun p => tilesOf p.1 p.2)).dedup, flags := orFlags l.modeFlags vs,
           writes := writesAt l.d (vs.flatMap (fun v => leBytes l.dst v.1)) }

/-- LOUPE_RETIRE: results retire in program order (R88). -/
def loupeRetire (b q : Nat) (d : Dev) : Dev :=
  let x := d.basin b
  match x.seq.active, x.oldest .loupe with
  | some _, some o => if o.seq = q then d.retire b o else d
  | _, _ => d
def execLoupeRetire (b q : Nat) (s : State) : Host.Outcome State Fault Refusal := onCore (loupeRetire b q) s

end Sys2Proof.Machine
end

