-- ==== Sys2Proof/Machine/Manage.lean ====
section
/-! DEFINITION. The commands of the DEVICE, DOMAIN, MODEL and EVENT classes, LOG, register access and the runnel library (R198, R222,
R260 to R264, R362, R364, R374 to R379, R425, R442). -/

namespace Sys2Proof.Machine

open Sys2Proof

/-- One of the candidates, which one the spec leaves open. -/
def Dev.pick (d : Dev) (l : List Nat) : Option Nat × Dev :=
  if l = [] then (none, d)
  else let v := d.openValue; (l[v.1.toNat % l.length]?, v.2)

/-- The request may act on an object of domain `dom`: its own, or any for domain 0 (R373). -/
def Req.may (r : Req) (dom : Nat) : Bool := r.domain == 0 || r.domain == dom

/-- A domain that exists and is not being destroyed. -/
def Dev.live (d : Dev) (n : Nat) : Bool := (d.domain n).state == 1

/-- Streams of a domain that are neither FREE nor RETIRED. -/
def Dev.streamsOf (d : Dev) (n : Nat) : Nat := (d.streams.filter (fun p => p.2.domain == n && p.2.state != 0 && p.2.state != 4)).length

/-- Pages a domain owns. -/
def Dev.ownPages (d : Dev) (n : Nat) : List Nat := (d.rsv.pages.filter (fun p => p.2.valid && p.2.owner == n)).map Prod.fst

/-- Resident-model entries of a domain. -/
def Dev.modelsOf (d : Dev) (n : Nat) : Nat := (d.models.filter (fun p => p.2.domain == n)).length

/-- The runs that the active and the shadow table name. -/
def Dev.tableRuns (d : Dev) : List Run :=
  ((d.cad.table0.map Table.runs).getD [] ++ (d.cad.table1.map Table.runs).getD []).flatMap Prod.snd

/-! ### DEVICE (R26, R307, R310, R362, R364, R374, R425, R442) -/

/-- DEVICE_INFO. -/
def cmdDeviceInfo (_ : Req) (d : Dev) : Dev × Resp :=
  d.yes [0x72101100, d.fh.fwversion.toNat, 0x40863000, d.svcStatus.toNat, d.lib.libver.toNat]
    (beBytes 48 Config.identity ++ Mem.readBytes d.boot.fuses 0x130 16)
def execDeviceInfo (f : Nat) (s : State) : Host.Outcome State Fault Refusal := onCmd f 0x100 cmdDeviceInfo s

/-- DEVICE_HEALTH: the page at ARG0. -/
def cmdDeviceHealth (r : Req) (d : Dev) : Dev × Resp :=
  if r.arg 0 % 4096 ≠ 0 ∨ 35728 ≤ r.arg 0 then d.no stINVALID else d.yes [35728] (d.healthPage (r.arg 0))
def execDeviceHealth (f : Nat) (s : State) : Host.Outcome State Fault Refusal := onCmd f 0x101 cmdDeviceHealth s

/-- DEVICE_PEERS: the allow list. -/
def cmdDevicePeers (r : Req) (d : Dev) : Dev × Resp :=
  let n := r.arg 0
  if 64 < n ∨ r.payload.length < 48 * n then d.no stINVALID
  else (d.setLink { d.link with allow := (List.range n).map (fun k => beNat ((r.payload.drop (48 * k)).take 48)) }).yes
def execDevicePeers (f : Nat) (s : State) : Host.Outcome State Fault Refusal := onCmd f 0x102 cmdDevicePeers s

/-- DEVICE_REKEY: a rekey of an UP port. -/
def cmdDeviceRekey (r : Req) (d : Dev) : Dev × Resp :=
  let p := r.arg 0
  if 4 < p then d.no stINVALID
  else if (d.port p).state ≠ 3 then d.no stWRONG_STATE
  else if (d.port p).rekeypend then d.no stBUSY
  else (d.startRekey p).yes
def execDeviceRekey (f : Nat) (s : State) : Host.Outcome State Fault Refusal := onCmd f 0x103 cmdDeviceRekey s

/-- DEVICE_FUNCBIND: bind a domain to a slot of a function, or unbind it. -/
def cmdFuncbind (r : Req) (d : Dev) : Dev × Resp :=
  let n := r.arg 0
  let f := r.arg 1
  let k := r.arg 2
  let x := d.domain n
  if 255 < f then d.no stINVALID 1
  else if 3 < k then d.no stINVALID 2
  else if x.state = 0 then d.no stNOT_FOUND
  else if bitOf (r.arg 3) 0 then
    if x.bind.isSome ∨ x.state ≠ 1 then d.no stWRONG_STATE
    else if (d.slotDomain f k).isSome then d.no stIN_USE
    else ((d.putDomain n { x with bind := some (f, k) }).setHw { d.hw with funcmap := Tab.put d.hw.funcmap (4 * f + k) n }).yes
  else if x.bind ≠ some (f, k) ∨ n = 0 ∨ 0 < d.streamsOf n then d.no stWRONG_STATE
  else ((d.putDomain n { x with bind := none }).setHw { d.hw with funcmap := Tab.del d.hw.funcmap (4 * f + k) }).yes
def execDeviceFuncbind (f : Nat) (s : State) : Host.Outcome State Fault Refusal := onCmd f 0x104 cmdFuncbind s

/-- DEVICE_WINDOW: the window base of the request's domain. -/
def cmdWindow (r : Req) (d : Dev) : Dev × Resp :=
  let w := r.arg64 0
  if w % 0x200000 ≠ 0 ∨ 2 ^ 39 ≤ w then d.no stINVALID else (d.putDomain r.domain { d.domain r.domain with wbase := w }).yes
def execDeviceWindow (f : Nat) (s : State) : Host.Outcome State Fault Refusal := onCmd f 0x105 cmdWindow s

/-- The values an item takes (R399, R401, R425): item 6 is read only. -/
def configOk (item v : Nat) : Bool :=
  match item with
  | 1 => decide (0x08 ≤ v) && decide (v ≤ 0x77)
  | 2 => decide (v < 64)
  | 3 => decide (300 ≤ v) && decide (v ≤ 1100)
  | 4 => decide (400 ≤ v) && decide (v ≤ 2000)
  | 5 => true
  | _ => false

/-- DEVICE_CONFIG: a new set in the shadow's area, with the item changed and SEQ + 1, becomes active. -/
def cmdConfig (r : Req) (d : Dev) : Dev × Resp :=
  let item := r.arg 0
  if item = 0 ∨ 5 < item then d.no stINVALID
  else if !configOk item (r.arg 1) then d.no stINVALID 1
  else
    let act := d.boot.config.getD {}
    let new : ConfigSet := { valid := true, seq := act.seq + 1, items := Tab.put act.items item (r.arg 1) }
    let a0 := d.boot.sets.getD 0 {}
    let at_ := if a0.valid ∧ a0.seq = act.seq then 1 else 0
    let b := d.boot.erased (3 + at_) 0
    (d.setBoot { b with sets := b.sets.set at_ new }).yes
def execDeviceConfig (f : Nat) (s : State) : Host.Outcome State Fault Refusal := onCmd f 0x106 cmdConfig s

/-- A module reset scheduled 10 ms from now. The spec gives a cold reset no effect that a warm one has not. -/
def Dev.resetSoon (d : Dev) (cold : Bool) : Dev := d.setFh { d.fh with resetAt := some (d.ns + 10000000, cold) }

/-- DEVICE_RESET. -/
def cmdReset (r : Req) (d : Dev) : Dev × Resp := if 1 < r.arg 0 then d.no stINVALID else (d.resetSoon (r.arg 0 == 1)).yes
def execDeviceReset (f : Nat) (s : State) : Host.Outcome State Fault Refusal := onCmd f 0x107 cmdReset s

/-- RESET_DELAY_EXPIRY: the scheduled module reset. A freeze holds none of it: the supervisor keeps the time (R433, R434). Away from
READY it takes effect as an assertion of PERST_N there does (R456). -/
def resetDelayExpiry (d : Dev) : Dev :=
  match d.fh.resetAt with
  | none => d
  | some p =>
    let d := d.atNs p.1
    let d := d.setFh { d.fh with resetAt := none }
    if d.pow.moving then d.setMd { d.md with perstPend := true }
    else if d.pow.stable = 2 ∧ d.boot.ready then
      let e := if d.still.frozen ∨ d.still.held then d.resetCore else d
      (e.setMd { e.md with perstPend := true }).goTo 0
    else d.resetCore
def execResetDelayExpiry (s : State) : Host.Outcome State Fault Refusal := answer resetDelayExpiry s

/-! ### DOMAIN (R222 to R224, R260, R264) -/

/-- Limits from ARG1 to ARG4, or the index of the first argument out of range (R260). -/
def limitsOf (r : Req) : Nat × Domain :=
  let b := bitsOf (r.arg 4) 9 0
  let x : Domain := { maxStreams := r.arg 1, maxPages := r.arg 2, maxModels := r.arg 3, maxBudget := b, isol := bitOf (r.arg 4) 16 }
  (if 65536 < r.arg 1 then 1 else if 195584 < r.arg 2 then 2 else if 256 < r.arg 3 then 3 else if 1000 < b then 4 else 0, x)

/-- DOMAIN_CREATE: limits set, and keys drawn for the domain (R224, R260). -/
def cmdDomainCreate (r : Req) (d : Dev) : Dev × Resp :=
  let n := r.arg 0
  let l := limitsOf r
  if n = 0 ∨ 1023 < n then d.no stINVALID
  else if l.1 ≠ 0 then d.no stINVALID l.1
  else if (d.domain n).state ≠ 0 then d.no stWRONG_STATE
  else
    let k := d.drawKeys
    let d := k.2.putDomain n { l.2 with state := 1 }
    (d.setRsv { d.rsv with keys := Tab.put d.rsv.keys n k.1 }).yes
def execDomainCreate (f : Nat) (s : State) : Host.Outcome State Fault Refusal := onCmd f 0x200 cmdDomainCreate s

/-- In-service basins hold a segment tagged to the domain. -/
def Dev.tagged (d : Dev) (n : Nat) : Bool :=
  d.basins.any (fun p => decide (p.2.logical < 256) && p.2.tags.any (fun t => t.2.valid && t.2.domain == n))

/-- DOMAIN_DESTROY: refused while a stream or a resident model of the domain remains; otherwise the domain enters DESTROYING, and the
next table that SLOT_LOAD writes carries its scrub runs. -/
def cmdDomainDestroy (r : Req) (d : Dev) : Dev × Resp :=
  let n := r.arg 0
  let x := d.domain n
  if 1023 < n then d.no stINVALID
  else if x.state = 0 then d.no stNOT_FOUND
  else if n = 0 ∨ x.state = 2 ∨ 0 < d.streamsOf n ∨ 0 < d.modelsOf n then d.no stWRONG_STATE
  else (d.putDomain n { x with state := 2, scrubGen := none }).yes
def execDomainDestroy (f : Nat) (s : State) : Host.Outcome State Fault Refusal := onCmd f 0x201 cmdDomainDestroy s

/-- The table that scrubs a domain has run one frame, or none was needed: `scrubGen` is the count of swaps when the last table with its
scrub runs was loaded. -/
def Dev.scrubbed (d : Dev) (n : Nat) : Bool :=
  !d.tagged n &&
    match (d.domain n).scrubGen with
    | none => true
    | some g => decide (g + 1 < d.cad.swapcnt.toNat) || (decide (g < d.cad.swapcnt.toNat) && decide (1 ≤ d.cad.frameInTable))

/-- DOMAIN_DESTROY_RELEASE: pages released, key slot zeroed, entry FREE, and a domain event (R264). -/
def domainDestroyRelease (n : Nat) (d : Dev) : Dev :=
  let x := d.domain n
  if x.state ≠ 2 ∨ !d.scrubbed n then d
  else
    let own := d.ownPages n
    let d := d.setRsv { d.rsv with pages := Tab.mapv d.rsv.pages (fun _ p => if p.valid && p.owner == n then { p with valid := false } else p),
                                   keys := Tab.del d.rsv.keys n }
    let d := match x.bind with
      | some (f, k) => d.setHw { d.hw with funcmap := Tab.del d.hw.funcmap (4 * f + k) }
      | none => d
    ((d.putDomain n {}).setPlans (d.plans.filter (fun p => p.domain ≠ n))).raiseO 0x16 0x1F2 n own.length 0
def execDomainDestroyRelease (n : Nat) (s : State) : Host.Outcome State Fault Refusal :=
  answer (onlyIf Dev.fwOn (domainDestroyRelease n)) s

/-- DOMAIN_QUERY: limits, use, state and binding, a RES word each; the binding is 4f + s, or all ones when unbound
(notes/assumptions/30.md). -/
def cmdDomainQuery (r : Req) (d : Dev) : Dev × Resp :=
  let n := r.arg 0
  let x := d.domain n
  if 1023 < n then d.no stINVALID
  else if !r.may n ∨ x.state = 0 then d.no stNOT_FOUND
  else d.yes [x.maxStreams, x.maxPages, x.maxModels, x.maxBudget + bit01 x.isol * 65536, d.streamsOf n, (d.ownPages n).length, d.modelsOf n,
              x.state, (x.bind.map (fun p => 4 * p.1 + p.2)).getD 0xFFFFFFFF]
def execDomainQuery (f : Nat) (s : State) : Host.Outcome State Fault Refusal := onCmd f 0x202 cmdDomainQuery s

/-- DOMAIN_LIMITS: LIMIT when a limit falls below current use. -/
def cmdDomainLimits (r : Req) (d : Dev) : Dev × Resp :=
  let n := r.arg 0
  let x := d.domain n
  let l := limitsOf r
  if 1023 < n then d.no stINVALID
  else if l.1 ≠ 0 then d.no stINVALID l.1
  else if x.state = 0 then d.no stNOT_FOUND
  else if x.state ≠ 1 then d.no stWRONG_STATE
  else if l.2.maxStreams < d.streamsOf n ∨ l.2.maxPages < (d.ownPages n).length ∨ l.2.maxModels < d.modelsOf n then d.no stLIMIT
  else (d.putDomain n { l.2 with state := 1, bind := x.bind, wbase := x.wbase }).yes
def execDomainLimits (f : Nat) (s : State) : Host.Outcome State Fault Refusal := onCmd f 0x203 cmdDomainLimits s

/-- The page numbers of a payload, 4 B each. -/
def pageList (r : Req) (n : Nat) : List Nat := (List.range n).map (fun k => leNat ((r.payload.drop (4 * k)).take 4))

/-- A page that no domain owns and none is being given. -/
def Dev.pageFree (d : Dev) (p : Nat) : Bool := let e := Tab.at d.rsv.pages {} p; decide (p < 195584) && !e.valid && !e.scrub

/-- A page assigned: SCRUB, zeros over the whole page, which the controllers move (R28) and which clear its errors (R224), then VALID and
OWNER (R222). -/
def Rsv.assign (r : Rsv) (p n : Nat) : Rsv :=
  { r.moved 0x200000 with
           mem := Mem.zero r.mem (p * 0x200000) 0x200000, poison := r.poison.filter (fun u => u / 65536 ≠ p),
           soft := r.soft.filter (fun u => u / 65536 ≠ p), pages := Tab.put r.pages p { valid := true, scrub := false, owner := n } }

/-- `n` free pages after the first `skip` of them, counting round: which free pages are given is open. -/
def Dev.freePages (d : Dev) (n skip : Nat) : List Nat :=
  let l := (List.range 195584).filter (fun p => d.pageFree p)
  ((l.drop (skip % (l.length + 1))) ++ l).take n

/-- PAGE_ASSIGN: the pages listed, or free ones. -/
def cmdPageAssign (r : Req) (d : Dev) : Dev × Resp :=
  let n := r.arg 0
  let k := r.arg 1
  let x := d.domain n
  let give (d : Dev) (ps : List Nat) : Dev × Resp :=
    let d := d.setRsv (ps.foldl (fun (q : Rsv) p => q.assign p n) d.rsv)
    (d.raiseO 0x16 0x1F2 n ps.length 0).yes [] (ps.flatMap (fun p => leBytes 4 p))
  if 1023 < n then d.no stINVALID
  else if k = 0 ∨ 1024 < k then d.no stINVALID 1
  else if !r.may n ∨ x.state = 0 then d.no stNOT_FOUND
  else if x.state ≠ 1 then d.no stWRONG_STATE
  else if x.maxPages < (d.ownPages n).length + k then d.no stLIMIT
  else if r.payload ≠ [] then
    let ps := pageList r k
    if r.payload.length < 4 * k ∨ ps.any (fun p => decide (195584 ≤ p)) then d.no stINVALID 1
    else if !ps.all (fun p => d.pageFree p) ∨ ¬ ps.Nodup then d.no stNO_SPACE
    else give d ps
  else
    let v := d.openValue
    let ps := d.freePages k v.1.toNat
    if ps.length < k ∨ ¬ ps.Nodup then d.no stNO_SPACE else give v.2 ps
def execPageAssign (f : Nat) (s : State) : Host.Outcome State Fault Refusal := onCmd f 0x204 cmdPageAssign s

/-- The pages that a stream entry names: its ingress slots, its output buffer, its amax ring. -/
def Stream.pages (s : Stream) : List Nat :=
  pagesOf s.ibuf (s.nib * s.slotkb * 1024) ++ [s.obuf / 0x200000] ++ (if s.ring = 0 then [] else [s.ring / 0x200000])

/-- The pages that are in use: named by a stream entry, a ring, or a plan of either table (R374). -/
def Dev.pagesInUse (d : Dev) : List Nat :=
  (d.streams.filter (fun p => p.2.state != 0 && p.2.state != 4)).flatMap (fun p => p.2.pages)
    ++ d.tableRuns.flatMap (fun r => ((d.plan (runIndex r) r.planno).map Plan.pages).getD [])

/-- PAGE_RELEASE: VALID cleared. -/
def cmdPageRelease (r : Req) (d : Dev) : Dev × Resp :=
  let n := r.arg 0
  let k := r.arg 1
  let ps := pageList r k
  if 1023 < n then d.no stINVALID
  else if 1024 < k ∨ r.payload.length < 4 * k then d.no stINVALID 1
  else if !r.may n ∨ (d.domain n).state = 0 then d.no stNOT_FOUND
  else if !ps.all (fun p => let e := Tab.at d.rsv.pages {} p; e.valid && e.owner == n) then d.no stNOT_FOUND
  else if ps.any (fun p => decide (p ∈ d.pagesInUse)) then d.no stIN_USE
  else (d.setRsv { d.rsv with pages := ps.foldl (fun t p => Tab.put t p { Tab.at t {} p with valid := false }) d.rsv.pages }).yes
def execPageRelease (f : Nat) (s : State) : Host.Outcome State Fault Refusal := onCmd f 0x205 cmdPageRelease s

/-! ### MODEL (R105, R206, R261, R346) -/

/-- The bytes of a signed image lie in pages that the domain owns; an access that does not is denied and reads zeros, which no
signature covers (R223). -/
def Dev.imageRead (d : Dev) (dom a n : Nat) : Dev × Nat :=
  if !rsvPopulated a n ∨ n = 0 then (d, stINVALID)
  else match (d.rsvRead dom a n) with
    | (d, .ok _) => (d, 0)
    | (d, _) => (d, stBAD_SIGNATURE)

/-- Two ranges of program indices meet. -/
def rangesMeet (a n b m : Nat) : Bool := decide (a < b + m) && decide (b < a + n)

/-- A model's segments and program ranges are free: no other model holds them, and no table gives the segment to another domain. -/
def Dev.modelFits (d : Dev) (m : Model) : Bool :=
  m.segs.all (fun s => decide (s.lbasin < 256) && decide (s.seg < 64) && !d.absent s.lbasin
      && !d.models.any (fun p => p.2.segs.any (fun t => t.lbasin == s.lbasin && t.seg == s.seg))
      && !d.tableRuns.any (fun r => r.lbasin == s.lbasin && bitOf r.segs s.seg && r.domain != m.domain))
    && m.progs.all (fun g => decide (g.base + g.words.length ≤ 8192)
      && !d.models.any (fun p => p.2.progs.any (fun h => h.lbasin == g.lbasin && rangesMeet g.base g.words.length h.base h.words.length)))

/-- A model's programs and segments put into the basins that carry its logical numbers (R105, R206). -/
def Dev.placeModel (d : Dev) (m : Model) : Dev :=
  let d := m.progs.foldl (fun d g => match d.physOf g.lbasin with
    | some b => d.putBasin b { d.basin b with prog := Tab.putList (d.basin b).prog g.base g.words }
    | none => d) d
  m.segs.foldl (fun d s => match d.physOf s.lbasin with
    | some b =>
      (d.putBasin b ((d.basin b).fillSeg s.seg m.domain (Mem.readBytes d.rsv.mem s.addr 65536))).setRsv (d.rsv.moved 65536)
    | none => d) d

/-- MODEL_LOAD: `img` is what the signed image says. For domain 0 it names the domain it is for. -/
def cmdModelLoad (sigOk : Bool) (img : Model) (r : Req) (d : Dev) : Dev × Resp :=
  let n := if r.domain = 0 then img.domain else r.domain
  let x := d.domain n
  let m := { img with domain := n }
  if x.state = 0 then d.no stNOT_FOUND
  else if x.state ≠ 1 then d.no stWRONG_STATE
  else
    let i := d.imageRead n (r.arg64 0) (r.arg 2)
    let d := i.1
    if i.2 ≠ 0 then d.no i.2
    else if !sigOk then d.no stBAD_SIGNATURE
    else if x.maxModels ≤ d.modelsOf n then d.no stLIMIT
    else
      let e := d.pick ((List.range 256).filter (fun k => (Tab.find? d.models k).isNone))
      match e.1 with
      | none => d.no stNO_SPACE
      | some k => if d.modelFits m then ((e.2.setModels (Tab.put d.models k m)).placeModel m).yes [k] else d.no stNO_SPACE
def execModelLoad (f : Nat) (sigOk : Bool) (img : Model) (s : State) : Host.Outcome State Fault Refusal :=
  onCmd f 0x300 (cmdModelLoad sigOk img) s

/-- A plan or a table names the resident-model entry. -/
def Dev.modelNamed (d : Dev) (k : Nat) : Bool :=
  d.tableRuns.any (fun r => r.entry.isSome && r.model == k)
    || d.plans.any (fun p => let s := d.stream p.index; s.model == k && s.state != 0 && s.state != 4 && s.planno == p.planno)

/-- MODEL_UNLOAD: the entry is freed; its segments keep their tags until R207 gives them to another domain. -/
def cmdModelUnload (r : Req) (d : Dev) : Dev × Resp :=
  match Tab.find? d.models (r.arg 0) with
  | none => d.no stNOT_FOUND
  | some m =>
    if !r.may m.domain then d.no stNOT_FOUND
    else if d.modelNamed (r.arg 0) then d.no stIN_USE
    else (d.setModels (Tab.del d.models (r.arg 0))).yes
def execModelUnload (f : Nat) (s : State) : Host.Outcome State Fault Refusal := onCmd f 0x301 cmdModelUnload s

/-- MODEL_QUERY: RES0 domain, RES1 basins, RES2 segments; payload: the digest (notes/assumptions/30.md). -/
def cmdModelQuery (r : Req) (d : Dev) : Dev × Resp :=
  match Tab.find? d.models (r.arg 0) with
  | none => d.no stNOT_FOUND
  | some m =>
    if !r.may m.domain then d.no stNOT_FOUND
    else
      let bs := (m.segs.map ModelSeg.lbasin ++ m.progs.map ModelProg.lbasin).dedup
      d.yes [m.domain, bs.length, m.segs.length] (beBytes 48 m.digest)
def execModelQuery (f : Nat) (s : State) : Host.Outcome State Fault Refusal := onCmd f 0x302 cmdModelQuery s

/-! ### Runnel functions (R195, R197, R198) -/

/-- The micro-op codes of R192. -/
def listedMop (m : Mop) : Bool :=
  m.op ∈ [0, 1, 2, 3, 4, 5, 6, 8, 9, 0xA, 0xB, 0xC, 0x10, 0x11, 0x20, 0x21, 0x28, 0x29, 0x2A, 0x2B, 0x2C, 0x2D, 0x2E, 0x2F, 0x30, 0x38, 0x39, 0x3A]
    || (m.op == 0xD && decide (m.mod ≤ 2)) || (m.op == 0x18 && decide (m.mod < 8))

/-- R195 of one micro-op of the function at `base` with `n` words: listed, no branch outside the function, no table access outside the
micro-table. -/
def mopAllowed (base n : Nat) (w : W64) : Bool :=
  let m := mopOf w
  let t := bitsOf m.imm 10 0
  let lut := bitsOf m.imm 11 0 + 4 * (bitsOf m.imm 26 17 + bit01 (bitOf m.imm 27))
  listedMop m && (!(m.op == 0x38 || m.op == 0x39 || m.op == 0x3A) || (decide (base ≤ t) && decide (t < base + n)))
    && (m.op != 0x30 || decide (lut ≤ 4096))

/-- The image lies in OPER and OPERT, or is a library update within LIB and the library's tables (R197, R198). -/
def RunnelFn.placed (x : RunnelFn) : Bool :=
  let n := x.words.length
  decide (x.base ≤ x.entry) && decide (x.entry < x.base + n)
    && ((decide (0x500 ≤ x.base) && decide (x.base + n ≤ 0x800) && (x.table.isEmpty || (decide (0xB00 ≤ x.tbase) && decide (x.tbase + x.table.length ≤ 0x1000))))
      || (decide (x.base + n ≤ 0x500) && decide (x.tbase + x.table.length ≤ 0xB00)))

/-- An admitted plan names the entry: a step of a plan that a table names. -/
def Dev.entryNamed (d : Dev) (e : Nat) : Bool :=
  d.tableRuns.any (fun r => ((d.planStep r).map (fun s => decide (e ∈ s.entries))).getD false)

/-- Another function, installed or about to be, overlaps the image. -/
def Dev.fnOverlaps (d : Dev) (x : RunnelFn) : Bool :=
  (d.lib.fns ++ d.lib.queued).any (fun p => p.1 != x.entry
    && (rangesMeet x.base x.words.length p.2.base p.2.words.length || rangesMeet x.tbase x.table.length p.2.tbase p.2.table.length))

/-- RUNNEL_INSTALL: checked, then written at the next frame boundary. -/
def cmdRunnelInstall (sigOk : Bool) (img : RunnelFn) (r : Req) (d : Dev) : Dev × Resp :=
  let i := d.imageRead 0 (r.arg64 0) (r.arg 2)
  let d := i.1
  if i.2 ≠ 0 then d.no i.2
  else if !sigOk then d.no stBAD_SIGNATURE
  else if !img.placed ∨ !img.words.all (mopAllowed img.base img.words.length) then d.no stINVALID
  else if d.entryNamed img.entry then d.no stIN_USE
  else if d.fnOverlaps img then d.no stNO_SPACE
  else
    let w := d.frameAtOrAfter d.ns
    (d.setLib { d.lib with queued := Tab.put d.lib.queued img.entry { img with boundary := w } }).yes (words2 w ++ [img.entry])
def execRunnelInstall (f : Nat) (sigOk : Bool) (img : RunnelFn) (s : State) : Host.Outcome State Fault Refusal :=
  onCmd f 0x303 (cmdRunnelInstall sigOk img) s

/-- RUNNEL_IMAGE_WRITE: at its frame boundary a checked image is written into every runnel of every basin and its entry joins the
entry map; until then the function it replaces stands. A library update shows its version. -/
def runnelImageWrite (d : Dev) : Dev :=
  match d.lib.queued.map (fun p => p.2.boundary) with
  | [] => d
  | w :: ws =>
    let d := d.atNs (ws.foldl min w)
    let now := d.lib.queued.filter (fun p => decide (p.2.boundary ≤ d.ns))
    let d := d.setLib { libver := now.foldl (fun v p => if p.2.base < 0x500 then BitVec.ofNat 32 p.2.version else v) d.lib.libver,
                        fns := now.foldl (fun t p => Tab.put t p.1 p.2) d.lib.fns,
                        queued := d.lib.queued.filter (fun p => decide (d.ns < p.2.boundary)) }
    let st := d.lib.store
    d.setBasins (Tab.mapv d.basins (fun _ x => { x with ustore := st.1, utable := st.2 }))
def execRunnelImageWrite (s : State) : Host.Outcome State Fault Refusal := onCore runnelImageWrite s

/-- RUNNEL_REMOVE. -/
def cmdRunnelRemove (r : Req) (d : Dev) : Dev × Resp :=
  if (Tab.find? d.lib.fns (r.arg 0)).isNone then d.no stNOT_FOUND
  else if d.entryNamed (r.arg 0) then d.no stIN_USE
  else (d.setLib { d.lib with fns := Tab.del d.lib.fns (r.arg 0) }).yes
def execRunnelRemove (f : Nat) (s : State) : Host.Outcome State Fault Refusal := onCmd f 0x304 cmdRunnelRemove s

/-! ### REG (R375) -/

/-- The word offsets an access of `n` bytes covers. -/
def wordsAt (off n : Nat) : List Nat := (List.range (n / 4)).map (fun k => off + 4 * k)

/-- REG_READ. -/
def cmdRegRead (r : Req) (d : Dev) : Dev × Resp :=
  let w := r.arg 2
  let n := r.arg 3
  if w ≠ 4 ∧ w ≠ 8 then d.no stINVALID 2
  else if n = 0 ∨ 512 < n then d.no stINVALID 3
  else if r.arg64 0 % w ≠ 0 then d.no stINVALID
  else match regTarget (r.arg64 0) (w * n) with
    | .invalid => d.no stINVALID
    | .denied => d.no stDENIED
    | .reg u o =>
      if r.domain ≠ 0 ∧ !(wordsAt o (w * n)).all (granted u) then d.no stDENIED
      else if u < 272 ∧ (d.basin u).seq.active.isSome ∧ (wordsAt o (w * n)).any (fun k => decide (0x2000 ≤ k) && decide (k < 0x211C)) then d.no stBUSY
      else
        let v := d.regReads u o w n
        let bs := v.1.flatMap (fun x => leBytes w x)
        if 40 < w * n then v.2.yes [] bs else v.2.yes ((List.range (w * n / 4)).map (fun k => leNat ((bs.drop (4 * k)).take 4)))
def execRegRead (f : Nat) (s : State) : Host.Outcome State Fault Refusal := onCmd f 0x900 cmdRegRead s

/-- REG_WRITE. -/
def cmdRegWrite (r : Req) (d : Dev) : Dev × Resp :=
  let w := r.arg 2
  if w ≠ 4 ∧ w ≠ 8 then d.no stINVALID 2
  else if r.arg64 0 % w ≠ 0 then d.no stINVALID
  else match regTarget (r.arg64 0) w with
    | .invalid => d.no stINVALID
    | .denied => d.no stDENIED
    | .reg u o => (d.regWrite u o w (r.arg64 3)).yes
def execRegWrite (f : Nat) (s : State) : Host.Outcome State Fault Refusal := onCmd f 0x901 cmdRegWrite s

/-! ### EVENT and LOG (R374, R377, R379, R403) -/

/-- EVENT_CONFIG: the queue of the calling function starts afresh, at entry 0 with PHASE 1. -/
def cmdEventConfig (r : Req) (d : Dev) : Dev × Resp :=
  let x := d.func r.func
  let n := r.arg 2
  if r.arg64 0 % 4096 ≠ 0 then d.no stINVALID
  else if n < 6 ∨ 14 < n then d.no stINVALID 2
  else if vectorsOf r.func ≤ bitsOf (r.arg 3) 10 0 then d.no stINVALID 3
  else (d.putFunc r.func { x with evqBase := r.arg64 0, evqLog := n, evqVector := bitsOf (r.arg 3) 10 0, evqEnable := bitOf (r.arg 3) 31,
                                  evqMask := BitVec.ofNat 32 (r.arg 4), evqHead := 0, evqTail := 0, evqPhase := 1, evqLost := 0,
                                  evqSet := true }).yes
def execEventConfig (f : Nat) (s : State) : Host.Outcome State Fault Refusal := onCmd f 0xE00 cmdEventConfig s

/-- EVENT_QUERY: RES0 to RES1 base, RES2 LOG2N, RES3 to RES4 events lost. -/
def cmdEventQuery (r : Req) (d : Dev) : Dev × Resp :=
  let x := d.func r.func
  d.yes (words2 x.evqBase ++ [x.evqLog] ++ words2 x.evqLostTotal.toNat)
def execEventQuery (f : Nat) (s : State) : Host.Outcome State Fault Refusal := onCmd f 0xE01 cmdEventQuery s

/-- EVENT_FETCH: up to ARG0 entries of the supervisor's buffer, oldest first; LOST of the first counts what the buffer lost. PHASE, which
a buffer has not, is open. -/
def cmdEventFetch (r : Req) (d : Dev) : Dev × Resp :=
  let n := r.arg 0
  if n = 0 ∨ 32 < n then d.no stINVALID
  else
    let es := d.fh.supBuf.take n
    let v := d.openValue
    let d := v.2
    let pay := es.zipIdx.flatMap (fun p => eventBytes p.1 (v.1.toNat % 2) (if p.2 = 0 then d.fh.supLost else 0))
    (d.setFh { d.fh with supBuf := d.fh.supBuf.drop n, supLost := if es = [] then d.fh.supLost else 0 }).yes [] pay
def execEventFetch (f : Nat) (s : State) : Host.Outcome State Fault Refusal := onCmd f 0xE02 cmdEventFetch s

/-- Bytes of the flash log area (R403). -/
def logSize : Nat := 0x2F00000

/-- LOG_READ. An erase in progress is suspended for it (R417). -/
def cmdLogRead (r : Req) (d : Dev) : Dev × Resp :=
  if logSize < r.arg64 0 + r.arg 2 then d.no stINVALID
  else if 4096 < r.arg 2 then d.no stINVALID 2
  else
    let d := d.setBoot { d.boot with erasing := d.boot.erasing.map (fun e => (e.1, e.2.1, true)) }
    d.yes [] ((Mem.readBytes d.boot.log (r.arg64 0) (r.arg 2)).map (fun b => ~~~ b))
def execLogRead (f : Nat) (s : State) : Host.Outcome State Fault Refusal := onCmd f 0xF00 cmdLogRead s

/-- LOG_CLEAR: the log area reads as erased flash. -/
def cmdLogClear (_ : Req) (d : Dev) : Dev × Resp :=
  let b := (List.range 752).foldl (fun (b : Boot) k => b.erased 5 k) d.boot
  (d.setBoot { b with log := [] }).yes
def execLogClear (f : Nat) (s : State) : Host.Outcome State Fault Refusal := onCmd f 0xF01 cmdLogClear s

end Sys2Proof.Machine
end

