-- ==== Sys2Proof/Machine/StreamCmd.lean ====
section
/-! DEFINITION. The commands of the STREAM, SLOT and FLAGS classes: stream entries, amax ring changes, plans, table images, admission and
swaps (R83, R159, R243, R245, R247, R250 to R252, R328, R374, R461, R465). -/

namespace Sys2Proof.Machine

open Sys2Proof

/-! ### Stream entries (R250, R251) -/

/-- What a handle in a request names, or the status that refuses it: another domain's stream is not revealed (R373), and a handle of
another generation is stale (R251). -/
def Dev.named (d : Dev) (r : Req) (h : Nat) : Nat × Nat × Stream :=
  let i := h / 65536
  let s := d.stream i
  let used := s.state ≠ 0 ∧ s.state ≠ 4
  if used ∧ !r.may s.domain then (stNOT_FOUND, i, s)
  else if s.gen ≠ h % 65536 then (stSTALE, i, s)
  else if used then (0, i, s) else (stNOT_FOUND, i, s)

/-- A stream entry from its bytes 0x04 to 0x4F (R250). STATE and ROLE are ignored (R374), and so are the ring positions, which move
only with doorbells, fetches and completions. -/
def streamOfBytes (bs : List Byte) : Stream :=
  let w (o n : Nat) : Nat := leNat ((bs.drop (o - 4)).take n)
  let c := w 4 4
  let p := w 8 4
  { domain := bitsOf c 9 0, mirror := bitsOf c 14 13, fixedpost := bitOf c 16, kind := bitsOf c 18 17, model := bitsOf p 7 0,
    planno := bitsOf p 23 8, vector := bitsOf (w 0xC 4) 10 0, sqbase := w 0x10 8, sqLog := bitsOf (w 0x18 4) 3 0, cqbase := w 0x20 8,
    cqLog := bitsOf (w 0x28 4) 3 0, cqPhase := 1, ibuf := w 0x30 8, slotkb := bitsOf (w 0x38 4) 23 0, nib := bitsOf (w 0x38 4) 31 24,
    ishare := w 0x3C 4, obuf := w 0x40 8, eshare := w 0x48 4, deadl := w 0x4C 4 }

/-- The fields of an entry lie in their ranges (R250, R253, R255, R366). -/
def Dev.streamFits (d : Dev) (s : Stream) : Bool :=
  decide (s.mirror < 3) && decide (s.kind < 3) && decide (s.vector < vectorsOf (((d.domain s.domain).bind.map Prod.fst).getD 0))
    && s.sqbase % 64 == 0 && s.cqbase % 64 == 0 && s.ibuf % 4096 == 0 && decide (3 ≤ s.sqLog) && decide (s.sqLog ≤ 12)
    && decide (3 ≤ s.cqLog) && decide (s.cqLog ≤ 12) && decide (1 ≤ s.nib) && s.ishare != 0 && s.eshare != 0

/-- A stream created from its entry bytes, for a request; the status where it is refused (R251, R255, R260). Which FREE index it takes
is open. -/
def Dev.createStream (d : Dev) (r : Req) (bs : List Byte) : Nat × Nat × Dev :=
  let s := streamOfBytes bs
  let x := d.domain s.domain
  if bs.length < 76 then (stINVALID, 0, d)
  else if !r.may s.domain ∨ x.state = 0 then (stNOT_FOUND, 0, d)
  else if x.state ≠ 1 then (stWRONG_STATE, 0, d)
  else if !d.streamFits s then (stINVALID, 0, d)
  else if x.maxStreams ≤ d.streamsOf s.domain then (stLIMIT, 0, d)
  else
    let e := d.pick ((List.range 65536).filter (fun i => (d.stream i).state == 0))
    match e.1 with
    | none => (stNO_SPACE, 0, d)
    | some i => (0, i, e.2.putStream i { s with gen := (d.stream i).gen + 1, state := 1, fixedpost := s.fixedpost || x.isol })

/-- STREAM_CREATE. A stream of KIND 0b10 is created by TRAIN_CREATE, with its context, and in no other way (R269). -/
def cmdStreamCreate (r : Req) (d : Dev) : Dev × Resp :=
  let c := d.createStream r r.payload
  if c.1 ≠ 0 then d.no c.1
  else if (streamOfBytes r.payload).kind = 2 then d.no stINVALID
  else c.2.2.yes [handleOf c.2.1 (c.2.2.stream c.2.1)]
def execStreamCreate (f : Nat) (s : State) : Host.Outcome State Fault Refusal := onCmd f 0x400 cmdStreamCreate s

/-- STREAM_DESTROY: the index is FREE again, or RETIRED after generation 0xFFFF; its plans and its training context go with it. -/
def cmdStreamDestroy (r : Req) (d : Dev) : Dev × Resp :=
  let n := d.named r (r.arg 0)
  let i := n.2.1
  if n.1 ≠ 0 then d.no n.1
  else if n.2.2.state ≠ 1 then d.no stWRONG_STATE
  else
    let d := d.putStream i { gen := n.2.2.gen, state := if n.2.2.gen = 0xFFFF then 4 else 0 }
    ((d.setPlans (d.plans.filter (fun p => p.index ≠ i))).setTrains (Tab.del d.trains i)).yes
def execStreamDestroy (f : Nat) (s : State) : Host.Outcome State Fault Refusal := onCmd f 0x401 cmdStreamDestroy s

/-- STREAM_REISSUE: RETIRED indices of a range return to FREE, and the next creation issues generation 1. -/
def cmdStreamReissue (r : Req) (d : Dev) : Dev × Resp :=
  let lo := r.arg 0
  let hit (i : Nat) (s : Stream) : Bool := decide (lo ≤ i) && decide (i < lo + r.arg 1) && s.state == 4
  if 65535 < lo then d.no stINVALID
  else (d.setStreams (Tab.mapv d.streams (fun i s => if hit i s then {} else s))).yes [(d.streams.filter (fun p => hit p.1 p.2)).length]
def execStreamReissue (f : Nat) (s : State) : Host.Outcome State Fault Refusal := onCmd f 0x402 cmdStreamReissue s

/-- PAIRST (R328). -/
def Stream.pairst (s : Stream) : List Byte :=
  leBytes 4 s.twin ++ leBytes 4 (s.delay % 256 + bit01 s.home * 256 + bit01 s.susp * 512 + bit01 s.promoted * 1024) ++ leBytes 4 s.mshare
    ++ leBytes 4 s.nuncov.toNat ++ leBytes 8 s.lastpost ++ leBytes 8 s.ncover.toNat ++ leBytes 4 s.nmismatch.toNat
    ++ leBytes 4 s.npromote.toNat ++ leBytes 8 s.plandig.toNat ++ leBytes 4 s.fwdidx ++ leBytes 4 0 ++ leBytes 8 s.lastdig.toNat

/-- The 256 bytes of a stream-table entry (R250). -/
def Stream.bytes (s : Stream) (i : Nat) : List Byte :=
  leBytes 4 (handleOf i s)
    ++ leBytes 4 (s.domain + s.state * 2 ^ 10 + s.mirror * 2 ^ 13 + s.role * 2 ^ 15 + bit01 s.fixedpost * 2 ^ 16 + s.kind * 2 ^ 17)
    ++ leBytes 4 (s.model + s.planno * 256) ++ leBytes 4 s.vector ++ leBytes 8 s.sqbase ++ leBytes 4 (s.sqLog + s.sqHead * 65536)
    ++ leBytes 4 s.sqTail ++ leBytes 8 s.cqbase ++ leBytes 4 (s.cqLog + s.cqPhase * 16 + s.cqTail * 65536) ++ leBytes 4 s.cqHead
    ++ leBytes 8 s.ibuf ++ leBytes 4 (s.slotkb + s.nib * 2 ^ 24) ++ leBytes 4 s.ishare ++ leBytes 8 s.obuf ++ leBytes 4 s.eshare
    ++ leBytes 4 s.deadl ++ leBytes 4 s.flags.toNat ++ leBytes 4 s.nlost.toNat ++ leBytes 8 s.lastarr ++ leBytes 8 s.lastcpl
    ++ leBytes 8 s.ncpl.toNat ++ leBytes 8 s.nmiss.toNat ++ leBytes 4 s.nerr.toNat ++ leBytes 4 s.ntrunc.toNat ++ leBytes 8 s.novf
    ++ leBytes 8 s.nsat ++ leBytes 8 s.nvan ++ leBytes 4 s.novb.toNat ++ leBytes 4 s.nstaledb.toNat ++ List.replicate 32 0 ++ s.pairst

/-- STREAM_QUERY. -/
def cmdStreamQuery (r : Req) (d : Dev) : Dev × Resp :=
  let n := d.named r (r.arg 0)
  if n.1 ≠ 0 then d.no n.1 else d.yes [] (n.2.2.bytes n.2.1)
def execStreamQuery (f : Nat) (s : State) : Host.Outcome State Fault Refusal := onCmd f 0x403 cmdStreamQuery s

/-- The entry of a stream with the settings of another (R250, R374): its positions, counters, ROLE and STATE stay. -/
def Stream.withSettings (s t : Stream) (isol : Bool) : Stream :=
  { s with domain := t.domain, mirror := t.mirror, fixedpost := t.fixedpost || isol, kind := t.kind, model := t.model, planno := t.planno,
           vector := t.vector, sqbase := t.sqbase, sqLog := t.sqLog, cqbase := t.cqbase, cqLog := t.cqLog, ibuf := t.ibuf,
           slotkb := t.slotkb, nib := t.nib, ishare := t.ishare, obuf := t.obuf, eshare := t.eshare, deadl := t.deadl }

/-- STREAM_SET of an IDLE stream. It does not move the stream to another domain, nor into or out of KIND 0b10 (R269). -/
def cmdStreamSet (r : Req) (d : Dev) : Dev × Resp :=
  let n := d.named r (r.arg 0)
  let t := streamOfBytes r.payload
  if n.1 ≠ 0 then d.no n.1
  else if n.2.2.state ≠ 1 then d.no stWRONG_STATE
  else if r.payload.length < 76 ∨ t.domain ≠ n.2.2.domain ∨ !d.streamFits t ∨ (t.kind == 2) ≠ (n.2.2.kind == 2) then d.no stINVALID
  else (d.putStream n.2.1 (n.2.2.withSettings t (d.domain t.domain).isol)).yes
def execStreamSet (f : Nat) (s : State) : Host.Outcome State Fault Refusal := onCmd f 0x404 cmdStreamSet s

/-- NEXT of a ring header from ARG5 to ARG7 (R156). -/
def ringNext (hdr pinval cur : Nat) : Nat :=
  bitsOf hdr 8 0 + bitsOf pinval 15 0 * 2 ^ 16 + bitsOf cur 15 0 * 2 ^ 32 + bitsOf cur 31 16 * 2 ^ 48

/-- STREAM_RING: Fountainhead writes NEXT and NEXTCT of the ring's header, in the domain's pages (R156, R159). -/
def cmdStreamRing (r : Req) (d : Dev) : Dev × Resp :=
  let n := d.named r (r.arg 0)
  let a := r.arg64 1
  let ct := r.arg64 3
  let hdr := signedOf 8 (r.arg 5)
  if n.1 ≠ 0 then d.no n.1
  else if a % 64 ≠ 0 ∨ !rsvPopulated a 64 ∨ !d.rsv.owned n.2.2.domain a 64 then d.no stINVALID 1
  else if ct = 0 then d.no stINVALID 3
  else if hdr < -64 ∨ 63 < hdr then d.no stINVALID 5
  else
    let m := d.rsv.write (a + 0x20) (leBytes 8 ct ++ leBytes 8 (ringNext (r.arg 5) (r.arg 6) (r.arg 7)))
    ((d.setRsv (m.moved 64)).putStream n.2.1 { n.2.2 with ring := a }).yes (words2 ct)
def execStreamRing (f : Nat) (s : State) : Host.Outcome State Fault Refusal := onCmd f 0x405 cmdStreamRing s

/-! ### FLAGS (R82, R83, R374) -/

/-- FLAGS_READ. -/
def cmdFlagsRead (r : Req) (d : Dev) : Dev × Resp :=
  let n := d.named r (r.arg 0)
  let s := n.2.2
  if n.1 ≠ 0 then d.no n.1
  else d.yes ([s.flags.toNat] ++ words2 s.novf ++ words2 s.nsat ++ words2 s.nvan ++ [s.novb.toNat, s.ntrunc.toNat])
def execFlagsRead (f : Nat) (s : State) : Host.Outcome State Fault Refusal := onCmd f 0x800 cmdFlagsRead s

/-- FLAGS_CLEAR. -/
def cmdFlagsClear (r : Req) (d : Dev) : Dev × Resp :=
  let n := d.named r (r.arg 0)
  let s := { n.2.2 with flags := n.2.2.flags &&& ~~~ (r.args.getD 1 0) }
  if n.1 ≠ 0 then d.no n.1
  else (d.putStream n.2.1 (if bitOf (r.arg 2) 0 then { s with novf := 0, nsat := 0, nvan := 0, novb := 0, ntrunc := 0 } else s)).yes
def execFlagsClear (f : Nat) (s : State) : Host.Outcome State Fault Refusal := onCmd f 0x801 cmdFlagsClear s

/-! ### Plans and tables (R243, R264, R465) -/

/-- A table names the plan. -/
def Dev.planNamed (d : Dev) (p : Plan) : Bool := d.tableRuns.any (fun r => r.entry.isSome && runIndex r == p.index && r.planno == p.planno)

/-- SLOT_PLAN: `img` is what the signed plan at ARG1 says. ARG4 = 1 withdraws the plan of that number. A plan that a table names is
neither withdrawn nor replaced; a training stream's evaluation steps write only evaluation buffers (R281). -/
def cmdSlotPlan (sigOk : Bool) (img : Plan) (r : Req) (d : Dev) : Dev × Resp :=
  let n := d.named r (r.arg 0)
  let p := { img with index := n.2.1, domain := n.2.2.domain }
  let rest := d.plans.filter (fun q => ¬ (q.index = p.index ∧ q.planno = p.planno))
  if n.1 ≠ 0 then d.no n.1
  else if 1 < r.arg 4 then d.no stINVALID 4
  else
    let i := d.imageRead n.2.2.domain (r.arg64 1) (r.arg 3)
    let d := i.1
    if i.2 ≠ 0 then d.no i.2 1
    else if !sigOk then d.no stBAD_SIGNATURE
    else if r.arg 4 = 1 ∧ (d.plan p.index p.planno).isNone then d.no stNOT_FOUND
    else if (d.train n.2.1).isSome ∧ img.steps.any (fun t => t.phase == 4 && !t.evalOk) then d.no stINVALID 1
    else if d.planNamed p then d.no stIN_USE
    else (d.setPlans (if r.arg 4 = 1 then rest else rest ++ [p])).yes ([0, 0] ++ words2 p.digest.toNat)
def execSlotPlan (f : Nat) (sigOk : Bool) (img : Plan) (s : State) : Host.Outcome State Fault Refusal := onCmd f 0x500 (cmdSlotPlan sigOk img) s

/-- The plan that a run record of a table image names, if it is one of the record's stream and domain (R465). -/
def Dev.planFor (d : Dev) (r : Run) : Option Plan :=
  let s := d.stream (runIndex r)
  if s.gen ≠ r.handle % 65536 ∨ s.state = 0 ∨ s.state = 4 then none
  else (d.plan (runIndex r) r.planno).filter (fun p => p.domain == r.domain)

/-- What stands against a table image: 0, or the status and the index of the first record at fault (R239, R242, R243, R465). -/
def Dev.imageFault (d : Dev) (t : Table) : Nat × Nat :=
  let rs := t.runs.flatMap Prod.snd
  match rs.findIdx? (fun r => (d.planFor r).isNone) with
  | some k => (stNOT_FOUND, k)
  | none =>
    match rs.findIdx? (fun r => (d.planStep r).isNone) with
    | some k => (stINVALID, k)
    | none =>
      if t.slen % 1000 ≠ 0 ∨ t.slen < 50000 ∨ 10000000 < t.slen ∨ t.nslot = 0 ∨ 4000 < t.nslot ∨ t.floor < 400 ∨ 2000 < t.floor
          ∨ t.runs.any (fun p => decide (t.nslot ≤ p.1)) ∨ rs.any (fun r => decide (256 ≤ r.lbasin)) then (stINVALID, 0)
      else (0, 0)

/-- The segments of a basin that are tagged to a domain being destroyed, as a set. -/
def Dev.scrubSegs (d : Dev) (x : Basin) : Nat :=
  x.tags.foldl (fun n t => if t.2.valid && (d.domain t.2.domain).state == 2 then n + 2 ^ t.1 else n) 0

/-- A scrub run of domain 0 with a segment set and no program, placed after the last run of a basin in a slot, where it fits in front
of the replay reserve; where it fits in no slot it stands in slot 0, and admission refuses the table (R247, R264). -/
def scrubRun (t : Table) (l segs : Nat) : Nat × Run :=
  let bits := ((List.range 64).filter (fun j => bitOf segs j)).length
  let setup := 200 + cdiv (32 * bits * 1000) t.floor
  let place (k : Nat) : Nat × Nat × Nat :=
    let rs := (Tab.at t.runs [] k).filter (fun r => r.lbasin == l)
    (k, rs.length, (rs.map Run.tend).foldl max 0 + setup)
  let x := (((List.range t.nslot).map place).find? (fun x => decide (x.2.1 < 16) && decide (x.2.2 * 1000000 ≤ t.slen * 939906))).getD (place 0)
  (x.1, { handle := 0, lbasin := l, domain := 0, det := false, take := false, post := false, apseg := 0, planStep := 0, entry := none,
          base := 0, limit := 0, tstart := x.2.2, tend := x.2.2, share := 0, segs := segs, model := 0, planno := 0 })

/-- A run put into a run list, which is ordered by logical basin and then by start offset (R243). -/
def placeRun (r : Run) (l : List Run) : List Run :=
  match l with
  | [] => [r]
  | x :: xs => if r.lbasin < x.lbasin ∨ (r.lbasin = x.lbasin ∧ r.tstart < x.tstart) then r :: x :: xs else x :: placeRun r xs

/-- q[d] of a slot, as SHARE × time, by domain (R225, R247). -/
def slotShares (rs : List Run) : Tab Nat :=
  rs.foldl (fun q r => Tab.put q r.domain (Tab.at q 0 r.domain + r.share * (r.tend - r.tstart))) []

/-- SHARE × time in 64 B units per controller, rounded up: SHARE in MB/s and times in ns over 8 × 64 B (R225). -/
def budgetUnits (n : Nat) : Nat := cdiv n 512000

/-- The budget list that Fountainhead forms for a slot from its runs: each domain's total, rounded up (R225). -/
def slotBudgets (rs : List Run) : List (Nat × Nat) := ((slotShares rs).map (fun p => (p.1, budgetUnits p.2))).filter (fun p => decide (0 < p.2))

/-- The shadow as Fountainhead builds it: run lists in order, each slot with the budget list of its runs (R225, R243). -/
def Table.built (t : Table) : Table :=
  let runs := Tab.mapv t.runs (fun _ rs => rs.foldl (fun l r => placeRun r l) [])
  { t with runs := runs, budgets := runs.map (fun p => (p.1, slotBudgets p.2)) }

/-- A table image with the scrub runs that domains being destroyed need (R264). A basin that carries no logical number takes no run and
keeps its tags until the module reset of R208. -/
def Dev.withScrubs (d : Dev) (t : Table) : Table :=
  d.basins.foldl (fun t p =>
    let segs := d.scrubSegs p.2
    if segs = 0 ∨ 256 ≤ p.2.logical then t
    else
      let x := scrubRun t p.2.logical segs
      { t with runs := Tab.put t.runs x.1 (Tab.at t.runs [] x.1 ++ [x.2]) }) t

/-- The 64 B record of a run (R243). ENTRY of a run without a program is `none_`. -/
def Run.bytes (r : Run) (none_ : Nat) : List Byte :=
  leBytes 4 r.handle
    ++ leBytes 4 (r.lbasin + r.domain * 2 ^ 8 + bit01 r.det * 2 ^ 18 + bit01 r.take * 2 ^ 19 + bit01 r.post * 2 ^ 20 + r.apseg * 2 ^ 21)
    ++ leBytes 4 (r.planStep + (r.entry.getD none_) * 2 ^ 16) ++ leBytes 4 (r.base + r.limit * 2 ^ 16) ++ leBytes 4 r.tstart
    ++ leBytes 4 r.tend ++ leBytes 4 r.share ++ leBytes 4 0 ++ leBytes 8 r.segs ++ leBytes 4 (r.model + r.planno * 2 ^ 8)
    ++ List.replicate 20 0

/-- A budget list: its count, then a domain and its budget in each word (R243). -/
def budgetBytes (l : List (Nat × Nat)) : List Byte := leBytes 4 l.length ++ l.flatMap (fun q => leBytes 4 q.1 ++ leBytes 4 q.2)

/-- The index of the lists that lie from `o` on: of each slot the offset of its run list and that of its budget list (R242). -/
def slotIndex (o : Nat) (ls : List (List Byte × List Byte)) : List Byte :=
  match ls with
  | [] => []
  | l :: ls => leBytes 4 o ++ leBytes 4 (o + l.1.length) ++ slotIndex (o + l.1.length + l.2.length) ls

/-- A copy of the slot table as it lies in the firmware region (R241 to R243): header, slot index, and slot by slot the run list and the
budget list. That they lie in this order, and the run list's offset in the low half of an index word, is the model's choice (DESIGN
CHOICE, notes/assumptions/63.md). `none_` is what ENTRY reads as in a run without a program. -/
def Table.bytes (t : Table) (none_ : Nat) : List Byte :=
  let ls := (List.range t.nslot).map (fun k =>
    ((Tab.at t.runs [] k).flatMap (fun r => r.bytes none_), budgetBytes (Tab.at t.budgets [] k)))
  leBytes 4 t.slen ++ leBytes 4 t.nslot ++ leBytes 8 t.fstart ++ leBytes 4 t.floor ++ leBytes 4 t.gen ++ leBytes 8 64 ++ List.replicate 32 0
    ++ slotIndex (64 + 8 * t.nslot) ls ++ ls.flatMap (fun l => l.1 ++ l.2)

/-- SLOT_LOAD: the image is checked, then written into the shadow as Fountainhead builds it, which moves the table's bytes into the
firmware region (R28, R241); streams are ADMITTED, DRAINING or IDLE by what the tables now name. -/
def cmdSlotLoad (sigOk : Bool) (img : Table) (r : Req) (d : Dev) : Dev × Resp :=
  if d.cad.swapAt.isSome then d.no stBUSY
  else
    let i := d.imageRead 0 (r.arg64 0) (r.arg 2)
    let d := i.1
    let e := d.imageFault img
    if i.2 ≠ 0 then d.no i.2
    else if !sigOk then d.no stBAD_SIGNATURE
    else if e.1 ≠ 0 then d.no e.1 e.2
    else
      let t := (d.withScrubs img).built
      let d := d.setDomains (Tab.mapv d.domains (fun _ x => if x.state = 2 then { x with scrubGen := some d.cad.swapcnt.toNat } else x))
      ((d.setRsv (d.rsv.moved (t.bytes 0).length)).setCad (d.cad.setTable d.cad.shadow (some t))).settle.yes
def execSlotLoad (f : Nat) (sigOk : Bool) (img : Table) (s : State) : Host.Outcome State Fault Refusal := onCmd f 0x501 (cmdSlotLoad sigOk img) s

/-! ### Admission (R247, R361, R461) -/

/-- The least worst-case time of a step that its plan states for a clock at or below the floor, ns. -/
def wcetAt (s : PlanStep) (floor : Nat) : Option Nat :=
  match (s.wcet.filter (fun w => decide (w.1 ≤ floor))).map Prod.snd with
  | [] => none
  | w :: ws => some (ws.foldl min w)

/-- Members of a set given as bits. -/
def popcount (n w : Nat) : Nat := ((List.range w).filter (fun j => bitOf n j)).length

/-- The cause that refuses a run that follows one ending at `prev`, 0 for none. Times are compared exactly, multiplied out. -/
def Dev.admitRun (d : Dev) (t : Table) (prev : Nat) (r : Run) : Nat :=
  let x := 32 * popcount r.segs 64 + 64 * popcount r.apseg 4
  let st := (d.planStep r).getD {}
  let s := d.stream (runIndex r)
  if r.tstart < prev + 200 ∨ (r.tstart - prev - 200) * t.floor < x * 1000 then 0x03
  else if r.entry.isSome ∧ ((wcetAt st t.floor).all (fun w => decide (r.tend < r.tstart + w))) then 0x04
  else if t.slen * 939906 < r.tend * 1000000 then 0x05
  else if r.entry.isSome ∧ r.post ∧ s.deadl * s.eshare < (r.tend + 2000) * s.eshare + st.outsize * 1000 then 0x06
  else 0

/-- The cause that refuses a basin's runs in a slot, in ascending start offset. -/
def Dev.admitBasin (d : Dev) (t : Table) (b : Nat) (rs : List Run) : Nat :=
  if rs = [] then 0
  else if d.absent b then 0x01
  else if 16 < rs.length then 0x02
  else (rs.foldl (fun (a : Nat × Nat) r => if a.1 ≠ 0 then a else (d.admitRun t a.2 r, r.tend)) (0, 0)).1

/-- The cause that refuses a slot as a whole. -/
def Dev.admitShares (d : Dev) (t : Table) (rs : List Run) : Nat :=
  let cap := t.slen * 272 / 10
  let q := slotShares rs
  let root (b : Nat) : Nat := ((rs.filter (fun r => r.lbasin == b)).map (fun r => ((d.planStep r).map PlanStep.rootPartials).getD 0)).foldl (· + ·) 0
  if cap < (q.map (fun p => budgetUnits p.2)).foldl (· + ·) 0 then 0x07
  else if 256 < (q.filter (fun p => decide (0 < p.2))).length then 0x10
  else if q.any (fun p => decide ((d.domain p.1).maxBudget * cap < budgetUnits p.2 * 1000)) then 0x08
  else if (List.range 256).any (fun b => decide (1024 < root b)) then 0x09
  else 0

/-- The first cause found in a slot, with its basin. -/
def Dev.admitSlot (d : Dev) (t : Table) (k : Nat) : Option (Nat × Nat × Nat) :=
  let rs := Tab.at t.runs [] k
  let sorted (b : Nat) : List Run := (rs.filter (fun r => r.lbasin == b)).foldl (fun l r => insertRun r l) []
  match (List.range 256).find? (fun b => d.admitBasin t b (sorted b) != 0) with
  | some b => some (d.admitBasin t b (sorted b), b, k)
  | none => let c := d.admitShares t rs; if c = 0 then none else some (c, 0, k)

/-- The program runs of a stream in a table. -/
def Table.runsOf (t : Table) (h : Nat) : List Run := (t.runs.flatMap Prod.snd).filter (fun r => r.entry.isSome && r.handle == h)

/-- The host-link limit of cause 0x0B in bytes per second, times 16 lanes (R361). A rate that R361 does not list has an open one. -/
def Dev.linkLimit (d : Dev) : Nat :=
  (if d.hw.speed = 6 then 109000000000 else if d.hw.speed = 5 then 54500000000 else if d.hw.speed = 4 then 27200000000
   else d.openValue.1.toNat) * d.hw.width

/-- Mean ingress, or mean egress, of a stream over a frame, in bytes per frame (R461). -/
def Dev.meanIn (d : Dev) (t : Table) (h : Nat) : Nat :=
  (d.stream (h / 65536)).slotkb * 1024 * ((t.runsOf h).filter Run.take).length
def Dev.meanOut (d : Dev) (t : Table) (h : Nat) : Nat :=
  (((t.runsOf h).filter Run.post).map (fun r => ((d.planStep r).map PlanStep.outsize).getD 0)).foldl (· + ·) 0

/-- The cause that refuses a stream of the table (R115, R35, R260, R259). -/
def Dev.admitStream (d : Dev) (t : Table) (h : Nat) : Nat :=
  let i := h / 65536
  let s := d.stream i
  let rs := t.runsOf h
  let x := d.domain s.domain
  let zeroCap (r : Run) : Bool := match d.planStep r with
    | some p => p.dataDep && (p.capElem == 0 || p.capIter == 0 || p.capRec == 0)
    | none => false
  let buffers := s.pages ++ rs.flatMap (fun r => ((d.plan i r.planno).map Plan.pages).getD [])
  if s.mirror = 2 ∧ rs.any (fun r => !r.det) then 0x0C
  else if rs.any zeroCap then 0x0D
  else if handleOf i s ≠ h ∨ s.state = 0 ∨ s.state = 4 ∨ x.state ≠ 1 ∨ x.maxStreams < d.streamsOf s.domain
      ∨ !buffers.all (fun p => let e := Tab.at d.rsv.pages {} p; e.valid && e.owner == s.domain) then 0x0E
  else if 2 ^ s.cqLog - 1 < min 4095 (rs.filter Run.post).length then 0x0F
  else 0

/-- Admission of R247: the first cause, with logical basin and slot; none accepts the table. -/
def Dev.admission (d : Dev) (t : Table) : Option (Nat × Nat × Nat) :=
  match (List.range t.nslot).filterMap (fun k => d.admitSlot t k) with
  | c :: _ => some c
  | [] =>
    let hs := t.handles.dedup
    let all := (hs ++ (d.cad.activeTable.map Table.handles).getD []).dedup
    let flen := t.slen * t.nslot
    let over_ (n : Nat) : Bool := decide (d.linkLimit * flen < n * 1000000000 * 16)
    if 4096 < all.length then some (0x0A, 0, 0)
    else if over_ ((hs.map (d.meanIn t)).foldl (· + ·) 0) || over_ ((hs.map (d.meanOut t)).foldl (· + ·) 0) then some (0x0B, 0, 0)
    else match hs.find? (fun h => d.admitStream t h != 0) with
      | some h => some (d.admitStream t h, 0, 0)
      | none => none

/-! ### Swaps (R245) -/

/-- One TAI second, ns. -/
def taiNs : Nat := 1000000000

/-- Where a swap to the shadow takes place, or the status and cause that refuse it: at the first frame boundary of the active table at
least two of its slots away, or at a whole TAI second at least two slots of the new table away. -/
def Dev.swapBoundary (d : Dev) (t : Table) : Nat × Nat × Nat :=
  match d.cad.activeTable with
  | some a =>
    let w := d.frameAtOrAfter (d.ns + 2 * a.slen)
    if t.fstart ≠ 0 ∧ t.fstart ≠ w then (stREJECTED, 0x11, 0) else (0, 0, w)
  | none =>
    let soon := d.ns + 2 * t.slen
    if t.fstart = 0 then (0, 0, cdiv soon taiNs * taiNs)
    else if t.fstart % taiNs ≠ 0 then (stREJECTED, 0x11, 0)
    else if t.fstart < soon then (stTOO_LATE, 0, 0)
    else (0, 0, t.fstart)

/-- A plan step of the table names a function that is not installed (R198). -/
def Dev.notInstalled (d : Dev) (t : Table) : Bool :=
  (t.runs.flatMap Prod.snd).any (fun r => (((d.planStep r).map PlanStep.entries).getD []).any (fun e => !d.lib.hasEntry e))

/-- SLOT_COMMIT: admission, then a pending swap. The refusal of a plan that names a function not installed carries a cause that the
spec does not give. -/
def cmdSlotCommit (_ : Req) (d : Dev) : Dev × Resp :=
  match d.cad.table d.cad.shadow with
  | none => d.no stWRONG_STATE
  | some t =>
    if d.cad.swapAt.isSome then d.no stBUSY
    else if d.pow.state = 1 ∧ 1200 < t.floor then d.no stFLOOR_CONFLICT
    else match d.admission t with
      | some (c, b, k) => d.no stREJECTED (c + b * 2 ^ 8 + k * 2 ^ 16)
      | none =>
        if d.notInstalled t then
          let v := d.openValue
          v.2.no stREJECTED (v.1.toNat % 256)
        else
          let w := d.swapBoundary t
          if w.1 ≠ 0 then d.no w.1 w.2.1
          else
            let t := { t with fstart := w.2.2, gen := (t.gen + 1) % 2 ^ 32 }
            (d.setCad { d.cad.setTable d.cad.shadow (some t) with swapAt := some w.2.2 }).yes (words2 w.2.2)
def execSlotCommit (f : Nat) (s : State) : Host.Outcome State Fault Refusal := onCmd f 0x502 cmdSlotCommit s

/-- SLOT_CANCEL: a pending swap is withdrawn more than two slots before its boundary. -/
def cmdSlotCancel (_ : Req) (d : Dev) : Dev × Resp :=
  match d.cad.swapAt with
  | none => d.no stWRONG_STATE
  | some w =>
    let slen := match d.cad.activeTable with
      | some a => a.slen
      | none => ((d.cad.table d.cad.shadow).map Table.slen).getD 0
    if w ≤ d.ns + 2 * slen then d.no stTOO_LATE else (d.setCad { d.cad with swapAt := none }).yes
def execSlotCancel (f : Nat) (s : State) : Host.Outcome State Fault Refusal := onCmd f 0x503 cmdSlotCancel s

/-- SLOT_QUERY: the run records of a slot of a copy; a domain other than 0 sees its own. A copy that holds no table has no records. What
ENTRY reads as in a run without a program is open. -/
def cmdSlotQuery (r : Req) (d : Dev) : Dev × Resp :=
  if 1 < r.arg 0 then d.no stINVALID
  else match d.cad.table (r.arg 0) with
    | none => d.yes
    | some t =>
      if t.nslot ≤ r.arg 1 then d.no stINVALID 1
      else
        let v := d.openValue
        v.2.yes [] (((Tab.at t.runs [] (r.arg 1)).filter (fun x => r.may x.domain)).flatMap (fun x => x.bytes (v.1.toNat % 8192)))
def execSlotQuery (f : Nat) (s : State) : Host.Outcome State Fault Refusal := onCmd f 0x504 cmdSlotQuery s

end Sys2Proof.Machine
end

