-- ==== Sys2Proof/Machine/Pairing.lean ====
section
/-! DEFINITION. Heninaward: attaching, mirroring and detaching, the messages of a pair, heartbeats, promotion and resynchronisation
(R321 to R342, R374, R462). -/

namespace Sys2Proof.Machine

open Sys2Proof

/-! ### Shares and plan digests (R321, R326, R462) -/

/-- The sum of the mirror-link shares in force in MB/s, but for one stream's own (R321, R462). -/
def Dev.shareSum (d : Dev) (skip : Nat) : Nat :=
  ((d.streams.filter (fun p => p.2.nextMode != 0 && p.1 != skip)).map (fun p => p.2.mshare)).foldl (· + ·) 0
    + ((d.trains.filter (fun p => p.2.ckEvery != 0)).map (fun p => p.2.ckShare * 1000)).foldl (· + ·) 0
    + ((d.plans.filter d.planNamed).map Plan.offShare).foldl (· + ·) 0

/-- The run records of a stream in a table as PLANDIG covers them: HANDLE left out, slot indices reduced by `delay` (R326). -/
def Table.digestBytes (t : Table) (h delay : Nat) : List Byte :=
  (List.range t.nslot).flatMap (fun k =>
    ((Tab.at t.runs [] ((k + delay) % t.nslot)).filter (fun r => r.entry.isSome && r.handle == h)).flatMap (fun r =>
      leBytes 2 k ++ (r.bytes 0).drop 4))

/-- PLANDIG of a stream: over the active table where that names it, else over the shadow (R326). -/
def Dev.plandigOf (d : Dev) (h delay : Nat) : W64 :=
  let names (t : Table) : Bool := decide (h ∈ t.handles)
  let t := match d.cad.activeTable.filter names with
    | some t => some t
    | none => d.cad.table d.cad.shadow
  Config.planDigest ((t.map (fun (x : Table) => x.digestBytes h delay)).getD [])

/-! ### Commands (R323 to R326, R340, R374) -/

/-- PAIR_ATTACH: the twin's identity is named and the mirror link trains; where it is UP already, JOIN is sent at once. -/
def cmdPairAttach (r : Req) (d : Dev) : Dev × Resp :=
  let ident := beNat (r.payload.take 48)
  if r.payload.length < 48 then d.no stINVALID
  else if d.pair.state ≠ 0 then d.no stWRONG_STATE
  else
    let d := (d.setPair { d.pair with twin := ident, joinerr := 0, hbmiss := 0, detached := false, twinDetached := false,
                                      maps := [] }).setPairState 1
    let x := d.port 4
    if x.state = 3 then
      if x.peerid = ident then d.sendJoin.yes
      else (((d.setPair { d.pair with joinerr := 4 }).pairEvent).portDown 4 5).yes
    else ((d.putPort 4 { x with enable := true }).tryTrain 4).yes
def execPairAttach (f : Nat) (s : State) : Host.Outcome State Fault Refusal := onCmd f 0x600 cmdPairAttach s

/-- A MAP message (R330). -/
def Dev.sendMap (d : Dev) (m : MapMsg) : Dev :=
  d.sendMsg 5 m.other (leBytes 4 m.own ++ leBytes 4 m.other ++ leBytes 4 m.mode ++ leBytes 4 m.delay ++ leBytes 4 m.share
    ++ leBytes 8 m.boundary ++ leBytes 8 m.digest)

/-- PAIR_DETACH: from a frame boundary on the mirrored streams are of mode none. The twin hears of it in a MAP that names no stream; with
the mirror link not UP the pair is UNPAIRED at once (R340). -/
def cmdPairDetach (r : Req) (d : Dev) : Dev × Resp :=
  let w := d.frameAtOrAfter (max (r.arg64 0) d.ns)
  if d.pair.state = 0 then d.no stNOT_PAIRED
  else
    let d := d.setPair { d.pair with detachAt := some w, detached := true }
    (if (d.port 4).state = 3 then d.sendMap { boundary := w } else d.unpair).yes (words2 w)
def execPairDetach (f : Nat) (s : State) : Host.Outcome State Fault Refusal := onCmd f 0x601 cmdPairDetach s

/-- A stream is of mode none from here on; a standby keeps its role, so that its runs do no work (R340). -/
def Stream.unmirror (s : Stream) : Stream :=
  { s with mirror := 0, nmode := 0, susp := false, resyncing := false, promoted := false, postTags := [], deltaTags := [], coverTags := [],
           myDigests := [], twinDigests := [] }

/-- DETACH_APPLY: at the boundary every mirrored stream is of mode none on this module, whichever of the two was told to detach; the pair
is UNPAIRED once both were (R340). -/
def detachApply (d : Dev) : Dev :=
  match d.pair.detachAt with
  | none => d
  | some w =>
    let d := d.atNs w
    let d := d.setStreams (Tab.mapv d.streams (fun _ s => if s.nextMode = 0 then s else s.unmirror))
    let d := d.setPair { d.pair with detachAt := none, roles := [], mirrors := [], ends := [], resyncs := [], dones := [] }
    if d.pair.detached ∧ d.pair.twinDetached then d.unpair else d
def execDetachApply (s : State) : Host.Outcome State Fault Refusal := onCore detachApply s

/-- The MAP that the twin sent for a pair of handles, if one is held. -/
def Dev.twinMap (d : Dev) (own twin : Nat) : Option MapMsg := d.pair.maps.find? (fun m => m.own == twin && m.other == own)

/-- PAIR_MIRROR sets up a stream's Heninaward state; its mode and role wait for the boundary from which mirroring applies (R325). The role
is not among what the command names: a stream that is mirrored already keeps its own, and for another it is open. Each module is told
the other's PLANDIG in a MAP; where they differ the command is refused, and the twin learns of it from the MAP (R326). The primary
resynchronises the stream once both are known to agree (R341). -/
def cmdPairMirror (r : Req) (d : Dev) : Dev × Resp :=
  let n := d.named r (r.arg 0)
  let i := n.2.1
  let s := n.2.2
  let mode := r.arg 2
  let delay := r.arg 4
  let w := d.frameAtOrAfter (max (r.arg64 5) d.ns)
  let map (dig : Nat) : MapMsg := { own := r.arg 0, other := r.arg 1, mode := mode, delay := delay, share := r.arg 3, boundary := w, digest := dig }
  if d.pair.state ≠ 2 then d.no stNOT_PAIRED
  else if n.1 ≠ 0 then d.no n.1
  else if 2 < mode then d.no stINVALID 2
  else if mode = 0 then
    ((d.setPair { d.pair with ends := d.pair.ends.filter (fun e => e.1 ≠ i) ++ [(i, w)] }).sendMap (map s.plandig.toNat)).yes (words2 w)
  else if r.arg 3 = 0 then d.no stINVALID 3
  else if (mode = 1 ∧ (delay < 2 ∨ 255 < delay)) ∨ (mode = 2 ∧ delay ≠ 0) then d.no stINVALID 4
  else if 195000 < d.shareSum i + r.arg 3 then d.no stSHARE
  else
    let v := d.openValue
    let role := if s.mirror = 0 then v.1.toNat % 2 else s.role
    let d := if s.mirror = 0 then v.2 else d
    let dig := d.plandigOf (r.arg 0) (if role = 1 then delay else 0)
    let held := d.twinMap (r.arg 0) (r.arg 1)
    let d := d.sendMap (map dig.toNat)
    if held.any (fun m => m.digest != dig.toNat) then d.no stWRONG_STATE
    else
      let d := d.putStream i { s with nmode := mode, nrole := role, twin := r.arg 1, mshare := r.arg 3, delay := delay, home := role == 0,
                                      susp := true, resyncing := true, plandig := dig, fwdidx := s.sqHead }
      (if held.isSome then d.resync i w else d).yes (words2 w)
def execPairMirror (f : Nat) (s : State) : Host.Outcome State Fault Refusal := onCmd f 0x602 cmdPairMirror s

/-- PAIR_ROLE: a hot stream's role, from a boundary on. -/
def cmdPairRole (r : Req) (d : Dev) : Dev × Resp :=
  let n := d.named r (r.arg 0)
  let w := d.frameAtOrAfter (max (r.arg64 2) d.ns)
  if d.pair.state ≠ 2 then d.no stNOT_PAIRED
  else if n.1 ≠ 0 then d.no n.1
  else if 1 < r.arg 1 then d.no stINVALID 1
  else if n.2.2.mirror ≠ 2 then d.no stWRONG_STATE
  else (d.setPair { d.pair with roles := d.pair.roles.filter (fun e => e.1 ≠ n.2.1) ++ [(n.2.1, r.arg 1, w)] }).yes (words2 w)
def execPairRole (f : Nat) (s : State) : Host.Outcome State Fault Refusal := onCmd f 0x603 cmdPairRole s

/-- PAIR_ROLE_APPLY. -/
def pairRoleApply (i : Nat) (d : Dev) : Dev :=
  match d.pair.roles.find? (fun e => e.1 == i) with
  | none => d
  | some e =>
    let d := (d.atNs e.2.2).setPair { d.pair with roles := d.pair.roles.filter (fun x => x.1 ≠ i) }
    if (d.stream i).mirror ≠ 2 then d else d.putStream i { d.stream i with role := e.2.1, promoted := false }
def execPairRoleApply (i : Nat) (s : State) : Host.Outcome State Fault Refusal := onCore (pairRoleApply i) s

/-- PAIR_QUERY: PAIRST of a stream, or the Heninaward registers (R328, R355). -/
def cmdPairQuery (r : Req) (d : Dev) : Dev × Resp :=
  if r.arg 0 = 0xFFFFFFFF then d.yes [] ((List.range 12).flatMap (fun k => leBytes 4 (d.mirWord (0x100 + 4 * k))))
  else
    let n := d.named r (r.arg 0)
    if n.1 ≠ 0 then d.no n.1 else d.yes [] n.2.2.pairst
def execPairQuery (f : Nat) (s : State) : Host.Outcome State Fault Refusal := onCmd f 0x604 cmdPairQuery s

/-! ### JOIN, MAP, RESYNC (R323, R326, R330, R341, R342) -/

/-- JOIN from the twin (R323, R330). -/
def join (j : Join) (d : Dev) : Dev := (d.setPair { d.pair with join := some j }).tryPair j
def execJoin (j : Join) (s : State) : Host.Outcome State Fault Refusal := onCore (join j) s

/-- A stream's PAIR_MIRROR is dropped: mirroring does not take effect, which a pair event reports (R326). -/
def Dev.dropMirror (d : Dev) (i : Nat) : Dev :=
  let s := d.stream i
  let d := d.putStream i { s with nmode := 0, resyncing := false, susp := s.mirror != 0 && d.pair.skewhi }
  (d.setPair { d.pair with mirrors := d.pair.mirrors.filter (fun m => m.1 ≠ i), dones := d.pair.dones.filter (fun m => m.1 ≠ i) }).pairEvent

/-- MAP from the twin. One that names no stream says that the twin detaches: from its boundary the mirrored streams are of mode none here
too (R340). For a stream whose PAIR_MIRROR waits here the digests are compared: the primary resynchronises where they agree, and the
command is dropped where they differ (R326, R341). -/
def mapMsg (m : MapMsg) (d : Dev) : Dev :=
  if d.pair.state = 0 then d
  else if m.own = 0 ∧ m.other = 0 then
    let d := d.setPair { d.pair with twinDetached := true }
    if d.pair.detached ∧ d.pair.detachAt.isNone then d.unpair
    else d.setPair { d.pair with detachAt := some (match d.pair.detachAt with | some w => min w m.boundary | none => m.boundary) }
  else
    let d := d.setPair { d.pair with maps := m :: d.pair.maps.filter (fun x => ¬ (x.own = m.own ∧ x.other = m.other)) }
    match d.streamOf m.other with
    | none => d
    | some (i, s) =>
      if s.nextMode = 0 ∨ s.twin ≠ m.own ∨ m.mode = 0 then d
      else if m.digest ≠ s.plandig.toNat then d.dropMirror i
      else if s.resyncing then d.resync i m.boundary else d
def execMapMsg (m : MapMsg) (s : State) : Host.Outcome State Fault Refusal := onCore (mapMsg m) s

/-- Bytes placed from mirror class `cls` for a handle, in frame order, and the frames that remain. -/
def Pair.gather (p : Pair) (cls h : Nat) : List Byte × List Frame :=
  let mine (f : Frame) : Bool := f.cls == cls && f.rtag == h
  (p.placed.reverse.filter mine |>.flatMap Frame.payload, p.placed.filter (fun f => !mine f))

/-- RESYNC from the primary: a state copy starts, or with DONE the standby loads it, discards the inputs it has buffered and mirrors from
the first frame boundary two slots away (R341). -/
def resyncMsg (handle boundary bytes : Nat) (done : Bool) (d : Dev) : Dev :=
  match d.streamOf handle with
  | none => d
  | some (i, s) =>
    if s.nextMode = 0 ∨ s.nextRole ≠ 1 then d
    else
      let d := d.putStream i { s with susp := true, resyncing := true }
      let g := d.pair.gather 2 handle
      if !done then d.setPair { d.pair with placed := g.2 }
      else
        let d := (d.setPair { d.pair with placed := g.2 }).loadState i (g.1.take bytes)
        let d := d.putStream i { d.stream i with descs := [] }
        d.setPair { d.pair with mirrors := d.pair.mirrors.filter (fun m => m.1 ≠ i) ++ [(i, d.frameAtOrAfter (max boundary (d.ns + 2 * d.slen)))] }
def execResyncMsg (handle boundary bytes : Nat) (done : Bool) (s : State) : Host.Outcome State Fault Refusal :=
  onCore (resyncMsg handle boundary bytes done) s

/-- MIRROR_APPLY: mirroring of a stream takes effect with the mode and the role that PAIR_MIRROR gave, and SUSP clears, unless SKEWHI holds
it; or mirroring ends (R325, R339, R341). -/
def mirrorApply (i : Nat) (d : Dev) : Dev :=
  match d.pair.ends.find? (fun e => e.1 == i) with
  | some e =>
    let d := (d.atNs e.2).setPair { d.pair with ends := d.pair.ends.filter (fun x => x.1 ≠ i) }
    if (d.stream i).nextMode = 0 then d else d.putStream i (d.stream i).unmirror
  | none =>
    match d.pair.mirrors.find? (fun e => e.1 == i) with
    | none => d
    | some e =>
      let d := (d.atNs e.2).setPair { d.pair with mirrors := d.pair.mirrors.filter (fun x => x.1 ≠ i) }
      let s := d.stream i
      if s.nextMode = 0 then d
      else d.putStream i { s with mirror := s.nextMode, role := s.nextRole, nmode := 0, promoted := s.nmode == 0 && s.promoted,
                                  resyncing := false, susp := d.pair.skewhi }
def execMirrorApply (i : Nat) (s : State) : Host.Outcome State Fault Refusal := onCore (mirrorApply i) s

/-! ### Heartbeats and promotion (R333, R336, R339) -/

/-- MIR_SKEW, twin minus own, from the four CT values of two exchanges, rounded towards zero (R316, R333). -/
def skewOf (t1 t2 t3 t4 : Nat) (asym : Int) : Int := -(Int.tdiv (((t2 : Int) - t1) - ((t4 : Int) - t3) - asym) 2)

/-- SKEWHI, and SUSP on every mirrored stream (R339). -/
def Dev.setSkew (d : Dev) (skew : Int) : Dev :=
  let hi := if 1000 < skew.natAbs then true else if skew.natAbs ≤ 800 then false else d.pair.skewhi
  let old := d.pair.skewhi
  let d := d.setPair { d.pair with skew := skew, skewhi := hi }
  if hi = old then d
  else
    let d := d.setStreams (Tab.mapv d.streams (fun _ s => if s.mirror = 0 then s else { s with susp := hi || s.resyncing }))
    d.raiseO 0xE 0x1F5 (patternOf 32 skew) (bit01 hi) 0

/-- HB from the twin. -/
def hb (h : Heartbeat) (d : Dev) : Dev :=
  if d.pair.state = 0 then d
  else
    let d := d.setPair { d.pair with lasthb := d.ns, hbmiss := 0, hbSlot := h.slotCt, rxSend := h.sent, rxArr := d.ns, txSend := h.lastSent,
                                     txArr := h.lastArr }
    if h.lastSent = 0 then d else d.setSkew (skewOf h.sent d.ns h.lastSent h.lastArr (signedOf 16 (d.port 4).asym))
def execHb (h : Heartbeat) (s : State) : Host.Outcome State Fault Refusal := onCore (hb h) s

/-- The module promotes itself for every stream that it stands by (R336). -/
def Dev.promoteAll (d : Dev) : Dev :=
  d.streams.foldl (fun d p =>
    let s := d.stream p.1
    if !s.standby then d
    else
      let d := (d.putStream p.1 { s with role := 0, promoted := true, npromote := s.npromote + 1 }).setPair
        { d.pair with promotecnt := d.pair.promotecnt + 1, promoted := true }
      d.raiseS 0xB 0x1F5 p.1 s.twin 0 0) d

/-- HB_CHECK: 4 µs into the slot the twin's HB of the same slot is due. The second miss in a row isolates a PAIRED module, and it promotes
itself (R324, R333, R336). -/
def hbCheck (d : Dev) : Dev :=
  let p := d.pair
  if p.state = 0 ∨ p.hbDone ∨ !d.cad.active ∨ !d.cad.strobed then d
  else
    let near := decide (p.hbSlot * 2 < d.slotStart * 2 + d.slen) && decide (d.slotStart * 2 < p.hbSlot * 2 + d.slen)
    let d := d.atNs (d.slotStart + 4000)
    if near then d.setPair { p with hbDone := true }
    else
      let d := d.setPair { p with hbDone := true, hbmiss := min 15 (p.hbmiss + 1) }
      if d.pair.hbmiss = 2 then (if p.state = 2 then d.setPairState 3 else d).promoteAll else d
def execHbCheck (s : State) : Host.Outcome State Fault Refusal := onCore hbCheck s

/-! ### POST, DIGEST, forwarded records and deltas (R330 to R332, R334, R338) -/

/-- The completion ring stands at the entry after one that the twin wrote (R334, R337). -/
def Stream.postedAt (s : Stream) (idx : Nat) : Stream :=
  let t := (idx + 1) % 2 ^ s.cqLog
  let ph := if t < s.cqTail then 1 - s.cqPhase else s.cqPhase
  let s := { s with cqTail := t, cqPhase := ph }
  if s.period.isNone ∧ s.due = [] ∧ s.descs = [] then { s with takeIdx := t, takePhase := ph } else s

/-- POST: the twin has posted a period of the stream. -/
def postMsg (handle tag idx : Nat) (d : Dev) : Dev :=
  match d.streamOf handle with
  | none => d
  | some (i, s) =>
    if s.mirror = 0 then d
    else
      let s := { s with lastpost := tag, postTags := if s.role = 0 ∨ tag ∈ s.postTags then s.postTags else s.postTags ++ [tag] }
      d.putStream i (if s.role = 1 then s.postedAt idx else s)
def execPostMsg (handle tag idx : Nat) (s : State) : Host.Outcome State Fault Refusal := onCore (postMsg handle tag idx) s

/-- DIGEST: the twin's digest of a hot period; compared where this module's is held. -/
def digestMsg (handle tag dig : Nat) (d : Dev) : Dev :=
  match d.streamOf handle with
  | none => d
  | some (i, s) => if s.mirror ≠ 2 then d else (d.putStream i { s with twinDigests := Tab.put s.twinDigests tag dig }).compareDigests i tag
def execDigestMsg (handle tag _outlen _code dig : Nat) (s : State) : Host.Outcome State Fault Refusal := onCore (digestMsg handle tag dig) s

/-- FORWARD_RECORD: the standby keeps a forwarded entry and its input, and expects the next entry. -/
def forwardRecord (i : Nat) (entry : List Byte) (idx arrCt : Nat) (data : List Byte) (d : Dev) : Dev :=
  let s := d.stream i
  match s.freeIb with
  | none => d
  | some ib =>
    let x := { descOf entry idx ib with arr := some (arrCt * 65536), fwd := true }
    if !s.standby ∨ d.pair.state ≠ 2 ∨ ¬ (s.state = 2 ∨ s.state = 3) ∨ data.length ≠ x.len ∨ s.slotkb * 1024 < x.len then d
    else
      let next := (idx + 1) % 2 ^ s.sqLog
      let d := (d.setPair { d.pair with placed := (d.pair.gather 1 (handleOf i s)).2 }).putStream i { s with fwdidx := next, sqHead := next }
      let w := d.rsvWrite s.domain (s.ibuf + ib * s.slotkb * 1024) data
      match w.2 with
      | .ok _ => w.1.putStream i { w.1.stream i with descs := s.descs ++ [x], lastarr := arrCt }
      | .poisoned => w.1.putStream i { w.1.stream i with descs := s.descs ++ [x], lastarr := arrCt }
      | _ => w.1.invalid i x
def execForwardRecord (i : Nat) (entry : List Byte) (idx arrCt : Nat) (data : List Byte) (s : State) : Host.Outcome State Fault Refusal :=
  onCore (forwardRecord i entry idx arrCt data) s

/-- DELTA_RECORD: the delta of a period is complete on the warm standby, which applies it to its own state pages unless it runs the
period itself. -/
def deltaRecord (i tag : Nat) (writes : List (Nat × List Byte)) (d : Dev) : Dev :=
  let s := d.stream i
  if !s.standby ∨ s.mirror ≠ 1 then d
  else
    let ran := s.period.any (fun p => p.tag == tag && p.covering) || decide (tag ∈ s.coverTags)
    let pages := ((d.plan i s.planno).map Plan.statePages).getD []
    let d := (d.setPair { d.pair with placed := (d.pair.gather 2 (handleOf i s)).2 }).putStream i
      { s with deltaTags := if tag ∈ s.deltaTags then s.deltaTags else s.deltaTags ++ [tag] }
    if ran then d
    else d.setRsv ((writes.filter (fun w => (pagesOf w.1 w.2.length).all (fun k => decide (k ∈ pages)))).foldl
      (fun (q : Rsv) w => (q.write w.1 w.2).moved w.2.length) d.rsv)
def execDeltaRecord (i tag : Nat) (writes : List (Nat × List Byte)) (s : State) : Host.Outcome State Fault Refusal :=
  onCore (deltaRecord i tag writes) s

end Sys2Proof.Machine
end

