-- ==== Sys2Proof/Machine/Seq.lean ====
section
/-! DEFINITION. The basin sequencer: scalar instructions, branches, issue of engine operations under the scoreboard, and the
retirement of layers and tile operations (R95, R97, R98, R105 to R114, R138 to R142, R196, R209, R210). -/

namespace Sys2Proof.Machine

open Sys2Proof

/-! ### Fetch and the program counter -/

/-- The index lies in the run's program region (R105). -/
def Seq.inRegion (q : Seq) : Bool := decide (q.base ≤ q.pc) && decide (q.pc ≤ q.limit)

/-- The instruction at the program counter of a basin whose run has a program and has not issued END. -/
def Basin.current (x : Basin) : Option (Active × Ins) :=
  match x.seq.active with
  | none => none
  | some a => if a.ended || a.run.entry.isNone || !x.seq.inRegion then none else some (a, insOf (Tab.at x.prog 0 x.seq.pc))

/-- The next instruction issues if `sel` picks it and no earlier one is held (R109). -/
def Dev.issue (d : Dev) (b : Nat) (sel : Basin → Ins → Bool) (k : Dev → Active → Ins → Dev) : Dev :=
  let x := d.basin b
  match x.current with
  | none => d
  | some (a, i) => if x.seq.held.isSome || !sel x i then d else k d a i

/-- A scalar register: s0 reads 0 (R106). -/
def Seq.reg (q : Seq) (k : Nat) : W32 := if k = 0 then 0 else Tab.at q.regs 0 k

/-- A write of a scalar register: writes to s0 are ignored (R106). -/
def Seq.setReg (q : Seq) (k : Nat) (v : W32) : Seq := if k = 0 then q else { q with regs := Tab.put q.regs k v }

/-- Go on at instruction `t`. -/
def Dev.goto (d : Dev) (b t : Nat) : Dev :=
  let x := d.basin b
  d.putBasin b { x with seq := { x.seq with pc := t, last := x.seq.pc, held := none } }

/-- Go on with the next instruction. -/
def Dev.advance (d : Dev) (b : Nat) : Dev := d.goto b ((d.basin b).seq.pc + 1)

/-- The instruction cannot issue and holds every later one (R109). Its descriptor is read again when it issues (R97, R147, R209). -/
def Dev.hold (d : Dev) (b : Nat) : Dev :=
  let x := d.basin b
  d.putBasin b { x with seq := { x.seq with held := some x.seq.pc } }

/-- Write sd and go on. -/
def Dev.result (d : Dev) (b k : Nat) (v : W32) : Dev :=
  let x := d.basin b
  (d.putBasin b { x with seq := x.seq.setReg k v }).advance b

/-- Select by opcode. -/
def opIs (c : Nat) (_ : Basin) (i : Ins) : Bool := i.opc == c

/-! ### Scalar instructions (R108) -/

/-- NOP. -/
def execSeqNop (b : Nat) (s : State) : Host.Outcome State Fault Refusal := onCore (fun d => d.issue b (opIs 0) (fun d _ _ => d.advance b)) s

/-- END: issue stops; the sequencer waits at it until every operation has retired (R110). -/
def seqEnd (b : Nat) (d : Dev) : Dev :=
  d.issue b (opIs 1) (fun d a _ =>
    let x := d.basin b
    d.putBasin b { x with seq := { x.seq with active := some { a with ended := true }, held := some x.seq.pc } })
def execSeqEnd (b : Nat) (s : State) : Host.Outcome State Fault Refusal := onCore (seqEnd b) s

/-- An arithmetic instruction: sd := sa op b, where b is IMM when FN[0] = 1 and sb otherwise. -/
def Dev.alu (d : Dev) (b code : Nat) (f : W32 → W32 → W32) : Dev :=
  d.issue b (opIs code) (fun d _ i =>
    let q := (d.basin b).seq
    d.result b i.sd (f (q.reg i.sa) (if bitOf i.fn 0 then BitVec.ofNat 32 i.imm else q.reg i.sb)))

/-- ADD. -/
def execSeqAdd (b : Nat) (s : State) : Host.Outcome State Fault Refusal := onCore (fun d => d.alu b 0x10 (fun u v => u + v)) s
/-- SUB. -/
def execSeqSub (b : Nat) (s : State) : Host.Outcome State Fault Refusal := onCore (fun d => d.alu b 0x11 (fun u v => u - v)) s
/-- AND. -/
def execSeqAnd (b : Nat) (s : State) : Host.Outcome State Fault Refusal := onCore (fun d => d.alu b 0x12 (fun u v => u &&& v)) s
/-- OR. -/
def execSeqOr (b : Nat) (s : State) : Host.Outcome State Fault Refusal := onCore (fun d => d.alu b 0x13 (fun u v => u ||| v)) s
/-- XOR. -/
def execSeqXor (b : Nat) (s : State) : Host.Outcome State Fault Refusal := onCore (fun d => d.alu b 0x14 (fun u v => u ^^^ v)) s
/-- SHL: shifts use b[4:0]. -/
def execSeqShl (b : Nat) (s : State) : Host.Outcome State Fault Refusal :=
  onCore (fun d => d.alu b 0x15 (fun u v => u <<< (v.toNat % 32))) s
/-- SHR: logical. -/
def execSeqShr (b : Nat) (s : State) : Host.Outcome State Fault Refusal :=
  onCore (fun d => d.alu b 0x16 (fun u v => u >>> (v.toNat % 32))) s
/-- SLTU. -/
def execSeqSltu (b : Nat) (s : State) : Host.Outcome State Fault Refusal :=
  onCore (fun d => d.alu b 0x17 (fun u v => if u.toNat < v.toNat then 1 else 0)) s
/-- MUL: the low 32 bits. -/
def execSeqMul (b : Nat) (s : State) : Host.Outcome State Fault Refusal := onCore (fun d => d.alu b 0x18 (fun u v => u * v)) s

/-- LI. -/
def execSeqLi (b : Nat) (s : State) : Host.Outcome State Fault Refusal :=
  onCore (fun d => d.issue b (opIs 0x19) (fun d _ i => d.result b i.sd (BitVec.ofNat 32 i.imm))) s

/-- The effective address, a 32-bit sum. -/
def Seq.ea (q : Seq) (i : Ins) : Nat := (q.reg i.sa + BitVec.ofNat 32 i.imm).toNat

/-- The fault code of a word access: alignment, then domain or tile (R111). -/
def Basin.wordCode (x : Basin) (r : Run) (a : Nat) : Nat := if a % 4 ≠ 0 then 6 else x.rangeCode r a 4

/-- No claim stands in the way of an access to a range (R112, R114). -/
def Seq.free (q : Seq) (a n : Nat) (write : Bool) : Bool :=
  q.clear (tilesOf a n) (segsOf a n) (if write then segsOf a n else []) (fun _ => false)

/-- LDW. -/
def Dev.doLdw (d : Dev) (b : Nat) (a : Active) (i : Ins) : Dev :=
  let x := d.basin b
  let ea := x.seq.ea i
  let code := x.wordCode a.run ea
  if code ≠ 0 then d.stopRun b code x.seq.pc
  else if !x.seq.free ea 4 false then d.hold b
  else d.readFor b x.seq.pc [(ea, 4)] (fun d => d.result b i.sd (BitVec.ofNat 32 (Mem.readLe (d.basin b).store ea 4)))
def execSeqLdw (b : Nat) (s : State) : Host.Outcome State Fault Refusal := onCore (fun d => d.issue b (opIs 0x20) (fun d a i => d.doLdw b a i)) s

/-- A basin after a word is stored: a full run of words over a tile clears its flag (R95), and an error in a wholly written
accumulator word is gone (R205). -/
def Basin.storeWord (x : Basin) (ea v : Nat) : Basin :=
  let y := { x with store := Mem.writeLe x.store ea 4 v }
  if ea < 0x400000 then y
  else
    let t := (ea - 0x400000) / 256
    let c := Nat.lor (Tab.at x.tileCover 0 t) (2 ^ (ea % 256 / 4))
    let y := y.mend ea 4
    if c = 2 ^ 64 - 1 then { y with tileFlags := Tab.del y.tileFlags t, tileCover := Tab.del y.tileCover t }
    else { y with tileCover := Tab.put y.tileCover t c }

/-- STW. In the cistern it is a read-modify-write of an 8 B word (R205). -/
def Dev.doStw (d : Dev) (b : Nat) (a : Active) (i : Ins) : Dev :=
  let x := d.basin b
  let ea := x.seq.ea i
  let code := x.wordCode a.run ea
  let v := (x.seq.reg i.sb).toNat
  let put (d : Dev) : Dev := (d.putBasin b ((d.basin b).storeWord ea v)).advance b
  if code ≠ 0 then d.stopRun b code x.seq.pc
  else if !x.seq.free ea 4 true then d.hold b
  else if ea < 0x400000 then d.readFor b x.seq.pc [(ea / 8 * 8, 8)] put
  else put d
def execSeqStw (b : Nat) (s : State) : Host.Outcome State Fault Refusal := onCore (fun d => d.issue b (opIs 0x21) (fun d a i => d.doStw b a i)) s

/-- J. -/
def execSeqJ (b : Nat) (s : State) : Host.Outcome State Fault Refusal := onCore (fun d => d.issue b (opIs 0x30) (fun d _ i => d.goto b i.imm)) s

/-- A conditional branch. -/
def Dev.branch (d : Dev) (b code : Nat) (f : W32 → W32 → Bool) : Dev :=
  d.issue b (opIs code) (fun d _ i =>
    let q := (d.basin b).seq
    if f (q.reg i.sa) (q.reg i.sb) then d.goto b i.imm else d.advance b)
/-- BEQ. -/
def execSeqBeq (b : Nat) (s : State) : Host.Outcome State Fault Refusal := onCore (fun d => d.branch b 0x31 (fun u v => u == v)) s
/-- BNE. -/
def execSeqBne (b : Nat) (s : State) : Host.Outcome State Fault Refusal := onCore (fun d => d.branch b 0x32 (fun u v => u != v)) s
/-- BLTU. -/
def execSeqBltu (b : Nat) (s : State) : Host.Outcome State Fault Refusal :=
  onCore (fun d => d.branch b 0x33 (fun u v => decide (u.toNat < v.toNat))) s

/-- LOOP: sd := sd − 1; a jump while the new sd is not 0. s0 reads 0 and keeps it: there the test is of the difference, 0xFFFF_FFFF,
so the branch is always taken (DEDUCED, notes/assumptions/94.md). -/
def seqLoop (b : Nat) (d : Dev) : Dev :=
  d.issue b (opIs 0x34) (fun d _ i =>
    let x := d.basin b
    let v := x.seq.reg i.sd - 1
    let d := d.putBasin b { x with seq := x.seq.setReg i.sd v }
    if v ≠ 0 then d.goto b i.imm else d.advance b)
def execSeqLoop (b : Nat) (s : State) : Host.Outcome State Fault Refusal := onCore (seqLoop b) s

/-- RDSLOT: nanoseconds since slot start; under deterministic mode the run's start offset. -/
def execSeqRdslot (b : Nat) (s : State) : Host.Outcome State Fault Refusal :=
  onCore (fun d => d.issue b (opIs 0x51) (fun d a i =>
    d.result b i.sd (BitVec.ofNat 32 (if a.run.det then a.run.tstart else d.ns - a.slotCt)))) s

/-- FLAGS: sd := BSN_FLAGS_SUM; FN[0] = 1 then clears the engine flag words (R83). -/
def seqFlags (b : Nat) (d : Dev) : Dev :=
  d.issue b (opIs 0x52) (fun d _ i =>
    let x := d.basin b
    let v := x.flags.sum
    (d.putBasin b { x with flags := if bitOf i.fn 0 then EngineFlags.reset else x.flags }).result b i.sd v)
def execSeqFlags (b : Nat) (s : State) : Host.Outcome State Fault Refusal := onCore (seqFlags b) s

/-- The classes of WAIT (R108): tile operations count with the jets. -/
def waitClass (fn : Nat) (e : Engine) : Bool :=
  match e with
  | .jet => bitOf fn 0
  | .tile => bitOf fn 0
  | .sluice => bitOf fn 1
  | .cascade => bitOf fn 2
  | .runnel0 => bitOf fn 3
  | .runnel1 => bitOf fn 4
  | .loupe => bitOf fn 5

/-- WAIT. -/
def Dev.doWait (d : Dev) (b : Nat) (i : Ins) : Dev :=
  if (d.basin b).seq.ops.any (fun o => waitClass i.fn o.engine) then d.hold b else d.advance b
def execSeqWait (b : Nat) (s : State) : Host.Outcome State Fault Refusal := onCore (fun d => d.issue b (opIs 0x50) (fun d _ i => d.doWait b i)) s

/-- The opcodes of R108. -/
def listed (i : Ins) : Bool :=
  decide (i.opc ≤ 1) || (decide (0x10 ≤ i.opc) && decide (i.opc ≤ 0x19)) || i.opc == 0x20 || i.opc == 0x21
    || (decide (0x30 ≤ i.opc) && decide (i.opc ≤ 0x34)) || (decide (0x40 ≤ i.opc) && decide (i.opc ≤ 0x43))
    || (i.opc == 0x44 && decide (bitsOf i.fn 8 5 ≤ 9)) || i.opc == 0x48 || i.opc == 0x49 || (decide (0x50 ≤ i.opc) && decide (i.opc ≤ 0x52))

/-- UNLISTED_OPCODE: code 0x01. -/
def execUnlistedOpcode (b : Nat) (s : State) : Host.Outcome State Fault Refusal :=
  onCore (fun d => d.issue b (fun _ i => !listed i) (fun d _ _ => d.stopRun b 1 (d.basin b).seq.pc)) s

/-- PROGRAM_REGION_FAULT: a branch or fall-through has left the region, code 0x02 at the index of the instruction that left it
(R105, R111). -/
def programRegionFault (b : Nat) (d : Dev) : Dev :=
  let x := d.basin b
  match x.seq.active with
  | none => d
  | some a => if a.ended || a.run.entry.isNone || x.seq.inRegion then d else d.stopRun b 2 x.seq.last
def execProgramRegionFault (b : Nat) (s : State) : Host.Outcome State Fault Refusal := onCore (programRegionFault b) s

/-! ### Issue of engine operations -/

/-- The number of the next operation, and the run with it taken. -/
def Basin.takeSeq (x : Basin) : Nat × Basin :=
  match x.seq.active with
  | none => (0, x)
  | some a => (a.nextSeq, { x with seq := { x.seq with active := some { a with nextSeq := a.nextSeq + 1 } } })

/-- Read a 64 B descriptor at issue: alignment, domain, ECC (R97, R111). -/
def Dev.descriptor (d : Dev) (b addr : Nat) (a : Active) (k : Dev → List Byte → Dev) : Dev :=
  let x := d.basin b
  if addr % 64 ≠ 0 then d.stopRun b 6 x.seq.pc
  else
    let code := x.cisCode a.run addr 64
    if code ≠ 0 then d.stopRun b code x.seq.pc
    else d.readFor b x.seq.pc [(addr, 64)] (fun d => k d (Mem.readBytes (d.basin b).store addr 64))

/-- A descriptor's 64 bytes where they may be read; none otherwise. -/
def Basin.peek (x : Basin) (i : Ins) : Option (List Byte) :=
  match x.seq.active with
  | none => none
  | some a =>
    let ea := x.seq.ea i
    if ea % 64 = 0 ∧ x.cisCode a.run ea 64 = 0 ∧ (x.badIn ea 64).isNone then some (Mem.readBytes x.store ea 64) else none

/-- Grant an operation: it enters the list in program order, and the next instruction follows. -/
def Dev.grant (d : Dev) (b : Nat) (e : Engine) (i : Ins) (bytes : List Byte) (f : Basin → Op → Basin) : Dev :=
  let x := d.basin b
  let n := x.takeSeq
  (d.putBasin b (f n.2 (Op.new n.1 x.seq.pc e (x.seq.ea i) bytes))).advance b

/-- Operations in flight replaced by what a merge leaves of them (R113, R141). -/
def Basin.remerge (x : Basin) (old new : List Op) : Basin :=
  { x with seq := { x.seq with ops := (old.zip new).foldl (fun ops p => ops.map (fun o => if o = p.1 then p.2 else o)) x.seq.ops } }

/-- JOP with its descriptor read: checks, claims, and the layer (R98, R109, R112 to R114). -/
def Dev.goJop (d : Dev) (b : Nat) (a : Active) (i : Ins) (bytes : List Byte) : Dev :=
  let x := d.basin b
  let l := layerOf bytes
  let code := l.code x a.run
  if code ≠ 0 then d.stopRun b code x.seq.pc
  else
    let others := (x.seq.ops.filter (fun o => o.engine == .jet && l.merges (layerOf o.bytes) a.run.det)).map (fun o => (o, layerOf o.bytes))
    let rs := (l.reads.flatMap (fun r => segsOf r.1 r.2)).dedup
    let ws := (l.writesTo.flatMap (fun r => segsOf r.1 r.2)).dedup
    if !x.seq.room .jet || !x.seq.clear l.tiles rs ws (fun o => others.any (fun p => p.1.seq == o.seq)) then d.hold b
    else d.readFor b x.seq.pc (l.rowReads ++ l.accReads) (fun d =>
      (d.grant b .jet i bytes (fun y o =>
        let r := l.compute y o others d.free
        (r.2.2.remerge (others.map Prod.fst) r.2.1).addOp r.1)).setFree (d.free + 1))

/-- JOP. -/
def execSeqJop (b : Nat) (s : State) : Host.Outcome State Fault Refusal :=
  onCore (fun d => d.issue b (opIs 0x40) (fun d a i => d.descriptor b ((d.basin b).seq.ea i) a (fun d bs => d.goJop b a i bs))) s

/-- The parameter block's bytes where the descriptor names one that may be read (R147). -/
def Basin.ppbBytes (x : Basin) (r : Run) (s : Sluice) : List Byte :=
  if s.ppbv ∧ s.ppb % 64 = 0 ∧ x.cisCode r s.ppb 64 = 0 then Mem.readBytes x.store s.ppb 64 else []

/-- SLU with descriptor and parameter block read (R209, R210). -/
def Dev.goSlu (d : Dev) (b : Nat) (a : Active) (i : Ins) (bytes : List Byte) : Dev :=
  let x := d.basin b
  let s := sluiceOf bytes
  let p := if bytes.length = 128 then ppbOf (bytes.drop 64) else Ppb.blank
  let c := d.sluiceCheck b a.run s p
  if c ≠ (0, 0) then d.sluiceFail b (Op.new 0 x.seq.pc .sluice 0 bytes) c.1 c.2
  else
    let k := d.sluiceClaims b s p
    if !x.seq.room .sluice || !x.seq.clear k.2.2 k.1 k.2.1 (fun _ => false) then d.hold b
    else d.grant b .sluice i bytes (fun y o => y.addOp { o with readSegs := k.1, writeSegs := k.2.1, tiles := k.2.2 })

/-- The parameter block, where there is one to read, and then the checks and the claims. An uncorrectable error in it ends the
transfer (R147, R213). -/
def Dev.doSlu (d : Dev) (b : Nat) (a : Active) (i : Ins) (bytes : List Byte) : Dev :=
  let x := d.basin b
  let q := sluiceOf bytes
  let pb := x.ppbBytes a.run q
  if pb = [] then d.goSlu b a i bytes
  else match x.badIn q.ppb 64 with
    | some w => d.sluiceEcc b w x.seq.pc
    | none => (d.eccCorrect b (x.softIn q.ppb 64)).goSlu b a i (bytes ++ pb)

/-- SLU. -/
def execSeqSlu (b : Nat) (s : State) : Host.Outcome State Fault Refusal :=
  onCore (fun d => d.issue b (opIs 0x41) (fun d a i => d.descriptor b ((d.basin b).seq.ea i) a (fun d bs => d.doSlu b a i bs))) s

/-- CSC with its descriptor read (R172, R173, R182). -/
def Dev.goCsc (d : Dev) (b : Nat) (a : Active) (i : Ins) (bytes : List Byte) : Dev :=
  let x := d.basin b
  let c := cscOf bytes
  let code := c.code x a.run
  if code ≠ 0 then d.stopRun b code x.seq.pc
  else
    let rs := (c.reads.flatMap (fun r => segsOf r.1 r.2)).dedup
    let wt := c.writesTo x.logical
    let ts := ((c.reads ++ wt).flatMap (fun r => tilesOf r.1 r.2)).dedup
    if !x.seq.room .cascade || !x.seq.clear ts rs ((wt.flatMap (fun r => segsOf r.1 r.2)).dedup) (fun _ => false) then d.hold b
    else d.readFor b x.seq.pc c.reads (fun d =>
      d.grant b .cascade i bytes (fun y o => match y.seq.active with | some a => y.cscStart a o c | none => y))

/-- A CSC instruction whose descriptor has one of the operations. -/
def cscIs (k : Nat) (x : Basin) (i : Ins) : Bool := i.opc == 0x42 && (match x.peek i with | some bs => (cscOf bs).op == k | none => false)

/-- A CSC instruction carried out. -/
def Dev.csc (d : Dev) (b : Nat) (sel : Basin → Ins → Bool) : Dev :=
  d.issue b sel (fun d a i => d.descriptor b ((d.basin b).seq.ea i) a (fun d bs => d.goCsc b a i bs))

/-- SUM; a CSC instruction whose descriptor cannot be read or names no listed operation faults here too (R173). -/
def execCscSum (b : Nat) (s : State) : Host.Outcome State Fault Refusal :=
  onCore (fun d => d.csc b (fun x i => cscIs 0 x i || (i.opc == 0x42 && (match x.peek i with | some bs => decide (8 ≤ (cscOf bs).op) | none => true)))) s
/-- MAX. -/
def execCscMax (b : Nat) (s : State) : Host.Outcome State Fault Refusal := onCore (fun d => d.csc b (cscIs 1)) s
/-- MIN. -/
def execCscMin (b : Nat) (s : State) : Host.Outcome State Fault Refusal := onCore (fun d => d.csc b (cscIs 2)) s
/-- MEANVAR. -/
def execCscMeanvar (b : Nat) (s : State) : Host.Outcome State Fault Refusal := onCore (fun d => d.csc b (cscIs 3)) s
/-- LSE. -/
def execCscLse (b : Nat) (s : State) : Host.Outcome State Fault Refusal := onCore (fun d => d.csc b (cscIs 4)) s
/-- SOFTMAX. -/
def execCscSoftmax (b : Nat) (s : State) : Host.Outcome State Fault Refusal := onCore (fun d => d.csc b (cscIs 5)) s
/-- SSQ. -/
def execCscSsq (b : Nat) (s : State) : Host.Outcome State Fault Refusal := onCore (fun d => d.csc b (cscIs 6)) s
/-- GNORM. -/
def execCscGnorm (b : Nat) (s : State) : Host.Outcome State Fault Refusal := onCore (fun d => d.csc b (cscIs 7)) s

/-- RUNL with its descriptor read. RUN_STATUS shows it once no earlier one runs; a reserved EM sets INV (R200). The count word is read at issue
once nothing in flight writes it (R196). -/
def Dev.goRunl (d : Dev) (b : Nat) (a : Active) (i : Ins) (bytes : List Byte) : Dev :=
  let x := d.basin b
  let q := rnlOf bytes
  let e : Engine := if bitOf i.fn 0 then .runnel1 else .runnel0
  if q.cntsrc && !x.seq.free q.cntaddr 4 false then d.hold b
  else
    let count := if q.cntsrc then Mem.readLe x.store q.cntaddr 4 % 2 ^ 24 else q.count
    let n := min count q.ecap
    let code := d.rnlCode x a.run q n
    if code ≠ 0 then d.stopRun b code x.seq.pc
    else
      let g := q.ranges (d.muUses q.entry) n
      let rs := (g.1.flatMap (fun r => segsOf r.1 r.2)).dedup
      let ws := (g.2.flatMap (fun r => segsOf r.1 r.2)).dedup
      let ts := ((g.1 ++ g.2).flatMap (fun r => tilesOf r.1 r.2)).dedup
      if !x.seq.room e || !x.seq.clear ts rs ws (fun _ => false) then d.hold b
      else d.readFor b x.seq.pc (if q.cntsrc then [(q.cntaddr, 4)] else []) (fun d =>
        let st := q.start count
        let d := d.grant b e i bytes (fun y o =>
          { (y.addOp { o with readSegs := rs, writeSegs := ws, tiles := ts, rnl := some st, flags := if q.em = 3 then flINV else 0 }) with
            eng := if (y.oldest e).isSome then y.eng else y.eng.runStatus (if bitOf i.fn 0 then 1 else 0) st })
        if st.ecapr then d.capped b 0 else d)

/-- RUNL. -/
def execSeqRunl (b : Nat) (s : State) : Host.Outcome State Fault Refusal :=
  onCore (fun d => d.issue b (opIs 0x43) (fun d a i => d.descriptor b ((d.basin b).seq.ea i) a (fun d bs => d.goRunl b a i bs))) s

/-- LPE with its descriptor read. -/
def Dev.goLpe (d : Dev) (b : Nat) (a : Active) (i : Ins) (bytes : List Byte) : Dev :=
  let x := d.basin b
  let l := lpeOf i.fn x.eng.lpeRnd bytes
  let code := l.code x a.run
  if code ≠ 0 then d.stopRun b code x.seq.pc
  else
    let rs := (l.reads.flatMap (fun r => segsOf r.1 r.2)).dedup
    let ts := ((l.reads ++ [(l.d, l.count * l.dst)]).flatMap (fun r => tilesOf r.1 r.2)).dedup
    if !x.seq.room .loupe || !x.seq.clear ts rs (segsOf l.d (l.count * l.dst)) (fun _ => false) then d.hold b
    else d.readFor b x.seq.pc l.reads (fun d => d.grant b .loupe i bytes (fun y o => y.addOp (l.compute y o)))

/-- An LPE instruction of one operation. -/
def Dev.lpe (d : Dev) (b k : Nat) : Dev :=
  d.issue b (fun _ i => i.opc == 0x44 && bitsOf i.fn 8 5 == k) (fun d a i =>
    d.descriptor b ((d.basin b).seq.ea i) a (fun d bs => d.goLpe b a i bs))

/-- LPE add. -/
def execLpeAdd (b : Nat) (s : State) : Host.Outcome State Fault Refusal := onCore (fun d => d.lpe b 0) s
/-- LPE subtract. -/
def execLpeSubtract (b : Nat) (s : State) : Host.Outcome State Fault Refusal := onCore (fun d => d.lpe b 1) s
/-- LPE multiply. -/
def execLpeMultiply (b : Nat) (s : State) : Host.Outcome State Fault Refusal := onCore (fun d => d.lpe b 2) s
/-- LPE fused multiply-add. -/
def execLpeFma (b : Nat) (s : State) : Host.Outcome State Fault Refusal := onCore (fun d => d.lpe b 3) s
/-- LPE divide. -/
def execLpeDivide (b : Nat) (s : State) : Host.Outcome State Fault Refusal := onCore (fun d => d.lpe b 4) s
/-- LPE square root. -/
def execLpeSqrt (b : Nat) (s : State) : Host.Outcome State Fault Refusal := onCore (fun d => d.lpe b 5) s
/-- LPE minimum. -/
def execLpeMinimum (b : Nat) (s : State) : Host.Outcome State Fault Refusal := onCore (fun d => d.lpe b 6) s
/-- LPE maximum. -/
def execLpeMaximum (b : Nat) (s : State) : Host.Outcome State Fault Refusal := onCore (fun d => d.lpe b 7) s
/-- LPE compare. -/
def execLpeCompare (b : Nat) (s : State) : Host.Outcome State Fault Refusal := onCore (fun d => d.lpe b 8) s
/-- LPE convert. -/
def execLpeConvert (b : Nat) (s : State) : Host.Outcome State Fault Refusal := onCore (fun d => d.lpe b 9) s

/-- TZERO and TFILL: the tiles they name (R108). -/
def tilesNamed (sa mask : Nat) : List Nat :=
  (List.range (bitsOf sa 12 6)).flatMap (fun k => ((List.range 16).filter (fun t => bitOf mask t)).map (fun t => 16 * (bitsOf sa 5 0 + k) + t))

/-- TZERO or TFILL: `v` in every word of the tiles. -/
def Dev.goTile (d : Dev) (b : Nat) (a : Active) (i : Ins) (v : Nat) : Dev :=
  let x := d.basin b
  let sa := (x.seq.reg i.sa).toNat
  let ts := tilesNamed sa i.imm
  if bitsOf sa 12 6 = 0 ∨ i.imm % 2 ^ 16 = 0 then d.advance b
  else if 64 < bitsOf sa 5 0 + bitsOf sa 12 6 then d.stopRun b 3 x.seq.pc
  else if !ts.all (tileIn a.run.apseg) then d.stopRun b 5 x.seq.pc
  else if !x.seq.room .tile || !x.seq.clear ts [] [] (fun _ => false) then d.hold b
  else d.grant b .tile i [] (fun y o =>
    y.addOp { o with tiles := ts, tileClear := ts,
                     writes := ts.flatMap (fun t => (List.range 64).flatMap (fun w => writesAt (0x400000 + 256 * t + 4 * w) (leBytes 4 v))) })

/-- TZERO. -/
def execSeqTzero (b : Nat) (s : State) : Host.Outcome State Fault Refusal :=
  onCore (fun d => d.issue b (opIs 0x48) (fun d a i => d.goTile b a i 0)) s
/-- TFILL. -/
def execSeqTfill (b : Nat) (s : State) : Host.Outcome State Fault Refusal :=
  onCore (fun d => d.issue b (opIs 0x49) (fun d a i => d.goTile b a i ((d.basin b).seq.reg i.sb).toNat)) s

/-- SCOREBOARD_GRANT: the held instruction is tried again once what held it has retired; its descriptor is read as it issues (R97, R109,
R112, R114). -/
def scoreboardGrant (b : Nat) (d : Dev) : Dev :=
  let x := d.basin b
  match x.current, x.seq.held with
  | some (a, i), some _ =>
    let desc (k : Dev → List Byte → Dev) : Dev := d.descriptor b (x.seq.ea i) a k
    if i.opc = 0x20 then d.doLdw b a i
    else if i.opc = 0x21 then d.doStw b a i
    else if i.opc = 0x40 then desc (fun d bs => d.goJop b a i bs)
    else if i.opc = 0x41 then desc (fun d bs => d.doSlu b a i bs)
    else if i.opc = 0x42 then desc (fun d bs => d.goCsc b a i bs)
    else if i.opc = 0x43 then desc (fun d bs => d.goRunl b a i bs)
    else if i.opc = 0x44 then desc (fun d bs => d.goLpe b a i bs)
    else if i.opc = 0x48 then d.goTile b a i 0
    else if i.opc = 0x49 then d.goTile b a i (x.seq.reg i.sb).toNat
    else if i.opc = 0x50 then d.doWait b i
    else d
  | _, _ => d
def execScoreboardGrant (b : Nat) (s : State) : Host.Outcome State Fault Refusal := onCore (scoreboardGrant b) s

/-! ### Retirement -/

/-- TILE_OP_RETIRE. -/
def tileOpRetire (b q : Nat) (d : Dev) : Dev :=
  match (d.basin b).op q with
  | some o => if o.engine = .tile then d.retire b o else d
  | none => d
def execTileOpRetire (b q : Nat) (s : State) : Host.Outcome State Fault Refusal := onCore (tileOpRetire b q) s

/-- Jets of a layer. -/
def Layer.shares (l f : Layer) : Bool := decide (l.jfirst < f.jfirst + f.jcount) && decide (f.jfirst < l.jfirst + l.jcount)

/-- JET_OVBSTAT, JET_NARCNT, the counters and the run's counts after a layer (R139 to R143). -/
def Basin.layerDone (x : Basin) (a : Active) (o : Op) (l : Layer) (exceed : Bool) : Basin :=
  { x with eng := { x.eng with skipcnt := x.eng.skipcnt + BitVec.ofNat 64 o.skipped, ftblcnt := x.eng.ftblcnt + BitVec.ofNat 64 o.tables,
                               ovbExceed := exceed, ovbDesc := l.descId, ovbCount := o.ovCount, narVan := o.vanCount, narSat := o.satCount },
           seq := { x.seq with active := some { a with novf := a.novf + o.ovCount, nsat := a.nsat + o.satCount, nvan := a.nvan + o.vanCount,
                                                       novb := a.novb + bit01 exceed } } }

/-- LAYER_RETIRE: layers on shared jets retire in program order; the overflow count is held against OVB (R109, R140). -/
def layerRetire (b q : Nat) (d : Dev) : Dev :=
  let x := d.basin b
  match x.seq.active, x.op q with
  | some a, some o =>
    let l := layerOf o.bytes
    if o.engine ≠ .jet ∨ x.seq.ops.any (fun p => p.engine == .jet && decide (p.seq < o.seq) && l.shares (layerOf p.bytes)) then d
    else if (partWords o.writes x.cis.badWords).isSome then d.retire b o
    else
      let exceed := l.ovb != 0xFFFF && decide (l.ovb < o.ovCount)
      let d := (d.putBasin b (x.layerDone a o l exceed)).retire b o
      if exceed then d.raiseS 2 b (runIndex a.run) a.run.lbasin l.descId o.ovCount else d
  | _, _ => d
def execLayerRetire (b q : Nat) (s : State) : Host.Outcome State Fault Refusal := onCore (layerRetire b q) s

end Sys2Proof.Machine
end

