-- ==== Sys2Proof/Machine/Service.lean ====
section
/-! DEFINITION. The commands of the TIME, POWER, UPDATE and LIFECYCLE classes, chunk programming, and Euparum over MCTP (R235, R237,
R319, R378, R384, R385, R388, R393, R410 to R430). -/

namespace Sys2Proof.Machine

open Sys2Proof

/-! ### TIME (R235, R237) -/

/-- TIME_QUERY. -/
def cmdTimeQuery (_ : Req) (d : Dev) : Dev × Resp :=
  d.yes (words2 d.ns ++ [d.cad.ct % 65536, d.cadWord 0xC, d.cadWord 0x10, d.cadWord 0x14])
def execTimeQuery (f : Nat) (s : State) : Host.Outcome State Fault Refusal := onCmd f 0xA00 cmdTimeQuery s

/-- TIME_SET: the TAI second of the next PPS edge; while FREE it can also step CT to that second. -/
def cmdTimeSet (r : Req) (d : Dev) : Dev × Resp :=
  let t := r.arg64 0
  let c := { d.cad with label := some t }
  if d.cad.dev = 0 ∧ bitOf (r.arg 2) 0 then
    if d.cad.active ∨ d.cad.swapAt.isSome then d.no stWRONG_STATE
    else ((d.setCad c).stepCt ((t % 2 ^ 64 * 1000000000 % 2 ^ 64 * 65536 : Nat) - (c.ct : Int))).yes
  else (d.setCad c).yes
def execTimeSet (f : Nat) (s : State) : Host.Outcome State Fault Refusal := onCmd f 0xA01 cmdTimeSet s

/-- TIME_STEP: at the next frame boundary with a table active, at once with none. -/
def cmdTimeStep (r : Req) (d : Dev) : Dev × Resp :=
  let n := signedOf 64 (r.arg64 0)
  if d.cad.active then (d.setCad { d.cad with stepPend := some n }).yes (words2 d.nextFrame)
  else if d.cad.swapAt.isSome then d.no stWRONG_STATE
  else ((d.setCad { d.cad with slew := 0, diverged := false }).stepCt (n * 65536)).yes
def execTimeStep (f : Nat) (s : State) : Host.Outcome State Fault Refusal := onCmd f 0xA02 cmdTimeStep s

/-! ### POWER (R31, R319, R384 to R386, R388, R393, R398, R399) -/

/-- POWER_QUERY: state, basin clock, policy floor, module input power. -/
def cmdPowerQuery (_ : Req) (d : Dev) : Dev × Resp := d.yes [d.pow.state, d.pow.bclk, d.pow.floor, d.md.pin]
def execPowerQuery (f : Nat) (s : State) : Host.Outcome State Fault Refusal := onCmd f 0xB00 cmdPowerQuery s

/-- The floor clock of an admitted plan is above 1.2 GHz: that of the active table, or of a table whose swap is pending (R31). -/
def Dev.floorHigh (d : Dev) : Bool :=
  d.cad.activeTable.any (fun t => decide (1200 < t.floor))
    || (d.cad.swapAt.isSome && (d.cad.table d.cad.shadow).any (fun t => decide (1200 < t.floor)))

/-- Nothing forbids leaving READY: the active table names no run, and no training stream exists (R385). -/
def Dev.mayLeave (d : Dev) : Bool :=
  (d.cad.activeTable.all (fun t => t.runs.all (fun p => p.2.isEmpty)))
    && !d.streams.any (fun p => p.2.kind == 2 && p.2.state != 0 && p.2.state != 4)

/-- A change between Run and Trim: at the next slot boundary, or at once where no table drives slots (R384). -/
def Dev.trimRequest (d : Dev) (t : Nat) : Dev :=
  if d.pow.state = t then d.setPow { d.pow with latched := none }
  else
    let d := d.setPow { d.pow with latched := some t }
    if d.cad.active then d else d.trimSwitch

/-- POWER_ENTER. In Trickle and Rest it comes over MCTP alone: Run wakes the device, and Off steps down from there (R386, R388,
R398). -/
def cmdPowerEnter (r : Req) (d : Dev) : Dev × Resp :=
  let t := r.arg 0
  let p := d.pow
  if 4 < t then d.no stINVALID
  else if t = 1 ∧ d.floorHigh ∧ (p.moving ∨ p.stable ≠ 2) then d.no stFLOOR_CONFLICT
  else if p.moving then
    (if t = p.dest then (d.setPow { p with latched := none }).yes
     else (d.setPow { p with latched := some t, abortcnt := if t = 0 ∧ (p.dest = 2 ∨ p.dest = 3) then p.abortcnt + 1 else p.abortcnt }).yes)
  else if p.stable = 2 then (if t = 0 ∨ t = 4 then (d.goTo t).yes else if t = p.state then d.yes else d.no stWRONG_STATE)
  else if t < 2 then (d.trimRequest t).yes
  else if !d.mayLeave then d.no stWRONG_STATE
  else (d.setPow { p with latched := some t }).yes
def execPowerEnter (f : Nat) (s : State) : Host.Outcome State Fault Refusal := onCmd f 0xB01 cmdPowerEnter s

/-- POWER_POLICY. -/
def cmdPowerPolicy (r : Req) (d : Dev) : Dev × Resp :=
  if r.arg 0 < 400 ∨ 2000 < r.arg 0 then d.no stINVALID
  else if r.arg 1 < 300 ∨ 1100 < r.arg 1 then d.no stINVALID 1
  else (d.setPow { d.pow with floor := r.arg 0, cap := r.arg 1 }).yes
def execPowerPolicy (f : Nat) (s : State) : Host.Outcome State Fault Refusal := onCmd f 0xB02 cmdPowerPolicy s

/-- POWER_WAKEPORT: a port with WAKESEND = 1 that is DOWN is to send bursts. -/
def cmdPowerWakeport (r : Req) (d : Dev) : Dev × Resp :=
  let x := d.port (r.arg 0)
  if 4 < r.arg 0 then d.no stINVALID
  else if !x.wakesend ∨ x.state ≠ 0 then d.no stWRONG_STATE
  else (d.putPort (r.arg 0) { x with wakeAsk := true, bursts := 0 }).yes
def execPowerWakeport (f : Nat) (s : State) : Host.Outcome State Fault Refusal := onCmd f 0xB03 cmdPowerWakeport s

/-- The trickle parameter block (R393). -/
def trkOf (bs : List Byte) : TrkParams :=
  let w (o n : Nat) : Nat := leNat ((bs.drop o).take n)
  { period := w 0 4, mlen := bitsOf (w 4 4) 3 0, refk := bitsOf (w 4 4) 7 4, stalemax := bitsOf (w 4 4) 15 8, sloten := w 8 8,
    thr := (List.range 64).map (fun t => (t, bitsOf (w (0x40 + 4 * t) 4) 15 0)) }

/-- POWER_TRICKLE: parameters for the next entry to Trickle. -/
def cmdPowerTrickle (r : Req) (d : Dev) : Dev × Resp :=
  let t := trkOf r.payload
  if r.payload.length < 0x140 ∨ t.period < 10 ∨ 10000 < t.period ∨ t.mlen < 6 ∨ 12 < t.mlen ∨ 8 < t.refk then d.no stINVALID
  else (d.setPow { d.pow with trkNext := some t }).yes
def execPowerTrickle (f : Nat) (s : State) : Host.Outcome State Fault Refusal := onCmd f 0xB04 cmdPowerTrickle s

/-! ### UPDATE (R411, R412, R415 to R424) -/

/-- The staging area. -/
def Boot.stagingArea (b : Boot) : Nat := b.view.staging

/-- A change of one image area. -/
def Boot.setArea (b : Boot) (k : Nat) (g : Area → Area) : Boot := { b with areas := b.areas.set k (g (b.areas.getD k {})) }

/-- The bytes of a manifest held in pieces, as far as they run on from offset 0 without a gap (R418). -/
def heldManifest (ps : Tab (List Byte)) : List Byte :=
  let full (k : Nat) : Bool := (Tab.at ps [] (4096 * k)).length == 4096
  let n := ((List.range 32).takeWhile full).length
  (List.range n).flatMap (fun k => Tab.at ps [] (4096 * k)) ++ Tab.at ps [] (4096 * n)

/-- What a complete manifest is refused with, 0 for none (R406, R418, R419). -/
def Dev.manifestFault (d : Dev) (sigOk : Bool) (m : Option Manifest) : Nat :=
  let b := d.boot
  let ver := if b.fwFromFlash then d.fh.fwversion.toNat else (((b.areas.getD b.view.active {}).manifest).map Manifest.version).getD 0
  match m with
  | none => stBAD_SIGNATURE
  | some m =>
    if !sigOk ∨ !manifestFits b.fuses m then stBAD_SIGNATURE
    else if m.version < ver ∨ m.svn < fuseSvn b.fuses then stROLLBACK
    else if (b.updState = 1 ∨ b.updState = 2) ∧ (b.staged.map Manifest.digest) ≠ some m.digest then stWRONG_STATE
    else 0

/-- A manifest is accepted: the region of the staging area is erased, the manifest written, and MANIFEST_OK recorded (R415, R418). -/
def Boot.stage (b : Boot) (m : Manifest) : Boot :=
  let a := b.stagingArea
  let b := (b.erased a 382).erased a 383
  let b := (b.setArea a (fun x => { x with manifest := some m, sigOk := true })).append (.manifestOk m.digest m.version m.svn m.nchunk)
  { b with updState := 1, staged := some m, present := [], quarters := [], queue := [] }

/-- UPDATE_MANIFEST. -/
def cmdUpdateManifest (sigOk : Bool) (r : Req) (d : Dev) : Dev × Resp :=
  let b := d.boot
  let o := r.arg 0
  if b.updState = 3 then d.no stWRONG_STATE
  else if o % 4096 ≠ 0 ∨ 0x20000 ≤ o ∨ r.payload = [] then d.no stINVALID
  else
    let ps := Tab.put b.pieces o r.payload
    let bs := heldManifest ps
    let need := min 0x20000 (leNat ((bs.drop 4).take 4))
    let d := d.setBoot { b with pieces := ps }
    if bs.length < 8 ∨ bs.length < need then d.yes
    else
      let d := d.setBoot { d.boot with pieces := [] }
      let m := manifestOf bs
      let e := d.manifestFault sigOk m
      if e ≠ 0 then (if e = stROLLBACK ∨ e = stBAD_SIGNATURE then d.updateEvent else d).no e
      else match m with
        | some m => if d.boot.updState = 0 then (d.setBoot (d.boot.stage m)).yes else d.yes
        | none => d.yes
def execUpdateManifest (f : Nat) (sigOk : Bool) (s : State) : Host.Outcome State Fault Refusal := onCmd f 0xC00 (cmdUpdateManifest sigOk) s

/-- The bytes that quarter `q` of chunk `i` carries (R420). -/
def Manifest.quarterLen (m : Manifest) (i q : Nat) : Nat := min 4096 (m.chunkLen i - 4096 * q)

/-- Sectors of interrupted work are erased afresh before any chunk is accepted (R416). -/
def Boot.eraseAfresh (b : Boot) : Boot :=
  let a := b.stagingArea
  let x := b.erasePend.foldl (fun (b : Boot) s =>
    (b.erased a s).setArea a (fun y => { y with chunks := Tab.clear y.chunks (4 * s) 4 })) b
  { x with erasePend := [], present := x.present.filter (fun c => decide (c / 4 ∉ b.erasePend)) }

/-- UPDATE_CHUNK. -/
def cmdUpdateChunk (r : Req) (d : Dev) : Dev × Resp :=
  let i := r.arg 0
  let q := r.arg 1
  match d.boot.staged with
  | none => d.no stWRONG_STATE
  | some m =>
    let held := Tab.at d.boot.quarters [] i
    let part := (d.boot.quarters.filter (fun p => decide (p.1 ∉ d.boot.queue))).length
    if d.boot.updState ≠ 1 then d.no stWRONG_STATE
    else if m.nchunk ≤ i then d.no stINVALID
    else if 3 < q then d.no stINVALID 1
    else if m.quarterLen i q = 0 ∨ r.payload.length ≠ m.quarterLen i q then d.no stINVALID
    else
      let b := d.boot.eraseAfresh
      if i ∈ b.present ∨ i ∈ b.queue then (d.setBoot b).yes
      else if held = [] ∧ 8 ≤ part then d.no stBUSY
      else
        let t := Tab.put held q r.payload
        let whole := (List.range 4).all (fun k => m.quarterLen i k == 0 || (Tab.find? t k).isSome)
        let bytes := (List.range 4).flatMap (fun k => Tab.at t [] k)
        if !whole then (d.setBoot { b with quarters := Tab.put b.quarters i t }).yes
        else if chunkOk m [(i, bytes)] i then (d.setBoot { b with quarters := Tab.put b.quarters i t, queue := b.queue ++ [i] }).yes
        else (d.setBoot { b with quarters := Tab.del b.quarters i }).no stCHUNK_HASH
def execUpdateChunk (f : Nat) (s : State) : Host.Outcome State Fault Refusal := onCmd f 0xC01 cmdUpdateChunk s

/-- An ERASE_DONE for a staging sector follows the last ROLES or ABORT record, or a chunk of it is present (R415). -/
def Boot.sectorErased (b : Boot) (s : Nat) : Bool :=
  b.present.any (fun c => c / 4 == s) ||
    b.journal.foldl (fun e r => match r with
      | .eraseDone a k => e || (a == b.stagingArea && k == s)
      | .roles _ _ _ _ => false
      | .abort => false
      | _ => e) false

/-- The first queued chunk is programmed and read back (R420). -/
def Dev.programChunk (d : Dev) (readback : Bool) : Dev :=
  let b := d.boot
  match b.queue with
  | [] => d
  | i :: rest =>
    let a := b.stagingArea
    let bytes := (List.range 4).flatMap (fun k => Tab.at (Tab.at b.quarters [] i) [] k)
    let b := { b.append (.progBegin a i) with queue := rest, quarters := Tab.del b.quarters i }
    if !readback then (d.setBoot b).updateEvent
    else
      let b := (b.setArea a (fun x => { x with chunks := Tab.put x.chunks i bytes })).append (.chunkDone i)
      let b := { b with present := b.present ++ [i] }
      if b.staged.any (fun m => decide (m.nchunk ≤ b.present.length)) then (d.setBoot { b with updState := 2 }).updateEvent else d.setBoot b

/-- The erase that is going on ends: recorded, and the sector's chunks are gone (R415). -/
def Boot.eraseEnds (b : Boot) (a s : Nat) : Boot :=
  { (b.append (.eraseDone a s)).setArea a (fun y => { y with chunks := Tab.clear y.chunks (4 * s) 4 }) with erasing := none }

/-- CHUNK_PROGRAM: a step of programming the first queued chunk. Its sector is erased first where R415 asks for it, which is a step that
begins and one that ends; then the chunk is programmed and read back, `readback` saying that it agrees. A suspended erase waits. -/
def chunkProgram (readback : Bool) (d : Dev) : Dev :=
  let b := d.boot
  match b.queue with
  | [] => d
  | i :: _ =>
    match b.erasing with
    | some (a, s, suspended) => if suspended then d else d.setBoot (b.eraseEnds a s)
    | none =>
      if b.sectorErased (i / 4) then d.programChunk readback
      else d.setBoot { b.append (.eraseBegin b.stagingArea (i / 4)) with erasing := some (b.stagingArea, i / 4, false) }
def execChunkProgram (readback : Bool) (s : State) : Host.Outcome State Fault Refusal := answer (onlyIf Dev.fwOn (chunkProgram readback)) s

/-- ERASE_RESUME: a suspended erase goes on (R417). -/
def eraseResume (d : Dev) : Dev := d.setBoot { d.boot with erasing := d.boot.erasing.map (fun e => (e.1, e.2.1, false)) }
def execEraseResume (s : State) : Host.Outcome State Fault Refusal := answer (onlyIf Dev.fwOn eraseResume) s

/-- The chunk bitmap of R421, 192 B. -/
def bitmapBytes (cs : List Nat) : List Byte :=
  (List.range 192).map (fun i => BitVec.ofNat 8 ((List.range 8).foldl (fun n j => if 8 * i + j ∈ cs then n + 2 ^ j else n) 0))

/-- UPDATE_STATUS (R421). -/
def cmdUpdateStatus (_ : Req) (d : Dev) : Dev × Resp :=
  let b := d.boot
  let of' (g : Manifest → Nat) : Nat := (b.staged.map g).getD 0
  d.yes [] (leBytes 4 b.updState ++ leBytes 4 (of' Manifest.nchunk) ++ leBytes 4 b.present.length ++ leBytes 4 (of' Manifest.version)
    ++ leBytes 4 (of' Manifest.svn) ++ leBytes 4 b.erasePend.length ++ List.replicate 40 0 ++ bitmapBytes b.present)
def execUpdateStatus (f : Nat) (s : State) : Host.Outcome State Fault Refusal := onCmd f 0xC02 cmdUpdateStatus s

/-- Every queued chunk is stored (R422). -/
def Dev.storeQueued (d : Dev) : Dev :=
  d.boot.queue.foldl (fun d i =>
    let b := d.boot
    let b := match b.erasing with
      | some (a, s, _) => b.eraseEnds a s
      | none => b
    let b := if b.sectorErased (i / 4) then b else (b.append (.eraseBegin b.stagingArea (i / 4))).eraseEnds b.stagingArea (i / 4)
    (d.setBoot b).programChunk true) d

/-- UPDATE_ACTIVATE: every queued chunk is stored, the staging area is read back, `bad` naming chunks that no longer match, and one ROLES
record swaps the areas with TRY = 1 (R422). -/
def cmdUpdateActivate (bad : List Nat) (_ : Req) (d : Dev) : Dev × Resp :=
  let d := if d.boot.updState = 1 then d.storeQueued else d
  let b := d.boot
  let v := b.view
  if b.updState ≠ 2 then d.no stWRONG_STATE
  else
    let gone := b.present.filter (fun c => decide (c ∈ bad) || !(b.staged.all (fun m => chunkOk m (b.areas.getD v.staging {}).chunks c)))
    if gone ≠ [] then
      let left := b.present.filter (fun c => decide (c ∉ gone))
      let b := ((gone.map (fun c => c / 352)).dedup).foldl (fun (b : Boot) k => b.append (.bitmap k (left.filter (fun c => c / 352 == k)))) b
      let b := b.setArea v.staging (fun x => { x with chunks := gone.foldl (fun t c => Tab.del t c) x.chunks })
      (d.setBoot { b with present := left, updState := 1 }).no stCHUNK_HASH
    else
      let b := b.append (.roles v.active v.staging v.shadow true)
      (d.setBoot { b with updState := 3, staged := none, present := [], erasePend := [], quarters := [] }).updateEvent.yes
def execUpdateActivate (f : Nat) (bad : List Nat) (s : State) : Host.Outcome State Fault Refusal := onCmd f 0xC03 (cmdUpdateActivate bad) s

/-- UPDATE_ABORT (R424). -/
def cmdUpdateAbort (_ : Req) (d : Dev) : Dev × Resp :=
  if d.boot.updState = 3 then d.no stWRONG_STATE
  else (d.setBoot { d.boot.append .abort with updState := 0, staged := none, present := [], pieces := [], quarters := [], queue := [],
                                              erasing := none }).yes
def execUpdateAbort (f : Nat) (s : State) : Host.Outcome State Fault Refusal := onCmd f 0xC04 cmdUpdateAbort s

/-- The chunks of a recovery image, after its padded manifest (R411). -/
def recoveryChunks (m : Manifest) (bs : List Byte) : Tab (List Byte) :=
  (List.range m.nchunk).map (fun i => (i, (bs.drop (0x20000 + 16384 * i)).take 16384))

/-- A recovery image that has been received whole: its manifest, or what refuses it (R406, R411). -/
def Dev.recoveryCheck (d : Dev) (sigOk : Bool) (bs : List Byte) : Nat × Manifest :=
  match manifestOf (bs.take 0x20000) with
  | none => (stBAD_SIGNATURE, {})
  | some m =>
    let chunks := recoveryChunks m bs
    let len := 0x20000 + 16384 * (m.nchunk - 1) + m.lastlen
    if !sigOk ∨ !manifestFits d.boot.fuses m then (stBAD_SIGNATURE, m)
    else if m.svn < fuseSvn d.boot.fuses then (stROLLBACK, m)
    else if bs.length < len ∨ !(List.range m.nchunk).all (chunkOk m chunks) then (stCHUNK_HASH, m)
    else (0, m)

/-- A piece of a recovery image, while firmware runs (R412) or in a boot attempt or its wait (R411). -/
def cmdUpdateRecovery (sigOk : Bool) (r : Req) (d : Dev) : Dev × Resp :=
  let o := r.arg 0
  let b := d.boot
  let last := bitOf (r.arg 1) 0
  let first : Recovery := { fromMctp := r.mctp, expected := r.payload.length, bytes := r.payload, lastCt := d.ns }
  if b.retired then d.no stWRONG_STATE
  else if b.ready then
    if o ≠ 0 then d.no stWRONG_STATE
    else ((d.setBoot { b with recoverNext := true, recovery := some first }).resetSoon false).yes
  else
    let old := b.recovery
    if o ≠ 0 ∧ old.any (fun x => x.fromMctp != r.mctp) then d.no stBUSY
    else if o ≠ (if o = 0 then 0 else (old.map Recovery.expected).getD 0) then d.no stINVALID ((old.map Recovery.expected).getD 0)
    else
      let rec_ : Recovery := if o = 0 then first else
        match old with
        | some x => { x with expected := x.expected + r.payload.length, bytes := x.bytes ++ r.payload, lastCt := d.ns }
        | none => first
      let d := if b.step = 0xE then d else d.setBoot { b with step := 0xE, resumeStep := if b.step < 9 then b.step else 0 }
      if !last then (d.setBoot { d.boot with recovery := some rec_ }).yes
      else
        let c := d.recoveryCheck sigOk rec_.bytes
        if c.1 ≠ 0 then (d.setBoot { d.boot with recovery := some { rec_ with expected := 0, bytes := [] } }).no c.1
        else
          let b := { d.boot with recovery := none, running := some c.2, fwFromFlash := false, image := 3, fallback := false, trial := false,
                                 backoff := none, resumeStep := 0 }
          (((d.setBoot b).setFh { d.fh with sram := recoveryChunks c.2 rec_.bytes }).bootStep 5).yes
def execUpdateRecovery (f : Nat) (sigOk : Bool) (s : State) : Host.Outcome State Fault Refusal :=
  answer (onlyIf (fun d => d.fwOn || d.receiving) (Dev.serve f 0xC05 (cmdUpdateRecovery sigOk))) s

/-! ### LIFECYCLE (R426 to R430) -/

/-- LIFECYCLE_QUERY: RES0 the state, RES2 to RES3 a new NONCE. -/
def cmdLifecycleQuery (_ : Req) (d : Dev) : Dev × Resp :=
  let n := d.random
  (n.2.setBoot { n.2.boot with nonce := some n.1.toNat }).yes ([lifeCycle d.boot.fuses, 0] ++ words2 n.1.toNat)
def execLifecycleQuery (f : Nat) (s : State) : Host.Outcome State Fault Refusal := onCmd f 0xD00 cmdLifecycleQuery s

/-- What the move to PROVISIONED writes into IMGKEY, LCKEY, SERIAL and DEVKEY, which the spec does not give: open words (R427). -/
def Dev.writeKeys (d : Dev) : Dev :=
  (List.range 38).foldl (fun d k =>
    let v := d.openValue
    v.2.setBoot { v.2.boot with fuses := burnBits v.2.boot.fuses (0x40 + 8 * k) 8 v.1.toNat }) d

/-- The checks of an authorisation of R430, but its target being the next state. -/
def Dev.authorised (d : Dev) (sigOk : Bool) (target : Nat) (bs : List Byte) : Bool :=
  let f := d.boot.fuses
  let blank := lifeCycle f == 0
  let key := sha384 ((bs.drop 0x20).take 128)
  sigOk && bs.length == 256 && (bs.take 16 == (if blank then List.replicate 16 0 else Mem.readBytes f 0x130 16))
    && leNat ((bs.drop 16).take 4) == target && leNat ((bs.drop 20).take 4) == 0 && d.boot.nonce == some (leNat ((bs.drop 24).take 8))
    && (if blank then beNat key == Config.factoryKey else key == Mem.readBytes f 0x100 48)

/-- LIFECYCLE_ADVANCE: the next state only; the NONCE is spent whatever happens. -/
def cmdLifecycleAdvance (sigOk : Bool) (r : Req) (d : Dev) : Dev × Resp :=
  let t := r.arg 0
  let ok := d.authorised sigOk t r.payload
  let d := d.setBoot { d.boot with nonce := none }
  if t ≠ lifeCycle d.boot.fuses + 1 ∨ 3 < t then d.no stWRONG_STATE
  else if !ok then d.no stBAD_SIGNATURE
  else
    let d := if t = 1 then d.writeKeys else d
    (d.setBoot { d.boot with fuses := burnTo d.boot.fuses t }).yes
def execLifecycleAdvance (f : Nat) (sigOk : Bool) (s : State) : Host.Outcome State Fault Refusal :=
  onCmd f 0xD01 (cmdLifecycleAdvance sigOk) s

/-! ### MCTP (R378, R410, R424) -/

/-- Commands served over MCTP in every boot attempt, and those served after Ready. -/
def mctpAlways : List Nat := [0x100, 0x107, 0xC05, 0xF00, 0xD00, 0xE02]
def mctpReady : List Nat := [0x101, 0xA00, 0xB00, 0xB01, 0xC00, 0xC01, 0xC02, 0xC03, 0xC04]

/-- The meaning of a command that MCTP serves. -/
def mctpServe (sigOk : Bool) (bad : List Nat) (r : Req) (d : Dev) : Dev × Resp :=
  match r.opcode with
  | 0x100 => cmdDeviceInfo r d
  | 0x101 => cmdDeviceHealth r d
  | 0x107 => cmdReset r d
  | 0xA00 => cmdTimeQuery r d
  | 0xB00 => cmdPowerQuery r d
  | 0xB01 => cmdPowerEnter r d
  | 0xC00 => cmdUpdateManifest sigOk r d
  | 0xC01 => cmdUpdateChunk r d
  | 0xC02 => cmdUpdateStatus r d
  | 0xC03 => cmdUpdateActivate bad r d
  | 0xC04 => cmdUpdateAbort r d
  | 0xC05 => cmdUpdateRecovery sigOk r d
  | 0xD00 => cmdLifecycleQuery r d
  | 0xE02 => cmdEventFetch r d
  | _ => cmdLogRead r d

/-- A Euparum request over MCTP, as domain 0. -/
def mctpAnswer (sigOk : Bool) (bad : List Nat) (r : Req) (d : Dev) : Dev × Resp :=
  let always := decide (r.opcode ∈ mctpAlways)
  let later := decide (r.opcode ∈ mctpReady)
  if permOf r.opcode = none then d.no stBAD_OPCODE
  else if d.boot.retired ∧ r.opcode ∉ [0x100, 0xD00, 0xF00] then d.no stWRONG_STATE
  else if !always ∧ !later then d.no stDENIED
  else if later ∧ !d.boot.ready then d.no stWRONG_STATE
  else if (d.pow.state = 2 ∨ d.pow.state = 3) ∧ 0xC00 ≤ r.opcode ∧ r.opcode < 0xC05 then d.no stWRONG_STATE
  else if 4096 < r.rcap ∨ 4096 < r.payload.length then d.no stBAD_PAYLOAD
  else mctpServe sigOk bad r d

/-- MCTP_REQUEST: served by the supervisor in every power state but Off, also during a freeze (R378, R433). -/
def mctpRequest (slot payload : List Byte) (sigOk : Bool) (bad : List Nat) (d : Dev) : Dev :=
  let r := { reqOf 0 slot d.ns with mctp := true, domain := 0, payload := payload }
  let x := mctpAnswer sigOk bad r d
  x.1.respond r x.2
def execMctpRequest (slot payload : List Byte) (sigOk : Bool) (bad : List Nat) (s : State) : Host.Outcome State Fault Refusal :=
  answer (onlyIf Dev.aonOn (mctpRequest slot payload sigOk bad)) s

end Sys2Proof.Machine
end

