-- ==== Sys2Proof/Machine/Stillness.lean ====
section
/-! DEFINITION. Freezing the clocks, and the test access port (R432 to R440, R444). -/

namespace Sys2Proof.Machine

open Sys2Proof

/-! ### STILL_N (R432 to R434, R438 to R440) -/

/-- STILL_ASSERT: STILL_N has read low on two reference cycles. -/
def stillAssert (d : Dev) : Dev :=
  let d := d.setMd { d.md with still := true }
  if !d.aonOn ∨ d.still.frozen then d
  else if !d.boot.stillHeard then d.setStill { d.still with ignored := true }
  else if d.pow.moving then d.setStill { d.still with pending := true }
  else if d.pow.stable < 2 then d.setStill { d.still with ignored := true }
  else d.freeze
def execStillAssert (s : State) : Host.Outcome State Fault Refusal := answer stillAssert s

/-- A run that was active when the clocks stopped is cancelled with code 0x08, and its period completes (R34, R438). -/
def Dev.cancelRun (d : Dev) (b : Nat) : Dev :=
  match (d.basin b).seq.active with
  | none => d
  | some a => (d.stopRun b 8 (d.basin b).seq.pc).postEnds a.run a.fin

/-- STILL_RELEASE: the clocks resume, active runs are cancelled, runs whose slot fell in the gap never start, no run is delivered for
1 ms, and every port goes DOWN; after a destructive shift the device is HELD. -/
def stillRelease (d : Dev) : Dev :=
  let d := d.setMd { d.md with still := false }
  let t := d.still
  if t.destroyed ∧ t.frozen then d.setStill { t with held := true }
  else if !t.frozen then d.setStill { t with pending := false }
  else
    let gone := d.ns - t.since
    let d := (d.setStill { t with frozen := false, stillcnt := t.stillcnt + 1 }).setPow { d.pow with clkAt := d.ns }
    let d := d.setBoot { d.boot with stepCt := d.boot.stepCt + gone }
    let d := d.setRsv { d.rsv with ctrls := d.rsv.ctrls.map (fun c => { c with selfref := c.selfref && decide (d.pow.stable < 3) }) }
    let d := (d.basins.map Prod.fst).foldl (fun d b => (d.cancelRun b).putBasin b { (d.cancelRun b).basin b with delivered := [], coming := [] }) d
    let d := d.setCad { d.cad with holdUntil := d.ns + 1000000, absent := [], absentNext := [], ahead := none }
    (List.range 5).foldl (fun d p => if (d.port p).state = 4 then d else d.portDown p 8) d
def execStillRelease (s : State) : Host.Outcome State Fault Refusal := answer stillRelease s

/-! ### The test access port (R435 to R437, R440) -/

/-- The TAP works in every power state except Off. -/
def onTap (g : Dev → Dev) (s : State) : Host.Outcome State Fault Refusal := answer (onlyIf Dev.aonOn g) s

/-- An instruction is selected. -/
def Dev.setIr (d : Dev) (code : Nat) : Dev := d.setStill { d.still with ir := code }

/-- TRST: Test-Logic-Reset, which selects IDCODE. -/
def execTrst (s : State) : Host.Outcome State Fault Refusal := onTap (fun d => d.setIr 2) s

/-- EXTEST: the pins are captured, and the outputs follow the boundary register. -/
def execExtest (pins : Nat) (s : State) : Host.Outcome State Fault Refusal :=
  onTap (fun d => (d.setIr 0).emit (.tdo Config.boundaryLen (pins % 2 ^ Config.boundaryLen))) s

/-- SAMPLE/PRELOAD: the pins are captured and the boundary register loaded. -/
def samplePreload (pins load : Nat) (d : Dev) : Dev :=
  (d.setStill { d.still with ir := 1, boundary := load % 2 ^ Config.boundaryLen }).emit
    (.tdo Config.boundaryLen (pins % 2 ^ Config.boundaryLen))
def execSamplePreload (pins load : Nat) (s : State) : Host.Outcome State Fault Refusal := onTap (samplePreload pins load) s

/-- IDCODE reads VERSION, PART, MANUF and 1. -/
def idcodeWord : Nat := 1 * 2 ^ 28 + 0x7210 * 2 ^ 12 + 0x5A3 * 2 + 1
def execIdcode (s : State) : Host.Outcome State Fault Refusal := onTap (fun d => (d.setIr 2).emit (.tdo 32 idcodeWord)) s

/-- CLAMP and HIGHZ select the bypass register. -/
def execClamp (s : State) : Host.Outcome State Fault Refusal := onTap (fun d => (d.setIr 3).emit (.tdo 1 0)) s
def execHighz (s : State) : Host.Outcome State Fault Refusal := onTap (fun d => (d.setIr 4).emit (.tdo 1 0)) s

/-- The bypass register: a zero captured, then the bit shifted in. -/
def Dev.bypassed (d : Dev) (tdi : Bool) : Dev := d.emit (.tdo 2 (bit01 tdi * 2))
def execBypass (tdi : Bool) (s : State) : Host.Outcome State Fault Refusal := onTap (fun d => (d.setIr 0xFF).bypassed tdi) s

/-- A debug instruction: BYPASS unless the clocks are frozen and DBGDIS is not burnt. -/
def Dev.debug (d : Dev) (code : Nat) (g : Dev → Dev) : Dev :=
  let d := d.setIr code
  if d.still.frozen ∧ !d.boot.dbgdis then g d else d.emit (.tdo 1 0)

/-- STILLSTAT works at any time, but for DBGDIS. -/
def stillstat (d : Dev) : Dev :=
  let d := d.setIr 0x20
  if d.boot.dbgdis then d.emit (.tdo 1 0) else d.emit (.tdo 32 d.still.word)
def execStillstat (s : State) : Host.Outcome State Fault Refusal := onTap stillstat s

/-- MEMADDR. -/
def execMemaddr (v : W64) (s : State) : Host.Outcome State Fault Refusal :=
  onTap (fun d => d.debug 0x21 (fun d => d.setStill { d.still with memaddr := v.toNat % 2 ^ 52 })) s

/-- 8 bytes of a runnel's window, as the runnel reads them: micro-program store, then micro-table (R197, R201). -/
def Dev.runnelWord (d : Dev) (x : Basin) (off : Nat) : Nat :=
  let o := off % 0x5000
  if o < 0x4000 then (d.muWord x (o / 8)).toNat else leNat ((List.range 8).map (fun k => d.muTable x (o - 0x4000 + k)))

/-- The aligned 8 B that MEMADDR names, with their check bits; none where MEMDATA does not reach. The code of the check bits is not
given: open values. A register is read without side effects; after a destructive shift registers hold open values (R436, R437). -/
def Dev.memdata (d : Dev) : Option (Nat × Dev) :=
  let a := d.still.memaddr / 8 * 8
  let v := d.openValue
  match placeOf a with
  | .locPhys b o =>
    if 272 ≤ b then none
    else
      let c := if o < 0x400000 then v.1.toNat % 256 else v.1.toNat % 128 + v.1.toNat / 128 % 128 * 256
      some (Mem.readLe (d.basin b).store o 8 + c * 2 ^ 64, v.2)
  | .mgmt false b 1 o => some (if d.still.destroyed then (v.1.toNat, v.2) else (d.regWord b o + d.regWord b (o + 4) * 2 ^ 32, d))
  | .mgmt false b 2 o => some ((Tab.at (d.basin b).prog 0 (o / 8)).toNat, d)
  | .mgmt false b 3 o => some (d.runnelWord (d.basin b) o, d)
  | _ => none

/-- MEMDATA: captured, and MEMADDR moves on by 8. -/
def memdata (d : Dev) : Dev :=
  d.debug 0x22 (fun d =>
    let next (d : Dev) : Dev := d.setStill { d.still with memaddr := (d.still.memaddr + 8) % 2 ^ 52 }
    match d.memdata with
    | some (v, d) => (next d).emit (.tdo 80 v)
    | none => (next (d.setStill { d.still with denied := true })).emit (.tdo 80 0))
def execMemdata (s : State) : Host.Outcome State Fault Refusal := onTap memdata s

/-- SCANSEL. -/
def execScansel (v : Nat) (s : State) : Host.Outcome State Fault Refusal :=
  onTap (fun d => d.debug 0x28 (fun d => d.setStill { d.still with scansel := v % 2 ^ 16 })) s

/-- SCAN: the first shift sets DESTROYED; what a chain holds is not published. -/
def scan (nbits : Nat) (d : Dev) : Dev :=
  d.debug 0x29 (fun d =>
    if nbits = 0 then d
    else
      let v := d.openValue
      (v.2.setStill { d.still with destroyed := true }).emit (.tdo nbits (v.1.toNat % 2 ^ nbits)))
def execScan (nbits : Nat) (s : State) : Host.Outcome State Fault Refusal := onTap (scan nbits) s

end Sys2Proof.Machine
end

