-- ==== Sys2Proof/Machine/Training.lean ====
section
/-! DEFINITION. Training: streams with a training context, gradient exchange over the rill, evaluation, offload and checkpoints on the
twin (R269 to R296, R312 to R314). -/

namespace Sys2Proof.Machine

open Sys2Proof

/-! ### Dense and compressed gradients (R284, R287, R288) -/

/-- The elements of `w` bytes each. -/
def elemsOf (w : Nat) (bs : List Byte) : List Nat := (blocks (bs.length + 1) w bs).map leNat

/-- Bytes of a dense element: L16 or A32 (R277 DMODE). -/
def denseWidth (dmode : Nat) : Nat := if dmode = 1 then 4 else 2

/-- A dense element as A32, and an A32 value as a dense element, to nearest. -/
def denseToA32 (dmode p : Nat) : Nat := if dmode = 1 then p else (f32.acc false .away (l16.read p)).1
def denseOfA32 (dmode p : Nat) : Nat := if dmode = 1 then p else (l16.round false .away (f32.operand false p).1).1

/-- One chain addition: A32 to nearest with ties away, or a log add (R285). -/
def denseAdd (dmode a b : Nat) : Nat := if dmode = 1 then (f32.add false .away a b).1 else (l16.add false a b).1

/-- A value over a count with one rounding to nearest (R291). -/
def denseDiv (dmode n p : Nat) : Nat :=
  if dmode = 1 then
    match (f32.operand false p).1 with
    | .fin s (.rat a b e) => (f32.acc false .away (.fin s (.rat a (b * n) e))).1
    | v => (f32.acc false .away v).1
  else
    match l16.read p with
    | .fin s (.root _ k) => (l16.roundBy false .away (.fin s (.rat 1 n 0)) k).1
    | v => (l16.round false .away v).1

/-- Sum and difference of two A32 patterns, to nearest with ties away. -/
def addA32 (a b : Nat) : Nat := (f32.add false .away a b).1
def subA32 (a b : Nat) : Nat := addA32 a (Nat.xor b (2 ^ 31))

/-- Put an element into a list sorted by falling magnitude; among equal magnitudes the lower index, put first, stays ahead (R287). -/
def putByMagnitude (x : Nat × Nat) (l : List (Nat × Nat)) : List (Nat × Nat) :=
  match l with
  | [] => [x]
  | y :: r => if y.2 % 2 ^ 31 < x.2 % 2 ^ 31 then x :: y :: r else y :: putByMagnitude x r

/-- The L16 value of an A32 pattern, to nearest. -/
def a32ToL16 (p : Nat) : Nat := denseOfA32 0 p

/-- Top-k: the records of the ⌈n × K / 65,536⌉ elements of largest magnitude, in ascending index. -/
def topkBytes (kfrac : Nat) (g : List Nat) : List Byte :=
  let best := ((g.zipIdx.map (fun p => (p.2, p.1))).foldl (fun l x => putByMagnitude x l) []).take (cdiv (g.length * kfrac) 65536)
  (List.range g.length).flatMap (fun j => match best.find? (fun (x : Nat × Nat) => x.1 == j) with
    | some x => leBytes 8 (j + a32ToL16 x.2 * 2 ^ 32)
    | none => [])

/-- The mean magnitude of a group as L16, with one rounding. -/
def meanScale (g : List Nat) : Nat :=
  let total := g.foldl (fun (a : Num) p => (a.sum (f32.operand false (p % 2 ^ 31)).1).1) (.zero false)
  match total with
  | .fin s (.rat a b e) => (l16.round false .away (.fin s (.rat a (b * g.length) e))).1
  | v => (l16.round false .away v).1

/-- Sign: for each group of 4,096 elements the scale, six zero bytes and the signs. -/
def signBytes (g : List Nat) : List Byte :=
  (blocks (g.length + 1) 4096 g).flatMap (fun x =>
    let neg := (x.zipIdx.filter (fun p => decide (2 ^ 31 < p.1))).map Prod.snd
    leBytes 2 (meanScale x) ++ List.replicate 6 0 ++ leBytes 512 (neg.foldl (fun a j => a + 2 ^ j) 0))

/-- A bucket compressed under CMODE (R287). -/
def compress (cmode kfrac : Nat) (g : List Nat) : List Byte := if cmode = 1 then signBytes g else topkBytes kfrac g

/-- A compressed bucket of `n` elements as A32 patterns (R287). -/
def decompress (cmode n : Nat) (bs : List Byte) : List Nat :=
  if cmode = 1 then
    ((blocks (bs.length + 1) 520 bs).flatMap (fun r =>
      let scale := leNat (r.take 2)
      let signs := leNat (r.drop 8)
      (List.range 4096).map (fun j => denseToA32 0 (if bitOf signs j then l16.neg scale else scale)))).take n
  else
    let rs := (elemsOf 8 bs).map (fun r => (r % 2 ^ 32, bitsOf r 47 32))
    (List.range n).map (fun j => match rs.find? (fun (x : Nat × Nat) => x.1 == j) with
      | some x => denseToA32 0 x.2
      | none => 0)

/-- Element-wise over two lists of one length. -/
def zipA32 (f : Nat → Nat → Nat) (a b : List Nat) : List Nat := List.zipWith f a b

/-! ### Buckets in the reservoir -/

def Train.normal (t : Train) : Bool := t.tstate == 1

/-- Elements of a bucket, and where its error-feedback and carry buffers lie (R284). -/
def Train.count (t : Train) (b : Bucket) : Nat := b.bytes / denseWidth t.dmode
def Train.efAt (t : Train) (b : Bucket) : Nat := t.efaddr + b.efoff
def Train.carryAt (t : Train) (b : Bucket) : Nat := t.carryaddr + b.efoff

/-- The gradients of a bucket as they stand in the reservoir, in A32. -/
def Train.gradients (t : Train) (m : Mem) (b : Bucket) : List Nat :=
  (elemsOf (denseWidth t.dmode) (Mem.readBytes m b.addr b.bytes)).map (denseToA32 t.dmode)

/-- The A32 buffer at an address. -/
def Train.buffer (t : Train) (m : Mem) (b : Bucket) (a : Nat) : List Nat := elemsOf 4 (Mem.readBytes m a (4 * t.count b))

/-- The error-feedback values count in this period: in a compressed state, and in the first NORMAL one after it (R288). -/
def Train.usesEf (t : Train) : Bool := !t.normal || t.flushEf

/-- A bucket's gradients with its error feedback (R288). -/
def Train.fed (t : Train) (m : Mem) (b : Bucket) : List Nat :=
  let g := t.gradients m b
  if t.usesEf then zipA32 addA32 g (t.buffer m b (t.efAt b)) else g

/-- The contribution with what the carry buffer holds (R291). -/
def Train.own (t : Train) (m : Mem) (b : Bucket) : List Nat :=
  let g := t.fed m b
  if b.carried then zipA32 addA32 g (t.buffer m b (t.carryAt b)) else g

/-- The contribution in the dense format: the bytes as they stand, where nothing is added to them. -/
def Train.ownDense (t : Train) (m : Mem) (b : Bucket) : List Nat :=
  if t.usesEf || b.carried then (t.own m b).map (denseOfA32 t.dmode) else elemsOf (denseWidth t.dmode) (Mem.readBytes m b.addr b.bytes)

/-- Write A32 values, or dense ones, into pages of the stream's domain (R223). -/
def Dev.writeElems (d : Dev) (i a w : Nat) (g : List Nat) : Dev := (d.rsvWrite (d.stream i).domain a (g.flatMap (leBytes w))).1

/-- Change one bucket of a stream's context. -/
def Dev.putBucket (d : Dev) (i k : Nat) (g : Bucket → Bucket) : Dev :=
  match d.train i with
  | none => d
  | some t => d.putTrain i { t with buckets := t.buckets.set k (g (t.buckets.getD k {})) }

/-- Change the context of a stream. -/
def Dev.onTrain (d : Dev) (i : Nat) (g : Train → Train) : Dev :=
  match d.train i with
  | none => d
  | some t => d.putTrain i (g t)

/-- The carry buffer has been added to a contribution: it is zeroed and counted (R291). -/
def Dev.spendCarry (d : Dev) (i k : Nat) (t : Train) (b : Bucket) : Dev :=
  if !b.carried then d
  else ((d.writeElems i (t.carryAt b) 4 (List.replicate (t.count b) 0)).putBucket i k (fun (x : Bucket) => { x with carried := false })).onTrain i
    (fun t => { t with ncarry := t.ncarry + 1 })

/-- The error feedback has been added to a dense contribution: it is zeroed (R288). -/
def Dev.spendEf (d : Dev) (i : Nat) (t : Train) (b : Bucket) : Dev :=
  if t.normal ∧ t.flushEf then d.writeElems i (t.efAt b) 4 (List.replicate (t.count b) 0) else d

/-! ### Links between ranks (R312, R313) -/

/-- Column and row of a rank in the torus. -/
def torusAt (xdim r : Nat) : Nat × Nat :=
  let y := if xdim = 0 then 0 else r / xdim
  let x := if xdim = 0 then r else r % xdim
  (if y % 2 = 0 then x else xdim - 1 - x, y)

/-- The port of the torus that joins rank `r` to rank `s`, its neighbour. -/
def torusPort (xdim r s : Nat) : Nat :=
  let a := torusAt xdim r
  let b := torusAt xdim s
  if a.2 = b.2 then (if a.1 < b.1 then 0 else 1) else if a.2 < b.2 then 2 else 3

/-- The port on which frame `f` leaves for the successor or the predecessor; none without a topology. -/
def Dev.rillPort (d : Dev) (succ : Bool) (f : Nat) : Option Nat :=
  let l := d.link
  let lo := if succ then 0 else 2
  let up (p : Nat) : Bool := (d.port p).state == 3
  if l.mode = 1 then
    if up lo && !up (lo + 1) then some lo else if up (lo + 1) && !up lo then some (lo + 1) else some (lo + f % 2)
  else if l.mode = 2 then some (torusPort l.xdim l.rank (if succ then l.rank + 1 else l.rank - 1))
  else none

/-- One DATA frame of a collective. -/
def Dev.sendRillFrame (d : Dev) (t : Train) (cls : Nat) (succ : Bool) (bucket f : Nat) (bs : List Byte) : Dev :=
  match d.rillPort succ f with
  | none => d
  | some p => d.send p { type := 1, cls := cls, rtag := t.rtag, bucket := bucket % 4096, index := f % 16384, plo := t.period.toNat % 16, payload := bs }

/-- A bucket or block in 4 KiB frames, and its contributor mask, where it has one, in a frame of 8 bytes. -/
def Dev.sendRill (d : Dev) (t : Train) (cls : Nat) (succ : Bool) (bucket : Nat) (bs : List Byte) (mask : Option Nat) : Dev :=
  let fs := blocks (bs.length + 1) 4096 bs
  let d := fs.zipIdx.foldl (fun (d : Dev) f => d.sendRillFrame t cls succ bucket f.2 f.1) d
  match mask with
  | none => d
  | some m => d.sendRillFrame t cls succ bucket fs.length (leBytes 8 m)

/-- A DATA payload of this class and bucket has been placed: the partial or block has begun to arrive (R290, R313). -/
def Dev.begun (d : Dev) (t : Train) (cls bucket : Nat) : Bool :=
  d.link.placed.any (fun f => f.cls == cls && f.rtag == t.rtag && f.bucket == bucket % 4096)

/-- The payloads placed of a bucket or block, in FRAME order (R313). -/
def Dev.assembled (d : Dev) (t : Train) (cls bucket : Nat) : List Byte :=
  let fs := d.link.placed.filter (fun f => f.cls == cls && f.rtag == t.rtag && f.bucket == bucket % 4096)
  (List.range fs.length).flatMap (fun n => ((fs.find? (fun f => f.index == n)).map Frame.payload).getD [])

/-- A partial or a final result of `n` bytes with its contributor mask: as its frames placed it, where they did, else as the command gives it
(R291, R313). -/
def Dev.arrived (d : Dev) (t : Train) (cls bucket n : Nat) (data : List Byte) (mask : Nat) : List Byte × Nat :=
  if !d.begun t cls bucket then (data, mask)
  else let bs := d.assembled t cls bucket; (bs.take n, leNat (bs.drop n))

/-- What was placed of it has been used. -/
def Dev.unplace (d : Dev) (t : Train) (cls bucket : Nat) : Dev :=
  d.setLink { d.link with placed := d.link.placed.filter (fun f => !(f.cls == cls && f.rtag == t.rtag && f.bucket == bucket % 4096)) }

/-! ### The chain (R285, R289 to R291) -/

/-- The runs that produce a bucket have retired: every run of the period whose step is said to produce it (R289). -/
def Dev.produced (d : Dev) (i k : Nat) (t : Train) : Bool :=
  (d.periodRuns i).all (fun r => !(((d.planStep r.2).map PlanStep.makes).getD []).contains k || t.doneRuns.contains (r.2.planStep, r.2.lbasin))

/-- A late contribution is carried into the next period, or dropped (R291). -/
def Dev.treatLate (d : Dev) (i k : Nat) : Dev :=
  match d.train i with
  | none => d
  | some t =>
    let b := t.buckets.getD k {}
    if !b.owed then d
    else
      let g := if t.normal then t.fed d.rsv.mem b else t.gradients d.rsv.mem b
      let sum := if b.carried then zipA32 addA32 (t.buffer d.rsv.mem b (t.carryAt b)) g else g
      let d := d.putBucket i k (fun x => { x with owed := false })
      let e := (d.spendEf i t b)
      if t.carry then (e.writeElems i (t.carryAt b) 4 sum).putBucket i k (fun x => { x with carried := true })
      else e.onTrain i (fun t => { t with ndrop := t.ndrop + 1 })

/-- When every bucket has its final result, the exchange phase has ended (R279). -/
def Dev.exchanged (d : Dev) (i : Nat) : Dev :=
  d.onTrain i (fun t =>
    if t.buckets.all Bucket.done then
      { t with phases := t.phases.set 2 { t.phases.getD 2 {} with first := some (t.startCt + (t.buckets.getD 0 {}).xstart), fin := some d.ns } }
    else t)

/-- A final result is stored, with its mask, in place of the bucket's gradients; a late contribution is treated first (R285, R291). -/
def Dev.storeFinal (d : Dev) (i k : Nat) (g : List Nat) (mask : Nat) : Dev :=
  let d := d.treatLate i k
  match d.train i with
  | none => d
  | some t =>
    let d := d.writeElems i (t.buckets.getD k {}).addr (denseWidth t.dmode) g
    (d.putBucket i k (fun x => { x with done := true, mask := mask })).exchanged i

/-- The final result under AVG: divided by the number of contributors. Over no contributor the spec states no quotient: open values. -/
def Dev.average (d : Dev) (t : Train) (g : List Nat) (mask : Nat) : List Nat × Dev :=
  let n := popcount mask 64
  if !t.avg then (g, d)
  else if n = 0 then
    let o := d.openBytes (g.length * denseWidth t.dmode)
    (elemsOf (denseWidth t.dmode) o.1, o.2)
  else (g.map (denseDiv t.dmode n), d)

/-- The sum so far goes on: to the successor, or, at the last rank, as the final result back along the chain (R285, R291). -/
def Dev.passOn (d : Dev) (i k : Nat) (t : Train) (g : List Nat) (mask : Nat) : Dev :=
  let w := denseWidth t.dmode
  if t.rank + 1 < t.nrank then d.sendRill t 0 true k (g.flatMap (leBytes w)) (some mask)
  else
    let a := d.average t g mask
    let d := a.2.storeFinal i k a.1 mask
    if t.rank = 0 then d else d.sendRill t 1 false k (a.1.flatMap (leBytes w)) (some mask)

/-- The rank adds its contribution to what it received, or to nothing, and sends the sum on; or forwards what it received (R285, R289). -/
def Dev.chain (d : Dev) (i k : Nat) : Dev :=
  match d.train i with
  | none => d
  | some t =>
    let b := t.buckets.getD k {}
    let part := elemsOf (denseWidth t.dmode) b.part
    if b.late then (if b.partIn then d.passOn i k t part b.mask else d)
    else
      let own := t.ownDense d.rsv.mem b
      let d := ((d.setRsv (d.rsv.moved b.bytes)).spendCarry i k t b).spendEf i t b
      if b.partIn then d.passOn i k t (zipA32 (denseAdd t.dmode) part own) (b.mask + 2 ^ t.rank)
      else d.passOn i k t own (2 ^ t.rank)

/-! ### Compressed exchange (R286 to R288) -/

/-- The sum of the contributions held, in ascending rank, in the dense format; stored as the final result. -/
def Dev.sumHeld (d : Dev) (i k : Nat) : Dev :=
  match d.train i with
  | none => d
  | some t =>
    let b := t.buckets.getD k {}
    let n := t.count b
    let mask := (b.contribs.map (fun c => 2 ^ c.1)).foldl (· + ·) 0
    let sum := match b.contribs.map (fun c => decompress t.cmode n c.2) with
      | [] => List.replicate n 0
      | c :: cs => cs.foldl (zipA32 addA32) c
    let a := d.average t (sum.map (denseOfA32 t.dmode)) mask
    a.2.storeFinal i k a.1 mask

/-- The sum is formed once every rank's contribution is held. -/
def Dev.sumIfWhole (d : Dev) (i k : Nat) : Dev :=
  match d.train i with
  | none => d
  | some t =>
    let b := t.buckets.getD k {}
    if !b.done ∧ b.contribs.length = t.nrank then d.sumHeld i k else d

/-- A compressed contribution sent or forwarded: to the successor, to the predecessor. -/
def Dev.spread (d : Dev) (t : Train) (k : Nat) (bs : List Byte) (up down : Bool) : Dev :=
  let d := if up && decide (t.rank + 1 < t.nrank) then d.sendRill t 2 true k bs none else d
  if down && decide (0 < t.rank) then d.sendRill t 2 false k bs none else d

/-- This rank compresses its contribution, keeps the error, and sends it to every other rank. -/
def Dev.sendCompressed (d : Dev) (i k : Nat) (t : Train) (b : Bucket) : Dev :=
  let g := t.own d.rsv.mem b
  let c := compress t.cmode t.kfrac g
  let d := (d.setRsv (d.rsv.moved b.bytes)).spendCarry i k t b
  let d := d.writeElems i (t.efAt b) 4 (zipA32 subA32 g (decompress t.cmode (t.count b) c))
  let d := (d.spread t k c true true).putBucket i k (fun x => { x with contribs := Tab.put x.contribs t.rank c })
  d.sumIfWhole i k

/-! ### Rows of the exchange -/

/-- The send time of a bucket at this rank, ns (R289). -/
def Train.sendAt (t : Train) (b : Bucket) : Nat := t.startCt + b.xstart + (if t.normal then t.rank * t.hopns else 0)

/-- BUCKET_SEND: at its send time the rank contributes, or is late. -/
def bucketSend (i k : Nat) (d : Dev) : Dev :=
  match d.train i with
  | none => d
  | some t =>
    match t.buckets[k]?, (d.stream i).period with
    | some b, some p =>
      if b.sent then d
      else
        let d := d.atNs (t.sendAt b)
        let d := if t.residualZero then d.writeElems i (t.efAt b) 4 (List.replicate (t.count b) 0) else d
        let dead := t.diverged || p.desc.isNone
        if !dead && !t.abandoned && d.produced i k t then
          let hold := t.normal && decide (0 < t.rank) && !b.partIn && d.begun t 0 k
          let d := d.putBucket i k (fun x => { x with sent := true, restarted := t.normal && decide (0 < t.rank) && !b.partIn && !hold })
          if !t.normal then d.sendCompressed i k t b else if hold then d else d.chain i k
        else
          let d := (d.putBucket i k (fun x => { x with sent := true, late := true, owed := !dead && !t.abandoned })).onTrain i (fun t =>
            { t with nlate := t.nlate + 1, ndrop := if t.abandoned && !dead then t.ndrop + 1 else t.ndrop })
          let d := d.raiseS 0x10 0x1F4 i k (t.period.toNat % 2 ^ 32) (t.period.toNat / 2 ^ 32)
          let d := if dead || t.abandoned then d.spendEf i t b else d
          if t.normal then d.chain i k else d
    | _, _ => d
def execBucketSend (i k : Nat) (s : State) : Host.Outcome State Fault Refusal := onCore (bucketSend i k) s

/-- CHAIN_PARTIAL: the partial of a bucket has arrived whole. After this rank started a new one it is discarded and counted. -/
def chainPartial (i k : Nat) (data : List Byte) (mask : Nat) (d : Dev) : Dev :=
  match d.train i with
  | none => d
  | some t =>
    match t.buckets[k]? with
    | none => d
    | some b =>
      let a := d.arrived t 0 k b.bytes data mask
      let data := a.1
      let mask := a.2
      if !t.normal ∨ t.rank = 0 ∨ b.partIn ∨ data.length ≠ b.bytes ∨ (d.stream i).period.isNone then d
      else
        let d := d.unplace t 0 k
        if b.restarted then d.onTrain i (fun t => { t with ndrop := t.ndrop + 1 })
        else
          let d := d.putBucket i k (fun x => { x with partIn := true, part := data, mask := mask % 2 ^ 64 })
          if b.sent then d.chain i k else d
def execChainPartial (i k : Nat) (data : List Byte) (mask : Nat) (s : State) : Host.Outcome State Fault Refusal :=
  onCore (chainPartial i k data mask) s

/-- FINAL_RESULT: stored and forwarded in descending rank. -/
def finalResult (i k : Nat) (data : List Byte) (mask : Nat) (d : Dev) : Dev :=
  match d.train i with
  | none => d
  | some t =>
    match t.buckets[k]? with
    | none => d
    | some b =>
      let a := d.arrived t 1 k b.bytes data mask
      let data := a.1
      let mask := a.2
      if !t.normal ∨ b.done ∨ data.length ≠ b.bytes ∨ t.nrank ≤ t.rank + 1 ∨ (d.stream i).period.isNone then d
      else
        let d := (d.unplace t 1 k).storeFinal i k (elemsOf (denseWidth t.dmode) data) (mask % 2 ^ 64)
        if t.rank = 0 then d else d.sendRill t 1 false k data (some (mask % 2 ^ 64))
def execFinalResult (i k : Nat) (data : List Byte) (mask : Nat) (s : State) : Host.Outcome State Fault Refusal := onCore (finalResult i k data mask) s

/-- COMPRESSED_CONTRIBUTION: another rank's contribution, kept and forwarded away from that rank; after OPTOFF it is discarded. -/
def compressedContribution (i k rank : Nat) (data : List Byte) (d : Dev) : Dev :=
  match d.train i with
  | none => d
  | some t =>
    match t.buckets[k]? with
    | none => d
    | some b =>
      if t.normal ∨ rank = t.rank ∨ t.nrank ≤ rank ∨ (Tab.find? b.contribs rank).isSome ∨ (d.stream i).period.isNone then d
      else
        let d := d.unplace t 2 k
        if b.done ∨ t.startCt + t.optoff < d.ns then d
        else
          let d := (d.spread t k data (decide (rank < t.rank)) (decide (t.rank < rank))).putBucket i k
            (fun x => { x with contribs := Tab.put x.contribs rank data })
          d.sumIfWhole i k
def execCompressedContribution (i k rank : Nat) (data : List Byte) (s : State) : Host.Outcome State Fault Refusal :=
  onCore (compressedContribution i k rank data) s

/-- KV_BLOCK: the key and value blocks of one chunk of a split sequence; chunk r is rank r's own. A rank keeps its own and those it receives
for the plan's runs, and sends each to its successor (R282, R313). -/
def kvBlock (i chunk : Nat) (data : List Byte) (d : Dev) : Dev :=
  match d.train i with
  | none => d
  | some t =>
    if t.rank < chunk then d
    else
      let data := if chunk < t.rank ∧ d.begun t 3 chunk then d.assembled t 3 chunk else data
      let d := (if chunk < t.rank then d.unplace t 3 chunk else d).onTrain i (fun t => { t with kv := Tab.put t.kv chunk data })
      if t.rank + 1 < t.nrank then d.sendRill t 3 true chunk data none else d
def execKvBlock (i chunk : Nat) (data : List Byte) (s : State) : Host.Outcome State Fault Refusal := onCore (kvBlock i chunk data) s

/-- OPTOFF_CHECK: compressed buckets are summed over what has arrived; a rank without every final result is DIVERGED (R286, R290, R292). -/
def optoffCheck (i : Nat) (d : Dev) : Dev :=
  match d.train i with
  | none => d
  | some t =>
    if (d.stream i).period.isNone ∨ !t.optOk then d
    else
      let d := d.atNs (t.startCt + t.optoff)
      let open' := (List.range t.buckets.length).filter (fun k => !(t.buckets.getD k {}).done)
      if !t.normal then open'.foldl (fun d k => d.sumHeld i k) d
      else if open' = [] then d
      else
        let d := open'.foldl (fun d k => d.treatLate i k) d
        (d.onTrain i (fun t => { t with diverged := true, optOk := false, ndiverge := t.ndiverge + 1 })).raiseS 0x11 0x1F4 i
          (t.period.toNat % 2 ^ 32) (t.period.toNat / 2 ^ 32) 0
def execOptoffCheck (i : Nat) (s : State) : Host.Outcome State Fault Refusal := onCore (optoffCheck i) s

/-! ### The twin: offload and checkpoints (R283, R294 to R296) -/

/-- OFFLOAD_FETCH_FAILURE: the rank's remaining backward work of the period is abandoned. -/
def offloadFetchFailure (i : Nat) (d : Dev) : Dev :=
  d.onTrain i (fun t => if t.twinoff = 0 ∨ (d.stream i).period.isNone then t else t.abandon)
def execOffloadFetchFailure (i : Nat) (s : State) : Host.Outcome State Fault Refusal := onCore (offloadFetchFailure i) s

/-- The pages of state set `k` of a stream's plan: the first half of its state pages is set 0, the rest set 1. -/
def Dev.setPages (d : Dev) (i k : Nat) : List Nat :=
  let ps := ((d.plan i (d.stream i).planno).map Plan.statePages).getD []
  if k % 2 = 0 then ps.take (ps.length / 2) else ps.drop (ps.length / 2)

/-- The bytes of a state set. -/
def Dev.setBytes (d : Dev) (i k : Nat) : List Byte := (d.setPages i k).flatMap (fun p => Mem.readBytes d.rsv.mem (p * 0x200000) 0x200000)

/-- Bytes loaded at an offset of a state set; what lies past its pages is left out. -/
def Dev.loadSet (d : Dev) (i k off : Nat) (bs : List Byte) : Dev :=
  (d.setPages i k).zipIdx.foldl (fun (d : Dev) p =>
    let lo := max off (p.2 * 0x200000)
    let hi := min (off + bs.length) (p.2 * 0x200000 + 0x200000)
    if lo < hi then d.setRsv ((d.rsv.write (p.1 * 0x200000 + lo % 0x200000) ((bs.drop (lo - off)).take (hi - lo))).moved (hi - lo)) else d) d

/-- A state set loaded into both of the stream's sets (R296). -/
def Dev.loadBoth (d : Dev) (i : Nat) (st : List (Nat × List Byte)) : Dev :=
  st.foldl (fun d c => (d.loadSet i 0 c.1 c.2).loadSet i 1 c.1 c.2) d

/-- Data for an address of the twin, on mirror class 2. -/
def Dev.sendTwin (d : Dev) (i a : Nat) (bs : List Byte) : Dev :=
  d.sendBytes 4 2 (handleOf i (d.stream i)) 0 0 (leBytes 8 a ++ bs)

/-- Where a checkpoint slot begins on the twin: slots of whole pages, one after the other from TWINOFF. -/
def Train.slotAt (t : Train) (slot bytes : Nat) : Nat := t.twinoff + slot * (cdiv (64 + bytes) 0x200000 * 0x200000)

/-- A checkpoint slot header (R295). -/
def ckHeader (valid : Bool) (h n bytes seed ct : Nat) : List Byte :=
  leBytes 4 (bit01 valid) ++ leBytes 4 h ++ leBytes 8 n ++ leBytes 8 bytes ++ leBytes 8 seed ++ leBytes 8 ct ++ List.replicate 24 0

/-- The period whose checkpoint copy is to start now: one that is over and still due, else the open one once its last optimiser run has
ended (R294). -/
def Dev.ckPeriod (d : Dev) (i : Nat) (t : Train) : Option Nat :=
  if t.ckCopy.isSome then none
  else match t.ckDue with
    | some n => some n
    | none => if (d.stream i).period.isSome && t.ckNow && !d.phaseOpen i 3 t.startCt then some t.period.toNat else none

/-- CHECKPOINT_START: the last optimiser run of a period that is a multiple of EVERY has ended, and no earlier copy is in progress: the slot
that does not hold CKSTEP loses its VALID, and the state set that this period wrote is sent. -/
def checkpointStart (i : Nat) (d : Dev) : Dev :=
  match d.train i with
  | none => d
  | some t =>
    match d.ckPeriod i t with
    | none => d
    | some n =>
      let slot := 1 - t.ckSlot
      let bs := d.setBytes i n
      let a := t.slotAt slot bs.length
      let d := ((d.setRsv (d.rsv.moved bs.length)).sendTwin i a (leBytes 4 0)).sendTwin i (a + 64) bs
      d.putTrain i { t with ckCopy := some (n, slot, d.ns, t.seed.toNat), ckDue := none, ckLast := some n }
def execCheckpointStart (i : Nat) (s : State) : Host.Outcome State Fault Refusal := onCore (checkpointStart i) s

/-- A frame of a stream's checkpoint or offload still waits at the mirror link, unsent or unacknowledged. -/
def Dev.twinBusy (d : Dev) (i : Nat) : Bool :=
  ((d.port 4).replay ++ (d.port 4).queue).any (fun f => f.type == 1 && f.cls == 2 && f.rtag == handleOf i (d.stream i))

/-- CHECKPOINT_COMMIT: every byte has been acknowledged, at CKSHARE at the earliest: the whole header is written with VALID = 1. -/
def checkpointCommit (i : Nat) (d : Dev) : Dev :=
  match d.train i with
  | none => d
  | some t =>
    match t.ckCopy with
    | none => d
    | some (n, slot, start, seed) =>
      if d.twinBusy i ∨ (d.port 4).state ≠ 3 then d
      else
        let len := (d.setPages i n).length * 0x200000
        let d := d.atNs (start + cdiv len (max t.ckShare 1))
        let d := d.sendTwin i (t.slotAt slot len) (ckHeader true (handleOf i (d.stream i)) n len seed d.ns)
        d.putTrain i { t with ckCopy := none, ckSlot := slot, ckstep := BitVec.ofNat 64 n, nckpt := t.nckpt + 1 }
def execCheckpointCommit (i : Nat) (s : State) : Host.Outcome State Fault Refusal := onCore (checkpointCommit i) s

/-- The first optimiser run of period n + 2 has started: it overwrites the state set that period n wrote (R294). -/
def Train.overwrites (t : Train) (n : Nat) : Bool :=
  decide (n + 2 < t.period.toNat) || (decide (t.period.toNat = n + 2) && (t.phases.getD 3 {}).first.isSome)

/-- CHECKPOINT_ABANDON: the copy has not ended, or not even started, when the first optimiser run of period n + 2 starts. -/
def checkpointAbandon (i : Nat) (d : Dev) : Dev :=
  match d.train i with
  | none => d
  | some t =>
    match t.ckCopy.map Prod.fst, t.ckDue with
    | some n, _ =>
      if !t.overwrites n then d
      else
        let h := handleOf i (d.stream i)
        let x := d.port 4
        let d := d.putPort 4 { x with queue := x.queue.filter (fun f => !(f.type == 1 && f.cls == 2 && f.rtag == h)) }
        (d.putTrain i { t with ckCopy := none, nckfail := t.nckfail + 1 }).raiseS 0x12 0x1F5 i (n % 2 ^ 32) (n / 2 ^ 32) 0
    | none, some n =>
      if !t.overwrites n then d
      else (d.putTrain i { t with ckDue := none, nckfail := t.nckfail + 1 }).raiseS 0x12 0x1F5 i (n % 2 ^ 32) (n / 2 ^ 32) 0
    | none, none => d
def execCheckpointAbandon (i : Nat) (s : State) : Host.Outcome State Fault Refusal := onCore (checkpointAbandon i) s

/-- TWIN_STORE_DATA: this module is the twin; data lands in the area reserved for that stream and nowhere else. -/
def twinStoreData (handle addr : Nat) (data : List Byte) (d : Dev) : Dev :=
  let d := d.setPair { d.pair with placed := (d.pair.gather 2 handle).2 }
  match Tab.find? d.areas handle with
  | none => d
  | some (a, n, dom) =>
    if a ≤ addr ∧ addr + data.length ≤ a + 2 * n * 0x200000 ∧ d.rsv.owned dom addr data.length then
      d.setRsv ((d.rsv.write addr data).moved data.length)
    else d
def execTwinStoreData (handle addr : Nat) (data : List Byte) (s : State) : Host.Outcome State Fault Refusal :=
  onCore (twinStoreData handle addr data) s

/-! ### Commands (R269, R273, R278, R292, R295, R296, R374) -/

/-- A context from its bytes 0x04 to 0x4F, before PERIOD and DIVERGED are set. -/
def wordsOf (bs : List Byte) : List Nat := (List.range 19).map (fun k => leNat ((bs.drop (4 * k)).take 4))

/-- Buckets from their records, and the records' faults: alignment and size, an overlap, an XS that does not ascend (R284). -/
def bucketsOf (bs : List Byte) (n : Nat) : List Bucket := bucketsAt (Mem.writeBytes [] 0 (bs.take (32 * n))) 0 n
def bucketBad (b : Bucket) : Bool :=
  b.addr % 4096 != 0 || decide (b.bytes < 0x400000) || decide (0x4000000 < b.bytes) || b.bytes % 4096 != 0
def bucketsBad (l : List Bucket) : Bool :=
  match l with
  | [] => false
  | b :: r => bucketBad b || r.any (fun c => rangesMeet b.addr b.bytes c.addr c.bytes || decide (c.xstart ≤ b.xstart)) || bucketsBad r

/-- The fields of a context lie in their ranges (R277, R321). -/
def Train.fits (t : Train) (n : Nat) : Bool :=
  decide (1 ≤ n) && decide (n ≤ 4096) && decide (1 ≤ t.nrank) && decide (t.nrank ≤ 64) && decide (t.rank < t.nrank)
    && (t.kfrac != 0) && t.bucketsAddr % 64 == 0 && t.efaddr % 4096 == 0 && t.carryaddr % 4096 == 0
    && (t.ckEvery == 0 || (decide (1 ≤ t.ckShare) && decide (t.ckShare ≤ 195)))

/-- The mirror-link share that a context's checkpoints take, MB/s (R321). -/
def Train.share (t : Train) : Nat := if t.ckEvery = 0 then 0 else t.ckShare * 1000

/-- TRAIN_CREATE: stream entry, context, RTAG and bucket records; the records stand at BUCKETS from then on. -/
def cmdTrainCreate (r : Req) (d : Dev) : Dev × Resp :=
  let p := r.payload
  let ws := wordsOf (p.drop 76)
  let n := ws.getD 9 0
  let rtag := leNat ((p.drop 152).take 4)
  let recs := (p.drop 156).take (32 * n)
  let bs := bucketsOf (p.drop 156) n
  let t : Train := { ({} : Train).setWords [] ws with
    buckets := bs, rtag := rtag, period := BitVec.ofNat 64 (ws.getD 3 0 + ws.getD 4 0 * 2 ^ 32) }
  if p.length < 156 + 32 * n ∨ (streamOfBytes p).kind ≠ 2 ∨ !t.fits n ∨ bucketsBad bs then d.no stINVALID
  else if t.rank ≠ d.link.rank ∨ t.nrank ≠ d.link.nrank ∨ d.trains.any (fun x => x.2.rtag == rtag) then d.no stTOPOLOGY
  else if 195000 < d.shareSum 65536 + t.share then d.no stSHARE
  else
    let c := d.createStream r p
    let i := c.2.1
    if c.1 ≠ 0 then d.no c.1
    else
      let e := c.2.2
      let s := e.stream i
      if !rsvPopulated t.bucketsAddr (32 * n) ∨ !e.rsv.owned s.domain t.bucketsAddr (32 * n) then d.no stINVALID
      else if (e.plan i s.planno).any (fun q => q.steps.any (fun x => x.phase == 4 && !x.evalOk)) then d.no stINVALID
      else ((e.setRsv ((e.rsv.write t.bucketsAddr recs).moved recs.length)).putTrain i t).yes [handleOf i s]
def execTrainCreate (f : Nat) (s : State) : Host.Outcome State Fault Refusal := onCmd f 0x700 cmdTrainCreate s

/-- The 256 bytes of a context (R277). -/
def Train.bytes (t : Train) (h : Nat) : List Byte :=
  leBytes 4 h ++ t.words.flatMap (leBytes 4)
    ++ t.phases.flatMap (fun p => leBytes 4 p.last ++ leBytes 4 p.max ++ leBytes 8 p.sum.toNat)
    ++ [t.nlate, t.ncarry, t.ndrop, t.nabandon, t.ndiverge, t.nckpt, t.nckfail, t.neval].flatMap (fun c => leBytes 8 c.toNat)
    ++ leBytes 8 t.ckstep.toNat ++ leBytes 8 t.lastmask.toNat ++ List.replicate 16 0

/-- The training stream that a handle names: a status, its index, its entry and its context. -/
def Dev.trainNamed (d : Dev) (r : Req) (h : Nat) : Nat × Nat × Stream × Train :=
  let n := d.named r h
  match d.train n.2.1 with
  | some t => (n.1, n.2.1, n.2.2, t)
  | none => (if n.1 = 0 then stNOT_FOUND else n.1, n.2.1, n.2.2, {})

/-- TRAIN_QUERY. -/
def cmdTrainQuery (r : Req) (d : Dev) : Dev × Resp :=
  let n := d.trainNamed r (r.arg 0)
  if n.1 ≠ 0 then d.no n.1 else d.yes [] (n.2.2.2.bytes (handleOf n.2.1 n.2.2.1))
def execTrainQuery (f : Nat) (s : State) : Host.Outcome State Fault Refusal := onCmd f 0x701 cmdTrainQuery s

/-- The start of period `p` of a stream in ns, where the active table tells it: that of the slot of its TAKE run. None: it has begun. -/
def Dev.periodStart (d : Dev) (i p : Nat) (t : Train) : Option (Option Nat) :=
  let now := (d.stream i).period.isSome
  let m := p + (if now then 0 else 1) - t.period.toNat
  let h := handleOf i (d.stream i)
  if p + (if now then 0 else 1) ≤ t.period.toNat then none
  else match d.cad.activeTable with
    | none => some none
    | some c =>
      let ks := (List.range c.nslot).filter (fun k => (Tab.at c.runs [] k).any (fun x => x.entry.isSome && x.handle == h && x.take))
      let here := d.basins.any (fun b => b.2.delivered.any (fun x => x.entry.isSome && x.handle == h && x.take))
      let up := ks.filter (fun k => decide (d.cad.slot < k) || (decide (k = d.cad.slot) && here))
      if ks = [] then some none
      else if m ≤ up.length then some (some (slotStartNs c d.cad.frameInTable (up.getD (m - 1) 0)))
      else
        let q := m - up.length - 1
        some (some (slotStartNs c (d.cad.frameInTable + 1 + q / ks.length) (ks.getD (q % ks.length) 0)))

/-- A change that names period `p` comes less than 2 × SLEN before its start (R278). -/
def Dev.tooLate (d : Dev) (i p : Nat) (t : Train) : Bool :=
  match d.periodStart i p t with
  | none => true
  | some none => false
  | some (some x) => decide (x < d.ns + 2 * d.slen)

/-- TRAIN_SET. -/
def cmdTrainSet (r : Req) (d : Dev) : Dev × Resp :=
  let n := d.trainNamed r (r.arg 0)
  let t := n.2.2.2
  let p := r.arg64 1
  let ws := wordsOf r.payload
  let u := t.setWords [] ws
  if n.1 ≠ 0 then d.no n.1
  else if r.payload.length < 76 ∨ !u.fits (ws.getD 9 0) then d.no stINVALID
  else if 195000 < d.shareSum 65536 - t.share + u.share then d.no stSHARE
  else if d.tooLate n.2.1 p t then d.no stTOO_LATE
  else (d.putTrain n.2.1 { t with pendSet := t.pendSet ++ [(p, ws)] }).yes
def execTrainSet (f : Nat) (s : State) : Host.Outcome State Fault Refusal := onCmd f 0x702 cmdTrainSet s

/-- TRAIN_STATE. -/
def cmdTrainState (r : Req) (d : Dev) : Dev × Resp :=
  let n := d.trainNamed r (r.arg 0)
  let t := n.2.2.2
  let p := r.arg64 1
  if n.1 ≠ 0 then d.no n.1
  else if 3 < r.arg 3 then d.no stINVALID 3
  else if d.tooLate n.2.1 p t then d.no stTOO_LATE
  else (d.putTrain n.2.1 { t with pendState := t.pendState ++ [(p, r.arg 3)] }).yes
def execTrainState (f : Nat) (s : State) : Host.Outcome State Fault Refusal := onCmd f 0x703 cmdTrainState s

/-- TRAIN_FILL: `n` consecutive outputs of the counter generator, under the fill's own seed and tag (R273). -/
def cmdTrainFill (r : Req) (d : Dev) : Dev × Resp :=
  let n := r.arg 5
  let p0 := r.arg64 3
  let a := leNat (r.payload.take 8)
  if n = 0 ∨ 4194304 < n ∨ 2 ^ 64 < p0 + n then d.no stINVALID 5
  else if r.payload.length < 8 ∨ !rsvPopulated a (16 * n) then d.no stINVALID
  else if !d.rsv.owned r.domain a (16 * n) then (d.deny r.domain a (16 * n) 1).no stDENIED
  else (d.setRsv ((d.rsv.write a ((List.range n).flatMap (fun k => sprayBytes (r.arg64 0) (r.arg 2) (p0 + k)))).moved (16 * n))).yes
def execTrainFill (f : Nat) (s : State) : Host.Outcome State Fault Refusal := onCmd f 0x704 cmdTrainFill s

/-- TRAIN_RESYNC: the state set that the rank or the twin gave is loaded; the twin's also gives SEED, and PERIOD one above the slot's. The
rank takes part again from the start of the period named, which is as many period starts away as the rank's PERIOD said when the
command came, and becomes its PERIOD then (R292, R296). `st`, `seed` and `period` are what the named rank holds, or the twin's valid slot
with the larger PERIOD. -/
def cmdTrainResync (st : List (Nat × List Byte)) (seed period : W64) (r : Req) (d : Dev) : Dev × Resp :=
  let n := d.trainNamed r (r.arg 0)
  let i := n.2.1
  let t := n.2.2.2
  let twin := r.arg 1 = 0xFF
  let away := r.arg64 2 + (if n.2.2.1.period.isSome then 0 else 1) - t.period.toNat
  if n.1 ≠ 0 then d.no n.1
  else if ¬ twin ∧ (t.nrank ≤ r.arg 1 ∨ r.arg 1 = t.rank) then d.no stINVALID 1
  else if st = [] then d.no stNOT_FOUND
  else
    let d := d.loadBoth i st
    (d.putTrain i { t with resumeAt := some (r.arg64 2, max 1 away), seed := if twin then seed else t.seed,
                           period := if twin then period + 1 else t.period }).yes
def execTrainResync (f : Nat) (st : List (Nat × List Byte)) (seed period : W64) (s : State) : Host.Outcome State Fault Refusal :=
  onCmd f 0x705 (cmdTrainResync st seed period) s

/-- TRAIN_RESTORE: state, SEED and PERIOD of the twin's valid slot with the larger PERIOD. -/
def cmdTrainRestore (st : List (Nat × List Byte)) (seed period : W64) (r : Req) (d : Dev) : Dev × Resp :=
  let n := d.trainNamed r (r.arg 0)
  if n.1 ≠ 0 then d.no n.1
  else if st = [] then d.no stNOT_FOUND
  else ((d.loadBoth n.2.1 st).putTrain n.2.1 { n.2.2.2 with seed := seed, period := period + 1 }).yes (words2 (period + 1).toNat)
def execTrainRestore (f : Nat) (st : List (Nat × List Byte)) (seed period : W64) (s : State) : Host.Outcome State Fault Refusal :=
  onCmd f 0x706 (cmdTrainRestore st seed period) s

/-- Free pages from which a run of `n` free pages starts. -/
def Dev.freeRuns (d : Dev) (n : Nat) : List Nat :=
  (List.range 195584).filter (fun p => (List.range n).all (fun k => d.pageFree (p + k)))

/-- TRAIN_CKPT_RESERVE: two slots of ARG1 pages in one run, assigned to the caller's domain. Which free pages is open. -/
def cmdTrainCkptReserve (r : Req) (d : Dev) : Dev × Resp :=
  let k := 2 * r.arg 1
  if r.arg 1 = 0 then d.no stINVALID 1
  else if (d.domain r.domain).maxPages < (d.ownPages r.domain).length + k then d.no stLIMIT
  else if (Tab.find? d.areas (r.arg 0)).isSome then d.no stIN_USE
  else
    let e := d.pick (d.freeRuns k)
    match e.1 with
    | none => d.no stNO_SPACE
    | some p =>
      let d := e.2.setRsv ((List.range k).foldl (fun (q : Rsv) j => q.assign (p + j) r.domain) e.2.rsv)
      (d.setAreas (Tab.put d.areas (r.arg 0) (p * 0x200000, r.arg 1, r.domain))).yes (words2 (p * 0x200000))
def execTrainCkptReserve (f : Nat) (s : State) : Host.Outcome State Fault Refusal := onCmd f 0x707 cmdTrainCkptReserve s

end Sys2Proof.Machine
end

