-- ==== Sys2Proof/Machine/Trickle.lean ====
section
/-! DEFINITION. The trickle unit: its window and its samples (R391 to R396). -/

namespace Sys2Proof.Machine

open Sys2Proof

/-- TRICKLE_WINDOW_WRITE: taken in Run, Trim and Trickle; in Rest it stays on the link and wakes the device (R388, R391). -/
def trickleWindowWrite (off : Nat) (data : List Byte) (d : Dev) : Dev :=
  let p := d.pow
  if 0x100000 < off + data.length ∨ (d.func 0).inReset then d
  else if p.state = 3 ∨ (p.moving ∧ p.dest = 3) then (d.setPow { p with heldTlp := p.heldTlp ++ [(off, data)] }).wake 0
  else d.setPow (p.windowWrite off data)
def execTrickleWindowWrite (off : Nat) (data : List Byte) (s : State) : Host.Outcome State Fault Refusal :=
  answer (onlyIf Dev.hwOn (trickleWindowWrite off data)) s

/-- A generator after `n` draws. -/
def Gen.skip (n : Nat) (g : Gen) : Gen :=
  match n with
  | 0 => g
  | k + 1 => g.next.2.skip k

/-- z of one pixel: both streams have the threshold of its difference; the generators start from the sample's reseed (R394 steps 2, 4
and 5). -/
def pixelScore (from' : Nat × Nat × Nat) (mlen t px : Nat) (diff : Int) : Int :=
  let l := Config.trickleLane t px
  let gen (g n : Nat) : Gen := (seedGen from' (4096 + 16 * (l.1 % 64) + g)).skip n
  let th := ((2 : Int) ^ 23 + diff * 2 ^ 15).toNat
  let ones := (mistBits (gen (l.2.1 % 8) l.2.2.2.1) (gen (8 + l.2.2.1 % 8) l.2.2.2.2) th th (2 ^ mlen) 0).2.2
  2 * (ones : Int) - (2 : Int) ^ mlen

/-- Z of a slot: the sum over its 14,400 pixels. -/
def Power.score (p : Power) (score : Nat → Int → Int) (t : Nat) : Int :=
  (List.range 14400).foldl (fun z k =>
    z + score k (((Mem.read p.trkBuf (t * 16384 + k)).toNat : Int) - (Mem.read p.trkRef (t * 16384 + k)).toNat)) 0

/-- Slot `t` exceeds its threshold (R394 step 6). -/
def Power.exceeds (p : Power) (score : Nat → Int → Int) (t : Nat) : Bool :=
  decide (((Tab.at p.trk.thr 0 t * 2 ^ p.trk.mlen * 14400 : Nat) : Int) ≤ p.score score t * 65536)

/-- r := r + ((x − r) asr REFK) over the pixels of a slot. -/
def Power.follow (p : Power) (t : Nat) : Power :=
  { p with trkRef := (List.range 14400).foldl (fun m k =>
      let x : Int := (Mem.read p.trkBuf (t * 16384 + k)).toNat
      let r : Int := (Mem.read m (t * 16384 + k)).toNat
      Mem.write m (t * 16384 + k) (BitVec.ofInt 8 (r + (x - r) / (2 : Int) ^ p.trk.refk))) p.trkRef }

/-- TRICKLE_PERIOD: the period is counted; where a slot is fresh or stale, row 0 samples. -/
def tricklePeriod (d : Dev) : Dev :=
  if d.pow.state ≠ 2 ∨ d.pow.moving ∨ d.pow.stable ≠ 2 then d
  else
    let due := d.pow.trkCt + d.pow.trk.period * 1000000
    let d := d.atNs due
    let p := d.pow
    let k := p.trk
    let slots := (List.range 64).filter (fun t => bitOf k.sloten t)
    let fresh := slots.filter (fun t => bitOf p.fresh t)
    let age := slots.foldl (fun a t => Tab.put a t (if bitOf p.fresh t then 0 else Tab.at p.age 0 t + 1)) p.age
    let stale := slots.filter (fun t => k.stalemax != 0 && !bitOf p.fresh t && decide (k.stalemax ≤ Tab.at age 0 t))
    let p := { p with trkcnt := p.trkcnt + 1, trkCt := due, age := age }
    if fresh = [] ∧ stale = [] then d.setPow p
    else
      let from' := (d.boot.devseed.toNat, 0xFFFFFFF2, 2 ^ 16 * p.trkcnt.toNat)
      let score (t : Nat) : Nat → Int → Int := pixelScore from' k.mlen t
      let hit := fresh.filter (fun t => p.exceeds (score t) t)
      let bits (l : List Nat) : Nat := l.foldl (fun n t => n + 2 ^ t) 0
      let p := { p with fresh := p.fresh - bits fresh }
      if hit = [] ∧ stale = [] then d.setPow (if k.refk = 0 then p else fresh.foldl Power.follow p)
      else (d.setPow { p with trkwake := bits hit + bits stale, trkstale := bits stale, row0On := true }).wake 5
def execTricklePeriod (s : State) : Host.Outcome State Fault Refusal := answer (onlyIf Dev.awake tricklePeriod) s

end Sys2Proof.Machine
end

