-- ==== Sys2Proof/Machine/Dispatch.lean ====
section
/-! DEFINITION. Which meaning each command has: one arm per constructor of Instr. -/

namespace Sys2Proof.Machine

open Sys2Proof

def exec (i : Instr) (s : State) : Host.Outcome State Fault Refusal :=
  match i with
  | .slotStrobe m => Sys2Proof.Machine.execSlotStrobe m s
  | .tableSwap => Sys2Proof.Machine.execTableSwap s
  | .timeStepApply => Sys2Proof.Machine.execTimeStepApply s
  | .runStart b => Sys2Proof.Machine.execRunStart b s
  | .runEndOffset b => Sys2Proof.Machine.execRunEndOffset b s
  | .runFlagMerge b => Sys2Proof.Machine.execRunFlagMerge b s
  | .scoreboardGrant b => Sys2Proof.Machine.execScoreboardGrant b s
  | .seqNop b => Sys2Proof.Machine.execSeqNop b s
  | .seqEnd b => Sys2Proof.Machine.execSeqEnd b s
  | .seqAdd b => Sys2Proof.Machine.execSeqAdd b s
  | .seqSub b => Sys2Proof.Machine.execSeqSub b s
  | .seqAnd b => Sys2Proof.Machine.execSeqAnd b s
  | .seqOr b => Sys2Proof.Machine.execSeqOr b s
  | .seqXor b => Sys2Proof.Machine.execSeqXor b s
  | .seqShl b => Sys2Proof.Machine.execSeqShl b s
  | .seqShr b => Sys2Proof.Machine.execSeqShr b s
  | .seqSltu b => Sys2Proof.Machine.execSeqSltu b s
  | .seqMul b => Sys2Proof.Machine.execSeqMul b s
  | .seqLi b => Sys2Proof.Machine.execSeqLi b s
  | .seqLdw b => Sys2Proof.Machine.execSeqLdw b s
  | .seqStw b => Sys2Proof.Machine.execSeqStw b s
  | .seqJ b => Sys2Proof.Machine.execSeqJ b s
  | .seqBeq b => Sys2Proof.Machine.execSeqBeq b s
  | .seqBne b => Sys2Proof.Machine.execSeqBne b s
  | .seqBltu b => Sys2Proof.Machine.execSeqBltu b s
  | .seqLoop b => Sys2Proof.Machine.execSeqLoop b s
  | .seqJop b => Sys2Proof.Machine.execSeqJop b s
  | .seqSlu b => Sys2Proof.Machine.execSeqSlu b s
  | .seqRunl b => Sys2Proof.Machine.execSeqRunl b s
  | .seqTzero b => Sys2Proof.Machine.execSeqTzero b s
  | .seqTfill b => Sys2Proof.Machine.execSeqTfill b s
  | .seqWait b => Sys2Proof.Machine.execSeqWait b s
  | .seqRdslot b => Sys2Proof.Machine.execSeqRdslot b s
  | .seqFlags b => Sys2Proof.Machine.execSeqFlags b s
  | .unlistedOpcode b => Sys2Proof.Machine.execUnlistedOpcode b s
  | .programRegionFault b => Sys2Proof.Machine.execProgramRegionFault b s
  | .lpeAdd b => Sys2Proof.Machine.execLpeAdd b s
  | .lpeSubtract b => Sys2Proof.Machine.execLpeSubtract b s
  | .lpeMultiply b => Sys2Proof.Machine.execLpeMultiply b s
  | .lpeFma b => Sys2Proof.Machine.execLpeFma b s
  | .lpeDivide b => Sys2Proof.Machine.execLpeDivide b s
  | .lpeSqrt b => Sys2Proof.Machine.execLpeSqrt b s
  | .lpeMinimum b => Sys2Proof.Machine.execLpeMinimum b s
  | .lpeMaximum b => Sys2Proof.Machine.execLpeMaximum b s
  | .lpeCompare b => Sys2Proof.Machine.execLpeCompare b s
  | .lpeConvert b => Sys2Proof.Machine.execLpeConvert b s
  | .layerRetire b q => Sys2Proof.Machine.execLayerRetire b q s
  | .tileOpRetire b q => Sys2Proof.Machine.execTileOpRetire b q s
  | .sluiceTransferStart b => Sys2Proof.Machine.execSluiceTransferStart b s
  | .transferRetire b q => Sys2Proof.Machine.execTransferRetire b q s
  | .amaxGet ring domain slotCt => Sys2Proof.Machine.execAmaxGet ring domain slotCt s
  | .amaxMerge ring domain amax slotCt => Sys2Proof.Machine.execAmaxMerge ring domain amax slotCt s
  | .cscSum b => Sys2Proof.Machine.execCscSum b s
  | .cscMax b => Sys2Proof.Machine.execCscMax b s
  | .cscMin b => Sys2Proof.Machine.execCscMin b s
  | .cscMeanvar b => Sys2Proof.Machine.execCscMeanvar b s
  | .cscLse b => Sys2Proof.Machine.execCscLse b s
  | .cscSoftmax b => Sys2Proof.Machine.execCscSoftmax b s
  | .cscSsq b => Sys2Proof.Machine.execCscSsq b s
  | .cscGnorm b => Sys2Proof.Machine.execCscGnorm b s
  | .cascadeRetire b q => Sys2Proof.Machine.execCascadeRetire b q s
  | .partialArrival b v => Sys2Proof.Machine.execPartialArrival b v s
  | .groupCombine b q => Sys2Proof.Machine.execGroupCombine b q s
  | .collectiveResult b q vals => Sys2Proof.Machine.execCollectiveResult b q vals s
  | .runnelRetire b r => Sys2Proof.Machine.execRunnelRetire b r s
  | .muNop b r => Sys2Proof.Machine.execMuNop b r s
  | .muIn b r => Sys2Proof.Machine.execMuIn b r s
  | .muOut b r => Sys2Proof.Machine.execMuOut b r s
  | .muOutr b r => Sys2Proof.Machine.execMuOutr b r s
  | .muDone b r => Sys2Proof.Machine.execMuDone b r s
  | .muIdx b r => Sys2Proof.Machine.execMuIdx b r s
  | .muLi b r => Sys2Proof.Machine.execMuLi b r s
  | .muLadd b r => Sys2Proof.Machine.execMuLadd b r s
  | .muLsub b r => Sys2Proof.Machine.execMuLsub b r s
  | .muLmul b r => Sys2Proof.Machine.execMuLmul b r s
  | .muLdiv b r => Sys2Proof.Machine.execMuLdiv b r s
  | .muLshf b r => Sys2Proof.Machine.execMuLshf b r s
  | .muLsgnAbs b r => Sys2Proof.Machine.execMuLsgnAbs b r s
  | .muLsgnNegate b r => Sys2Proof.Machine.execMuLsgnNegate b r s
  | .muLsgnSign b r => Sys2Proof.Machine.execMuLsgnSign b r s
  | .muFadd b r => Sys2Proof.Machine.execMuFadd b r s
  | .muFsub b r => Sys2Proof.Machine.execMuFsub b r s
  | .muCvtLgToLg b r => Sys2Proof.Machine.execMuCvtLgToLg b r s
  | .muCvtLgToA32 b r => Sys2Proof.Machine.execMuCvtLgToA32 b r s
  | .muCvtA32ToLg b r => Sys2Proof.Machine.execMuCvtA32ToLg b r s
  | .muCvtLgToFx b r => Sys2Proof.Machine.execMuCvtLgToFx b r s
  | .muCvtFxToLg b r => Sys2Proof.Machine.execMuCvtFxToLg b r s
  | .muCvtFxToLgField b r => Sys2Proof.Machine.execMuCvtFxToLgField b r s
  | .muCvtLgFieldToFx b r => Sys2Proof.Machine.execMuCvtLgFieldToFx b r s
  | .muCvtLgToFxWrap b r => Sys2Proof.Machine.execMuCvtLgToFxWrap b r s
  | .muCmp b r => Sys2Proof.Machine.execMuCmp b r s
  | .muSel b r => Sys2Proof.Machine.execMuSel b r s
  | .muIadd b r => Sys2Proof.Machine.execMuIadd b r s
  | .muIsub b r => Sys2Proof.Machine.execMuIsub b r s
  | .muAnd b r => Sys2Proof.Machine.execMuAnd b r s
  | .muOr b r => Sys2Proof.Machine.execMuOr b r s
  | .muXor b r => Sys2Proof.Machine.execMuXor b r s
  | .muShl b r => Sys2Proof.Machine.execMuShl b r s
  | .muShr b r => Sys2Proof.Machine.execMuShr b r s
  | .muSra b r => Sys2Proof.Machine.execMuSra b r s
  | .muLut b r => Sys2Proof.Machine.execMuLut b r s
  | .muBr b r => Sys2Proof.Machine.execMuBr b r s
  | .muBany b r => Sys2Proof.Machine.execMuBany b r s
  | .muBnone b r => Sys2Proof.Machine.execMuBnone b r s
  | .loupeRetire b q => Sys2Proof.Machine.execLoupeRetire b q s
  | .reservoirRead src epoch domain handle addr len => Sys2Proof.Machine.execReservoirRead src epoch domain handle addr len s
  | .reservoirWrite src epoch domain handle addr data => Sys2Proof.Machine.execReservoirWrite src epoch domain handle addr data s
  | .atomicFadd src epoch domain handle addr v => Sys2Proof.Machine.execAtomicFadd src epoch domain handle addr v s
  | .atomicCas src epoch domain handle addr c v => Sys2Proof.Machine.execAtomicCas src epoch domain handle addr c v s
  | .semAcq src epoch domain handle addr => Sys2Proof.Machine.execSemAcq src epoch domain handle addr s
  | .semRel src epoch domain handle addr => Sys2Proof.Machine.execSemRel src epoch domain handle addr s
  | .remoteCisternRead b src epoch domain handle addr len => Sys2Proof.Machine.execRemoteCisternRead b src epoch domain handle addr len s
  | .routerSinkPacket b read => Sys2Proof.Machine.execRouterSinkPacket b read s
  | .quarantineRelease u => Sys2Proof.Machine.execQuarantineRelease u s
  | .quarantineFailback u => Sys2Proof.Machine.execQuarantineFailback u s
  | .epochReissue u => Sys2Proof.Machine.execEpochReissue u s
  | .cisternScrub b addr finding => Sys2Proof.Machine.execCisternScrub b addr finding s
  | .reservoirScrub addr finding => Sys2Proof.Machine.execReservoirScrub addr finding s
  | .basinFaultDetected b cause => Sys2Proof.Machine.execBasinFaultDetected b cause s
  | .plannedFence b => Sys2Proof.Machine.execPlannedFence b s
  | .spareRestoreDone row => Sys2Proof.Machine.execSpareRestoreDone row s
  | .replayStart b => Sys2Proof.Machine.execReplayStart b s
  | .failedPeriodCompletion ix => Sys2Proof.Machine.execFailedPeriodCompletion ix s
  | .ppsEdge cycles => Sys2Proof.Machine.execPpsEdge cycles s
  | .ppsTimeout => Sys2Proof.Machine.execPpsTimeout s
  | .refclkLoss => Sys2Proof.Machine.execRefclkLoss s
  | .ptmDialogue ok master => Sys2Proof.Machine.execPtmDialogue ok master s
  | .ptmTimeout => Sys2Proof.Machine.execPtmTimeout s
  | .rillTimeTimeout => Sys2Proof.Machine.execRillTimeTimeout s
  | .holdlimExceeded => Sys2Proof.Machine.execHoldlimExceeded s
  | .cadCtLowRead => Sys2Proof.Machine.execCadCtLowRead s
  | .timeSyncSend p => Sys2Proof.Machine.execTimeSyncSend p s
  | .syncFrame p => Sys2Proof.Machine.execSyncFrame p s
  | .followFrame p t1 locked hops => Sys2Proof.Machine.execFollowFrame p t1 locked hops s
  | .dreqFrame p => Sys2Proof.Machine.execDreqFrame p s
  | .drespFrame p t4 => Sys2Proof.Machine.execDrespFrame p t4 s
  | .doorbell f off width v => Sys2Proof.Machine.execDoorbell f off width v s
  | .submissionFetch ix ok entry => Sys2Proof.Machine.execSubmissionFetch ix ok entry s
  | .frameArrival ix data => Sys2Proof.Machine.execFrameArrival ix data s
  | .posting ix => Sys2Proof.Machine.execPosting ix s
  | .mbReqtailWrite f v => Sys2Proof.Machine.execMbReqtailWrite f v s
  | .mbEnable f => Sys2Proof.Machine.execMbEnable f s
  | .mbDisable f => Sys2Proof.Machine.execMbDisable f s
  | .mbRspheadWrite f v => Sys2Proof.Machine.execMbRspheadWrite f v s
  | .evqHeadWrite f v => Sys2Proof.Machine.execEvqHeadWrite f v s
  | .requestStart f slot payload => Sys2Proof.Machine.execRequestStart f slot payload s
  | .registerWrite f addr width v => Sys2Proof.Machine.execRegisterWrite f addr width v s
  | .bar2Access f off len data => Sys2Proof.Machine.execBar2Access f off len data s
  | .poisonedTlp f => Sys2Proof.Machine.execPoisonedTlp f s
  | .functionReset f fin => Sys2Proof.Machine.execFunctionReset f fin s
  | .hostlinkRetrain speed width flit => Sys2Proof.Machine.execHostlinkRetrain speed width flit s
  | .coreMiscompare pass => Sys2Proof.Machine.execCoreMiscompare pass s
  | .deviceInfo f => Sys2Proof.Machine.execDeviceInfo f s
  | .deviceHealth f => Sys2Proof.Machine.execDeviceHealth f s
  | .devicePeers f => Sys2Proof.Machine.execDevicePeers f s
  | .deviceRekey f => Sys2Proof.Machine.execDeviceRekey f s
  | .deviceFuncbind f => Sys2Proof.Machine.execDeviceFuncbind f s
  | .deviceWindow f => Sys2Proof.Machine.execDeviceWindow f s
  | .deviceConfig f => Sys2Proof.Machine.execDeviceConfig f s
  | .deviceReset f => Sys2Proof.Machine.execDeviceReset f s
  | .resetDelayExpiry => Sys2Proof.Machine.execResetDelayExpiry s
  | .domainCreate f => Sys2Proof.Machine.execDomainCreate f s
  | .domainDestroy f => Sys2Proof.Machine.execDomainDestroy f s
  | .domainDestroyRelease d => Sys2Proof.Machine.execDomainDestroyRelease d s
  | .domainQuery f => Sys2Proof.Machine.execDomainQuery f s
  | .domainLimits f => Sys2Proof.Machine.execDomainLimits f s
  | .pageAssign f => Sys2Proof.Machine.execPageAssign f s
  | .pageRelease f => Sys2Proof.Machine.execPageRelease f s
  | .modelLoad f sigOk img => Sys2Proof.Machine.execModelLoad f sigOk img s
  | .modelUnload f => Sys2Proof.Machine.execModelUnload f s
  | .modelQuery f => Sys2Proof.Machine.execModelQuery f s
  | .runnelInstall f sigOk img => Sys2Proof.Machine.execRunnelInstall f sigOk img s
  | .runnelImageWrite => Sys2Proof.Machine.execRunnelImageWrite s
  | .runnelRemove f => Sys2Proof.Machine.execRunnelRemove f s
  | .streamCreate f => Sys2Proof.Machine.execStreamCreate f s
  | .streamDestroy f => Sys2Proof.Machine.execStreamDestroy f s
  | .streamReissue f => Sys2Proof.Machine.execStreamReissue f s
  | .streamQuery f => Sys2Proof.Machine.execStreamQuery f s
  | .streamSet f => Sys2Proof.Machine.execStreamSet f s
  | .streamRing f => Sys2Proof.Machine.execStreamRing f s
  | .slotPlan f sigOk img => Sys2Proof.Machine.execSlotPlan f sigOk img s
  | .slotLoad f sigOk img => Sys2Proof.Machine.execSlotLoad f sigOk img s
  | .slotCommit f => Sys2Proof.Machine.execSlotCommit f s
  | .slotCancel f => Sys2Proof.Machine.execSlotCancel f s
  | .slotQuery f => Sys2Proof.Machine.execSlotQuery f s
  | .pairAttach f => Sys2Proof.Machine.execPairAttach f s
  | .pairDetach f => Sys2Proof.Machine.execPairDetach f s
  | .detachApply => Sys2Proof.Machine.execDetachApply s
  | .pairMirror f => Sys2Proof.Machine.execPairMirror f s
  | .pairRole f => Sys2Proof.Machine.execPairRole f s
  | .pairRoleApply ix => Sys2Proof.Machine.execPairRoleApply ix s
  | .pairQuery f => Sys2Proof.Machine.execPairQuery f s
  | .trainCreate f => Sys2Proof.Machine.execTrainCreate f s
  | .trainQuery f => Sys2Proof.Machine.execTrainQuery f s
  | .trainSet f => Sys2Proof.Machine.execTrainSet f s
  | .trainState f => Sys2Proof.Machine.execTrainState f s
  | .trainFill f => Sys2Proof.Machine.execTrainFill f s
  | .trainResync f st seed period => Sys2Proof.Machine.execTrainResync f st seed period s
  | .trainRestore f st seed period => Sys2Proof.Machine.execTrainRestore f st seed period s
  | .trainCkptReserve f => Sys2Proof.Machine.execTrainCkptReserve f s
  | .flagsRead f => Sys2Proof.Machine.execFlagsRead f s
  | .flagsClear f => Sys2Proof.Machine.execFlagsClear f s
  | .regRead f => Sys2Proof.Machine.execRegRead f s
  | .regWrite f => Sys2Proof.Machine.execRegWrite f s
  | .timeQuery f => Sys2Proof.Machine.execTimeQuery f s
  | .timeSet f => Sys2Proof.Machine.execTimeSet f s
  | .timeStep f => Sys2Proof.Machine.execTimeStep f s
  | .powerQuery f => Sys2Proof.Machine.execPowerQuery f s
  | .powerEnter f => Sys2Proof.Machine.execPowerEnter f s
  | .powerPolicy f => Sys2Proof.Machine.execPowerPolicy f s
  | .powerWakeport f => Sys2Proof.Machine.execPowerWakeport f s
  | .powerTrickle f => Sys2Proof.Machine.execPowerTrickle f s
  | .updateManifest f sigOk => Sys2Proof.Machine.execUpdateManifest f sigOk s
  | .updateChunk f => Sys2Proof.Machine.execUpdateChunk f s
  | .chunkProgram readback => Sys2Proof.Machine.execChunkProgram readback s
  | .eraseResume => Sys2Proof.Machine.execEraseResume s
  | .updateStatus f => Sys2Proof.Machine.execUpdateStatus f s
  | .updateActivate f bad => Sys2Proof.Machine.execUpdateActivate f bad s
  | .updateAbort f => Sys2Proof.Machine.execUpdateAbort f s
  | .updateRecovery f sigOk => Sys2Proof.Machine.execUpdateRecovery f sigOk s
  | .recoveryTimeout => Sys2Proof.Machine.execRecoveryTimeout s
  | .lifecycleQuery f => Sys2Proof.Machine.execLifecycleQuery f s
  | .lifecycleAdvance f sigOk => Sys2Proof.Machine.execLifecycleAdvance f sigOk s
  | .eventConfig f => Sys2Proof.Machine.execEventConfig f s
  | .eventQuery f => Sys2Proof.Machine.execEventQuery f s
  | .eventFetch f => Sys2Proof.Machine.execEventFetch f s
  | .logRead f => Sys2Proof.Machine.execLogRead f s
  | .logClear f => Sys2Proof.Machine.execLogClear f s
  | .unknownOpcode f => Sys2Proof.Machine.execUnknownOpcode f s
  | .mctpRequest slot payload sigOk bad => Sys2Proof.Machine.execMctpRequest slot payload sigOk bad s
  | .coresWait => Sys2Proof.Machine.execCoresWait s
  | .seqStepDone => Sys2Proof.Machine.execSeqStepDone s
  | .seqStepTimeout => Sys2Proof.Machine.execSeqStepTimeout s
  | .pcieWake inWindow => Sys2Proof.Machine.execPcieWake inWindow s
  | .rillTrainingWake => Sys2Proof.Machine.execRillTrainingWake s
  | .mirrorTrainingWake => Sys2Proof.Machine.execMirrorTrainingWake s
  | .wakeBurstRecognised p => Sys2Proof.Machine.execWakeBurstRecognised p s
  | .wakeInNFall => Sys2Proof.Machine.execWakeInNFall s
  | .pwrEnRise => Sys2Proof.Machine.execPwrEnRise s
  | .pwrEnFall => Sys2Proof.Machine.execPwrEnFall s
  | .perstNAssert => Sys2Proof.Machine.execPerstNAssert s
  | .perstNDeassert => Sys2Proof.Machine.execPerstNDeassert s
  | .wakeNTimeout => Sys2Proof.Machine.execWakeNTimeout s
  | .currentOverride watts => Sys2Proof.Machine.execCurrentOverride watts s
  | .voltageOverride vin droop => Sys2Proof.Machine.execVoltageOverride vin droop s
  | .thermalShutdown => Sys2Proof.Machine.execThermalShutdown s
  | .overcurrentShutdown => Sys2Proof.Machine.execOvercurrentShutdown s
  | .undervoltageShutdown => Sys2Proof.Machine.execUndervoltageShutdown s
  | .overvoltageShutdown => Sys2Proof.Machine.execOvervoltageShutdown s
  | .vinRestored => Sys2Proof.Machine.execVinRestored s
  | .auxLoss => Sys2Proof.Machine.execAuxLoss s
  | .auxReturn => Sys2Proof.Machine.execAuxReturn s
  | .tricklePeriod => Sys2Proof.Machine.execTricklePeriod s
  | .trickleWindowWrite off data => Sys2Proof.Machine.execTrickleWindowWrite off data s
  | .bootStart => Sys2Proof.Machine.execBootStart s
  | .bootStepComplete ok mask fails => Sys2Proof.Machine.execBootStepComplete ok mask fails s
  | .bootStepTimeout => Sys2Proof.Machine.execBootStepTimeout s
  | .bootBackoffExpiry => Sys2Proof.Machine.execBootBackoffExpiry s
  | .stillAssert => Sys2Proof.Machine.execStillAssert s
  | .stillRelease => Sys2Proof.Machine.execStillRelease s
  | .trst => Sys2Proof.Machine.execTrst s
  | .extest pins => Sys2Proof.Machine.execExtest pins s
  | .samplePreload pins load => Sys2Proof.Machine.execSamplePreload pins load s
  | .idcode => Sys2Proof.Machine.execIdcode s
  | .clamp => Sys2Proof.Machine.execClamp s
  | .highz => Sys2Proof.Machine.execHighz s
  | .bypass tdi => Sys2Proof.Machine.execBypass tdi s
  | .stillstat => Sys2Proof.Machine.execStillstat s
  | .memaddr v => Sys2Proof.Machine.execMemaddr v s
  | .memdata => Sys2Proof.Machine.execMemdata s
  | .scansel v => Sys2Proof.Machine.execScansel v s
  | .scan nbits => Sys2Proof.Machine.execScan nbits s
  | .portEnable p => Sys2Proof.Machine.execPortEnable p s
  | .portDisable p => Sys2Proof.Machine.execPortDisable p s
  | .rilTopoWrite v => Sys2Proof.Machine.execRilTopoWrite v s
  | .downRetry p => Sys2Proof.Machine.execDownRetry p s
  | .laneTrainingDone p => Sys2Proof.Machine.execLaneTrainingDone p s
  | .trainTimeout p => Sys2Proof.Machine.execTrainTimeout p s
  | .keyxTimeout p => Sys2Proof.Machine.execKeyxTimeout p s
  | .hello p ident key nonce chainOk => Sys2Proof.Machine.execHello p ident key nonce chainOk s
  | .finish p sigOk => Sys2Proof.Machine.execFinish p sigOk s
  | .laneLoss p => Sys2Proof.Machine.execLaneLoss p s
  | .dataFrame p fr coded tagOk => Sys2Proof.Machine.execDataFrame p fr coded tagOk s
  | .ctrlFrame p fr coded tagOk => Sys2Proof.Machine.execCtrlFrame p fr coded tagOk s
  | .ackTimeout p => Sys2Proof.Machine.execAckTimeout p s
  | .idleFrameTimer p => Sys2Proof.Machine.execIdleFrameTimer p s
  | .noFrameTimeout p => Sys2Proof.Machine.execNoFrameTimeout p s
  | .rekeyThreshold p => Sys2Proof.Machine.execRekeyThreshold p s
  | .rekeyInit p key nonce sigOk => Sys2Proof.Machine.execRekeyInit p key nonce sigOk s
  | .rekeyResp p key nonce sigOk => Sys2Proof.Machine.execRekeyResp p key nonce sigOk s
  | .rekeyRetry p => Sys2Proof.Machine.execRekeyRetry p s
  | .counterStop p => Sys2Proof.Machine.execCounterStop p s
  | .wakeBurstTimer p => Sys2Proof.Machine.execWakeBurstTimer p s
  | .join j => Sys2Proof.Machine.execJoin j s
  | .hb h => Sys2Proof.Machine.execHb h s
  | .hbCheck => Sys2Proof.Machine.execHbCheck s
  | .postMsg handle tag idx => Sys2Proof.Machine.execPostMsg handle tag idx s
  | .digestMsg handle tag outlen code dig => Sys2Proof.Machine.execDigestMsg handle tag outlen code dig s
  | .mapMsg m => Sys2Proof.Machine.execMapMsg m s
  | .resyncMsg handle boundary bytes done => Sys2Proof.Machine.execResyncMsg handle boundary bytes done s
  | .forwardRecord ix entry idx arrCt data => Sys2Proof.Machine.execForwardRecord ix entry idx arrCt data s
  | .deltaRecord ix tag writes => Sys2Proof.Machine.execDeltaRecord ix tag writes s
  | .hotCoverCheck ix => Sys2Proof.Machine.execHotCoverCheck ix s
  | .mirrorApply ix => Sys2Proof.Machine.execMirrorApply ix s
  | .bucketSend ix k => Sys2Proof.Machine.execBucketSend ix k s
  | .chainPartial ix k data mask => Sys2Proof.Machine.execChainPartial ix k data mask s
  | .finalResult ix k data mask => Sys2Proof.Machine.execFinalResult ix k data mask s
  | .compressedContribution ix k rank data => Sys2Proof.Machine.execCompressedContribution ix k rank data s
  | .kvBlock ix chunk data => Sys2Proof.Machine.execKvBlock ix chunk data s
  | .optoffCheck ix => Sys2Proof.Machine.execOptoffCheck ix s
  | .checkpointStart ix => Sys2Proof.Machine.execCheckpointStart ix s
  | .checkpointCommit ix => Sys2Proof.Machine.execCheckpointCommit ix s
  | .checkpointAbandon ix => Sys2Proof.Machine.execCheckpointAbandon ix s
  | .twinStoreData handle addr data => Sys2Proof.Machine.execTwinStoreData handle addr data s
  | .offloadFetchFailure ix => Sys2Proof.Machine.execOffloadFetchFailure ix s
  | .refclkReturn => Sys2Proof.Machine.execRefclkReturn s
  | .stackReadyLoss n => Sys2Proof.Machine.execStackReadyLoss n s
  | .ingressReadFailure ix => Sys2Proof.Machine.execIngressReadFailure ix s
  | .coolantInletHigh t => Sys2Proof.Machine.execCoolantInletHigh t s
  | .refreshRateChange n t => Sys2Proof.Machine.execRefreshRateChange n t s
  | .pcieLinkL0 => Sys2Proof.Machine.execPcieLinkL0 s

end Sys2Proof.Machine
end

