-- ==== Sys2Proof/Safety.lean ====
section
/-! DEFINITION. What counts as a safe run: no step of it faults or is refused. -/

namespace Sys2Proof

/-- The next `k` steps from `s` all answer a next state. -/
def safeFor (k : Nat) (s : Machine.State) : Bool :=
  match k with
  | 0 => true
  | n + 1 =>
    match Machine.step s with
    | .next t => safeFor n t
    | .fault _ => false
    | .refused _ => false

end Sys2Proof
end

