-- ==== Sys2Proof/Certificates/Slice0/Obligations.lean ====
section
/-! DEFINITION. Statements about the model. `Gives c d e` says that command `c` takes the device from `d` to `e` and answers it as
the next state, with the commands that wait behind it untouched. -/

open Sys2Proof Sys2Proof.Machine

namespace Sys2Proof.Spec

/-- Command `c` answers a next state that holds device `e` and the same waiting commands. -/
def Gives (c : Instr) (d e : Dev) : Prop := ∀ q : List Instr, exec c { pending := q, dev := d } = .next { pending := q, dev := e }

/-- The core runs, and nothing has fallen due that a command would carry out first. -/
def Quiet (d : Dev) : Prop := d.coreOn = true ∧ d.due = d

/-- A run with a program is active on basin `b` and stands at instruction `i`, which nothing holds. -/
def Stands (d : Dev) (b : Nat) (a : Active) (i : Ins) : Prop :=
  Quiet d ∧ (d.basin b).seq.active = some a ∧ a.ended = false ∧ a.run.entry.isSome = true ∧ (d.basin b).seq.held = none
    ∧ (d.basin b).seq.base ≤ (d.basin b).seq.pc ∧ (d.basin b).seq.pc ≤ (d.basin b).seq.limit
    ∧ insOf (Tab.at (d.basin b).prog 0 (d.basin b).seq.pc) = i

/-- The device with basin `b`'s sequencer replaced. -/
def withSeq (d : Dev) (b : Nat) (q : Seq) : Dev := d.putBasin b { d.basin b with seq := q }

/-- Basin `b` goes on at instruction `t`. -/
def went (d : Dev) (b t : Nat) : Dev :=
  withSeq d b { (d.basin b).seq with pc := t, last := (d.basin b).seq.pc, held := none }

/-- Basin `b` writes scalar register `k`, which for s0 writes nothing, and goes on with the next instruction. -/
def wrote (d : Dev) (b k : Nat) (v : W32) : Dev :=
  withSeq d b { (d.basin b).seq with regs := if k = 0 then (d.basin b).seq.regs else Tab.put (d.basin b).seq.regs k v,
                                     pc := (d.basin b).seq.pc + 1, last := (d.basin b).seq.pc, held := none }

/-- The value of scalar register `k` of basin `b`: s0 is 0. -/
def sreg (d : Dev) (b k : Nat) : W32 := if k = 0 then 0 else Tab.at (d.basin b).seq.regs 0 k

/-- The second operand of an arithmetic instruction: IMM under FN[0], else register SB. -/
def operandB (d : Dev) (b : Nat) (i : Ins) : W32 := if bitOf i.fn 0 then BitVec.ofNat 32 i.imm else sreg d b i.sb

end Sys2Proof.Spec

open Sys2Proof.Spec

/-- The arithmetic, LI, RDSLOT and FLAGS instructions write SD with the value of R108 and go on; nothing else changes, but that
FLAGS with FN[0] = 1 clears the engine flag words (R83). -/
def Obligations.ScalarInstructionsWriteTheirResult : Prop :=
  ∀ (d : Dev) (b : Nat) (a : Active) (i : Ins), Stands d b a i →
    let u := sreg d b i.sa
    let v := operandB d b i
    (i.opc = 0x10 → Gives (.seqAdd b) d (wrote d b i.sd (u + v)))
    ∧ (i.opc = 0x11 → Gives (.seqSub b) d (wrote d b i.sd (u - v)))
    ∧ (i.opc = 0x12 → Gives (.seqAnd b) d (wrote d b i.sd (u &&& v)))
    ∧ (i.opc = 0x13 → Gives (.seqOr b) d (wrote d b i.sd (u ||| v)))
    ∧ (i.opc = 0x14 → Gives (.seqXor b) d (wrote d b i.sd (u ^^^ v)))
    ∧ (i.opc = 0x15 → Gives (.seqShl b) d (wrote d b i.sd (u <<< (v.toNat % 32))))
    ∧ (i.opc = 0x16 → Gives (.seqShr b) d (wrote d b i.sd (u >>> (v.toNat % 32))))
    ∧ (i.opc = 0x17 → Gives (.seqSltu b) d (wrote d b i.sd (if u.toNat < v.toNat then 1 else 0)))
    ∧ (i.opc = 0x18 → Gives (.seqMul b) d (wrote d b i.sd (u * v)))
    ∧ (i.opc = 0x19 → Gives (.seqLi b) d (wrote d b i.sd (BitVec.ofNat 32 i.imm)))
    ∧ (i.opc = 0x51 → Gives (.seqRdslot b) d (wrote d b i.sd (BitVec.ofNat 32 (if a.run.det then a.run.tstart else d.ns - a.slotCt))))
    ∧ (i.opc = 0x52 → Gives (.seqFlags b) d
        (let e := wrote d b i.sd (d.basin b).flags.sum
         if bitOf i.fn 0 then e.putBasin b { e.basin b with flags := EngineFlags.reset } else e))

/-- NOP goes on; J goes to IMM; BEQ, BNE and BLTU go to IMM when their comparison holds and on otherwise; LOOP writes sd − 1 and
goes to IMM while that is not 0, and on s0, which reads 0 and ignores the write, always jumps; WAIT goes on when no operation of its
classes is in flight; END ends issue (R106, R108, R110). -/
def Obligations.ControlInstructionsMoveTheProgramCounter : Prop :=
  ∀ (d : Dev) (b : Nat) (a : Active) (i : Ins), Stands d b a i →
    let q := (d.basin b).seq
    let u := sreg d b i.sa
    let v := sreg d b i.sb
    let w := sreg d b i.sd - 1
    (i.opc = 0x00 → Gives (.seqNop b) d (went d b (q.pc + 1)))
    ∧ (i.opc = 0x30 → Gives (.seqJ b) d (went d b i.imm))
    ∧ (i.opc = 0x31 → Gives (.seqBeq b) d (went d b (if u = v then i.imm else q.pc + 1)))
    ∧ (i.opc = 0x32 → Gives (.seqBne b) d (went d b (if u = v then q.pc + 1 else i.imm)))
    ∧ (i.opc = 0x33 → Gives (.seqBltu b) d (went d b (if u.toNat < v.toNat then i.imm else q.pc + 1)))
    ∧ (i.opc = 0x34 → Gives (.seqLoop b) d
        (withSeq d b { q with regs := if i.sd = 0 then q.regs else Tab.put q.regs i.sd w, pc := if w = 0 then q.pc + 1 else i.imm,
                              last := q.pc, held := none }))
    ∧ (i.opc = 0x50 → (∀ o ∈ q.ops, waitClass i.fn o.engine = false) → Gives (.seqWait b) d (went d b (q.pc + 1)))
    ∧ (i.opc = 0x01 → Gives (.seqEnd b) d (withSeq d b { q with active := some { a with ended := true }, held := some q.pc }))

namespace Sys2Proof.Spec

/-- No word of basin `b` holds an error of its ECC. -/
def Clean (d : Dev) (b : Nat) : Prop := (d.basin b).cis.badWords = [] ∧ (d.basin b).cis.softWords = []

/-- The effective address of a memory or engine instruction: sa + IMM, a 32-bit sum. -/
def ea (d : Dev) (b : Nat) (i : Ins) : Nat := (sreg d b i.sa + BitVec.ofNat 32 i.imm).toNat

/-- The 64 bytes that an engine instruction reads as its descriptor. -/
def descAt (d : Dev) (b : Nat) (i : Ins) : List Byte := Mem.readBytes (d.basin b).store (ea d b i) 64

/-- The descriptor may be read: aligned, in the cistern, in segments open to the run, without errors. -/
def Readable (d : Dev) (b : Nat) (a : Active) (i : Ins) : Prop :=
  Clean d b ∧ ea d b i % 64 = 0 ∧ (d.basin b).cisCode a.run (ea d b i) 64 = 0

/-- No operation in flight that `but` does not except claims one of the tiles, and none conflicts over a segment. -/
def Unclaimed (d : Dev) (b : Nat) (tiles reads writes : List Nat) (but : Op → Bool) : Prop :=
  ∀ o ∈ (d.basin b).seq.ops, (but o = true ∨ ∀ t ∈ tiles, t ∉ o.tiles) ∧ (∀ k ∈ reads, k ∉ o.writeSegs)
    ∧ (∀ k ∈ writes, k ∉ o.writeSegs ∧ k ∉ o.readSegs)

/-- Fewer than 16 operations are in flight, and fewer than four of them are layers where one more would be. -/
def HasRoom (d : Dev) (b : Nat) (e : Engine) : Prop :=
  (d.basin b).seq.ops.length < 16 ∧ (e = .jet → ((d.basin b).seq.ops.filter (fun o => o.engine == .jet)).length < 4)

/-- The segments and tiles of a list of ranges. -/
def segsIn (rs : List (Nat × Nat)) : List Nat := rs.flatMap (fun r => segsOf r.1 r.2)
def tilesIn (rs : List (Nat × Nat)) : List Nat := rs.flatMap (fun r => tilesOf r.1 r.2)

/-- From `d` to `e`, basin `b` has issued one operation of an engine and gone on; beside the sequencer, only engine registers and
generators of that basin, and the count of open values, may differ. Of the operations in flight, a layer may change what merged layers
raise (R113, R141), and nothing else. -/
def Issued (d : Dev) (b : Nat) (a : Active) (i : Ins) (g : Engine) (bytes : List Byte) (e : Dev) : Prop :=
  let x := d.basin b
  let y := e.basin b
  e = { d with basins := e.basins, free := e.free } ∧ (∀ c, c ≠ b → e.basin c = d.basin c)
    ∧ y = { x with seq := y.seq, eng := y.eng, gens := y.gens }
    ∧ y.seq = { x.seq with pc := x.seq.pc + 1, last := x.seq.pc, held := none, active := y.seq.active, ops := y.seq.ops }
    ∧ ∃ o, y.seq.ops.getLast? = some o ∧ y.seq.ops.length = x.seq.ops.length + 1
        ∧ (∀ (k : Nat) (p : Op), x.seq.ops[k]? = some p → p.seq ≠ o.seq → ∃ p', y.seq.ops[k]? = some p' ∧ (p.engine ≠ .jet ∨ g ≠ .jet → p' = p)
            ∧ p' = { p with jetFlags := p'.jetFlags, tileSet := p'.tileSet, ovCount := p'.ovCount, satCount := p'.satCount,
                            skipped := p'.skipped })
        ∧ o.engine = g ∧ o.pc = x.seq.pc ∧ o.desc = ea d b i ∧ o.bytes.take 64 = bytes ∧ o.seq = a.nextSeq

/-- A command issues an operation of an engine. -/
def Issues (c : Instr) (d : Dev) (b : Nat) (a : Active) (i : Ins) (g : Engine) (bytes : List Byte) : Prop :=
  ∃ e, Gives c d e ∧ Issued d b a i g bytes e

/-- A run stops: nothing it had in flight is left or written, and its fault record names the code and the instruction. -/
def StopsRun (c : Instr) (d : Dev) (b code pc : Nat) : Prop :=
  ∃ e, Gives c d e ∧ (e.basin b).seq.active = none ∧ (e.basin b).seq.ops = [] ∧ (e.basin b).seq.held = none
    ∧ (e.basin b).seq.fault = { code := code, pc := pc } ∧ (e.basin b).store = (d.basin b).store
    ∧ ∀ n, n ≠ b → e.basin n = d.basin n

end Sys2Proof.Spec

/-- LDW reads the word at sa + IMM into SD; STW writes SB there, and every byte outside the four is as before; either needs the word
aligned, allowed and unclaimed. -/
def Obligations.WordAccessesReachTheirWord : Prop :=
  ∀ (d : Dev) (b : Nat) (a : Active) (i : Ins), Stands d b a i → Clean d b →
    let x := d.basin b
    let w := ea d b i
    w % 4 = 0 → x.rangeCode a.run w 4 = 0 →
    (i.opc = 0x20 → Unclaimed d b (tilesOf w 4) (segsOf w 4) [] (fun _ => false) →
      Gives (.seqLdw b) d (wrote d b i.sd (BitVec.ofNat 32 (Mem.readLe x.store w 4))))
    ∧ (i.opc = 0x21 → Unclaimed d b (tilesOf w 4) (segsOf w 4) (segsOf w 4) (fun _ => false) →
      ∃ e, Gives (.seqStw b) d e ∧ e = { d with basins := e.basins } ∧ (∀ c, c ≠ b → e.basin c = d.basin c)
        ∧ (let y := e.basin b
           y = { x with store := y.store, tileFlags := y.tileFlags, tileCover := y.tileCover, cis := y.cis,
                        seq := { x.seq with pc := x.seq.pc + 1, last := x.seq.pc, held := none } }
           ∧ Mem.readLe y.store w 4 = (sreg d b i.sb).toNat
           ∧ (∀ p, (p < w ∨ w + 4 ≤ p) → Mem.read y.store p = Mem.read x.store p)
           ∧ (w < 0x400000 → y.tileFlags = x.tileFlags)))

/-- JOP, SLU, RUNL, CSC and LPE issue one operation each where the descriptor may be read, the engine's checks pass, and neither the
limits of R109 nor a claim holds them (R97, R109, R112, R114). -/
def Obligations.EngineInstructionsIssueAnOperation : Prop :=
  ∀ (d : Dev) (b : Nat) (a : Active) (i : Ins), Stands d b a i → Readable d b a i →
    let x := d.basin b
    let bs := descAt d b i
    (let l := layerOf bs
     i.opc = 0x40 → l.code x a.run = 0 → HasRoom d b .jet →
      Unclaimed d b l.tiles (segsIn l.reads) (segsIn l.writesTo) (fun o => o.engine == .jet && l.merges (layerOf o.bytes) a.run.det) →
      Issues (.seqJop b) d b a i .jet bs)
    ∧ (let s := sluiceOf bs
       let pb := x.ppbBytes a.run s
       let p := if pb = [] then Ppb.blank else ppbOf pb
       let k := d.sluiceClaims b s p
       i.opc = 0x41 → d.sluiceCheck b a.run s p = (0, 0) → HasRoom d b .sluice → Unclaimed d b k.2.2 k.1 k.2.1 (fun _ => false) →
        Issues (.seqSlu b) d b a i .sluice bs)
    ∧ (let q := rnlOf bs
       let n := if q.cntsrc then Mem.readLe x.store q.cntaddr 4 % 2 ^ 24 else q.count
       let g := q.ranges (d.muUses q.entry) n
       let r : Engine := if bitOf i.fn 0 then .runnel1 else .runnel0
       i.opc = 0x43 → n ≤ q.ecap → d.rnlCode x a.run q n = 0 → HasRoom d b r →
        (q.cntsrc = true → Unclaimed d b (tilesOf q.cntaddr 4) (segsOf q.cntaddr 4) [] (fun _ => false)) →
        Unclaimed d b (tilesIn (g.1 ++ g.2)) (segsIn g.1) (segsIn g.2) (fun _ => false) → Issues (.seqRunl b) d b a i r bs)
    ∧ (let c := cscOf bs
       let w := c.writesTo x.logical
       i.opc = 0x42 → c.code x a.run = 0 → HasRoom d b .cascade →
        Unclaimed d b (tilesIn (c.reads ++ w)) (segsIn c.reads) (segsIn w) (fun _ => false) →
        (c.op = 0 → Issues (.cscSum b) d b a i .cascade bs) ∧ (c.op = 1 → Issues (.cscMax b) d b a i .cascade bs)
        ∧ (c.op = 2 → Issues (.cscMin b) d b a i .cascade bs) ∧ (c.op = 3 → Issues (.cscMeanvar b) d b a i .cascade bs)
        ∧ (c.op = 4 → Issues (.cscLse b) d b a i .cascade bs) ∧ (c.op = 5 → Issues (.cscSoftmax b) d b a i .cascade bs)
        ∧ (c.op = 6 → Issues (.cscSsq b) d b a i .cascade bs) ∧ (c.op = 7 → Issues (.cscGnorm b) d b a i .cascade bs))
    ∧ (let l := lpeOf i.fn x.eng.lpeRnd bs
       let k := bitsOf i.fn 8 5
       let w := (l.d, l.count * l.dst)
       i.opc = 0x44 → l.code x a.run = 0 → HasRoom d b .loupe →
        Unclaimed d b (tilesIn (l.reads ++ [w])) (segsIn l.reads) (segsOf w.1 w.2) (fun _ => false) →
        (k = 0 → Issues (.lpeAdd b) d b a i .loupe bs) ∧ (k = 1 → Issues (.lpeSubtract b) d b a i .loupe bs)
        ∧ (k = 2 → Issues (.lpeMultiply b) d b a i .loupe bs) ∧ (k = 3 → Issues (.lpeFma b) d b a i .loupe bs)
        ∧ (k = 4 → Issues (.lpeDivide b) d b a i .loupe bs) ∧ (k = 5 → Issues (.lpeSqrt b) d b a i .loupe bs)
        ∧ (k = 6 → Issues (.lpeMinimum b) d b a i .loupe bs) ∧ (k = 7 → Issues (.lpeMaximum b) d b a i .loupe bs)
        ∧ (k = 8 → Issues (.lpeCompare b) d b a i .loupe bs) ∧ (k = 9 → Issues (.lpeConvert b) d b a i .loupe bs))

/-- TZERO and TFILL: the tiles that sa and IMM name are claimed by one operation, which writes 0, or SB, to each of their 64 words;
naming no tile is a NOP (R108, R112). -/
def Obligations.TileInstructionsFillTheNamedTiles : Prop :=
  ∀ (d : Dev) (b : Nat) (a : Active) (i : Ins), Stands d b a i →
    let s := (sreg d b i.sa).toNat
    let ts := tilesNamed s i.imm
    let goal (c : Instr) (v : Nat) : Prop :=
      ∃ e o, Gives c d e ∧ e = { d with basins := e.basins } ∧ (∀ n, n ≠ b → e.basin n = d.basin n)
        ∧ e.basin b = { d.basin b with seq := (let q := (d.basin b).seq
                                               { q with pc := q.pc + 1, last := q.pc, held := none, ops := q.ops ++ [o],
                                                        active := some { a with nextSeq := a.nextSeq + 1 } }) }
        ∧ o.engine = .tile ∧ o.tiles = ts ∧ o.tileClear = ts ∧ o.tileSet = [] ∧ o.readSegs = [] ∧ o.writeSegs = []
        ∧ (∀ t ∈ ts, ∀ w, w < 64 → Mem.readLe (Mem.apply (d.basin b).store o.writes) (0x400000 + 256 * t + 4 * w) 4 = v)
        ∧ (∀ p, (∀ t ∈ ts, p < 0x400000 + 256 * t ∨ 0x400000 + 256 * t + 256 ≤ p) → ∀ w ∈ o.writes, w.1 ≠ p)
    let fits := bitsOf s 5 0 + bitsOf s 12 6 ≤ 64 ∧ (∀ t ∈ ts, tileIn a.run.apseg t = true) ∧ HasRoom d b .tile
      ∧ Unclaimed d b ts [] [] (fun _ => false)
    (i.opc = 0x48 → (bitsOf s 12 6 = 0 ∨ i.imm % 2 ^ 16 = 0) → Gives (.seqTzero b) d (went d b ((d.basin b).seq.pc + 1)))
    ∧ (i.opc = 0x49 → (bitsOf s 12 6 = 0 ∨ i.imm % 2 ^ 16 = 0) → Gives (.seqTfill b) d (went d b ((d.basin b).seq.pc + 1)))
    ∧ (i.opc = 0x48 → bitsOf s 12 6 ≠ 0 → i.imm % 2 ^ 16 ≠ 0 → fits → goal (.seqTzero b) 0)
    ∧ (i.opc = 0x49 → bitsOf s 12 6 ≠ 0 → i.imm % 2 ^ 16 ≠ 0 → fits → goal (.seqTfill b) (sreg d b i.sb).toNat)

/-- What stops a run, with its code: an unlisted opcode 0x01, a branch or fall-through out of the region 0x02 at the instruction that left it,
a tile range past the sixty-fourth tile 0x03, a misaligned word or descriptor 0x06 (R105, R108, R111); operations in flight are cancelled and write nothing. -/
def Obligations.BadInstructionsStopTheRun : Prop :=
  (∀ (d : Dev) (b : Nat) (a : Active) (i : Ins), Stands d b a i →
      (listed i = false → StopsRun (.unlistedOpcode b) d b 1 (d.basin b).seq.pc)
      ∧ (i.opc = 0x20 → ea d b i % 4 ≠ 0 → StopsRun (.seqLdw b) d b 6 (d.basin b).seq.pc)
      ∧ (i.opc = 0x21 → ea d b i % 4 ≠ 0 → StopsRun (.seqStw b) d b 6 (d.basin b).seq.pc)
      ∧ (i.opc = 0x40 → ea d b i % 64 ≠ 0 → StopsRun (.seqJop b) d b 6 (d.basin b).seq.pc)
      ∧ (i.opc = 0x43 → ea d b i % 64 ≠ 0 → StopsRun (.seqRunl b) d b 6 (d.basin b).seq.pc)
      ∧ (i.opc = 0x48 → bitsOf (sreg d b i.sa).toNat 12 6 ≠ 0 → i.imm % 2 ^ 16 ≠ 0 →
          64 < bitsOf (sreg d b i.sa).toNat 5 0 + bitsOf (sreg d b i.sa).toNat 12 6 → StopsRun (.seqTzero b) d b 3 (d.basin b).seq.pc))
  ∧ (∀ (d : Dev) (b : Nat) (a : Active), Quiet d → (d.basin b).seq.active = some a → a.ended = false → a.run.entry.isSome = true →
      ((d.basin b).seq.pc < (d.basin b).seq.base ∨ (d.basin b).seq.limit < (d.basin b).seq.pc) →
      StopsRun (.programRegionFault b) d b 2 (d.basin b).seq.last)

namespace Sys2Proof.Spec

/-- Operation `o` is in flight on basin `b`, the one of its number, and a run is active there. -/
def InFlight (d : Dev) (b : Nat) (a : Active) (o : Op) : Prop :=
  Quiet d ∧ (d.basin b).seq.active = some a ∧ (d.basin b).op o.seq = some o

/-- It is also the oldest of its engine. -/
def Front (d : Dev) (b : Nat) (a : Active) (o : Op) : Prop := InFlight d b a o ∧ (d.basin b).oldest o.engine = some o

/-- From `d` to `e`, operation `o` of basin `b` has retired: its writes are made in their order and no other byte changes, its
flags are posted, its claims are gone, and the operations that stay are those of other numbers. -/
def Retired (d : Dev) (b : Nat) (o : Op) (e : Dev) : Prop :=
  let x := d.basin b
  let y := e.basin b
  (∀ c, c ≠ b → e.basin c = d.basin c) ∧ y.store = Mem.apply x.store o.writes
    ∧ (∀ p, (∀ w ∈ o.writes, w.1 ≠ p) → Mem.read y.store p = Mem.read x.store p)
    ∧ y.seq.ops = x.seq.ops.filter (fun p => p.seq ≠ o.seq) ∧ y.flags = x.flags.post o
    ∧ y.seq.regs = x.seq.regs ∧ y.seq.pc = x.seq.pc ∧ y.tags = x.tags ∧ y.prog = x.prog ∧ y.partials = x.partials

end Sys2Proof.Spec

/-- A layer, tile, cascade, runnel or loupe operation that may retire writes its buffered results, posts its flags and releases its
claims; a layer whose overflow count passes its bound sets EXCEED; a function of the shipped library, whose micro-ops the spec does not
print, retires with its results whole (the model's form, notes/assumptions/28.md) (R109, R112, R140, R171, R196). -/
def Obligations.OperationsRetireWithTheirWrites : Prop :=
  ∀ (d : Dev) (b : Nat) (a : Active) (o : Op), InFlight d b a o → Clean d b →
    (let l := layerOf o.bytes
     let past := l.ovb ≠ 0xFFFF ∧ l.ovb < o.ovCount
     o.engine = .jet → (∀ p ∈ (d.basin b).seq.ops, p.engine = .jet → p.seq < o.seq → l.shares (layerOf p.bytes) = false) →
      ∃ e, Gives (.layerRetire b o.seq) d e ∧ Retired d b o e ∧ (¬ past → e = { d with basins := e.basins })
        ∧ ((e.basin b).eng.ovbExceed = true ↔ past) ∧ (e.basin b).eng.ovbCount = o.ovCount ∧ (e.basin b).eng.ovbDesc = l.descId
        ∧ (e.basin b).eng.skipcnt = (d.basin b).eng.skipcnt + BitVec.ofNat 64 o.skipped
        ∧ ∃ a', (e.basin b).seq.active = some a' ∧ a'.novf = a.novf + o.ovCount ∧ a'.nsat = a.nsat + o.satCount ∧ a'.nvan = a.nvan + o.vanCount)
    ∧ (o.engine = .tile →
      ∃ e, Gives (.tileOpRetire b o.seq) d e ∧ Retired d b o e ∧ e = { d with basins := e.basins } ∧ (e.basin b).eng = (d.basin b).eng
        ∧ (∀ t ∈ o.tileSet, Tab.at (e.basin b).tileFlags false t = true)
        ∧ (∀ t, t ∉ o.tileSet → t ∉ o.tileClear → Tab.at (e.basin b).tileFlags false t = Tab.at (d.basin b).tileFlags false t))
    ∧ (o.engine = .cascade → Front d b a o → (o.phase = .granted ∨ o.sentAll (cscOf o.bytes) (d.basin b).logical = true) →
      ∃ e, Gives (.cascadeRetire b o.seq) d e ∧ Retired d b o e ∧ e = { d with basins := e.basins }
        ∧ (e.basin b).eng.cscBusy = (e.basin b).seq.ops.any (fun p => p.engine == .cascade))
    ∧ (o.engine = .loupe → Front d b a o →
      ∃ e, Gives (.loupeRetire b o.seq) d e ∧ Retired d b o e ∧ e = { d with basins := e.basins } ∧ (e.basin b).eng = (d.basin b).eng)
    ∧ (∀ r q, rnlEngine r = some o.engine → Front d b a o → o.rnl = some q → q.ended = true →
      ∃ e, Gives (.runnelRetire b r) d e ∧ Retired d b { o with writes := o.writes ++ writesAt q.raddr (leBytes 4 q.records) } e
        ∧ e = { d with basins := e.basins } ∧ (q.records < 2 ^ 32 → Mem.readLe (e.basin b).store q.raddr 4 = q.records)
        ∧ ((∀ p ∈ (d.basin b).seq.ops, p.engine = o.engine → p.seq = o.seq) → (e.basin b).eng = (d.basin b).eng))
    ∧ (∀ r q, rnlEngine r = some o.engine → Front d b a o → o.rnl = some q → q.ended = false → d.libOp q.entry = true →
      (q.entry ≠ 0x120 ∨ q.count ≤ q.rcap) →
      let v := q.library (Mem.read (d.basin b).store)
      let records := v.2.2.zipIdx.flatMap (fun p => writesAt (q.raddr + 8 + 8 * p.2) (leBytes 4 p.1.1 ++ leBytes 4 p.1.2))
      ∃ e, Gives (.runnelRetire b r) d e ∧ e = { d with basins := e.basins }
        ∧ Retired d b { o with flags := o.flags ||| v.2.1,
                               writes := o.writes ++ (v.1 ++ records) ++ writesAt q.raddr (leBytes 4 v.2.2.length) } e)

/-- A queued transfer starts when it heads its queue: a zero fill of the basin's own space holds zeros for its rows, a raw copy
within it holds the source rows' bytes, and one whose descriptor the prism refuses stops the run with 0x03, INV and its cause; started, it
retires with its writes, its counts and the prism's registers (R145, R154, R168, R209 to R213). -/
def Obligations.TransfersStartAndRetire : Prop :=
  (∀ (d : Dev) (b : Nat) (a : Active) (o : Op), Front d b a o → Clean d b → o.engine = .sluice → o.phase = .granted →
      let s := sluiceOf o.bytes
      let c := cvtOf s.cvtw
      let start (ws : List (Nat × Byte)) : Prop :=
        ∃ e o', Gives (.sluiceTransferStart b) d e ∧ e = { d with basins := e.basins } ∧ (∀ n, n ≠ b → e.basin n = d.basin n)
          ∧ (e.basin b).seq.ops = (d.basin b).seq.ops.map (fun p => if p.seq = o.seq then o' else p)
          ∧ (e.basin b).store = (d.basin b).store ∧ o'.phase = .started ∧ o'.seq = o.seq ∧ o'.writes = ws ∧ o'.rsvWrites = []
      (∀ t, s.zero = true → d.side b true s.dst = .own t → c.src = fRaw → c.dst = fRaw →
        start ((List.range s.nrows).flatMap (fun r => writesAt (t + r * s.dpitch) (List.replicate s.nelem 0))))
      ∧ (∀ f t, s.zero = false → s.ppbv = false → c.src = fRaw → c.dst = fRaw → 0 < s.nrows → d.side b false s.src = .own f →
        d.side b true s.dst = .own t → refuseWords c Ppb.blank s.nelem = 0 → o.bytes.length = 64 →
        (d.basin b).rowsCode a.run (rowsAt f s.spitch s.nelem s.nrows) = (0, 0) →
        start ((List.range s.nrows).flatMap (fun r =>
          writesAt (t + r * s.dpitch) (Mem.readBytes (d.basin b).store (f + r * s.spitch) s.nelem))))
      ∧ (let k := d.refusal b a.run c o.ppb s.ppbv s
         s.zero = false → k ≠ 0 → (s.metered d b (o.ppb.getD Ppb.blank) = true → a.run.share ≠ 0) →
          ∃ e, Gives (.sluiceTransferStart b) d e ∧ (e.basin b).seq.active = none ∧ (e.basin b).seq.fault = { code := 3, pc := o.pc }
            ∧ (e.basin b).cis.sluErr = 1 ∧ (e.basin b).eng.przErr = k))
  ∧ (∀ (d : Dev) (b : Nat) (a : Active) (o : Op), InFlight d b a o → Clean d b → o.engine = .sluice → o.phase = .started → o.rsvWrites = [] →
      ((sluiceOf o.bytes).zero = true ∨ (cvtOf (sluiceOf o.bytes).cvtw).src = fRaw ∨ ((o.ppb).getD Ppb.blank).amxen = false) →
      ∃ e, Gives (.transferRetire b o.seq) d e ∧ Retired d b o e ∧ e = { d with basins := e.basins }
        ∧ (e.basin b).eng.blkcnt = (d.basin b).eng.blkcnt + BitVec.ofNat 64 o.blocks
        ∧ (e.basin b).eng.zblkcnt = (d.basin b).eng.zblkcnt + BitVec.ofNat 64 o.zblocks
        ∧ (e.basin b).eng.vancnt = (d.basin b).eng.vancnt + BitVec.ofNat 64 o.vanCount ∧ (e.basin b).eng.przErr = 0
        ∧ (e.basin b).eng.przTs = o.tscale ∧ (e.basin b).eng.przBusy = false)

/-- A held WAIT goes on once nothing of its classes is in flight, and a held LDW reads its word once nothing claims it (R109). -/
def Obligations.HeldInstructionsIssueWhenTheirClaimsClear : Prop :=
  ∀ (d : Dev) (b : Nat) (a : Active) (i : Ins) (h : Nat),
    Quiet d → (d.basin b).current = some (a, i) → (d.basin b).seq.held = some h →
    (i.opc = 0x50 → (∀ o ∈ (d.basin b).seq.ops, waitClass i.fn o.engine = false) →
      Gives (.scoreboardGrant b) d (went d b ((d.basin b).seq.pc + 1)))
    ∧ (i.opc = 0x50 → (∃ o ∈ (d.basin b).seq.ops, waitClass i.fn o.engine = true) →
      Gives (.scoreboardGrant b) d (withSeq d b { (d.basin b).seq with held := some (d.basin b).seq.pc }))
    ∧ (i.opc = 0x20 → Clean d b → ea d b i % 4 = 0 → (d.basin b).rangeCode a.run (ea d b i) 4 = 0 →
      Unclaimed d b (tilesOf (ea d b i) 4) (segsOf (ea d b i) 4) [] (fun _ => false) →
      Gives (.scoreboardGrant b) d (wrote d b i.sd (BitVec.ofNat 32 (Mem.readLe (d.basin b).store (ea d b i) 4))))

namespace Sys2Proof.Spec

/-- The row values of operation `o`'s group, combined at the root in the order of arrival or, under deterministic mode, of the
members. -/
def combined (d : Dev) (b : Nat) (a : Active) (o : Op) : List Partial :=
  let c := cscOf o.bytes
  ((a.env c).combineRows ((d.basin b).partials.filter (fun p => p.handle == a.run.handle && p.gtag == c.gtag && p.seq == o.gseq)) a.run.det
    0 c.rows (o.flags, 0)).1

/-- Every member's partial of every row is held. -/
def Whole (d : Dev) (b : Nat) (a : Active) (o : Op) : Prop :=
  let c := cscOf o.bytes
  ∀ r m, r < c.rows → m < c.gcount → ∃ p ∈ (d.basin b).partials, p.handle = a.run.handle ∧ p.gtag = c.gtag ∧ p.seq = o.gseq ∧ p.row = r
    ∧ p.member = c.gfirst + m

/-- Operation `o` is its basin's one group operation of its tag and sequence number, and it waits. -/
def GroupRoot (d : Dev) (b : Nat) (a : Active) (o : Op) : Prop :=
  InFlight d b a o ∧ o.engine = .cascade ∧ (cscOf o.bytes).gfirst = (d.basin b).logical ∧ (cscOf o.bytes).scope ≠ 0
    ∧ (d.basin b).groupOp a.run.handle (cscOf o.bytes).gtag o.gseq = some o ∧ (Tab.find? d.basins b).isSome = true

end Sys2Proof.Spec

/-- A partial that reaches its root is held when the root basin serves its stream and fewer than 1,024 are held, else discarded and
counted; once every partial of every row is held, the root combines them; a device result under SCOPE 0b10 waits for the ring's,
which then completes the operation, and one handed over after its send time is counted late (R183, R185, R293). -/
def Obligations.GroupsCombineAtTheirRoot : Prop :=
  (∀ (d : Dev) (b : Nat) (v : HeldPartial), Quiet d → (d.basin b).cis.weirFenced = false →
    (∀ p ∈ d.basins, p.2.logical = v.member → (p.2.groupOp v.handle v.gtag v.seq).isSome = false) →
    (d.servesRun b v.handle = true → (d.basin b).partials.length < 1024 →
      Gives (.partialArrival b v) d (d.putBasin b { d.basin b with partials := (d.basin b).partials ++ [v] }))
    ∧ ((d.servesRun b v.handle = false ∨ 1024 ≤ (d.basin b).partials.length) →
      Gives (.partialArrival b v) d (d.putBasin b { d.basin b with eng := { (d.basin b).eng with dropcnt := (d.basin b).eng.dropcnt + 1 } })))
  ∧ (∀ (d : Dev) (b n : Nat) (v : HeldPartial) (o : Op), Quiet d → (d.basin b).cis.weirFenced = false → n ≠ b →
    Tab.sorted d.basins = true → (∀ p ∈ d.basins, (p.2.logical = v.member ∧ (p.2.groupOp v.handle v.gtag v.seq).isSome = true) ↔ p.1 = n) →
    (Tab.find? d.basins n).isSome = true → (d.basin n).groupOp v.handle v.gtag v.seq = some o → o.partials[v.row]? = some v.value →
    d.servesRun b v.handle = true → (d.basin b).partials.length < 1024 →
      ∃ e, Gives (.partialArrival b v) d e ∧ e = { d with basins := e.basins }
        ∧ e.basin b = { d.basin b with partials := (d.basin b).partials ++ [v] }
        ∧ e.basin n = (d.basin n).setOp { o with blocks := o.blocks + 1 } ∧ ∀ m, m ≠ b → m ≠ n → e.basin m = d.basin m)
  ∧ (∀ (d : Dev) (b : Nat) (a : Active) (o : Op), GroupRoot d b a o →
    let c := cscOf o.bytes
    (o.phase = .waiting → Whole d b a o →
      let late := c.scope = 2 ∧ ∃ t, d.sendTime a c.gtag o.gseq = some t ∧ t < d.ns
      ∃ e o', Gives (.groupCombine b o.seq) d e ∧ o' ∈ (e.basin b).seq.ops ∧ o'.seq = o.seq
        ∧ (¬ late → e = { d with basins := e.basins })
        ∧ (late → ∀ t, d.train (runIndex a.run) = some t → e.train (runIndex a.run) = some { t with nlate := t.nlate + 1 })
        ∧ (c.scope = 2 → o'.partials = combined d b a o ∧ o'.phase = .started)
        ∧ (c.scope = 1 → o'.partials = combined d b a o ∧ o'.phase = .granted)
        ∧ (e.basin b).store = (d.basin b).store
        ∧ (e.basin b).partials = (d.basin b).partials.filter (fun p => !(p.handle == a.run.handle && p.gtag == c.gtag && p.seq == o.gseq)))
    ∧ (∀ vals, c.scope = 2 → o.phase ≠ .granted →
      ∃ e o', Gives (.collectiveResult b o.seq vals) d e ∧ o' ∈ (e.basin b).seq.ops ∧ o'.seq = o.seq ∧ o'.partials = vals
        ∧ o'.phase = .granted ∧ (o.phase = .started → e = { d with basins := e.basins }) ∧ (e.basin b).store = (d.basin b).store))

namespace Sys2Proof.Spec

/-- Runnel `r` of basin `b` works on operation `o`, whose lane state is `q`, and its next micro-op is `m`, one whose word is known. -/
def AtMicroOp (d : Dev) (b r : Nat) (a : Active) (o : Op) (q : RunnelOp) (m : Mop) : Prop :=
  Quiet d ∧ (d.basin b).seq.active = some a ∧ rnlEngine r = some o.engine ∧ (d.basin b).oldest o.engine = some o
    ∧ o.rnl = some q ∧ q.ended = false ∧ d.libOp q.entry = false ∧ mopOf (d.muWord (d.basin b) q.upc) = m ∧ m.vd < 16

/-- From `d` to `e`, operation `o` of basin `b` has become `o'` with lane state `q'`; beside its runnel's status and `n` draws
counted, nothing else has changed. -/
def LanesMoved (d : Dev) (b r : Nat) (o o' : Op) (q' : RunnelOp) (n : Nat) (e : Dev) : Prop :=
  let x := d.basin b
  o'.rnl = some q'
    ∧ e = d.putBasin b { x with seq := { x.seq with ops := x.seq.ops.map (fun p => if p.seq = o.seq then o' else p) },
                                eng := { x.eng.runStatus r q' with drawcnt := x.eng.drawcnt + BitVec.ofNat 64 n } }

/-- The command gives vd of every active lane `val` of that lane and every other register its old value, adds `fl` to the operation's
flags, and goes on with the next micro-op; the rest of the device is as in `w`. -/
def GivesLanesFrom (c : Instr) (d w : Dev) (b r : Nat) (o : Op) (q : RunnelOp) (m : Mop) (n : Nat) (val : Nat → Nat) (fl : W32) : Prop :=
  ∃ e q', Gives c d e ∧ LanesMoved w b r o { o with flags := o.flags ||| fl, rnl := some q' } q' n e
    ∧ q' = { q with upc := (q.upc + 1) % 2048, regs := q'.regs }
    ∧ ∀ l k, k < 16 → q'.reg l k = if k = m.vd ∧ k ≠ 0 ∧ l ∈ q.lanes then val l % 2 ^ 32 else q.reg l k

/-- The same where nothing else of the device changes. -/
def GivesLanes (c : Instr) (d : Dev) (b r : Nat) (o : Op) (q : RunnelOp) (m : Mop) (n : Nat) (val : Nat → Nat) (fl : W32) : Prop :=
  GivesLanesFrom c d d b r o q m n val fl

/-- The flags of the active lanes together. -/
def laneFlags (q : RunnelOp) (f : Nat → W32) : W32 := q.lanes.foldl (fun x l => x ||| f l) 0

/-- The second operand of an integer micro-op in lane `l`: IMM under IM, else vb. -/
def intB (q : RunnelOp) (m : Mop) (l : Nat) : Nat := if m.im then m.imm else q.reg l m.vb

end Sys2Proof.Spec

/-- The integer micro-ops, LI, IDX, SEL and the integer compares give vd of each active lane the value of R192 and raise nothing. -/
def Obligations.IntegerMicroOpsWriteTheirLanes : Prop :=
  ∀ (d : Dev) (b r : Nat) (a : Active) (o : Op) (q : RunnelOp) (m : Mop), AtMicroOp d b r a o q m →
    let u (l : Nat) : Nat := q.reg l m.va
    let v (l : Nat) : Nat := intB q m l
    let k (l : Nat) : Nat := v l % 32
    (m.op = 0x28 → GivesLanes (.muIadd b r) d b r o q m 0 (fun l => u l + v l) 0)
    ∧ (m.op = 0x29 → GivesLanes (.muIsub b r) d b r o q m 0 (fun l => u l + (2 ^ 32 - v l % 2 ^ 32)) 0)
    ∧ (m.op = 0x2A → GivesLanes (.muAnd b r) d b r o q m 0 (fun l => Nat.land (u l) (v l)) 0)
    ∧ (m.op = 0x2B → GivesLanes (.muOr b r) d b r o q m 0 (fun l => Nat.lor (u l) (v l)) 0)
    ∧ (m.op = 0x2C → GivesLanes (.muXor b r) d b r o q m 0 (fun l => Nat.xor (u l) (v l)) 0)
    ∧ (m.op = 0x2D → GivesLanes (.muShl b r) d b r o q m 0 (fun l => u l * 2 ^ k l) 0)
    ∧ (m.op = 0x2E → GivesLanes (.muShr b r) d b r o q m 0 (fun l => u l / 2 ^ k l) 0)
    ∧ (m.op = 0x2F → GivesLanes (.muSra b r) d b r o q m 0 (fun l => patternOf 32 (signedOf 32 (u l) / 2 ^ k l)) 0)
    ∧ (m.op = 0x06 → GivesLanes (.muLi b r) d b r o q m 0 (fun _ => m.imm) 0)
    ∧ (m.op = 0x05 → GivesLanes (.muIdx b r) d b r o q m 0 (fun l => q.idxbase + 32 * q.group + l) 0)
    ∧ (m.op = 0x21 → GivesLanes (.muSel b r) d b r o q m 0 (fun l => if q.reg l m.vc ≠ 0 then u l else q.reg l m.vb) 0)
    ∧ (m.op = 0x20 → bitOf m.mod 3 = true → GivesLanes (.muCmp b r) d b r o q m 0 (fun l =>
        let x := signedOf 32 (u l)
        let y := signedOf 32 (v l)
        if (m.mod % 4 = 0 ∧ x = y) ∨ (m.mod % 4 = 1 ∧ x < y) ∨ (m.mod % 4 = 2 ∧ x ≤ y) then 0xFFFFFFFF else 0) 0)
    ∧ (m.op = 0x20 → bitOf m.mod 3 = false → GivesLanes (.muCmp b r) d b r o q m 0 (fun l =>
        let nan (p : Nat) : Prop := p % 2 ^ 19 = 2 ^ 18
        let key (p : Nat) : Int := if bitOf p 18 then -((p % 2 ^ 18 : Nat) : Int) else ((p % 2 ^ 18 : Nat) : Int)
        let x := u l
        let y := q.reg l m.vb
        if (m.mod % 4 = 3 ∧ (nan x ∨ nan y)) ∨ (¬ nan x ∧ ¬ nan y ∧ ((m.mod % 4 = 0 ∧ key x = key y) ∨ (m.mod % 4 = 1 ∧ key x < key y)
          ∨ (m.mod % 4 = 2 ∧ key x ≤ key y))) then 0xFFFFFFFF else 0) 0)
    ∧ (m.op = 0x00 → ∃ e, Gives (.muNop b r) d e ∧ LanesMoved d b r o { o with rnl := some { q with upc := (q.upc + 1) % 2048 } }
        { q with upc := (q.upc + 1) % 2048 } 0 e)

/-- The log micro-ops: LADD and LSUB add in LG; LMUL of finite values whose field stays in range adds the fields and multiplies the
signs; LDIV of 0 by 0 is NaN with INV; LSHF by 2^k with k from 0 scales the field; LSGN sets the sign, and zero and NaN keep theirs
(R188, R189, R192). -/
def Obligations.LogMicroOpsWriteTheirLanes : Prop :=
  ∀ (d : Dev) (b r : Nat) (a : Active) (o : Op) (q : RunnelOp) (m : Mop), AtMicroOp d b r a o q m →
    let u (l : Nat) : Nat := q.reg l m.va % 2 ^ 19
    let v (l : Nat) : Nat := q.reg l m.vb % 2 ^ 19
    let g (p : Nat) : Nat := p % 2 ^ 18
    let s (p : Nat) : Nat := p / 2 ^ 18 % 2
    let finite (p : Nat) : Prop := 1 ≤ g p ∧ g p ≤ 262142
    (m.op = 0x08 → GivesLanes (.muLadd b r) d b r o q m 0 (fun l => (lgf.add q.subn (u l) (v l)).1)
        (laneFlags q (fun l => (lgf.add q.subn (u l) (v l)).2)))
    ∧ (m.op = 0x09 → GivesLanes (.muLsub b r) d b r o q m 0 (fun l => (lgf.add q.subn (u l) (lgf.neg (v l))).1)
        (laneFlags q (fun l => (lgf.add q.subn (u l) (lgf.neg (v l))).2)))
    ∧ (m.op = 0x0A → (∀ l ∈ q.lanes, finite (u l) ∧ finite (v l) ∧ 130049 ≤ g (u l) + g (v l) ∧ g (u l) + g (v l) ≤ 392190) →
        GivesLanes (.muLmul b r) d b r o q m 0 (fun l => (s (u l) + s (v l)) % 2 * 2 ^ 18 + (g (u l) + g (v l) - 130048)) 0)
    ∧ (m.op = 0x0B → (∀ l ∈ q.lanes, finite (u l) ∧ finite (v l) ∧ g (v l) < g (u l) + 130048 ∧ g (u l) + 130048 ≤ g (v l) + 262142) →
        GivesLanes (.muLdiv b r) d b r o q m 0 (fun l => (s (u l) + s (v l)) % 2 * 2 ^ 18 + (g (u l) + 130048 - g (v l))) 0)
    ∧ (m.op = 0x0B → q.lanes ≠ [] → (∀ l ∈ q.lanes, u l = 0 ∧ v l = 0) → GivesLanes (.muLdiv b r) d b r o q m 0 (fun _ => 2 ^ 18) flINV)
    ∧ (m.op = 0x0C → m.imm % 16 < 8 →
        (∀ l ∈ q.lanes, finite (u l) ∧ (let f : Int := 130048 + ((g (u l) : Int) - 130048) * 2 ^ (m.imm % 16); 1 ≤ f ∧ f ≤ 262142)) →
        GivesLanes (.muLshf b r) d b r o q m 0
          (fun l => s (u l) * 2 ^ 18 + (130048 + ((g (u l) : Int) - 130048) * 2 ^ (m.imm % 16)).toNat) 0)
    ∧ (m.op = 0x0D → m.mod = 0 → GivesLanes (.muLsgnAbs b r) d b r o q m 0 (fun l => if g (u l) = 0 then u l else g (u l)) 0)
    ∧ (m.op = 0x0D → m.mod = 1 →
        GivesLanes (.muLsgnNegate b r) d b r o q m 0 (fun l => if g (u l) = 0 then u l else (1 - s (u l)) * 2 ^ 18 + g (u l)) 0)
    ∧ (m.op = 0x0D → m.mod = 2 →
        GivesLanes (.muLsgnSign b r) d b r o q m 0 (fun l => if g (u l) = 0 then u l else s (v l) * 2 ^ 18 + g (u l)) 0)

namespace Sys2Proof.Spec

/-- The direction in which lane `l` rounds under code `rm`, and the draws that costs. -/
def laneDir (a : Active) (q : RunnelOp) (rm l : Nat) : Dir := rmDir rm (if rm = 2 then a.laneDraw q l else 0)
def laneDraws (q : RunnelOp) (rm : Nat) : Nat := if rm = 2 then q.lanes.length else 0

/-- A conversion micro-op: `f` of the direction and lane gives value and flags, and a reserved rounding code adds INV. -/
def GivesCvt (c : Instr) (d : Dev) (b r : Nat) (a : Active) (o : Op) (q : RunnelOp) (m : Mop) (f : Dir → Nat → Flagged) : Prop :=
  let rm := q.rmOf m
  GivesLanes c d b r o q m (laneDraws q rm) (fun l => (f (laneDir a q rm l) l).1)
    ((if q.lanes = [] then 0 else rmFlag rm) ||| laneFlags q (fun l => (f (laneDir a q rm l) l).2))

end Sys2Proof.Spec

/-- CVT rounds each active lane once, under RM and with the lane's own draw where RM is stochastic; the field conversions are exact, and
what the wrapping one makes of an infinity is open; FADD and FSUB add A32 values under the descriptor's EM; LUT reads the micro-table (R192 to R194, R272). -/
def Obligations.ConversionsAndTablesWriteTheirLanes : Prop :=
  ∀ (d : Dev) (b r : Nat) (a : Active) (o : Op) (q : RunnelOp) (m : Mop), AtMicroOp d b r a o q m →
    let u (l : Nat) : Nat := q.reg l m.va
    let v (l : Nat) : Nat := q.reg l m.vb
    let lg (l : Nat) : Machine.Num := lgf.read (u l % 2 ^ 19)
    let k := m.imm % 32
    let em : Dir → Dir → Dir := fun x y => if q.em = 2 then y else x
    (m.op = 0x18 → m.mod = 0 → GivesCvt (.muCvtLgToLg b r) d b r a o q m (fun t l => let w := l16.round q.subn t (lg l); (lgOfL16 w.1, w.2)))
    ∧ (m.op = 0x18 → m.mod = 1 → GivesCvt (.muCvtLgToA32 b r) d b r a o q m (fun t l => f32.acc q.subn t ((lg l).shift (-q.aoff))))
    ∧ (m.op = 0x18 → m.mod = 2 → GivesCvt (.muCvtA32ToLg b r) d b r a o q m (fun t l =>
        let x := f32.operand q.subn (u l); let w := lgf.round q.subn t (x.1.shift q.aoff); (w.1, x.2 ||| w.2)))
    ∧ (m.op = 0x18 → m.mod = 3 → (∀ l ∈ q.lanes, u l % 2 ^ 19 = 2 ^ 18) → GivesCvt (.muCvtLgToFx b r) d b r a o q m (fun _ _ => (2 ^ 31, 0)))
    ∧ (m.op = 0x18 → m.mod = 3 → (∀ l ∈ q.lanes, u l % 2 ^ 19 = 130048) → m.vb = 0 → k < 31 →
        GivesCvt (.muCvtLgToFx b r) d b r a o q m (fun _ _ => (2 ^ k, 0)))
    ∧ (m.op = 0x18 → m.mod = 4 → (∀ l ∈ q.lanes, u l = 0) → GivesCvt (.muCvtFxToLg b r) d b r a o q m (fun _ _ => (0, 0)))
    ∧ (m.op = 0x18 → m.mod = 4 → (∀ l ∈ q.lanes, u l ≠ 2 ^ 31 ∧ u l ≠ 2 ^ 31 - 1 ∧ u l ≠ 2 ^ 31 + 1 ∧ signedOf 32 (u l) ≠ 0) →
        GivesCvt (.muCvtFxToLg b r) d b r a o q m (fun t l =>
          lgf.round q.subn t (.fin (decide (signedOf 32 (u l) < 0)) (.rat (signedOf 32 (u l)).natAbs 1 (-(k : Int))))))
    ∧ (m.op = 0x18 → m.mod = 5 → (∀ l ∈ q.lanes, -130047 ≤ signedOf 32 (u l) ∧ signedOf 32 (u l) ≤ 132094) →
        GivesLanes (.muCvtFxToLgField b r) d b r o q m 0 (fun l => (130048 + signedOf 32 (u l)).toNat) 0)
    ∧ (m.op = 0x18 → m.mod = 6 → (∀ l ∈ q.lanes, 1 ≤ u l % 2 ^ 18 ∧ u l % 2 ^ 18 ≤ 262142) →
        GivesLanes (.muCvtLgFieldToFx b r) d b r o q m 0 (fun l => patternOf 32 ((u l % 2 ^ 18 : Nat) - 130048)) 0)
    ∧ (m.op = 0x18 → m.mod = 7 →
        GivesCvt (.muCvtLgToFxWrap b r) d b r a o q m (fun t l => match lg l with
          | .nan => (2 ^ 31, 0)
          | .inf _ => ((Config.fxOfInf (u l % 2 ^ 19) (fxFactor m (v l))).toNat, 0)
          | _ => match fxRound (u l % 2 ^ 19) (fxFactor m (v l)) k t with
            | some (s, n, inx) => (patternOf 32 (if s then -(n : Int) else n), if inx then flINX else 0)
            | none => (2 ^ 31, 0)))
    ∧ (m.op = 0x10 → q.em ≤ 2 → GivesLanes (.muFadd b r) d b r o q m (if q.em = 2 then q.lanes.length else 0)
        (fun l => (f32.add q.subn (em .away (.draw (a.laneDraw q l))) (u l) (v l)).1)
        (laneFlags q (fun l => (f32.add q.subn (em .away (.draw (a.laneDraw q l))) (u l) (v l)).2)))
    ∧ (m.op = 0x11 → q.em ≤ 2 → GivesLanes (.muFsub b r) d b r o q m (if q.em = 2 then q.lanes.length else 0)
        (fun l => (f32.add q.subn (em .away (.draw (a.laneDraw q l))) (u l) (neg32 (v l))).1)
        (laneFlags q (fun l => (f32.add q.subn (em .away (.draw (a.laneDraw q l))) (u l) (neg32 (v l))).2)))
    ∧ (m.op = 0x30 → bitOf m.imm 27 = false →
        GivesLanes (.muLut b r) d b r o q m 0 (fun l =>
          let i : Int := max 0 (min ((bitsOf m.imm 26 17 : Int) - 1) (signedOf 32 (u l) / 2 ^ bitsOf m.imm 16 12))
          leNat ((List.range 4).map (fun n => d.muTable (d.basin b) (bitsOf m.imm 11 0 + 4 * i.toNat + n)))) 0)

/-- IN reads each active lane's element, OUT writes it, OUTR appends the records of the lanes whose vc is not 0 while the record cap
has room; a raw element is its 32 bits, an A32 one too, which OUT writes in its canonical form, and an L16 element is LG with the field
times 8; A16 and binary32 are read into A32 under RM (R62, R188, R192, R196). -/
def Obligations.ElementMicroOpsReachTheirElements : Prop :=
  ∀ (d : Dev) (b r : Nat) (a : Active) (o : Op) (q : RunnelOp) (m : Mop), AtMicroOp d b r a o q m → Clean d b →
    let x := d.basin b
    let j (l : Nat) : Nat := 32 * q.group + l
    (m.op = 0x01 →
      let f := if m.mod % 2 = 1 then q.bfmt else q.afmt
      let base := if m.mod % 2 = 1 then q.baddr else q.aaddr
      let w (n l : Nat) : Nat := leNat ((List.range n).map (fun k => o.view x (base + n * j l + k)))
      (q.lanes ≠ [] → x.rangeCode a.run (base + 32 * q.group * muBytes f) (q.lanes.length * muBytes f) = 0) →
      (f = fRaw ∨ f = fA32 → GivesLanes (.muIn b r) d b r o q m 0 (fun l => w 4 l) 0)
      ∧ (f = fL16 → GivesLanes (.muIn b r) d b r o q m 0 (fun l => lgOfL16 (w 2 l)) 0)
      ∧ (f = fA16 → GivesCvt (.muIn b r) d b r a o q m (fun t l =>
          let y := f16.operand q.subn (w 2 l); let z := f32.acc q.subn t y.1; (z.1, y.2 ||| z.2)))
      ∧ (f = fB32 → GivesCvt (.muIn b r) d b r a o q m (fun t l =>
          let y := f32.operand q.subn (w 4 l); let z := f32.acc q.subn t (y.1.shift (-q.aoff)); (z.1, y.2 ||| z.2))))
    ∧ (m.op = 0x02 → (q.lanes ≠ [] → x.rangeCode a.run (q.daddr + 32 * q.group * muBytes q.dfmt) (q.lanes.length * muBytes q.dfmt) = 0) →
      let put (n : Nat) (v : Nat → Flagged) (draws : Nat) (mode : W32) : Prop :=
        ∃ e q', Gives (.muOut b r) d e ∧ q' = { q with upc := (q.upc + 1) % 2048 }
          ∧ (let at' (l : Nat) : Nat := q.daddr + j l * n
             let ws := q.lanes.flatMap (fun l => writesAt (at' l) (leBytes n (v l).1))
             let ts := q.lanes.flatMap (fun l => if (v l).2 &&& flSAT = 0 then [] else tilesOf (at' l) n)
             LanesMoved d b r o { o with flags := o.flags ||| (mode ||| laneFlags q (fun l => (v l).2)), rnl := some q',
                                         writes := o.writes ++ ws, tileSet := (o.tileSet ++ ts).dedup } q' draws e)
      (q.dfmt = fRaw → put 4 (fun l => (q.reg l m.va, 0)) 0 0)
      ∧ (q.dfmt = fA32 → put 4 (fun l =>
          let y := f32.operand q.subn (q.reg l m.va); let z := f32.acc q.subn (rmDir (q.rmOf m) 0) y.1; (z.1, y.2 ||| z.2)) 0 0)
      ∧ (q.dfmt = fL16 →
          let v (l : Nat) : Flagged := l16.round q.subn (laneDir a q (q.rmOf m) l) (lgf.read (q.reg l m.va % 2 ^ 19))
          put 2 v (laneDraws q (q.rmOf m)) (if q.lanes = [] then 0 else rmFlag (q.rmOf m))))
    ∧ (m.op = 0x03 →
      let want := q.lanes.filter (fun l => q.reg l m.vc ≠ 0)
      want.length ≤ q.rcap - q.records →
      ∃ e q', Gives (.muOutr b r) d e ∧ q' = { q with upc := (q.upc + 1) % 2048, records := q.records + want.length }
        ∧ (let ws := want.zipIdx.flatMap (fun p =>
             writesAt (q.raddr + 8 + 8 * (q.records + p.2)) (leBytes 4 (q.reg p.1 m.va) ++ leBytes 4 (q.reg p.1 m.vb)))
           LanesMoved d b r o { o with rnl := some q', writes := o.writes ++ ws } q' 0 e))

/-- DONE ends the group and the next starts at the entry, the operation ending with its last group; a branch that holds goes to its
target, counting backward ones, and at the iteration cap a backward one is not taken but truncates the operation (R192, R196). -/
def Obligations.RunnelControlMovesTheMicroProgram : Prop :=
  ∀ (d : Dev) (b r : Nat) (a : Active) (o : Op) (q : RunnelOp) (m : Mop), AtMicroOp d b r a o q m →
    let t := bitsOf m.imm 10 0
    let some' := q.lanes.any (fun l => q.reg l m.vc != 0)
    let goes (c : Instr) (q' : RunnelOp) : Prop := ∃ e, Gives c d e ∧ LanesMoved d b r o { o with rnl := some q' } q' 0 e
    let next : RunnelOp := { q with upc := (q.upc + 1) % 2048 }
    let jump : RunnelOp := { q with upc := t, iters := if t ≤ q.upc then q.iters + 1 else q.iters }
    let mayJump := q.upc < t ∨ q.iters < q.icap
    (m.op = 0x04 → goes (.muDone b r) { q with upc := q.entry, group := q.group + 1, ended := decide (q.count ≤ 32 * (q.group + 1)) })
    ∧ (m.op = 0x38 → mayJump → goes (.muBr b r) jump)
    ∧ (m.op = 0x39 → some' = true → mayJump → goes (.muBany b r) jump)
    ∧ (m.op = 0x39 → some' = false → goes (.muBany b r) next)
    ∧ (m.op = 0x3A → some' = false → mayJump → goes (.muBnone b r) jump)
    ∧ (m.op = 0x3A → some' = true → goes (.muBnone b r) next)
    ∧ (m.op = 0x38 → t ≤ q.upc → q.icap ≤ q.iters → q.icapr = true → goes (.muBr b r) next)
    ∧ (m.op = 0x38 → t ≤ q.upc → q.icap ≤ q.iters → q.icapr = false →
        ∃ e a', Gives (.muBr b r) d e ∧ (e.basin b).eng.trunccnt = (d.basin b).eng.trunccnt + 1 ∧ (e.basin b).seq.active = some a'
          ∧ a'.trunc = true ∧ { o with rnl := some { next with icapr := true } } ∈ (e.basin b).seq.ops)

namespace Sys2Proof.Spec

/-- A controller's answer to a request at reservoir address `addr`. -/
def answered (d : Dev) (addr : Nat) (bs : List Byte) (denied : Bool) : Dev := d.emit (.reply (ctrlUnit addr) bs denied false false)

/-- Domain `dom` may reach the range, and no unit of it holds an error. -/
def Reaches (d : Dev) (dom a n : Nat) : Prop :=
  a + n ≤ 0x6000000000 ∧ d.rsv.owned dom a n = true ∧ d.rsv.poisoned a n = false ∧ unitsIn d.rsv.soft a n = []

/-- No 64 B data unit that a write of `n` bytes covers in part holds an error. -/
def Whole64 (d : Dev) (a n : Nat) : Prop := ∀ u ∈ d.rsv.poison ++ d.rsv.soft, u / 2 ∉ partUnits a n

/-- Domain `dom` owns the page of the byte at `p`. -/
def OwnsByte (d : Dev) (dom p : Nat) : Prop := d.rsv.ownedPage dom (p / 0x200000) = true

/-- Every controller has counted the denied granules of the range that are its own. -/
def DenialsCounted (d e : Dev) (dom a n : Nat) : Prop :=
  d.rsv.ctrls.length = 8 → ∀ k, k < 8 →
    (e.ctrl k).denycnt = (d.ctrl k).denycnt + BitVec.ofNat 64 ((d.rsv.foreign dom a n).filter (fun g => ctrlOf g == k)).length

end Sys2Proof.Spec

/-- A reservoir read answers the bytes of its range and a write stores its bytes and no other; where a request takes in pages that its
domain does not own, the read answers zeros for them, marked denied, the write stores nothing in them, and the controllers count each
granule denied (R223; a range of several granules counts each of them by the model's reading, notes/assumptions/95.md). -/
def Obligations.ReservoirAccessesReachOwnedPages : Prop :=
  ∀ (d : Dev) (src dom h addr n : Nat) (ep : W32) (bs : List Byte), Quiet d → d.epochOk src ep = true →
    (Reaches d dom addr n →
      Gives (.reservoirRead src ep dom h addr n) d (answered (d.setRsv (d.rsv.charge dom addr n)) addr (Mem.readBytes d.rsv.mem addr n) false))
    ∧ (addr + bs.length ≤ 0x6000000000 → d.rsv.owned dom addr bs.length = true → Whole64 d addr bs.length →
      ∃ e, Gives (.reservoirWrite src ep dom h addr bs) d e ∧ e = { d with rsv := e.rsv, out := e.out }
        ∧ (∀ i, i < bs.length → some (Mem.read e.rsv.mem (addr + i)) = bs[i]?)
        ∧ (∀ p, (p < addr ∨ addr + bs.length ≤ p) → Mem.read e.rsv.mem p = Mem.read d.rsv.mem p) ∧ e.rsv.pages = d.rsv.pages
        ∧ e.out = d.out ++ [.reply (ctrlUnit addr) [] false false false])
    ∧ (addr + n ≤ 0x6000000000 → d.rsv.owned dom addr n = false → d.rsv.poisoned addr n = false →
      ∃ e ans, Gives (.reservoirRead src ep dom h addr n) d e ∧ e.rsv.mem = d.rsv.mem ∧ e.basins = d.basins
        ∧ e.out.getLast? = some (.reply (ctrlUnit addr) ans true false false) ∧ ans.length = n
        ∧ (∀ i, i < n → (OwnsByte d dom (addr + i) → ans[i]? = some (Mem.read d.rsv.mem (addr + i)))
            ∧ (¬ OwnsByte d dom (addr + i) → ans[i]? = some 0))
        ∧ DenialsCounted d e dom addr n)
    ∧ (addr + bs.length ≤ 0x6000000000 → d.rsv.owned dom addr bs.length = false → Whole64 d addr bs.length →
      ∃ e, Gives (.reservoirWrite src ep dom h addr bs) d e ∧ e.basins = d.basins ∧ e.rsv.pages = d.rsv.pages
        ∧ (∀ p, (p < addr ∨ addr + bs.length ≤ p ∨ ¬ OwnsByte d dom p) → Mem.read e.rsv.mem p = Mem.read d.rsv.mem p)
        ∧ (∀ i, i < bs.length → OwnsByte d dom (addr + i) → some (Mem.read e.rsv.mem (addr + i)) = bs[i]?)
        ∧ DenialsCounted d e dom addr bs.length)

/-- FADD, CAS, SEMACQ and SEMREL act on the 8 B word as the table of R227 gives and return what it gives: FADD and CAS the old word, SEMACQ
the old word and its success, SEMREL its success alone, where success of an owner only is the model's reading (notes/assumptions/95.md).
A lease is compared as the slot start modulo 2^48 µs, and a takeover is counted; a word that is not aligned is an address error. -/
def Obligations.ReservoirAtomicsUpdateTheirWord : Prop :=
  ∀ (d : Dev) (src dom h addr : Nat) (ep : W32), Quiet d → d.epochOk src ep = true →
    (addr % 8 = 0 → Reaches d dom addr 8 → Whole64 d addr 8 → h / 65536 < 65536 →
      let w := Mem.readLe d.rsv.mem addr 8
      let start := d.slotStart / 1000 % 2 ^ 48
      let lease := h / 65536 * 2 ^ 48 + (d.slotStart + d.slen) / 1000 % 2 ^ 48
      let goal (c : Instr) (new : Nat) (ans : List Byte) (taken : Bool) : Prop :=
        ∃ e, Gives c d e ∧ e = { d with rsv := e.rsv, out := e.out } ∧ Mem.readLe e.rsv.mem addr 8 = new
          ∧ (∀ p, (p < addr ∨ addr + 8 ≤ p) → Mem.read e.rsv.mem p = Mem.read d.rsv.mem p)
          ∧ e.out = d.out ++ [.reply (ctrlUnit addr) ans false false false]
          ∧ (d.rsv.ctrls.length = 8 → (e.ctrl (ctrlOf addr)).leasecnt = (d.ctrl (ctrlOf addr)).leasecnt + (if taken then 1 else 0))
      (∀ v : W64, goal (.atomicFadd src ep dom h addr v) ((w + v.toNat) % 2 ^ 64) (leBytes 8 w) false)
      ∧ (∀ c v : W64, goal (.atomicCas src ep dom h addr c v) (if w = c.toNat then v.toNat else w) (leBytes 8 w) false)
      ∧ ((w = 0 ∨ w % 2 ^ 48 ≤ start) → goal (.semAcq src ep dom h addr) lease (leBytes 8 w ++ [1]) (decide (w ≠ 0)))
      ∧ (w ≠ 0 → start < w % 2 ^ 48 → goal (.semAcq src ep dom h addr) w (leBytes 8 w ++ [0]) false)
      ∧ (w / 2 ^ 48 = h / 65536 → goal (.semRel src ep dom h addr) 0 [1] false)
      ∧ (w / 2 ^ 48 ≠ h / 65536 → goal (.semRel src ep dom h addr) w [0] false))
    ∧ (addr % 8 ≠ 0 →
      let refused (c : Instr) : Prop := Gives c d (d.emit (.reply (ctrlUnit addr) [] false false true))
      (∀ v : W64, refused (.atomicFadd src ep dom h addr v)) ∧ (∀ c v : W64, refused (.atomicCas src ep dom h addr c v))
        ∧ refused (.semAcq src ep dom h addr) ∧ refused (.semRel src ep dom h addr))

/-- The first operation of a later slot on an amax ring commits the pending amax and derives CUR; a MERGE then raises PAMX, a GET
does not; either answers CUR. An invalid ring answers an error and a foreign one is denied, and both stay as they are (R157, R160, R223). -/
def Obligations.AmaxRingOperations : Prop :=
  ∀ (d : Dev) (ring dom ct amax : Nat), Quiet d →
    (d.ringOk dom ring = true →
      let h := ringOf d.rsv.mem ring
      let got (e : Dev) : Prop := let g := ringOf e.rsv.mem ring
        e = { d with rsv := { d.rsv with mem := e.rsv.mem, slotBytes := e.rsv.slotBytes }, out := e.out }
          ∧ e.out = d.out ++ [.reply (ctrlUnit ring) (leBytes 2 g.cur) false false false]
          ∧ (∀ p, (p < ring ∨ ring + 64 + 2 * h.len ≤ p) → Mem.read e.rsv.mem p = Mem.read d.rsv.mem p)
      (∃ e, Gives (.amaxGet ring dom ct) d e ∧ got e ∧ (ct ≤ h.slotct → ringOf e.rsv.mem ring = h)
        ∧ (h.slotct < ct → ct < 2 ^ 64 → (ringOf e.rsv.mem ring).slotct = ct ∧ (ringOf e.rsv.mem ring).pv = false
            ∧ (h.pv = true → (ringOf e.rsv.mem ring).commits = (h.commits + 1) % 2 ^ 32
                ∧ Mem.readLe e.rsv.mem (ring + 0x40 + 2 * h.head) 2 = h.pamx)))
      ∧ (amax < 65536 → ∃ e, Gives (.amaxMerge ring dom amax ct) d e ∧ got e ∧ (ringOf e.rsv.mem ring).pv = true
          ∧ (ct ≤ h.slotct → (ringOf e.rsv.mem ring).pamx = max h.pamx amax ∧ (ringOf e.rsv.mem ring).cur = h.cur)))
    ∧ (rsvPopulated ring 64 = false ∨ (d.rsv.owned dom ring 64 = true ∧ (ringOf d.rsv.mem ring).ok = false) →
      Gives (.amaxGet ring dom ct) d (d.emit (.reply (ctrlUnit ring) [] false false true))
      ∧ Gives (.amaxMerge ring dom amax ct) d (d.emit (.reply (ctrlUnit ring) [] false false true)))
    ∧ (rsvPopulated ring 64 = true → d.rsv.owned dom ring 64 = false →
      let denied (c : Instr) : Prop := ∃ e, Gives c d e ∧ e.rsv.mem = d.rsv.mem ∧ e.basins = d.basins ∧ DenialsCounted d e dom ring 64
        ∧ e.out.getLast? = some (.reply (ctrlUnit ring) [0, 0] true false false)
      denied (.amaxGet ring dom ct) ∧ denied (.amaxMerge ring dom amax ct))

/-- A read of another basin's cistern answers its bytes where the segment is open to the domain and nothing claims it for writing; a
packet for a fenced basin is counted, and a read is answered with an error (R206, R212, R216). -/
def Obligations.WeirRequestsAtABasin : Prop :=
  ∀ (d : Dev) (b src dom h addr n : Nat) (ep : W32) (read : Bool), Quiet d → b < 272 →
    let x := d.basin b
    let sunk (r : Bool) : Dev :=
      let e := d.putBasin b { x with cis := { x.cis with sinkcnt := x.cis.sinkcnt + 1 } }
      if r then e.emit (.reply b [] false false true) else e
    (x.cis.weirFenced = true → Gives (.routerSinkPacket b read) d (sunk read))
    ∧ (x.cis.weirFenced = true → Gives (.remoteCisternRead b src ep dom h addr n) d (sunk true))
    ∧ (x.cis.weirFenced = false → d.epochOk src ep = true → Clean d b → addr + n ≤ 0x400000 → x.openTo dom addr n = true →
        (∀ o ∈ x.seq.ops, ∀ k ∈ o.writeSegs, addr + n ≤ k * 65536 ∨ k * 65536 + 65536 ≤ addr) →
        Gives (.remoteCisternRead b src ep dom h addr n) d (d.emit (.reply b (Mem.readBytes x.store addr n) false false false)))
    ∧ (x.cis.weirFenced = false → d.epochOk src ep = true → addr + n ≤ 0x400000 → x.openTo dom addr n = false →
        Gives (.remoteCisternRead b src ep dom h addr n) d (d.emit (.reply b [] false false true)))

/-- The patrol scrubber corrects and counts a correctable word, reports an uncorrectable one and leaves it, faulting no run; in the
reservoir an uncorrectable unit becomes poisoned and is counted. A clean unit stays as it is, and an error that no read has met yet (the
operand's findings 3 and 4, notes/assumptions/95.md) only stands in its word (R205, R224). -/
def Obligations.ScrubbersReportTheirFindings : Prop :=
  ∀ (d : Dev) (b addr : Nat), Quiet d →
    (b < 272 → addr < 0x440000 →
      let w := addr / eccWidth addr * eccWidth addr
      let x := d.basin b
      (w ∉ x.cis.badWords → w ∉ x.cis.softWords → Gives (.cisternScrub b addr 0) d d)
      ∧ (let corrected (f : Nat) : Prop := ∃ e, Gives (.cisternScrub b addr f) d e ∧ (e.basin b).cis.cecnt = x.cis.cecnt + 1
            ∧ w ∉ (e.basin b).cis.softWords ∧ (e.basin b).store = x.store ∧ (e.basin b).seq = x.seq
         corrected 1 ∧ (w ∉ x.cis.badWords → w ∈ x.cis.softWords → corrected 0))
      ∧ (let reported (f : Nat) : Prop := ∃ e, Gives (.cisternScrub b addr f) d e ∧ w ∈ (e.basin b).cis.badWords
            ∧ (e.basin b).cis.lastUe = some w ∧ (e.basin b).cis.eccValid = true ∧ (e.basin b).store = x.store ∧ (e.basin b).seq = x.seq
            ∧ ∀ n, n ≠ b → e.basin n = d.basin n
         x.cis.lastUe ≠ some w → (d.mgmtView b).state ≠ 2 → x.cis.ueTimes = [] → reported 2 ∧ (w ∈ x.cis.badWords → reported 0))
      ∧ (∃ e, Gives (.cisternScrub b addr 3) d e ∧ w ∈ (e.basin b).cis.softWords ∧ e.out = d.out)
      ∧ (∃ e, Gives (.cisternScrub b addr 4) d e ∧ w ∈ (e.basin b).cis.badWords ∧ e.out = d.out))
    ∧ (addr < 0x6000000000 → d.rsv.ctrls.length = 8 → (d.ctrl (ctrlOf addr)).ueTimes = [] →
      let c := d.ctrl (ctrlOf addr)
      let u := addr / 32
      (u ∉ d.rsv.poison → u ∉ d.rsv.soft → Gives (.reservoirScrub addr 0) d d)
      ∧ (let corrected (f : Nat) : Prop := ∃ e, Gives (.reservoirScrub addr f) d e ∧ e = { d with rsv := e.rsv } ∧ u ∉ e.rsv.soft
            ∧ (e.ctrl (ctrlOf addr)).cecnt = c.cecnt + 1 ∧ e.rsv.mem = d.rsv.mem ∧ e.rsv.poison = d.rsv.poison
         corrected 1 ∧ (u ∉ d.rsv.poison → u ∈ d.rsv.soft → corrected 0))
      ∧ (let reported (f : Nat) : Prop := ∃ e, Gives (.reservoirScrub addr f) d e ∧ u ∈ e.rsv.poison ∧ e.rsv.mem = d.rsv.mem
            ∧ (e.ctrl (ctrlOf addr)).uecnt = c.uecnt + 1 ∧ (e.ctrl (ctrlOf addr)).eccValid = true
         reported 2 ∧ (u ∈ d.rsv.poison → reported 0))
      ∧ (∃ e, Gives (.reservoirScrub addr 3) d e ∧ e = { d with rsv := { d.rsv with soft := e.rsv.soft } } ∧ u ∈ e.rsv.soft)
      ∧ (∃ e, Gives (.reservoirScrub addr 4) d e ∧ e = { d with rsv := { d.rsv with poison := e.rsv.poison } } ∧ u ∈ e.rsv.poison))

/-- A fence stops its basin's run at once; 3 µs later, as the next command of the core finds, the basin is out of service under a new epoch,
its router sinks its traffic, and the spare of its row has its logical number where it was free. A planned fence does all that at its
frame boundary, and a restored spare is IN_SERVICE (R343 to R346, R350). -/
def Obligations.FencesMoveWorkToTheSpare : Prop :=
  ∀ (d : Dev) (b cause : Nat), d.coreOn = true → d.flt.fencing = [] → b < 272 →
    let row := b / 17
    let sp := row * 17 + 16
    let fenced (d e : Dev) : Prop :=
      e.mgmtView b = { epoch := (d.mgmtView b).epoch + 1, state := 2 } ∧ (e.basin b).ustate = 2 ∧ (e.basin b).epoch = (d.mgmtView b).epoch + 1
        ∧ e.epochOk b ((d.mgmtView b).epoch + 1) = true ∧ (e.basin b).logical = 0x1FF ∧ (e.basin b).cis.weirFenced = true
        ∧ e.flt.fencecnt = d.flt.fencecnt + 1 ∧ bitOf (Tab.at e.flt.rows {} row).fenced (b % 17) = true
        ∧ ∀ n, n ≠ b → n ≠ sp → e.basin n = d.basin n
    let moved (d e : Dev) (st : Nat) : Prop :=
      (Tab.at e.flt.rows {} row).spstate = st ∧ (Tab.at e.flt.rows {} row).fcol = b % 17 ∧ (e.basin sp).logical = (d.basin b).logical
    ((d.mgmtView b).state ≠ 2 →
      ∃ e, Gives (.basinFaultDetected b cause) d e ∧ (e.basin b).seq.active = none ∧ (∀ n, n ≠ b → e.basin n = d.basin n)
        ∧ ((d.basin b).seq.active.isSome = true → (e.basin b).seq.ops = [])
        ∧ e.flt.fencing = [{ basin := b, cls := 1, tf := d.ns, slot := d.slotStart, stage := 0 }])
    ∧ (∀ tf slot, tf + 3000 ≤ d.ns →
      let w := d.setFlt { d.flt with fencing := [{ basin := b, cls := 1, tf := tf, slot := slot, stage := 0 }] }
      fenced d w.due ∧ w.due.flt.fencing = [] ∧ (∀ u, u ∉ w.due.flt.reissueDue → Gives (.epochReissue u) w w.due)
        ∧ (b % 17 ≠ 16 → d.spareFree row = true → moved d w.due 1) ∧ (b % 17 = 16 → (Tab.at w.due.flt.rows {} row).spstate = 3))
    ∧ ((d.mgmtView b).state ≠ 2 → b ∈ d.flt.planned → ∃ e, Gives (.plannedFence b) d e ∧ fenced d e ∧ (e.basin b).seq.active = none
      ∧ d.cad.ct ≤ e.cad.ct ∧ b ∉ e.flt.planned ∧ (b % 17 ≠ 16 → d.spareFree row = true → moved d e 2))
    ∧ (∀ t, (Tab.at d.flt.rows {} row).spstate = 1 → (Tab.at d.flt.rows {} row).restoreEnd = some t →
      ∃ e, Gives (.spareRestoreDone row) d e ∧ (Tab.at e.flt.rows {} row).spstate = 2 ∧ (Tab.at e.flt.rows {} row).restoreEnd = none
        ∧ t * 65536 ≤ e.cad.ct ∧ e = { d with basins := e.basins, flt := e.flt, cad := e.cad, rsv := e.rsv } ∧ e.rsv.mem = d.rsv.mem
        ∧ ∀ n, n ≠ sp → e.basin n = d.basin n)

namespace Sys2Proof.Spec

/-- CT at `t` ns or now, whichever is later: what a command that happens at its due time leaves. -/
def ctAt (d : Dev) (t : Nat) : Nat := max d.cad.ct (t * 65536)

end Sys2Proof.Spec

/-- At the slot start after a disagreement a reissue puts the more restrictive of the two states in force in both views and in the check
tables under one new epoch, a unit that has changed in this slot waiting for the next; held traffic is served once its epoch matches,
atomics as atomics, else fails back at the end of the slot in which it came, and the run that sent it stops (R352, R353; the fault code 0x00
of that stop is the model's, notes/assumptions/98.md). -/
def Obligations.EpochDisagreementsAreResolved : Prop :=
  ∀ (d : Dev) (u : Nat), Quiet d →
    (u ∈ d.flt.reissueDue → u ∉ d.flt.changed →
      let v : View := { epoch := (d.mgmtView u).epoch + 1, state := max (d.mgmtView u).state (d.ownView u).state }
      ∃ e, Gives (.epochReissue u) d e ∧ e.mgmtView u = v ∧ e.ownView u = v ∧ e.epochOk u v.epoch = true ∧ u ∉ e.flt.reissueDue
        ∧ e = { d with basins := e.basins, flt := e.flt } ∧ ∀ n, n ≠ u → e.basin n = d.basin n)
    ∧ (u ∈ d.flt.reissueDue → u ∈ d.flt.changed → max (d.mgmtView u).state (d.ownView u).state ≠ 2 →
      ∃ e, Gives (.epochReissue u) d e ∧ u ∈ e.flt.reissue ∧ u ∉ e.flt.reissueDue ∧ e.mgmtView u = d.mgmtView u ∧ e.basins = d.basins)
    ∧ (∀ q, d.flt.quar = [q] → q.src = u → d.epochOk u (BitVec.ofNat 32 q.epoch) = true → 0x1F8 ≤ q.recv → q.atomic = none →
      let e := d.setFlt { d.flt with quar := [] }
      (q.write = false → q.len ≠ 0 → Reaches d q.domain q.addr q.len →
        Gives (.quarantineRelease u) d (answered (e.setRsv (d.rsv.charge q.domain q.addr q.len)) q.addr (Mem.readBytes d.rsv.mem q.addr q.len) false))
      ∧ (q.write = true → q.addr + q.bytes.length ≤ 0x6000000000 → d.rsv.owned q.domain q.addr q.bytes.length = true →
          Whole64 d q.addr q.bytes.length →
        ∃ f, Gives (.quarantineRelease u) d f ∧ f.flt.quar = [] ∧ ∀ i, i < q.bytes.length → some (Mem.read f.rsv.mem (q.addr + i)) = q.bytes[i]?))
    ∧ (∀ q k, d.flt.quar = [q] → q.src = u → d.epochOk u (BitVec.ofNat 32 q.epoch) = true → q.atomic = some k →
      Gives (.quarantineRelease u) d ((d.setFlt { d.flt with quar := [] }).atomic q.domain q.handle q.addr k))
    ∧ (∀ q a, d.flt.quar = [q] → q.src = u → d.epochOk u (BitVec.ofNat 32 q.epoch) = false → (d.mgmtView u).state ≠ 2 → u < 272 →
        (d.basin u).seq.active = some a → a.epoch = BitVec.ofNat 32 q.epoch →
      ∃ e, Gives (.quarantineFailback u) d e ∧ e.flt.quar = [] ∧ (e.basin u).seq.active = none ∧ (e.basin u).seq.ops = []
        ∧ (e.basin u).seq.fault = { code := 0, pc := q.pc } ∧ e.rsv.pages = d.rsv.pages
        ∧ (q.write = false → (.reply q.recv [] false false true) ∈ e.out)
        ∧ (q.slot = d.slotStart → ctAt d (d.slotStart + d.slen) ≤ e.cad.ct))

namespace Sys2Proof.Spec

/-- The slot strobe that is due: the active table, the slot's number within it, and nothing that must come first. -/
def StrobeDue (d : Dev) (m : Readings) (t : Table) (a : Nat) : Prop :=
  d.coreOn = true ∧ d.flt.fencing = [] ∧ d.cad.activeTable = some t ∧ 0 < t.slen ∧ 0 < t.nslot ∧ a = d.nextSlot t ∧ d.cad.swapAt = none ∧ d.cad.stepPend = none
    ∧ m.avsOk = true

/-- Basin `b`'s next run starts: delivered first, nothing runs there, both views in service, no fence under way, and it is no TAKE run. -/
def StartDue (d : Dev) (b : Nat) (r : Run) (rest : List Run) : Prop :=
  d.coreOn = true ∧ d.flt.fencing = [] ∧ b < 272 ∧ (d.basin b).delivered = r :: rest ∧ (d.basin b).seq.active = none ∧ d.restoring b = false
    ∧ d.mgmtView b = d.ownView b ∧ (d.mgmtView b).state = 0 ∧ r.take = false

/-- What a run finds on its basin: its registers, its region, its segments tagged to its domain, and nothing of an earlier run. -/
def RunBegun (d : Dev) (b : Nat) (r : Run) (e : Dev) : Prop :=
  let x := d.basin b
  let y := e.basin b
  (∃ a, y.seq.active = some a ∧ a.run = r ∧ a.start = r.tstart ∧ a.fin = r.tend ∧ a.ended = false ∧ a.nextSeq = 0 ∧ a.epoch = x.epoch ∧ a.slotCt = d.slotStart)
    ∧ y.seq.pc = r.entry.getD 0 ∧ y.seq.base = r.base ∧ y.seq.limit = r.limit ∧ y.seq.ops = [] ∧ y.seq.held = none
    ∧ y.seq.fault = { code := 0, pc := 0 } ∧ y.flags = EngineFlags.reset
    ∧ sreg e b 1 = BitVec.ofNat 32 r.handle ∧ sreg e b 2 = BitVec.ofNat 32 r.planStep ∧ sreg e b 3 = BitVec.ofNat 32 d.cad.slot
    ∧ (∀ k, 3 < k → sreg e b k = 0)
    ∧ (∀ k, k < 64 → bitOf r.segs k = true → Tab.at y.tags SegTag.reset k =
        (let t := Tab.at x.tags SegTag.reset k
         if t.valid && t.domain == r.domain then t else { valid := true, zeroing := false, domain := r.domain }))
    ∧ (∀ k, bitOf r.segs k = false → Tab.at y.tags SegTag.reset k = Tab.at x.tags SegTag.reset k)
    ∧ (∀ k p, k < 64 → bitOf r.segs k = true → k * 65536 ≤ p → p < k * 65536 + 65536 →
        Mem.read y.store p = (let t := Tab.at x.tags SegTag.reset k
                              if t.valid && t.domain == r.domain then Mem.read x.store p else 0))

end Sys2Proof.Spec

/-- A slot strobe moves to the next slot of the table at its start and loads the slot's budgets; the runs delivered during the slot before
become those that its basins start, and where that slot delivered none, the slot's own runs are delivered now; the runs of the slot after
it are delivered in their turn (R225, R239, R240). -/
def Obligations.SlotStrobesDeliverTheSlot : Prop :=
  ∀ (d : Dev) (m : Readings) (t : Table) (a : Nat), StrobeDue d m t a →
    let k := a % t.nslot
    let start := t.fstart + a * t.slen
    ∃ e, Gives (.slotStrobe m) d e ∧ ctAt d start ≤ e.cad.ct ∧ e.cad.slot = k ∧ e.cad.frameInTable = a / t.nslot ∧ e.cad.strobed = true
      ∧ (∀ n, n < d.rsv.ctrls.length → (e.ctrl n).used = [])
      ∧ (d.cad.ahead = some (d.cad.copy, a) → (∀ n, (Tab.find? d.basins n).isSome = true → (e.basin n).delivered = (d.basin n).coming)
          ∧ e.cad.absent = d.cad.absentNext)
      ∧ (d.cad.ahead ≠ some (d.cad.copy, a) → d.cad.holdUntil ≤ start →
          (∀ r ∈ Tab.at t.runs [] k, ∀ b, d.physOf r.lbasin = some b → r ∈ (e.basin b).delivered)
          ∧ (∀ r ∈ Tab.at t.runs [] k, d.physOf r.lbasin = none → r ∈ e.cad.absent))
      ∧ (d.cad.holdUntil ≤ start + t.slen →
          (∀ r ∈ Tab.at t.runs [] ((a + 1) % t.nslot), ∀ b, d.physOf r.lbasin = some b → r ∈ (e.basin b).coming)
          ∧ (∀ r ∈ Tab.at t.runs [] ((a + 1) % t.nslot), d.physOf r.lbasin = none → r ∈ e.cad.absentNext))

/-- A swap puts the shadow copy in force at its boundary and leaves the other copy empty; streams it does not name become IDLE and
lose what they have queued; basins go on untouched (R245, R252). A time step moves CT and the frame at the frame boundary and ends
any slewing (R237). A run starts at its offset with its registers, region and tags set and foreign segments zeroed; where the two views of its basin
differ it does not start, and the disagreement is counted and reported for reissue; a run of an absent basin fails its period with
0x0200 (R23, R32, R106, R207, R352). -/
def Obligations.SwapsStepsAndRunsStartAtTheirTime : Prop :=
  ((∀ (d : Dev) (w : Nat), Quiet d → d.cad.swapAt = some w → d.cad.stepPend = none → d.cad.copy ≤ 1 →
      let c := d.cad
      ∃ e, Gives .tableSwap d e ∧ e.cad.ct = ctAt d w ∧ e.cad.copy = 1 - c.copy ∧ e.cad.active = true ∧ e.cad.slot = 0 ∧ e.cad.frameInTable = 0
        ∧ e.cad.swapAt = none ∧ e.cad.swapcnt = c.swapcnt + 1 ∧ e.cad.table c.copy = none ∧ e.cad.table (1 - c.copy) = c.table (1 - c.copy)
        ∧ e.basins = d.basins ∧ e.rsv = d.rsv ∧ e.domains = d.domains
        ∧ (∀ i, (d.stream i).state = 2 ∨ (d.stream i).state = 3 →
            handleOf i (d.stream i) ∉ ((c.table (1 - c.copy)).getD {}).handles → (Tab.find? d.streams i).isSome = true →
            (e.stream i).state = 1 ∧ (e.stream i).descs = []
              ∧ (e.stream i).nmiss = (d.stream i).nmiss + BitVec.ofNat 64 (d.stream i).descs.length))
    ∧ (∀ (d : Dev) (n : Int) (t : Table), Quiet d → d.cad.stepPend = some n → d.cad.activeTable = some t → d.cad.swapAt = none →
      ∃ e, Gives .timeStepApply d e ∧ (∀ b, (e.basin b).store = (d.basin b).store ∧ (e.basin b).seq = (d.basin b).seq)
        ∧ e.rsv.mem = d.rsv.mem ∧ e.hostMem = d.hostMem ∧ e.out = d.out ∧ e.cad.ct = ((ctAt d d.nextFrame : Int) + n * 65536).toNat ∧ e.cad.slew = 0
        ∧ e.cad.diverged = false ∧ e.cad.stepPend = none ∧ e.cad.frameInTable = d.cad.frameInTable + 1 ∧ e.cad.slot = 0
        ∧ e.cad.activeTable = some { t with fstart := ((t.fstart : Int) + n).toNat }))
  ∧ (∀ (d : Dev) (b : Nat) (r : Run) (rest : List Run),
      (StartDue d b r rest → d.works r = true →
        ∃ e, Gives (.runStart b) d e ∧ e.cad.ct = ctAt d (d.slotStart + r.tstart) ∧ (e.basin b).delivered = rest ∧ RunBegun d b r e
          ∧ e = { d with basins := e.basins, cad := e.cad, trains := e.trains } ∧ ∀ n, n ≠ b → e.basin n = d.basin n)
      ∧ (d.coreOn = true → d.flt.fencing = [] → b < 272 → (d.basin b).delivered = r :: rest → (d.basin b).seq.active = none → d.restoring b = false →
          d.mgmtView b ≠ d.ownView b → r.take = false → r.post = false →
        ∃ e, Gives (.runStart b) d e ∧ (e.basin b).seq.active = none ∧ (e.basin b).delivered = rest ∧ e.flt.epochev = d.flt.epochev + 1
          ∧ b ∈ e.flt.reissue ∧ (∀ n, n ≠ b → e.basin n = d.basin n)
          ∧ (r.entry.isSome = true → (d.stream (r.handle / 65536)).gen = r.handle % 65536 →
              ∀ p, (d.stream (r.handle / 65536)).period = some p → p.fail = 0 →
                ((e.stream (r.handle / 65536)).period.map Period.fail) = some 0x300))
      ∧ (∀ l, Quiet d → d.cad.absent.filter (fun q => q.lbasin == l) = r :: rest → r.take = false → r.post = false →
        ∃ e, Gives (.runStart (272 + l)) d e ∧ e.cad.absent = d.cad.absent.erase r ∧ e.basins = d.basins
          ∧ e.cad.ct = ctAt d (d.slotStart + r.tstart)
          ∧ (r.entry.isSome = true → (d.stream (r.handle / 65536)).gen = r.handle % 65536 →
              ∀ p, (d.stream (r.handle / 65536)).period = some p → p.fail = 0 →
                ((e.stream (r.handle / 65536)).period.map Period.fail) = some 0x200)))

/-- A run still executing at its end offset stops with code 0x08 and is counted; a run whose END has issued and whose operations
have retired ends, its flags and counts merged into its stream and its engine words cleared (R34, R82, R110, R142). -/
def Obligations.RunsEndAndMergeTheirFlags : Prop :=
  ∀ (d : Dev) (b : Nat) (a : Active), Quiet d → (d.basin b).seq.active = some a →
    (∃ e, Gives (.runEndOffset b) d e ∧ e.cad.ct = ctAt d (a.slotCt + a.fin) ∧ (e.basin b).seq.active = none ∧ (e.basin b).seq.ops = []
      ∧ (e.basin b).seq.fault = { code := 8, pc := (d.basin b).seq.pc } ∧ e.cad.ovrcnt = d.cad.ovrcnt + 1
      ∧ (e.basin b).store = (d.basin b).store ∧ ∀ n, n ≠ b → e.basin n = d.basin n)
    ∧ (a.ended = true → (d.basin b).seq.ops = [] → d.cad.ct ≤ (a.slotCt + a.fin) * 65536 → a.run.post = false →
      let i := runIndex a.run
      let s := d.stream i
      ∃ e, Gives (.runFlagMerge b) d e ∧ (e.basin b).seq.active = none ∧ (e.basin b).flags = EngineFlags.reset
        ∧ (e.basin b).seq.fault = (d.basin b).seq.fault ∧ (e.basin b).store = (d.basin b).store ∧ (∀ n, n ≠ b → e.basin n = d.basin n)
        ∧ (∀ p ∈ (e.basin b).partials, p.handle ≠ a.run.handle)
        ∧ (a.run.entry.isSome = true → handleOf i s = a.run.handle →
            (e.stream i).flags = s.flags ||| (d.basin b).flags.sum ∧ (e.stream i).novf = min (2 ^ 64 - 1) (s.novf + a.novf)
              ∧ (e.stream i).nsat = min (2 ^ 64 - 1) (s.nsat + a.nsat) ∧ (e.stream i).novb = s.novb + BitVec.ofNat 32 a.novb))

/-- The spare replays the first run that a fence stopped, within the reserve, and counts it; one that would not end by the slot's end
is not replayed (R347). -/
def Obligations.ReplaysRunInTheReserve : Prop :=
  ∀ (d : Dev) (b l : Nat) (r : Run) (rest : List (Nat × Run)), d.coreOn = true → d.flt.fencing = [] → b < 272 → d.flt.replays = (l, r) :: rest →
    (d.basin b).logical = l → (d.basin b).seq.active = none → d.restoring b = false → Tab.at d.flt.replayAt (limTenths d.slen) l = limTenths d.slen →
    r.segs = 0 → r.apseg = 0 →
    let start := limTenths d.slen + 2000
    let fin := start + (r.tend - r.tstart) * 10
    (fin ≤ effTenths d.slen → d.works r = true →
      ∃ e a, Gives (.replayStart b) d e ∧ (e.basin b).seq.active = some a ∧ a.run = r ∧ a.start = start / 10 ∧ a.fin = fin / 10
        ∧ e.flt.replays = rest ∧ e.flt.replaycnt = d.flt.replaycnt + 1 ∧ e.cad.ct = ctAt d (d.slotStart + start / 10)
        ∧ (e.basin b).seq.pc = r.entry.getD 0)
    ∧ (effTenths d.slen < fin → r.post = false → ∃ e, Gives (.replayStart b) d e ∧ (e.basin b).seq.active = none ∧ e.flt.replays = rest
        ∧ e.flt.replaycnt = d.flt.replaycnt)

/-- A doorbell that names its stream sets SQTAIL and CQHEAD; any other is counted as rejected and changes no ring (R254, R365). -/
def Obligations.DoorbellsMoveTheRingIndices : Prop :=
  ∀ (d : Dev) (f i : Nat) (v : W64), Quiet d → i < 0x10000 →
    (d.doorbellOk f i v.toNat = true →
      Gives (.doorbell f (0x80000 + 8 * i) 8 v) d (d.putStream i
        { d.stream i with sqTail := v.toNat % 4096, cqHead := v.toNat / 65536 % 4096, dbCt := d.cad.ct }))
    ∧ (d.doorbellOk f i v.toNat = false →
      ∃ e, Gives (.doorbell f (0x80000 + 8 * i) 8 v) d e ∧ e.hw.dbrej = d.hw.dbrej + 1 ∧ (∀ n, (e.stream n).sqTail = (d.stream n).sqTail)
        ∧ (∀ n, (e.stream n).cqHead = (d.stream n).cqHead) ∧ e.hostMem = d.hostMem)
    ∧ (∀ w, w ≠ 8 → Gives (.doorbell f (0x80000 + 8 * i) w v) d (d.setHw { d.hw with dbrej := d.hw.dbrej + 1 }))

/-- A pending entry of an ADMITTED stream is fetched into a free ingress slot; its frame lands there and the arrival is stamped; a
failed read, or a bad entry, ends in an error completion without a run (R253, R255, R368). -/
def Obligations.SubmissionsAreFetchedAndLand : Prop :=
  ∀ (d : Dev) (i : Nat), Quiet d →
    let s := d.stream i
    (∀ entry ib, s.state = 2 → s.role = 0 → s.sqHead ≠ s.sqTail → (∀ x ∈ s.descs, x.arr.isSome = true) → s.freeIb = some ib → s.standby = false →
      entryBad s entry (descOf entry s.sqHead ib) = false →
      Gives (.submissionFetch i true entry) d
        (d.putStream i { s with sqHead := (s.sqHead + 1) % 2 ^ s.sqLog, descs := s.descs ++ [descOf entry s.sqHead ib] }))
    ∧ (∀ x data, s.inFlight = some x → data.length = x.len → s.mirror = 0 →
        let at' := s.ibuf + x.ib * s.slotkb * 1024
        at' + data.length ≤ 0x6000000000 → d.rsv.owned s.domain at' data.length = true → Whole64 d at' data.length →
      ∃ e, Gives (.frameArrival i data) d e ∧ (e.stream i).lastarr = d.ns
        ∧ (e.stream i).descs = s.descs.map (fun z => if z.arr.isNone then { x with arr := some d.cad.ct } else z)
        ∧ (∀ k, k < data.length → some (Mem.read e.rsv.mem (at' + k)) = data[k]?)
        ∧ (∀ p, (p < at' ∨ at' + data.length ≤ p) → Mem.read e.rsv.mem p = Mem.read d.rsv.mem p) ∧ e.basins = d.basins)
    ∧ (∀ x, s.inFlight = some x → s.standby = false → ringFull s = false → (d.domain s.domain).bind = none →
      ∃ e, Gives (.ingressReadFailure i) d e ∧ (e.stream i).descs = s.descs.filter (fun z => z.arr.isSome)
        ∧ (e.stream i).cqTail = (s.cqTail + 1) % 2 ^ s.cqLog ∧ (e.stream i).nerr = s.nerr + 1 ∧ (e.stream i).ncpl = s.ncpl + 1
        ∧ Mem.readLe e.hostMem (s.cqbase + 32 * s.cqTail + 4) 4 = (s.cqPhase + bit01 (s.flags ≠ 0) * 4 + s.lost * 256 + 0x500 * 65536) % 2 ^ 32
        ∧ Mem.readLe e.hostMem (s.cqbase + 32 * s.cqTail) 4 = x.seq % 2 ^ 32)

/-- A period that ended well posts its output and then its completion, at its time; a failed one completes with its first failure at its
deadline; a full completion ring is never overwritten, and the loss is counted (R257 to R259, R464). -/
def Obligations.PeriodsPostTheirCompletion : Prop :=
  ∀ (d : Dev) (i : Nat) (p : Period) (x : Desc), Quiet d → p.desc = some x → d.train i = none →
    let s := d.stream i
    s.role = 0 → s.mirror = 0 → (d.domain s.domain).bind = none →
    let n := (p.out x).1
    let entry := s.cqbase + 32 * s.cqTail
    let ok := s.due.find? (fun q => q.fail == 0) = some p
    let bad := s.period = none ∧ s.due.find? (fun q => q.fail != 0) = some p
    (ok → ringFull s = false → Reaches d s.domain s.obuf n → (x.outaddr + n ≤ entry ∨ entry + 32 ≤ x.outaddr) →
      ∃ e, Gives (.posting i) d e ∧ e.cad.ct = ctAt d (s.postTime p n) ∧ (e.stream i).due = s.due.erase p ∧ (e.stream i).ncpl = s.ncpl + 1
        ∧ (e.stream i).cqTail = (s.cqTail + 1) % 2 ^ s.cqLog ∧ Mem.readBytes e.hostMem x.outaddr n = Mem.readBytes d.rsv.mem s.obuf n
        ∧ Mem.readLe e.hostMem (entry + 4) 4 = cstatOf s p (p.out x).2 % 2 ^ 32 ∧ Mem.readLe e.hostMem (entry + 8) 8 = x.cookie % 2 ^ 64
        ∧ e.rsv.mem = d.rsv.mem ∧ e.basins = d.basins)
    ∧ (ok → ringFull s = true → Reaches d s.domain s.obuf n →
      ∃ e, Gives (.posting i) d e ∧ (e.stream i).nlost = s.nlost + 1 ∧ (e.stream i).cqTail = s.cqTail ∧ (e.stream i).ncpl = s.ncpl
        ∧ ∀ q, (q < x.outaddr ∨ x.outaddr + n ≤ q) → Mem.read e.hostMem q = Mem.read d.hostMem q)
    ∧ (bad → ringFull s = false →
      ∃ e, Gives (.failedPeriodCompletion i) d e ∧ e.cad.ct = ctAt d p.deadline ∧ (e.stream i).due = s.due.erase p
        ∧ (e.stream i).nerr = s.nerr + 1 ∧ Mem.readLe e.hostMem (entry + 4) 4 = cstatOf s p p.fail % 2 ^ 32
        ∧ Mem.readLe e.hostMem (entry + 16) 8 = (p.postCt.getD (ctAt d p.deadline / 65536)) % 2 ^ 64
        ∧ ∀ q, (q < entry ∨ entry + 32 ≤ q) → Mem.read e.hostMem q = Mem.read d.hostMem q)

namespace Sys2Proof.Spec

/-- From `d` to `e`, only the cadence unit, the monitors, the headworks' record of PTM, link time, and what an event writes have
changed. -/
def TimeOnly (d e : Dev) : Prop :=
  e = { d with cad := e.cad, md := e.md, hw := e.hw, link := e.link, funcs := e.funcs, fh := e.fh, hostMem := e.hostMem, out := e.out }

/-- One second and one nanosecond of CT, in its unit of 2^-16 ns. -/
def tSec : Int := 65536000000000
def tNs : Int := 65536

end Sys2Proof.Spec

/-- PPS_IN qualifies on an edge, locks on the eighth labelled edge in a row within 20 ns after four good spacings, is then selected
before every other source, and CT slews toward it; losing its edges or its reference a LOCKED source is LOST, and back with the reference
it qualifies again. PTM locks on the sixteenth dialogue in a row within 100 ns, none missing between them (two intervals without one break
the row, the model's choice, notes/assumptions/97.md), and a failed dialogue breaks the row; PTM and rill go LOST when they are not heard
for 500 ms and 10 ms, and what only qualified starts its row afresh; HOLDEST past HOLDLIM is reported once (R234 to R238). -/
def Obligations.TimeSourcesLockAndAreLost : Prop :=
  (∀ (d : Dev) (cycles sec : Nat), d.timeOn = true →
      let c := d.cad
      let s := c.pps
      let err : Int := (sec : Int) * tSec - (c.ct : Int)
      (s.state = 0 ∨ s.state = 3 → d.md.refok = true →
        ∃ e, Gives (.ppsEdge cycles) d e ∧ e.cad.pps.state = 1 ∧ e.md.ppsLast = some c.ct ∧ TimeOnly d e)
      ∧ (s.state = 1 → s.spaced = 3 → s.good = 7 → s.last.isSome = true → d.md.refok = true → 9999999 ≤ cycles → cycles ≤ 10000001 →
          c.ptm.state ≠ 2 → c.label = some sec → -(20 * tNs) < err → err < 20 * tNs →
        ∃ e, Gives (.ppsEdge cycles) d e ∧ e.cad.pps.state = 2 ∧ e.cad.sel = 1 ∧ e.cad.dev = 1 ∧ e.cad.slew = err ∧ e.cad.ct = c.ct
          ∧ e.cad.label = some (sec + 1) ∧ e.cad.pherr = err / 65536 ∧ TimeOnly d e)
      ∧ (∀ t, s.state = 2 → s.last = some t → c.ptm.state ≠ 2 → c.rill.state ≠ 2 → c.dev = 1 →
        let due := ctAt d (t / 65536 + 1500000000)
        ∃ e, Gives .ppsTimeout d e ∧ e.cad.pps.state = 3 ∧ e.cad.ct = due ∧ e.cad.dev = 2 ∧ e.cad.sel = 0 ∧ e.cad.holdStart = some due
          ∧ e.cad.slew = 0 ∧ e.cad.label = none ∧ TimeOnly d e)
      ∧ (s.state = 1 ∨ s.state = 2 → ∃ e, Gives .refclkLoss d e ∧ e.md.refok = false ∧ e.cad.pps.state = (if s.state = 2 then 3 else 1)
          ∧ e.cad.pps.good = 0 ∧ e.cad.pps.spaced = 0 ∧ e.cad.ct = c.ct ∧ TimeOnly d e)
      ∧ (s.state = 3 → ∃ e, Gives .refclkReturn d e ∧ e.md.refok = true ∧ e.cad.pps.state = 1 ∧ TimeOnly d e)
      ∧ (s.state ≠ 3 → Gives .refclkReturn d (d.setMd { d.md with refok := true })))
  ∧ (∀ (d : Dev) (master : Nat), 
      let c := d.cad
      let err : Int := (master : Int) - (c.ct : Int)
      (∀ t, d.ptmOn = true → c.ptm.state = 1 → c.ptm.good = 15 → c.ptm.last = some t → c.ct < t + 20000000 * 65536 → c.pps.state ≠ 2 →
          -(100 * tNs) < err → err < 100 * tNs →
        ∃ e, Gives (.ptmDialogue true master) d e ∧ e.cad.ptm.state = 2 ∧ e.cad.sel = 2 ∧ e.cad.dev = 1 ∧ e.cad.slew = err ∧ e.cad.ct = c.ct
          ∧ e.hw.lastPtm = some d.ns ∧ TimeOnly d e)
      ∧ (d.ptmOn = true → c.ptm.state = 1 →
        Gives (.ptmDialogue false master) d (d.setCad { c with ptm := { c.ptm with good := 0 } }))
      ∧ (∀ t, d.timeOn = true → c.ptm.state = 1 ∨ c.ptm.state = 2 → c.ptm.last = some t →
        ∃ e, Gives .ptmTimeout d e ∧ e.cad.ptm.state = (if c.ptm.state = 2 then 3 else 1) ∧ e.cad.ptm.good = 0
          ∧ e.cad.ct = ctAt d (t / 65536 + 500000000) ∧ TimeOnly d e)
      ∧ (∀ t, d.timeOn = true → c.rill.state = 1 ∨ c.rill.state = 2 → c.rill.last = some t →
        ∃ e, Gives .rillTimeTimeout d e ∧ e.cad.rill.state = (if c.rill.state = 2 then 3 else 1) ∧ e.cad.rill.good = 0
          ∧ e.cad.ct = ctAt d (t / 65536 + 10000000) ∧ TimeOnly d e)
      ∧ (∀ t, d.timeOn = true → c.holdStart = some t → c.holdReported = false →
        ∃ e, Gives .holdlimExceeded d e ∧ e.cad.holdReported = true ∧ e.cad.ct = ctAt d (t / 65536 + (c.holdlim.toNat + 1) * 10000000)
          ∧ TimeOnly d e))

namespace Sys2Proof.Spec

/-- A frame arrives on an UP rill port that waits for nothing; the frame acknowledges nothing new and returns no credits. -/
def InOrder (d : Dev) (p : Nat) (f : Frame) : Prop :=
  Quiet d ∧ p < 4 ∧ (d.port p).state = 3 ∧ (d.port p).replay = [] ∧ (d.port p).queue = [] ∧ (d.port p).txctr.toNat < 2 ^ 62
    ∧ (d.port p).credits.length = 4 ∧ (d.port p).freed.length = 4 ∧ f.cred = [0, 0, 0, 0] ∧ f.cls < 4

/-- A good frame arrives so: every codeword decodes and the tag verifies. -/
def Good (d : Dev) (a : Arrival) : Prop := InOrder d a.port a.frame ∧ a.fec = {} ∧ a.tagOk = true

/-- A command sends one frame `f` on port `p`, with its bytes on the lanes, and no other message. -/
def Sends (d e : Dev) (p : Nat) (f : Frame) : Prop := ∃ w, e.out = d.out ++ [.frame p f w]

end Sys2Proof.Spec

/-- A read of CAD_CT's low word latches the high word and the fraction (R267). The master sends SYNC and FOLLOW on each port every
millisecond; the slave stamps SYNC and answers DREQ, the master DRESP, and an exchange with a LOCKED master at most 63 hops away moves the
rill source by the offset of R316; one with another master breaks the row (R315, R316). -/
def Obligations.TimeIsExchangedOverTheRill : Prop :=
  (∀ d : Dev, Quiet d →
    Gives .cadCtLowRead d (d.setCad { d.cad with latchHigh := some (d.cad.ct / 65536 / 2 ^ 32 % 2 ^ 32), latchFrac := some (d.cad.ct % 65536),
                                                 sawHigh := false, sawFrac := false }))
  ∧ (∀ (d : Dev) (p : Nat), Quiet d → p < 4 → bitOf d.link.fwd p = true → (d.port p).state = 3 → d.givesTime = true →
      (d.port p).txctr.toNat < 2 ^ 62 - 1 →
      ∃ e f g v w, Gives (.timeSyncSend p) d e ∧ e.cad.ct = ctAt d ((d.port p).lastSync + 1000000)
        ∧ e.out = d.out ++ [.frame p f v, .frame p g w] ∧ f.type = 3 ∧ f.tsub = 0 ∧ g.type = 3 ∧ g.tsub = 1 ∧ g.payload.length = 13
        ∧ (e.port p).lastSync = ctAt d ((d.port p).lastSync + 1000000) / 65536 ∧ (e.port p).txctr = (d.port p).txctr + 2
        ∧ e = { d with ports := e.ports, cad := e.cad, out := e.out })
  ∧ (∀ (d : Dev) (a : Arrival), Good d a →
      let p := a.port
      let t := d.cad.ct / 16384 * 16384
      let taken (e : Dev) : Prop := (e.port p).rxfrm = (d.port p).rxfrm + 1 ∧ (e.port p).lastRx = d.ns
      (bitOf d.link.fwd p = true → d.givesTime = true →
        ∃ e f, Gives (.dreqFrame a) d e ∧ Sends d e p f ∧ f.type = 3 ∧ f.tsub = 3 ∧ f.payload = leBytes 8 (t / 65536) ++ leBytes 2 (t % 65536)
          ∧ taken e ∧ e = { d with ports := e.ports, out := e.out })
      ∧ (d.slaveOn p = true →
        (∃ e f, Gives (.syncFrame a) d e ∧ e.link.t2 = some t ∧ e.link.t3 = some t ∧ Sends d e p f ∧ f.type = 3 ∧ f.tsub = 2
          ∧ taken e ∧ e = { d with ports := e.ports, link := e.link, out := e.out })
        ∧ (∀ t1 locked hops, ∃ e, Gives (.followFrame a t1 locked hops) d e ∧ taken e
          ∧ e = { d with ports := e.ports, link := { d.link with t1 := some (t1 / 16384 * 16384), masterOk := locked && decide (hops ≤ 63), hops := hops } })
        ∧ (∀ t1 t2 t3 t4, d.link.t1 = some t1 → d.link.t2 = some t2 → d.link.t3 = some t3 →
            let off : Int := (((t2 : Int) - t1) - (((t4 / 16384 * 16384 : Nat) : Int) - t3) - signedOf 16 (d.port p).asym * 65536) / 2
            (∀ last, d.link.masterOk = true → d.cad.rill.state = 1 → d.cad.rill.good = 63 → d.cad.rill.last = some last →
              d.cad.ct < last + 2000000 * 65536 → d.cad.pps.state ≠ 2 → d.cad.ptm.state ≠ 2 → -(50 * tNs) < off → off < 50 * tNs →
              ∃ e, Gives (.drespFrame a t4) d e ∧ e.cad.rill.state = 2 ∧ e.cad.sel = 3 ∧ e.cad.dev = 1 ∧ e.cad.slew = -off ∧ e.link.t1 = none
                ∧ taken e ∧ TimeOnly (d.setPorts e.ports) e)
            ∧ (d.link.masterOk = false → d.cad.rill.state = 1 →
              ∃ e, Gives (.drespFrame a t4) d e ∧ e.cad.rill = { d.cad.rill with good := 0 } ∧ e.link.t1 = none ∧ taken e
                ∧ TimeOnly (d.setPorts e.ports) e))))

namespace Sys2Proof.Spec

/-- From `d` to `e`, only ports, the messages sent and what an event writes have changed. -/
def LinkOnly (d e : Dev) : Prop :=
  e = { d with ports := e.ports, out := e.out, funcs := e.funcs, fh := e.fh, hostMem := e.hostMem, cad := e.cad, free := e.free }
    ∧ e.cad = { d.cad with ct := e.cad.ct, slew := e.cad.slew, ptmErr := e.cad.ptmErr }

/-- What every entry to DOWN leaves: no keys, nothing to replay, no credits (R301, R308). -/
def Downed (e : Dev) (p cause : Nat) : Prop :=
  let y := e.port p
  y.state = 0 ∧ y.downcause = cause ∧ y.keyTx = 0 ∧ y.keyRx = 0 ∧ y.saltTx = 0 ∧ y.saltRx = 0 ∧ y.oldRx = none ∧ y.replay = []
    ∧ y.credits = [0, 0, 0, 0] ∧ y.peerid = 0

end Sys2Proof.Spec

/-- An enabled port trains at once and again 10 ms after a failure; trained lanes start the key exchange; a limit, a lost lane or ENABLE
= 0 takes it DOWN with its cause and without its keys, and of a STOPPED port only ENABLE = 0 does (R299, R301, R307). -/
def Obligations.RillPortsFollowTheirStates : Prop :=
  ∀ (d : Dev) (p : Nat), Quiet d → p < 4 →
    let x := d.port p
    (x.state = 0 → x.variant < 2 →
      ∃ e, Gives (.portEnable p) d e ∧ LinkOnly d e ∧ (e.port p).state = 1 ∧ (e.port p).enable = true ∧ (e.port p).since = d.ns)
    ∧ (x.state = 0 → x.enable = true → x.variant < 2 →
      ∃ e, Gives (.downRetry p) d e ∧ LinkOnly d e ∧ (e.port p).state = 1 ∧ e.cad.ct = ctAt d (x.since + 10000000))
    ∧ (x.state ≠ 0 → ∃ e, Gives (.portDisable p) d e ∧ LinkOnly d e ∧ Downed e p 7 ∧ (e.port p).enable = false)
    ∧ (x.state = 1 → ∃ e f w, Gives (.laneTrainingDone p) d e ∧ LinkOnly d e ∧ (e.port p).state = 2 ∧ (e.port p).lanes = 4
        ∧ e.out.getLast? = some (.frame p f w) ∧ f.type = 4 ∧ f.payload = helloBytes (d.free + 4) (e.port p).nonce)
    ∧ (x.state = 1 → ∃ e, Gives (.trainTimeout p) d e ∧ LinkOnly d e ∧ Downed e p 9 ∧ e.cad.ct = ctAt d (x.since + 100000000))
    ∧ (x.state = 2 → ∃ e, Gives (.keyxTimeout p) d e ∧ LinkOnly d e ∧ Downed e p 4 ∧ e.cad.ct = ctAt d (x.since + 50000000))
    ∧ (x.state ≠ 0 → x.state ≠ 4 → ∃ e, Gives (.laneLoss p) d e ∧ LinkOnly d e ∧ Downed e p 1 ∧ e.cad.ct = d.cad.ct)
    ∧ (x.state = 0 ∨ x.state = 4 → Gives (.laneLoss p) d d)
    ∧ (x.state = 3 → ∃ e, Gives (.noFrameTimeout p) d e ∧ LinkOnly d e ∧ Downed e p 8 ∧ e.cad.ct = ctAt d (x.lastRx + 10000))
    ∧ (∀ v : W32, d.trains = [] → Gives (.rilTopoWrite v) d (d.setLink { d.link with
        xdim := v.toNat / 2 ^ 24 % 16, nrank := v.toNat / 2 ^ 16 % 128, rank := v.toNat / 2 ^ 8 % 64, mode := v.toNat % 4 }))
    ∧ (∀ v : W32, d.trains ≠ [] → ∃ e, Gives (.rilTopoWrite v) d e ∧ e.link = d.link ∧ LinkOnly d e)

/-- A HELLO whose chain and identity are allowed is answered with FINISH under the device key, and any other takes the port DOWN with 0x05
for policy or 0x04; the partner's good FINISH brings the port UP with derived keys, full credits, CTR 0 and SEQ 1; a rekey, which either
direction's CTR asks for, derives new keys under the inverted KEYGEN and keeps the old receive key for now; a port sends no frame whose
CTR would reach 2^62: it stops, with cause 0x06 (R304, R307, R308, R310, R311). -/
def Obligations.KeysAreExchangedAndReplaced : Prop :=
  (∀ (d : Dev) (a : Arrival) (ident key nonce : Nat), Quiet d → a.port < 4 → (d.port a.port).state = 2 → a.fec.uncorrectable = 0 →
      let p := a.port
      let x := d.port p
      (d.boot.keyReady = true → d.peerAllowed p ident = true →
        ∃ e f, Gives (.hello a ident key nonce true) d e ∧ (e.port p).hello = some (ident, key, nonce) ∧ (e.port p).finished = true
          ∧ Sends d e p f ∧ f.type = 4 ∧ f.payload = finishBytes ident d.free (helloBytes x.eph x.nonce) a.frame.payload ∧ LinkOnly d e)
      ∧ (d.boot.keyReady = true → d.peerAllowed p ident = false → ∃ e, Gives (.hello a ident key nonce true) d e ∧ Downed e p 5 ∧ LinkOnly d e)
      ∧ (∃ e, Gives (.hello a ident key nonce false) d e ∧ Downed e p 4 ∧ LinkOnly d e)
      ∧ (x.hello = some (ident, key, nonce) → x.queue = [] →
          let k := deriveKeys (ecdh (Config.scalar x.eph) key) Config.identity ident x.nonce nonce 0
          ∃ e, Gives (.finish a true) d e ∧ LinkOnly d e ∧ (let y := e.port p
            y.state = 3 ∧ y.keyTx = k.1 ∧ y.keyRx = k.2.1 ∧ y.saltTx = k.2.2.1 ∧ y.saltRx = k.2.2.2 ∧ y.peerid = ident ∧ y.txctr = 0
              ∧ y.txseq = 1 ∧ y.rxseq = 1 ∧ y.keygen = 0 ∧ y.credits = [32, 32, 32, 32] ∧ y.downcause = 0))
      ∧ (x.hello.isSome = true → ∃ e, Gives (.finish a false) d e ∧ Downed e p 4 ∧ LinkOnly d e))
  ∧ (∀ (d : Dev) (p : Nat), Quiet d → p < 4 → (d.port p).state = 3 →
      let x := d.port p
      (2 ^ 48 ≤ x.txctr.toNat ∨ 2 ^ 48 ≤ x.rxctr → x.txctr.toNat < 2 ^ 62 → x.rekeypend = false → d.boot.keyReady = true →
        ∃ e f, Gives (.rekeyThreshold p) d e ∧ LinkOnly d e ∧ (e.port p).rekeypend = true ∧ (e.port p).initiator = true
          ∧ (e.port p).keygen = x.keygen ∧ Sends d e p f ∧ f.type = 5
          ∧ f.payload = rekeyBytes 0 (e.port p).eph (e.port p).nonce ((e.port p).eph + 1))
      ∧ (x.initiator = true → x.txctr.toNat < 2 ^ 62 →
        ∃ e f, Gives (.rekeyRetry p) d e ∧ LinkOnly d e ∧ e.cad.ct = ctAt d (x.lastInit + 1000000)
          ∧ (e.port p).rekeyFail = (x.rekeyFail + 1) % 2 ^ 16 ∧ (e.port p).keygen = x.keygen ∧ Sends d e p f ∧ f.type = 5)
      ∧ (2 ^ 62 ≤ x.txctr.toNat →
        (∃ e, Gives (.counterStop p) d e ∧ (e.port p).state = 4 ∧ (e.port p).downcause = 6 ∧ (e.port p).keyTx = x.keyTx ∧ LinkOnly d e)
        ∧ (∃ e, Gives (.idleFrameTimer p) d e ∧ e.out = d.out ∧ e.ports = d.ports)))
  ∧ (∀ (d : Dev) (a : Arrival) (key nonce : Nat), Good d a → a.frame.seq = (d.port a.port).rxseq →
      let p := a.port
      let x := d.port p
      let renewed (e : Dev) (ctr : W64) : Prop :=
        let y := e.port p
        y.keygen = 1 - x.keygen ∧ y.txctr = ctr ∧ y.oldRx = some x.keyRx ∧ y.rekeypend = false ∧ y.rekeyDone = (x.rekeyDone + 1) % 2 ^ 48
          ∧ y.rxseq = (x.rxseq + 1) % 2 ^ 32
      ((x.initiator = false ∨ x.peerid ≤ Config.identity) →
        ∃ e f, Gives (.rekeyInit a key nonce true) d e ∧ LinkOnly d e ∧ renewed e 0 ∧ Sends d e p f ∧ f.type = 5 ∧ f.keygen = x.keygen)
      ∧ (x.initiator = true → Config.identity < x.peerid →
        ∃ e f, Gives (.rekeyInit a key nonce true) d e ∧ LinkOnly d e ∧ (e.port p).keygen = x.keygen ∧ (e.port p).initiator = true
          ∧ Sends d e p f ∧ f.type = 2)
      ∧ (x.initiator = true →
        ∃ e f, Gives (.rekeyResp a key nonce true) d e ∧ LinkOnly d e ∧ renewed e 1 ∧ Sends d e p f ∧ f.type = 2 ∧ f.keygen = 1 - x.keygen))

/-- A DATA frame in order is placed and acknowledged; one ahead, one of no training stream (which is counted too), one of a bad tag (counted)
and one whose codewords do not decode (counted) are NACKed and not placed; one already received is counted and dropped; a NACK resends
what is unacknowledged, and silence is broken within 1 µs (R300, R301, R303, R306, R313; that a frame of no training stream is NACKed and
stays the next expected is the model's reading, notes/assumptions/99.md). -/
def Obligations.FramesAreAcceptedInOrder : Prop :=
  ∀ (d : Dev) (p : Nat) (f : Frame), InOrder d p f →
    let x := d.port p
    let known := d.trains.any (fun t => t.2.rtag == f.rtag)
    (f.type = 1 → f.seq = x.rxseq → known = true →
      ∃ e g, Gives (.dataFrame p f {} true) d e ∧ e.link.placed = f :: d.link.placed ∧ (e.port p).rxfrm = x.rxfrm + 1
        ∧ (e.port p).rxseq = (x.rxseq + 1) % 2 ^ 32 ∧ Sends d e p g ∧ g.type = 2 ∧ g.nack = false
        ∧ (e.port p).lastRx = d.ns ∧ (e.port p).discard = x.discard)
    ∧ (f.type = 1 → f.seq = x.rxseq → known = false →
      ∃ e g, Gives (.dataFrame p f {} true) d e ∧ e.link = d.link ∧ (e.port p).discard = x.discard + 1 ∧ (e.port p).rxseq = x.rxseq
        ∧ (e.port p).rxfrm = x.rxfrm ∧ Sends d e p g ∧ g.type = 2 ∧ g.nack = true)
    ∧ (f.type = 1 → f.seq < 2 ^ 32 → x.rxseq < 2 ^ 32 → f.seq = (x.rxseq + 1) % 2 ^ 32 →
      ∃ e g, Gives (.dataFrame p f {} true) d e ∧ e.link = d.link ∧ (e.port p).rxseq = x.rxseq ∧ Sends d e p g ∧ g.type = 2
        ∧ g.nack = true)
    ∧ (f.type = 1 → x.rxseq < 2 ^ 32 → 1 ≤ x.rxseq → f.seq = x.rxseq - 1 →
      ∃ e, Gives (.dataFrame p f {} true) d e ∧ e.link = d.link ∧ (e.port p).rxseq = x.rxseq ∧ e.out = d.out ∧ (e.port p).discard = x.discard + 1)
    ∧ (x.fails = [] → ∃ e g, Gives (.dataFrame p f {} false) d e ∧ e.link = d.link ∧ (e.port p).authfail = x.authfail + 1
        ∧ (e.port p).rxseq = x.rxseq ∧ Sends d e p g ∧ g.nack = true)
    ∧ (∀ (n k : Nat) (ok : Bool), k ≠ 0 →
      ∃ e g, Gives (.dataFrame p f { corrected := n, uncorrectable := k } ok) d e ∧ e.link = d.link ∧ (e.port p).rxseq = x.rxseq
        ∧ (e.port p).fecce = x.fecce + BitVec.ofNat 64 n ∧ (e.port p).fecue = x.fecue + BitVec.ofNat 64 k
        ∧ (e.port p).authfail = x.authfail ∧ Sends d e p g ∧ g.nack = true)
    ∧ (f.nack = false → ∃ e, Gives (.ctrlFrame p f {} true) d e ∧ (e.port p).rxfrm = x.rxfrm + 1 ∧ (e.port p).lastRx = d.ns ∧ e.out = d.out)
    ∧ (∃ e g, Gives (.idleFrameTimer p) d e ∧ LinkOnly d e ∧ e.cad.ct = ctAt d (x.lastTx + 1000) ∧ Sends d e p g ∧ g.type = 2
        ∧ g.nack = false ∧ (e.port p).txctr = x.txctr + 1)

/-- When ACK has not moved for 2 µs, every unacknowledged frame is sent again with its SEQ and a new CTR; one already resent 8 times
takes the port DOWN with cause 0x02 (R306). A port that must wake its partner sends the burst once a millisecond (R319). -/
def Obligations.SilentPartnersAreRetriedOrWoken : Prop :=
  ∀ (d : Dev) (p : Nat), Quiet d → p < 4 →
    let x := d.port p
    (∀ f, x.state = 3 → x.replay = [f] → f.resent < 8 → f.type ≠ 4 → x.txctr.toNat < 2 ^ 62 →
      ∃ e g, Gives (.ackTimeout p) d e ∧ LinkOnly d e ∧ e.cad.ct = ctAt d (x.lastAck + 2000) ∧ (e.port p).retrycnt = x.retrycnt + 1
        ∧ (e.port p).replay = [{ f with resent := f.resent + 1 }] ∧ Sends d e p g ∧ g.seq = f.seq ∧ g.payload = f.payload
        ∧ g.ctr = x.txctr.toNat ∧ (e.port p).txctr = x.txctr + 1)
    ∧ (∀ f, x.state = 3 → x.replay = [f] → 8 ≤ f.resent → ∃ e, Gives (.ackTimeout p) d e ∧ Downed e p 2 ∧ LinkOnly d e)
    ∧ (x.state = 0 → x.wakesend = true → x.wakeAsk = true → x.bursts < 99 →
      ∃ e, Gives (.wakeBurstTimer p) d e ∧ LinkOnly d e ∧ e.out = d.out ++ [.burst p 0 64 wakeBlock] ∧ (e.port p).bursts = x.bursts + 1
        ∧ (x.bursts ≠ 0 → e.cad.ct = ctAt d (x.lastBurst + 1000000)))

/-- Host writes of the mailbox and event-queue indices and of ENABLE set what they name and nothing else; enabling starts fetching and the
response ring at slot 0, and the ring is the function's (R349, R369, R371, R377). -/
def Obligations.MailboxWritesSetTheirIndices : Prop :=
  ∀ (d : Dev) (f v : Nat), Quiet d → f < 256 → (d.func f).inReset = false →
    let x := d.func f
    Gives (.mbReqtailWrite f v) d (d.putFunc f { x with reqtail := v % 2 ^ 14 })
    ∧ Gives (.mbRspheadWrite f v) d (d.putFunc f { x with rsphead := v % 2 ^ 14 })
    ∧ Gives (.evqHeadWrite f v) d (d.putFunc f { x with evqHead := v % 2 ^ 14 })
    ∧ Gives (.mbDisable f) d (d.putFunc f { x with enable := false })
    ∧ (x.enable = false → Gives (.mbEnable f) d (d.putFunc f { x with enable := true, reqhead := 0, rsptail := 0, rspPhase := 1,
                                                                             ringOwner := some f }))
    ∧ (x.enable = true → Gives (.mbEnable f) d (d.putFunc f x))

namespace Sys2Proof.Spec

/-- It is function `f`'s turn to have a request started, of domain `n` and with opcode `op`. -/
def TurnOf (d : Dev) (f : Nat) (r : Req) : Prop :=
  d.fwOn = true ∧ d.receiving = false ∧ d.turnOf = some f ∧ d.fh.inprog.length < 32 ∧ r.func = f ∧ d.boundTo r.domain f = true

end Sys2Proof.Spec

/-- A request whose turn it is enters the requests in progress with its payload, held by the core pair that runs, and frees its slot, and the
turn moves on; one of another
function's domain, or an operator's command from another domain, is answered DENIED instead. A response is written at RSPTAIL with its tag,
status, PHASE and RES words, its payload at RADDR, and RSPTAIL moves on; a request cut by a function reset gets none (R349, R369 to R373). -/
def Obligations.RequestsStartAndAreAnswered : Prop :=
  (∀ (d : Dev) (f : Nat) (slot pay : List Byte),
      let r := { reqOf f slot d.ns with pair := d.fh.corePair }
      let next := (d.putFunc f { d.func f with reqhead := ((d.func f).reqhead + 1) % 64 }).setFh { d.fh with turn := (f + 1) % 256 }
      (∀ p, TurnOf d f r → permOf r.opcode = some p → r.paddr % 64 = 0 → r.raddr % 64 = 0 → r.plen ≤ 4096 → r.rcap ≤ 4096 →
        ((p = .operator → r.domain = 0) →
          Gives (.requestStart f slot (some pay)) d (next.setFh { next.fh with
            inprog := d.fh.inprog ++ [{ r with payload := if r.paddr = 0 ∨ r.plen = 0 then [] else pay.take r.plen }] }))
        ∧ (p = .operator → r.domain ≠ 0 → Gives (.requestStart f slot (some pay)) d (next.respond r { status := 0x300 })))
      ∧ (d.fwOn = true → d.receiving = false → d.turnOf = some f → d.fh.inprog.length < 32 → d.boundTo r.domain f = false →
          Gives (.requestStart f slot (some pay)) d (next.respond r { status := 0x300 })))
  ∧ (∀ (d : Dev) (r : Req) (x : Resp), 
      let f := d.func r.func
      let slot := f.rspbase + 64 * f.rsptail
      let pay := x.payload.take r.rcap
      (r.cut = true → d.respond r x = d)
      ∧ (r.cut = false → r.mctp = false → (r.raddr + pay.length ≤ slot ∨ slot + 64 ≤ r.raddr) →
        let e := d.respond r x
        (e.func r.func).rsptail = (f.rsptail + 1) % 64 ∧ (e.func r.func).rspPhase = (if f.rsptail = 63 then 1 - f.rspPhase else f.rspPhase)
          ∧ Mem.readLe e.hostMem slot 2 = r.opcode % 65536 ∧ Mem.readLe e.hostMem (slot + 2) 2 = r.tag % 65536
          ∧ Mem.readLe e.hostMem (slot + 4) 2 = x.status % 65536 ∧ Mem.readLe e.hostMem (slot + 6) 2 = f.rspPhase % 65536
          ∧ Mem.readBytes e.hostMem r.raddr pay.length = pay ∧ e.fh.cmdcnt = d.fh.cmdcnt + 1
          ∧ e = { d with fh := e.fh, hostMem := e.hostMem, funcs := e.funcs, out := e.out }
          ∧ (f.rspvecEn = true → f.rspvec ∈ f.unmasked → e.out = d.out ++ [.msix r.func f.rspvec])))

/-- A BAR2 access reaches the reservoir through its quarter's domain and window; one without a domain, outside the reservoir or with pages of
others reads zeros there and is counted (R362, R364, R223). -/
def Obligations.Bar2ReachesTheDomainsWindow : Prop :=
  ∀ (d : Dev) (f off len : Nat) (bs : List Byte), Quiet d → f < 256 → (d.func f).inReset = false →
    let q := 2 ^ (barLog f - 2)
    (∀ dom, 0 < len → off % 4096 + len ≤ 4096 → off < 4 * q → d.slotDomain f (off / q) = some dom →
      d.epochOk 0x1F0 (d.ownView 0x1F0).epoch = true →
      let a := (d.domain dom).wbase + off % q
      Reaches d dom a len →
        Gives (.bar2Access f off len none) d ((d.setRsv (d.rsv.charge dom a len)).emit (.hostData f (Mem.readBytes d.rsv.mem a len) false)))
    ∧ (∀ dom, bs ≠ [] → off % 4096 + bs.length ≤ 4096 → off < 4 * q → d.slotDomain f (off / q) = some dom →
      d.epochOk 0x1F0 (d.ownView 0x1F0).epoch = true →
      let a := (d.domain dom).wbase + off % q
      a + bs.length ≤ 0x6000000000 → d.rsv.owned dom a bs.length = true → Whole64 d a bs.length →
        ∃ e, Gives (.bar2Access f off len (some bs)) d e ∧ e = { d with rsv := e.rsv }
          ∧ (∀ i, i < bs.length → some (Mem.read e.rsv.mem (a + i)) = bs[i]?)
          ∧ ∀ p, (p < a ∨ a + bs.length ≤ p) → Mem.read e.rsv.mem p = Mem.read d.rsv.mem p)
    ∧ (∀ dom, 0 < len → off % 4096 + len ≤ 4096 → off < 4 * q → d.slotDomain f (off / q) = some dom →
      d.epochOk 0x1F0 (d.ownView 0x1F0).epoch = true →
      let a := (d.domain dom).wbase + off % q
      a + len ≤ 0x6000000000 → d.rsv.owned dom a len = false → d.rsv.poisoned a len = false →
        ∃ e ans, Gives (.bar2Access f off len none) d e ∧ e.hw = { d.hw with windeny := d.hw.windeny + 1 }
          ∧ e.out.getLast? = some (.hostData f ans false) ∧ ans.length = len ∧ DenialsCounted d e dom a len
          ∧ ∀ i, i < len → (OwnsByte d dom (a + i) → ans[i]? = some (Mem.read d.rsv.mem (a + i)))
              ∧ (¬ OwnsByte d dom (a + i) → ans[i]? = some 0))
    ∧ (∀ dom, 0 < len → off % 4096 + len ≤ 4096 → off < 4 * q → d.slotDomain f (off / q) = some dom →
        0x6000000000 < (d.domain dom).wbase + off % q + len →
        Gives (.bar2Access f off len none) d
          ((d.setHw { d.hw with windeny := d.hw.windeny + 1 }).emit (.hostData f (List.replicate len 0) false)))
    ∧ (0 < len → off % 4096 + len ≤ 4096 → off < 4 * q → d.slotDomain f (off / q) = none →
        Gives (.bar2Access f off len none) d
          ((d.setHw { d.hw with windeny := d.hw.windeny + 1 }).emit (.hostData f (List.replicate len 0) false)))

/-- A poisoned TLP is reported through AER and discarded; a retrained link shows its rate, and a lower one under an active table raises
an event; a function reset clears its mailbox and cuts its requests, whose responses are discarded; the core that passes its self-test
is paired with the spare and every request in progress is answered BUSY_RETRY (R349, R361, R362, R368). The takeover's event is FENCE with
class 7, the model's choice (notes/assumptions/98.md). -/
def Obligations.HostErrorsAndResets : Prop :=
  ∀ (d : Dev) (f : Nat), f < 256 →
    (Quiet d → (d.func f).inReset = false → Gives (.poisonedTlp f) d (d.emit (.aer f)))
    ∧ (∀ speed width flit, Quiet d →
      let h := { d.hw with speed := speed, width := width, flit := flit, l0 := true }
      (linkRate d.hw.speed d.hw.width ≤ linkRate speed width ∨ d.cad.active = false → Gives (.hostlinkRetrain speed width flit) d (d.setHw h))
      ∧ ∃ e, Gives (.hostlinkRetrain speed width flit) d e ∧ e.hw = h ∧ e.rsv = d.rsv ∧ e.basins = d.basins ∧ e.streams = d.streams)
    ∧ (Quiet d →
      Gives (.functionReset f false) d ((d.putFunc f { inReset := true }).setFh
        { d.fh with inprog := d.fh.inprog.map (fun r => if r.func = f then { r with cut := true } else r) })
      ∧ ((d.func f).inReset = true → Gives (.functionReset f true) d (d.putFunc f { d.func f with inReset := false })))
    ∧ (∀ r, d.fwOn = true → d.fh.corePair = 3 → d.fh.failed = 0 → d.fh.inprog = [r] →
      ∃ e : Dev, Gives (.coreMiscompare [0]) d (e.respond r { status := 0x101 }) ∧ e.fh.corePair = 5 ∧ e.fh.failed = 2 ∧ e.fh.inprog = []
        ∧ e.flt = { d.flt with coresw := d.flt.coresw + 1 } ∧ e.fh.recov = false
        ∧ e = { d with fh := e.fh, flt := e.flt, funcs := e.funcs, hostMem := e.hostMem, out := e.out })
    ∧ (d.fwOn = true → d.fh.corePair = 3 → ∃ e : Dev, Gives (.coreMiscompare []) d e ∧ e.fh.recov = true ∧ e.fh.running = false
        ∧ e.fh.inprog = d.fh.inprog ∧ e.cad = d.cad ∧ e.basins = d.basins)

namespace Sys2Proof.Spec

/-- Request `r`, of function `f` and with opcode `op`, is the oldest in progress; `w` is the device once it is taken off the list. -/
def Serving (d : Dev) (f op : Nat) (r : Req) (w : Dev) : Prop :=
  d.fwOn = true ∧ d.due = d ∧ r.func = f ∧ r.opcode = op ∧ ∃ rest, d.fh.inprog = r :: rest ∧ w = d.setFh { d.fh with inprog := rest }

/-- Command `c` leaves device `e` and then the response `x` to `r`. -/
def Replies (c : Instr) (d e : Dev) (r : Req) (x : Resp) : Prop := Gives c d (e.respond r x)

/-- From `w` to `e`, only what an event writes has changed. -/
def EventOnly (w e : Dev) : Prop := e = { w with funcs := e.funcs, fh := e.fh, hostMem := e.hostMem, out := e.out }

end Sys2Proof.Spec

/-- The DEVICE commands answer with the values R374 names and set what they name and nothing else: the allow list, a rekey, a binding of
a domain to a function's slot, the window base, an item of the configuration, a reset 10 ms later, which leaves CT, fuses and host memory. -/
def Obligations.DeviceCommandsReply : Prop :=
  ∀ (d w : Dev) (f : Nat) (r : Req),
    (Serving d f 0x100 r w → Replies (.deviceInfo f) d w r
      { res := [0x72101100, w.fh.fwversion.toNat, 0x40863000, w.svcStatus.toNat, w.lib.libver.toNat],
        payload := beBytes 48 Config.identity ++ Mem.readBytes w.boot.fuses 0x130 16 })
    ∧ (Serving d f 0x101 r w → r.arg 0 % 4096 = 0 → r.arg 0 < 35728 → ∃ p, Replies (.deviceHealth f) d w r { res := [35728], payload := p }
        ∧ p.length = min 4096 (35728 - r.arg 0))
    ∧ (Serving d f 0x102 r w → r.arg 0 ≤ 64 → 48 * r.arg 0 ≤ r.payload.length → ∃ l : List Nat, l.length = r.arg 0
        ∧ (∀ k, k < r.arg 0 → l[k]? = some (beNat ((r.payload.drop (48 * k)).take 48)))
        ∧ Replies (.devicePeers f) d (w.setLink { w.link with allow := l }) r {})
    ∧ (Serving d f 0x102 r w → 64 < r.arg 0 → Replies (.devicePeers f) d w r { status := 0x201 })
    ∧ (Serving d f 0x103 r w → r.arg 0 ≤ 4 → (w.port (r.arg 0)).state = 3 → (w.port (r.arg 0)).rekeypend = false →
        (w.port (r.arg 0)).txctr.toNat < 2 ^ 62 → w.boot.keyReady = true → ∃ (e : Dev) (g : Frame), Replies (.deviceRekey f) d e r {}
          ∧ LinkOnly w e ∧ (e.port (r.arg 0)).rekeypend = true ∧ (e.port (r.arg 0)).initiator = true ∧ Sends w e (r.arg 0) g ∧ g.type = 5)
    ∧ (Serving d f 0x104 r w → r.arg 1 ≤ 255 → r.arg 2 ≤ 3 → bitOf (r.arg 3) 0 = true → (w.domain (r.arg 0)).state = 1 →
        (w.domain (r.arg 0)).bind = none → w.slotDomain (r.arg 1) (r.arg 2) = none →
        ∃ e : Dev, Replies (.deviceFuncbind f) d e r {} ∧ e = { w with domains := e.domains, hw := e.hw }
          ∧ e.domain (r.arg 0) = { w.domain (r.arg 0) with bind := some (r.arg 1, r.arg 2) }
          ∧ e.slotDomain (r.arg 1) (r.arg 2) = some (r.arg 0))
    ∧ (Serving d f 0x104 r w → r.arg 1 ≤ 255 → r.arg 2 ≤ 3 → bitOf (r.arg 3) 0 = false → (w.domain (r.arg 0)).state ≠ 0 →
        (w.domain (r.arg 0)).bind = some (r.arg 1, r.arg 2) → r.arg 0 ≠ 0 → w.streamsOf (r.arg 0) = 0 →
        ∃ e : Dev, Replies (.deviceFuncbind f) d e r {} ∧ e = { w with domains := e.domains, hw := e.hw }
          ∧ e.domain (r.arg 0) = { w.domain (r.arg 0) with bind := none } ∧ e.slotDomain (r.arg 1) (r.arg 2) = none)
    ∧ (Serving d f 0x105 r w → r.arg64 0 % 0x200000 = 0 → r.arg64 0 < 2 ^ 39 →
        Replies (.deviceWindow f) d (w.putDomain r.domain { w.domain r.domain with wbase := r.arg64 0 }) r {})
    ∧ (Serving d f 0x105 r w → r.arg64 0 % 0x200000 ≠ 0 → Replies (.deviceWindow f) d w r { status := 0x201 })
    ∧ (let k := r.arg 0
       let v := r.arg 1
       Serving d f 0x106 r w → w.boot.sets.length = 2 →
        (k = 1 ∧ 8 ≤ v ∧ v ≤ 0x77) ∨ (k = 2 ∧ v < 64) ∨ (k = 3 ∧ 300 ≤ v ∧ v ≤ 1100) ∨ (k = 4 ∧ 400 ≤ v ∧ v ≤ 2000) ∨ k = 5 →
        ∃ (e : Dev) (c : ConfigSet), Replies (.deviceConfig f) d e r {} ∧ e = w.setBoot e.boot ∧ e.boot.config = some c
          ∧ Tab.find? c.items k = some v ∧ (∀ n, n ≠ k → Tab.find? c.items n = Tab.find? (w.boot.config.getD {}).items n)
          ∧ e.boot.fuses = w.boot.fuses)
    ∧ (Serving d f 0x107 r w → r.arg 0 ≤ 1 →
        Replies (.deviceReset f) d (w.setFh { w.fh with resetAt := some (w.ns + 10000000, r.arg 0 == 1) }) r {})
    ∧ (∀ t cold, d.coreOn = true → d.fh.resetAt = some (t, cold) → ∃ e : Dev, Gives .resetDelayExpiry d e ∧ e.cad.ct = ctAt d t
        ∧ e.boot.fuses = d.boot.fuses ∧ e.boot.ready = false ∧ e.hostMem = d.hostMem ∧ e.basins = [] ∧ e.streams = [] ∧ e.rsv = {}
        ∧ e.fh = {} ∧ e.ports = [] ∧ e.cad = { ({} : Cad) with ct := e.cad.ct })

namespace Sys2Proof.Spec

/-- The limits of a request, and that they lie in the ranges of R260. -/
def limitsIn (r : Req) : Domain :=
  { maxStreams := r.arg 1, maxPages := r.arg 2, maxModels := r.arg 3, maxBudget := r.arg 4 % 1024, isol := bitOf (r.arg 4) 16 }
def LimitsOk (r : Req) : Prop := r.arg 1 ≤ 65536 ∧ r.arg 2 ≤ 195584 ∧ r.arg 3 ≤ 256 ∧ r.arg 4 % 1024 ≤ 1000

/-- A page's entry of the ownership table. -/
def pageAt (d : Dev) (p : Nat) : Page := Tab.at d.rsv.pages {} p

/-- The `k` page numbers that a request's payload lists. -/
def pagesNamed (r : Req) (k : Nat) (ps : List Nat) : Prop :=
  ps.length = k ∧ 4 * k ≤ r.payload.length ∧ ∀ i, i < k → ps[i]? = some (leNat ((r.payload.drop (4 * i)).take 4))

/-- From `w` to `e`, the pages listed are assigned to domain `n`, zeroed and free of poison, and no other page or byte of the reservoir has
changed; the controllers have moved the zeros (R28). -/
def Assigned (w e : Dev) (n : Nat) (ps : List Nat) : Prop :=
  (∀ p ∈ ps, pageAt e p = { valid := true, scrub := false, owner := n }) ∧ (∀ p, p ∉ ps → pageAt e p = pageAt w p)
    ∧ (∀ a, a / 0x200000 ∈ ps → Mem.read e.rsv.mem a = 0) ∧ (∀ a, a / 0x200000 ∉ ps → Mem.read e.rsv.mem a = Mem.read w.rsv.mem a)
    ∧ (∀ u ∈ e.rsv.poison ++ e.rsv.soft, u / 65536 ∉ ps) ∧ e.rsv.slotBytes = w.rsv.slotBytes + 0x200000 * ps.length ∧ e.rsv.keys = w.rsv.keys
    ∧ e.rsv.ctrls = w.rsv.ctrls
    ∧ e = { w with rsv := e.rsv, free := e.free, funcs := e.funcs, fh := e.fh, hostMem := e.hostMem, out := e.out }

end Sys2Proof.Spec

/-- DOMAIN_CREATE makes a domain with its limits and new keys; DOMAIN_DESTROY sends one without streams and models to DESTROYING, and its
release clears its pages, keys, binding and entry; the limits, the query and the pages follow R222, R260 and R374. -/
def Obligations.DomainCommandsFollowTheirTable : Prop :=
  ∀ (d w : Dev) (f : Nat) (r : Req),
    let n := r.arg 0
    let x := w.domain n
    (Serving d f 0x200 r w → 1 ≤ n → n ≤ 1023 → LimitsOk r → x.state = 0 →
      Replies (.domainCreate f) d ((w.drawKeys.2.putDomain n { limitsIn r with state := 1 }).setRsv
        { w.rsv with keys := Tab.put w.rsv.keys n w.drawKeys.1 }) r {})
    ∧ (Serving d f 0x200 r w → n = 0 ∨ 1023 < n → Replies (.domainCreate f) d w r { status := 0x201 })
    ∧ (Serving d f 0x201 r w → 1 ≤ n → n ≤ 1023 → x.state = 1 →
      (w.streamsOf n = 0 → w.modelsOf n = 0 → Replies (.domainDestroy f) d (w.putDomain n { x with state := 2, scrubGen := none }) r {})
      ∧ (0 < w.streamsOf n ∨ 0 < w.modelsOf n → Replies (.domainDestroy f) d w r { status := 0x303 }))
    ∧ (Serving d f 0x201 r w → n = 0 → x.state ≠ 0 → Replies (.domainDestroy f) d w r { status := 0x303 })
    ∧ (∀ k, d.fwOn = true → (d.domain k).state = 2 → d.scrubbed k = true → ∃ e : Dev, Gives (.domainDestroyRelease k) d e ∧ e.domain k = {}
        ∧ (∀ p, pageAt e p = if (pageAt d p).valid = true ∧ (pageAt d p).owner = k then { pageAt d p with valid := false } else pageAt d p)
        ∧ e.rsv.mem = d.rsv.mem ∧ Tab.find? e.rsv.keys k = none ∧ (∀ p ∈ e.plans, p.domain ≠ k) ∧ (∀ m, m ≠ k → e.domain m = d.domain m)
        ∧ e = { d with rsv := e.rsv, hw := e.hw, domains := e.domains, plans := e.plans, funcs := e.funcs, fh := e.fh, hostMem := e.hostMem,
                       out := e.out })
    ∧ (Serving d f 0x202 r w → n ≤ 1023 → x.state ≠ 0 → r.domain = 0 ∨ r.domain = n → Replies (.domainQuery f) d w r
        { res := [x.maxStreams, x.maxPages, x.maxModels, x.maxBudget + bit01 x.isol * 65536, w.streamsOf n, (w.ownPages n).length, w.modelsOf n,
                  x.state, (x.bind.map (fun p => 4 * p.1 + p.2)).getD 0xFFFFFFFF] })
    ∧ (Serving d f 0x202 r w → n ≤ 1023 → r.domain ≠ 0 → r.domain ≠ n → Replies (.domainQuery f) d w r { status := 0x302 })
    ∧ (Serving d f 0x203 r w → n ≤ 1023 → LimitsOk r → x.state = 1 →
      (w.streamsOf n ≤ r.arg 1 → (w.ownPages n).length ≤ r.arg 2 → w.modelsOf n ≤ r.arg 3 →
        Replies (.domainLimits f) d (w.putDomain n { limitsIn r with state := 1, bind := x.bind, wbase := x.wbase }) r {})
      ∧ (r.arg 1 < w.streamsOf n ∨ r.arg 2 < (w.ownPages n).length ∨ r.arg 3 < w.modelsOf n →
        Replies (.domainLimits f) d w r { status := 0x400 }))
    ∧ (∀ ps, Serving d f 0x204 r w → n ≤ 1023 → 1 ≤ r.arg 1 → r.arg 1 ≤ 1024 → r.domain = 0 ∨ r.domain = n → x.state = 1 →
        (w.ownPages n).length + r.arg 1 ≤ x.maxPages →
      (pagesNamed r (r.arg 1) ps → ps.Nodup → (∀ p ∈ ps, w.pageFree p = true) →
        ∃ e : Dev, Replies (.pageAssign f) d e r { payload := ps.flatMap (fun p => leBytes 4 p) } ∧ Assigned w e n ps)
      ∧ (r.payload = [] → r.arg 1 ≤ ((List.range 195584).filter (fun p => w.pageFree p)).length →
        ∃ (e : Dev) (qs : List Nat), Replies (.pageAssign f) d e r { payload := qs.flatMap (fun p => leBytes 4 p) } ∧ Assigned w e n qs
          ∧ qs.length = r.arg 1 ∧ qs.Nodup ∧ ∀ p ∈ qs, w.pageFree p = true))
    ∧ (∀ ps, Serving d f 0x205 r w → n ≤ 1023 → r.arg 1 ≤ 1024 → pagesNamed r (r.arg 1) ps → r.domain = 0 ∨ r.domain = n → x.state ≠ 0 →
        (∀ p ∈ ps, (pageAt w p).valid = true ∧ (pageAt w p).owner = n) →
      ((∀ p ∈ ps, p ∉ w.pagesInUse) → ∃ e : Dev, Replies (.pageRelease f) d e r {} ∧ e = w.setRsv { w.rsv with pages := e.rsv.pages }
          ∧ ∀ p, pageAt e p = if p ∈ ps then { pageAt w p with valid := false } else pageAt w p)
      ∧ ((∃ p ∈ ps, p ∈ w.pagesInUse) → Replies (.pageRelease f) d w r { status := 0x304 }))

/-- MODEL_LOAD takes a free entry and gives the model's segments to its domain in the basins that carry them; MODEL_UNLOAD frees an entry that
no plan names; RUNNEL_INSTALL holds a checked image until the next frame boundary, where it is written into every runnel and registered under
its entry in place of what stood there, and RUNNEL_REMOVE drops one that no plan names (R105, R198, R206, R261, R374). -/
def Obligations.ModelAndRunnelCommandsFollowTheirTable : Prop :=
  ∀ (d w : Dev) (f : Nat) (r : Req),
    (∀ (img : Model) (n : Nat), Serving d f 0x300 r w → n = (if r.domain = 0 then img.domain else r.domain) → (w.domain n).state = 1 →
      let m := { img with domain := n }
      0 < r.arg 2 → Reaches w n (r.arg64 0) (r.arg 2) →
      (w.modelsOf n < (w.domain n).maxModels → w.modelFits m = true → (∃ k, k < 256 ∧ Tab.find? w.models k = none) →
        ∃ (e : Dev) (k : Nat), Replies (.modelLoad f true img) d e r { res := [k] } ∧ k < 256 ∧ Tab.find? w.models k = none
          ∧ e.models = Tab.put w.models k m ∧ e.rsv = { w.rsv.charge n (r.arg64 0) (r.arg 2) with slotBytes := e.rsv.slotBytes }
          ∧ e = { w with models := e.models, basins := e.basins, rsv := e.rsv, free := e.free }
          ∧ ∀ s ∈ m.segs, ∀ b, w.physOf s.lbasin = some b →
              Tab.find? (e.basin b).tags s.seg = some { valid := true, zeroing := false, domain := n })
      ∧ (w.modelsOf n < (w.domain n).maxModels → w.modelFits m = false →
        ∃ e : Dev, Replies (.modelLoad f true img) d e r { status := 0x401 } ∧ e.models = w.models ∧ e.basins = w.basins)
      ∧ ∃ e : Dev, Replies (.modelLoad f false img) d e r { status := 0x203 } ∧ e.models = w.models ∧ e.basins = w.basins)
    ∧ (∀ m, Serving d f 0x301 r w → Tab.find? w.models (r.arg 0) = some m → r.domain = 0 ∨ r.domain = m.domain →
      (w.modelNamed (r.arg 0) = false → Replies (.modelUnload f) d (w.setModels (Tab.del w.models (r.arg 0))) r {})
      ∧ (w.modelNamed (r.arg 0) = true → Replies (.modelUnload f) d w r { status := 0x304 }))
    ∧ (∀ m, Serving d f 0x302 r w → Tab.find? w.models (r.arg 0) = some m → r.domain = 0 ∨ r.domain = m.domain →
        ∃ x : Resp, Replies (.modelQuery f) d w r x ∧ x.status = 0 ∧ x.payload = beBytes 48 m.digest ∧ x.res[0]? = some m.domain
          ∧ x.res[2]? = some m.segs.length)
    ∧ (∀ img : RunnelFn, Serving d f 0x303 r w → 0 < r.arg 2 → Reaches w 0 (r.arg64 0) (r.arg 2) →
      let t := w.frameAtOrAfter w.ns
      (img.placed = true → (∀ u ∈ img.words, mopAllowed img.base img.words.length u = true) → w.entryNamed img.entry = false →
        w.fnOverlaps img = false →
        Replies (.runnelInstall f true img) d ((w.setRsv (w.rsv.charge 0 (r.arg64 0) (r.arg 2))).setLib
          { w.lib with queued := Tab.put w.lib.queued img.entry { img with boundary := t } }) r
          { res := [t % 2 ^ 32, t / 2 ^ 32 % 2 ^ 32, img.entry] })
      ∧ ∃ e : Dev, Replies (.runnelInstall f false img) d e r { status := 0x203 } ∧ e.lib = w.lib)
    ∧ (∀ k x, Quiet d → (k, x) ∈ d.lib.queued → (d.lib.queued.map Prod.fst).Nodup → (∀ p ∈ d.lib.queued, x.boundary ≤ p.2.boundary) →
        ∃ e : Dev, Gives .runnelImageWrite d e ∧ e.cad.ct = ctAt d x.boundary ∧ Tab.find? e.lib.fns k = some x
          ∧ (∀ j, Tab.find? d.lib.queued j = none → Tab.find? e.lib.fns j = Tab.find? d.lib.fns j) ∧ (∀ y, (k, y) ∉ e.lib.queued)
          ∧ (∀ p ∈ e.basins, p.2.ustore = e.lib.store.1 ∧ p.2.utable = e.lib.store.2) ∧ e = { d with cad := e.cad, lib := e.lib, basins := e.basins })
    ∧ (∀ x, Serving d f 0x304 r w → Tab.find? w.lib.fns (r.arg 0) = some x →
      (w.entryNamed (r.arg 0) = false → Replies (.runnelRemove f) d (w.setLib { w.lib with fns := Tab.del w.lib.fns (r.arg 0) }) r {})
      ∧ (w.entryNamed (r.arg 0) = true → Replies (.runnelRemove f) d w r { status := 0x304 }))

namespace Sys2Proof.Spec

/-- A request's ARG0 names stream `i`, whose entry is `s`, and the request may act on it (R251, R373). -/
def Names (w : Dev) (r : Req) (i : Nat) (s : Stream) : Prop :=
  r.arg 0 / 65536 = i ∧ w.stream i = s ∧ s.gen = r.arg 0 % 65536 ∧ s.state ≠ 0 ∧ s.state ≠ 4 ∧ (r.domain = 0 ∨ r.domain = s.domain)

/-- From `w` to `e`, stream `i` has become `s`, and nothing else has changed. -/
def StreamSet (w e : Dev) (i : Nat) (s : Stream) : Prop :=
  e = { w with streams := e.streams } ∧ e.stream i = s ∧ ∀ n, n ≠ i → e.stream n = w.stream n

/-- The shadow that SLOT_LOAD builds from an image: its slots' runs in order of basin and start offset, and for each slot the budget of each
domain, its share times its time in the slot over all its runs, in 64 B units of a controller, rounded up (R225, R243). -/
def BuiltFrom (img t : Table) : Prop :=
  t = { img with runs := t.runs, budgets := t.budgets }
    ∧ ∀ k, let rs := Tab.at img.runs [] k
        (Tab.at t.runs [] k).Perm rs
        ∧ (Tab.at t.runs [] k).Pairwise (fun a b => a.lbasin < b.lbasin ∨ (a.lbasin = b.lbasin ∧ a.tstart ≤ b.tstart))
        ∧ ∀ dom, Tab.at (Tab.at t.budgets [] k) 0 dom
            = cdiv (((rs.filter (fun x => x.domain == dom)).map (fun x => x.share * (x.tend - x.tstart))).sum) 512000

/-- A commit accepted with boundary `t`: the swap is pending, and the shadow's header holds its start. -/
def Committed (w : Dev) (f : Nat) (d : Dev) (r : Req) (t : Nat) : Prop :=
  ∃ e : Dev, Replies (.slotCommit f) d e r { res := [t % 2 ^ 32, t / 2 ^ 32 % 2 ^ 32] } ∧ e = w.setCad e.cad ∧ e.cad.swapAt = some t
    ∧ (e.cad.table e.cad.shadow).map Table.fstart = some t ∧ e.cad.activeTable = w.cad.activeTable

end Sys2Proof.Spec

/-- A stream is created IDLE at a FREE index under the next generation, within its domain's limit, and not as a training stream, which
nothing turns it into; it is changed and destroyed only while IDLE, its last generation retires the index, and a handle of another
generation is stale (R250 to R252, R269, R374). -/
def Obligations.StreamCommandsFollowTheirTable : Prop :=
  ∀ (d w : Dev) (f i : Nat) (s : Stream) (r : Req),
    (let t := streamOfBytes r.payload
     let x := w.domain t.domain
     Serving d f 0x400 r w → 76 ≤ r.payload.length → r.domain = 0 ∨ r.domain = t.domain → x.state = 1 →
      (w.streamFits t = true → w.streamsOf t.domain < x.maxStreams → (∃ k, k < 65536 ∧ (w.stream k).state = 0) → t.kind ≠ 2 →
        ∃ (e : Dev) (k : Nat), Replies (.streamCreate f) d e r { res := [k * 65536 + ((w.stream k).gen + 1)] } ∧ k < 65536
          ∧ (w.stream k).state = 0 ∧ e = { w with streams := e.streams, free := e.free } ∧ (∀ n, n ≠ k → e.stream n = w.stream n)
          ∧ e.stream k = { t with gen := (w.stream k).gen + 1, state := 1, fixedpost := t.fixedpost || x.isol })
      ∧ (w.streamFits t = true → x.maxStreams ≤ w.streamsOf t.domain → Replies (.streamCreate f) d w r { status := 0x400 })
      ∧ (w.streamFits t = true → w.streamsOf t.domain < x.maxStreams → (∃ k, k < 65536 ∧ (w.stream k).state = 0) → t.kind = 2 →
        Replies (.streamCreate f) d w r { status := 0x201 })
      ∧ (t.ishare = 0 ∨ t.eshare = 0 → Replies (.streamCreate f) d w r { status := 0x201 }))
    ∧ (Serving d f 0x401 r w → Names w r i s →
      (s.state = 1 → ∃ e : Dev, Replies (.streamDestroy f) d e r {} ∧ e = { w with streams := e.streams, plans := e.plans, trains := e.trains }
          ∧ e.stream i = { gen := s.gen, state := if s.gen = 0xFFFF then 4 else 0 } ∧ (∀ n, n ≠ i → e.stream n = w.stream n)
          ∧ (∀ p ∈ e.plans, p.index ≠ i) ∧ e.train i = none)
      ∧ (s.state ≠ 1 → Replies (.streamDestroy f) d w r { status := 0x303 }))
    ∧ (Serving d f 0x402 r w → r.arg 0 ≤ 65535 → ∃ (e : Dev) (k : Nat), Replies (.streamReissue f) d e r { res := [k] }
        ∧ e = { w with streams := e.streams }
        ∧ ∀ n, e.stream n = if r.arg 0 ≤ n ∧ n < r.arg 0 + r.arg 1 ∧ (w.stream n).state = 4 then {} else w.stream n)
    ∧ (Serving d f 0x403 r w → Names w r i s →
        Replies (.streamQuery f) d w r { payload := s.bytes i } ∧ (s.bytes i).length = 256)
    ∧ (Serving d f 0x403 r w → w.stream (r.arg 0 / 65536) = s → s.gen ≠ r.arg 0 % 65536 → r.domain = 0 →
        Replies (.streamQuery f) d w r { status := 0x301 })
    ∧ (let t := streamOfBytes r.payload
       Serving d f 0x404 r w → Names w r i s →
      (s.state = 1 → 76 ≤ r.payload.length → t.domain = s.domain → w.streamFits t = true → (t.kind = 2 ↔ s.kind = 2) →
        ∃ e : Dev, Replies (.streamSet f) d e r {} ∧ StreamSet w e i
          { s with mirror := t.mirror, fixedpost := t.fixedpost || (w.domain s.domain).isol, kind := t.kind, model := t.model,
                   planno := t.planno, vector := t.vector, sqbase := t.sqbase, sqLog := t.sqLog, cqbase := t.cqbase, cqLog := t.cqLog,
                   ibuf := t.ibuf, slotkb := t.slotkb, nib := t.nib, ishare := t.ishare, obuf := t.obuf, eshare := t.eshare,
                   deadl := t.deadl })
      ∧ (s.state = 1 → ¬ (t.kind = 2 ↔ s.kind = 2) → Replies (.streamSet f) d w r { status := 0x201 })
      ∧ (s.state ≠ 1 → Replies (.streamSet f) d w r { status := 0x303 }))
    ∧ (let a := r.arg64 1
       Serving d f 0x405 r w → Names w r i s → a % 64 = 0 → a + 64 ≤ 0x6000000000 → w.rsv.owned s.domain a 64 = true → r.arg64 3 ≠ 0 →
        -64 ≤ signedOf 8 (r.arg 5) → signedOf 8 (r.arg 5) ≤ 63 →
        ∃ e : Dev, Replies (.streamRing f) d e r { res := [r.arg64 3 % 2 ^ 32, r.arg64 3 / 2 ^ 32 % 2 ^ 32] }
          ∧ Mem.readLe e.rsv.mem (a + 0x20) 8 = r.arg64 3
          ∧ Mem.readLe e.rsv.mem (a + 0x28) 8
              = r.arg 5 % 2 ^ 9 + r.arg 6 % 2 ^ 16 * 2 ^ 16 + r.arg 7 % 2 ^ 16 * 2 ^ 32 + r.arg 7 / 2 ^ 16 % 2 ^ 16 * 2 ^ 48
          ∧ (∀ p, (p < a + 0x20 ∨ a + 0x30 ≤ p) → Mem.read e.rsv.mem p = Mem.read w.rsv.mem p)
          ∧ e = { w with rsv := e.rsv, streams := e.streams } ∧ e.stream i = { s with ring := a })

/-- A plan is registered for its stream, and not withdrawn while a table names it; SLOT_LOAD writes a checked image into the shadow, its lists
in order and its budgets formed, while no swap is pending; SLOT_COMMIT gives an admitted shadow its boundary, two slots away or more, and
SLOT_CANCEL withdraws a swap
before its last two slots (R225, R243, R245, R247, R465). -/
def Obligations.SlotCommandsFollowTheirTable : Prop :=
  ∀ (d w : Dev) (f i : Nat) (s : Stream) (r : Req),
    (∀ img : Plan, Serving d f 0x500 r w → Names w r i s → r.arg 4 ≤ 1 → 0 < r.arg 3 → Reaches w s.domain (r.arg64 1) (r.arg 3) →
        w.train i = none →
      let p := { img with index := i, domain := s.domain }
      let v := w.setRsv (w.rsv.charge s.domain (r.arg64 1) (r.arg 3))
      let dig := p.digest.toNat
      (w.planNamed p = false → r.arg 4 = 0 → ∃ e : Dev,
        Replies (.slotPlan f true img) d e r { res := [0, 0, dig % 2 ^ 32, dig / 2 ^ 32 % 2 ^ 32] } ∧ e = v.setPlans e.plans ∧ p ∈ e.plans
          ∧ ∀ q, (q.index ≠ i ∨ q.planno ≠ p.planno) → (q ∈ e.plans ↔ q ∈ w.plans))
      ∧ (w.planNamed p = false → r.arg 4 = 1 → (w.plan i p.planno).isSome = true → ∃ e : Dev,
        Replies (.slotPlan f true img) d e r { res := [0, 0, dig % 2 ^ 32, dig / 2 ^ 32 % 2 ^ 32] } ∧ e = v.setPlans e.plans
          ∧ e.plan i p.planno = none)
      ∧ (w.planNamed p = true → r.arg 4 = 1 → (w.plan i p.planno).isSome = true → Replies (.slotPlan f true img) d v r { status := 0x304 })
      ∧ Replies (.slotPlan f false img) d v r { status := 0x203 })
    ∧ (∀ img : Table, Serving d f 0x501 r w →
      (w.cad.swapAt.isSome = true → Replies (.slotLoad f true img) d w r { status := 0x100 })
      ∧ (w.cad.swapAt = none → 0 < r.arg 2 → Reaches w 0 (r.arg64 0) (r.arg 2) →
        (w.imageFault img = (0, 0) → (∀ n, (w.domain n).state ≠ 2) → ∃ e : Dev, Replies (.slotLoad f true img) d e r {}
            ∧ (∃ t, e.cad = w.cad.setTable w.cad.shadow (some t) ∧ BuiltFrom img t)
            ∧ e = { w with cad := e.cad, streams := e.streams, domains := e.domains, rsv := e.rsv } ∧ (∀ n, e.domain n = w.domain n)
            ∧ ∀ n x, x ∈ (img.runs.flatMap Prod.snd) → x.entry.isSome = true → x.handle = handleOf n (w.stream n) → (w.stream n).state ≠ 0 →
                (w.stream n).state ≠ 4 → e.stream n = { w.stream n with state := 2 })
        ∧ ((w.imageFault img).1 ≠ 0 → ∃ e : Dev,
            Replies (.slotLoad f true img) d e r { status := (w.imageFault img).1, detail := (w.imageFault img).2 } ∧ e.cad = w.cad
            ∧ e.streams = w.streams)
        ∧ ∃ e : Dev, Replies (.slotLoad f false img) d e r { status := 0x203 } ∧ e.cad = w.cad))
    ∧ (Serving d f 0x502 r w → w.cad.copy ≤ 1 →
      (w.cad.table w.cad.shadow = none → Replies (.slotCommit f) d w r { status := 0x303 })
      ∧ ∀ t, w.cad.table w.cad.shadow = some t → w.cad.swapAt = none → (w.pow.state = 1 → t.floor ≤ 1200) →
        (∀ c b k, w.admission t = some (c, b, k) →
          Replies (.slotCommit f) d w r { status := 0x500, detail := c + b * 2 ^ 8 + k * 2 ^ 16 })
        ∧ (w.admission t = none → w.notInstalled t = false →
          (∀ a, w.cad.activeTable = some a → 0 < a.slen * a.nslot → a.fstart ≤ w.ns →
            ∃ b n, b = a.fstart + n * (a.slen * a.nslot) ∧ w.ns + 2 * a.slen ≤ b ∧ b < w.ns + 2 * a.slen + a.slen * a.nslot
              ∧ (t.fstart = 0 ∨ t.fstart = b → Committed w f d r b)
              ∧ (t.fstart ≠ 0 → t.fstart ≠ b → Replies (.slotCommit f) d w r { status := 0x500, detail := 0x11 }))
          ∧ (w.cad.activeTable = none → ∃ b, b % 1000000000 = 0 ∧ w.ns + 2 * t.slen ≤ b ∧ b < w.ns + 2 * t.slen + 1000000000
              ∧ (t.fstart = 0 → Committed w f d r b)
              ∧ (t.fstart % 1000000000 = 0 → w.ns + 2 * t.slen ≤ t.fstart → 0 < t.fstart → Committed w f d r t.fstart)
              ∧ (t.fstart % 1000000000 = 0 → 0 < t.fstart → t.fstart < w.ns + 2 * t.slen →
                  Replies (.slotCommit f) d w r { status := 0x102 })
              ∧ (t.fstart % 1000000000 ≠ 0 → Replies (.slotCommit f) d w r { status := 0x500, detail := 0x11 }))))
    ∧ (Serving d f 0x503 r w →
      (w.cad.swapAt = none → Replies (.slotCancel f) d w r { status := 0x303 })
      ∧ ∀ t a, w.cad.swapAt = some t → w.cad.activeTable = some a →
        (w.ns + 2 * a.slen < t → Replies (.slotCancel f) d (w.setCad { w.cad with swapAt := none }) r {})
        ∧ (t ≤ w.ns + 2 * a.slen → Replies (.slotCancel f) d w r { status := 0x102 }))
    ∧ (∀ t, Serving d f 0x504 r w → r.arg 0 ≤ 1 → w.cad.table (r.arg 0) = some t → r.arg 1 < t.nslot →
        let seen := (Tab.at t.runs [] (r.arg 1)).filter (fun x => r.domain == 0 || r.domain == x.domain)
        (∀ x ∈ seen, x.entry.isSome = true) → ∃ e : Dev, Replies (.slotQuery f) d e r { payload := seen.flatMap (fun x => x.bytes 0) }
          ∧ e = { w with free := e.free })

namespace Sys2Proof.Spec

/-- Port `p` is UP with nothing waiting, and can send a frame of class 0 at once. -/
def Sendable (d : Dev) (p : Nat) : Prop :=
  let x := d.port p
  x.state = 3 ∧ x.queue = [] ∧ x.replay = [] ∧ x.txctr.toNat < 2 ^ 62 ∧ x.credits.length = 4 ∧ 0 < x.credits.getD 0 0

/-- From `w` to `e`, only the pair's registers, the mirror port, streams and what an event or a message writes have changed. -/
def PairOnly (w e : Dev) : Prop :=
  e = { w with pair := e.pair, ports := e.ports, streams := e.streams, funcs := e.funcs, fh := e.fh, hostMem := e.hostMem, out := e.out,
               free := e.free }

/-- Mode none from a boundary on: nothing of mirroring is left of a stream but its role (R340). -/
def modeNone (s : Stream) : Stream :=
  { s with mirror := 0, nmode := 0, susp := false, resyncing := false, promoted := false, postTags := [], deltaTags := [], coverTags := [],
           myDigests := [], twinDigests := [] }

end Sys2Proof.Spec

/-- PAIR_ATTACH names the twin and trains the mirror link; PAIR_DETACH tells the twin, or unpairs at once while the link is not UP; PAIR_MIRROR
sets a stream up within the shares while PAIRED, its mode waiting for its boundary, and is refused where the twin's plan digest differs; roles
change and mirroring ends at the boundary named. The role that PAIR_MIRROR gives is open (R321, R323 to R326, R340, R374); that the
twin hears of a detach by a MAP that names no stream is the model's reading (notes/assumptions/100.md). -/
def Obligations.PairCommandsFollowTheirTable : Prop :=
  ∀ (d w : Dev) (f i : Nat) (s : Stream) (r : Req),
    let q := w.port 4
    let bound (k : Nat) : Nat := w.frameAtOrAfter (max (r.arg64 k) w.ns)
    let words (t : Nat) : List Nat := [t % 2 ^ 32, t / 2 ^ 32 % 2 ^ 32]
    (Serving d f 0x600 r w → 48 ≤ r.payload.length →
      (w.pair.state = 0 → q.state = 0 → q.variant < 2 → ∃ e : Dev, Replies (.pairAttach f) d e r {} ∧ PairOnly w e ∧ e.pair.state = 1
          ∧ e.pair.twin = beNat (r.payload.take 48) ∧ e.pair.joinerr = 0 ∧ (e.port 4).enable = true ∧ (e.port 4).state = 1
          ∧ e.streams = w.streams)
      ∧ (w.pair.state = 0 → q.state = 3 → q.peerid ≠ beNat (r.payload.take 48) → ∃ e : Dev, Replies (.pairAttach f) d e r {} ∧ PairOnly w e
          ∧ e.pair.state = 1 ∧ e.pair.joinerr = 4 ∧ Downed e 4 5)
      ∧ (w.pair.state ≠ 0 → Replies (.pairAttach f) d w r { status := 0x303 }))
    ∧ (Serving d f 0x601 r w → (w.pair.state = 0 → Replies (.pairDetach f) d w r { status := 0x700 })
      ∧ (w.pair.state ≠ 0 → q.state ≠ 3 → ∃ e : Dev, Replies (.pairDetach f) d e r { res := words (bound 0) } ∧ PairOnly w e
          ∧ e.pair.state = 0 ∧ e.pair.twin = 0 ∧ e.pair.detachAt = some (bound 0) ∧ e.streams = w.streams)
      ∧ (w.pair.state ≠ 0 → Sendable w 4 → ∃ (e : Dev) (g : Frame), Replies (.pairDetach f) d e r { res := words (bound 0) } ∧ PairOnly w e
          ∧ e.pair = { w.pair with detachAt := some (bound 0), detached := true } ∧ e.streams = w.streams ∧ Sends w e 4 g ∧ g.cls = 0
          ∧ g.payload = leBytes 4 5 ++ List.replicate 20 0 ++ leBytes 8 (bound 0) ++ List.replicate 8 0))
    ∧ (∀ t, Quiet d → d.pair.detachAt = some t → ∃ e : Dev, Gives .detachApply d e ∧ e.cad.ct = ctAt d t
        ∧ (∀ n, e.stream n = if (d.stream n).mirror = 0 ∧ (d.stream n).nmode = 0 then d.stream n else modeNone (d.stream n))
        ∧ e.pair.detachAt = none
        ∧ (d.pair.detached = true → d.pair.twinDetached = true → e.pair.state = 0 ∧ e.pair.twin = 0)
        ∧ (d.pair.detached = false ∨ d.pair.twinDetached = false → e.pair.state = d.pair.state ∧ e.pair.twin = d.pair.twin))
    ∧ (Serving d f 0x602 r w →
      (w.pair.state ≠ 2 → Replies (.pairMirror f) d w r { status := 0x700 })
      ∧ (w.pair.state = 2 → Names w r i s →
        (r.arg 2 = 0 → ∃ e : Dev, Replies (.pairMirror f) d e r { res := words (bound 5) } ∧ PairOnly w e ∧ e.streams = w.streams
          ∧ e.pair.ends = w.pair.ends.filter (fun e => e.1 ≠ i) ++ [(i, bound 5)])
        ∧ (r.arg 2 = 1 ∨ r.arg 2 = 2 → r.arg 3 = 0 → Replies (.pairMirror f) d w r { status := 0x201, detail := 3 })
        ∧ ((r.arg 2 = 1 ∧ 2 ≤ r.arg 4 ∧ r.arg 4 ≤ 255) ∨ (r.arg 2 = 2 ∧ r.arg 4 = 0) → 0 < r.arg 3 →
          let dig (role : Nat) : W64 := w.plandigOf (r.arg 0) (if role = 1 then r.arg 4 else 0)
          let setUp (e : Dev) : Prop := ∃ role, role ≤ 1 ∧ (s.mirror ≠ 0 → s.role ≤ 1 → role = s.role) ∧ (∀ n, n ≠ i → e.stream n = w.stream n)
            ∧ e.stream i = { s with nmode := r.arg 2, nrole := role, twin := r.arg 1, mshare := r.arg 3, delay := r.arg 4, home := role == 0,
                                    susp := true, resyncing := true, fwdidx := s.sqHead, plandig := dig role }
          (195000 < w.shareSum i + r.arg 3 → Replies (.pairMirror f) d w r { status := 0x502 })
          ∧ (w.shareSum i + r.arg 3 ≤ 195000 → (s.mirror ≠ 0 → s.role ≤ 1) →
            (w.twinMap (r.arg 0) (r.arg 1) = none → ∃ e : Dev, Replies (.pairMirror f) d e r { res := words (bound 5) } ∧ PairOnly w e ∧ setUp e)
            ∧ ∀ m, w.twinMap (r.arg 0) (r.arg 1) = some m →
              (m.digest = (dig 0).toNat → m.digest = (dig 1).toNat → ∃ e : Dev, Replies (.pairMirror f) d e r { res := words (bound 5) }
                  ∧ setUp e ∧ e.rsv.mem = w.rsv.mem)
              ∧ (m.digest ≠ (dig 0).toNat → m.digest ≠ (dig 1).toNat → ∃ e : Dev, Replies (.pairMirror f) d e r { status := 0x303 }
                  ∧ PairOnly w e ∧ e.streams = w.streams)))))
    ∧ (Serving d f 0x603 r w → w.pair.state = 2 → Names w r i s → r.arg 1 ≤ 1 →
      (s.mirror = 2 → Replies (.pairRole f) d
        (w.setPair { w.pair with roles := w.pair.roles.filter (fun e => e.1 ≠ i) ++ [(i, r.arg 1, bound 2)] }) r { res := words (bound 2) })
      ∧ (s.mirror ≠ 2 → Replies (.pairRole f) d w r { status := 0x303 }))
    ∧ (∀ n t, Quiet d → d.pair.roles.find? (fun e => e.1 == i) = some (i, n, t) → d.stream i = s → s.mirror = 2 →
        ∃ e : Dev, Gives (.pairRoleApply i) d e ∧ e.cad.ct = ctAt d t ∧ e.stream i = { s with role := n, promoted := false }
          ∧ (∀ k, k ≠ i → e.stream k = d.stream k) ∧ e = { d with cad := e.cad, pair := e.pair, streams := e.streams })
    ∧ (Serving d f 0x604 r w → r.arg 0 ≠ 0xFFFFFFFF → Names w r i s →
        Replies (.pairQuery f) d w r { payload := s.pairst } ∧ s.pairst.length = 64)
    ∧ (Serving d f 0x604 r w → r.arg 0 = 0xFFFFFFFF →
        Replies (.pairQuery f) d w r { payload := (List.range 12).flatMap (fun k => leBytes 4 (w.mirWord (0x100 + 4 * k))) })

/-- JOIN makes the pair, or records why not, or waits in JOINING for a module's first table; a heartbeat clears HBMISS and gives MIR_SKEW; the
second heartbeat missed isolates the pair and promotes the standby; digests, MAPs, state copies, forwarded records and deltas reach their
stream, a warm standby applies no delta of a period it ran itself, mirroring takes effect at its boundary, and a hot standby covers a
period that no POST came for (R323 to R326, R330 to R341). That a stream whose digests differ is dropped with a pair event is the
model's reading (notes/assumptions/100.md). -/
def Obligations.PairMessagesReachTheirStream : Prop :=
  ∀ (d : Dev) (i h : Nat) (s : Stream), Quiet d → d.stream i = s →
    let known := d.streamOf h = some (i, s)
    let mirrored := s.mirror ≠ 0 ∨ s.nmode ≠ 0
    let pr := d.pair
    let fault (j : Join) : Nat := match d.cad.activeTable with
      | none => 0
      | some t => if j.slen = 0 then 0 else if j.slen ≠ t.slen ∨ j.nslot ≠ t.nslot then 2
                  else if j.fmod ≠ t.fstart % (t.slen * t.nslot) then 3 else 0
    (∀ j : Join, pr.state = 1 → (d.port 4).state = 3 → ∃ e : Dev, Gives (.join j) d e ∧ PairOnly d e ∧ e.streams = d.streams
      ∧ (j.version / 2 ^ 24 = d.fh.fwversion.toNat / 2 ^ 24 → fault j = 0 → d.cad.active = true → j.slen ≠ 0 →
        e.pair.state = 2 ∧ e.pair.joinerr = 0 ∧ e.pair.hbmiss = 0)
      ∧ (j.version / 2 ^ 24 = d.fh.fwversion.toNat / 2 ^ 24 → fault j = 0 → d.cad.active = false ∨ j.slen = 0 →
        e.pair.state = 1 ∧ e.pair.join = some j)
      ∧ (j.version / 2 ^ 24 ≠ d.fh.fwversion.toNat / 2 ^ 24 → e.pair.state = 1 ∧ e.pair.joinerr = 1)
      ∧ (j.version / 2 ^ 24 = d.fh.fwversion.toNat / 2 ^ 24 → fault j ≠ 0 → e.pair.state = 1 ∧ e.pair.joinerr = fault j))
    ∧ (∀ m : Heartbeat, pr.state ≠ 0 → ∃ e : Dev, Gives (.hb m) d e ∧ PairOnly d e ∧ e.pair.lasthb = d.ns ∧ e.pair.hbmiss = 0
      ∧ (m.lastSent ≠ 0 → e.pair.skew = -(Int.tdiv (((d.ns : Int) - m.sent) - ((m.lastArr : Int) - m.lastSent) - signedOf 16 (d.port 4).asym) 2)
        ∧ (1000 < e.pair.skew.natAbs → e.pair.skewhi = true ∧ (s.mirror ≠ 0 → pr.skewhi = false → (e.stream i).susp = true))
        ∧ (e.pair.skew.natAbs ≤ 800 → e.pair.skewhi = false)))
    ∧ (pr.state = 2 → d.cad.active = true → d.cad.strobed = true → pr.hbDone = false → 0 < d.slen →
      (pr.hbSlot = d.slotStart → ∃ e : Dev, Gives .hbCheck d e ∧ e.pair = { pr with hbDone := true } ∧ e.cad.ct = ctAt d (d.slotStart + 4000)
          ∧ e.streams = d.streams)
      ∧ (pr.hbSlot + d.slen ≤ d.slotStart → ∃ e : Dev, Gives .hbCheck d e ∧ (pr.hbmiss = 0 → e.pair.hbmiss = 1 ∧ e.pair.state = 2)
          ∧ (pr.hbmiss = 1 → e.pair.hbmiss = 2 ∧ e.pair.state = 3 ∧ ∀ n, (d.stream n).standby = true →
              e.stream n = { d.stream n with role := 0, promoted := true, npromote := (d.stream n).npromote + 1 })))
    ∧ (∀ tag idx, known → s.mirror ≠ 0 → ∃ e : Dev, Gives (.postMsg h tag idx) d e ∧ e = { d with streams := e.streams }
        ∧ (e.stream i).lastpost = tag ∧ (s.role = 1 → tag ∈ (e.stream i).postTags ∧ (e.stream i).cqTail = (idx + 1) % 2 ^ s.cqLog))
    ∧ (∀ tag len code g, known → s.mirror = 2 →
      (Tab.find? s.myDigests tag = none → ∃ e : Dev, Gives (.digestMsg h tag len code g) d e
          ∧ StreamSet d e i { s with twinDigests := Tab.put s.twinDigests tag g })
      ∧ (∀ own, Tab.find? s.myDigests tag = some own → ∃ e : Dev, Gives (.digestMsg h tag len code g) d e
          ∧ (own = g → e.pair = pr ∧ (e.stream i).nmismatch = s.nmismatch)
          ∧ (own ≠ g → e.pair.mismatchcnt = pr.mismatchcnt + 1 ∧ (e.stream i).nmismatch = s.nmismatch + 1
            ∧ e.pair.resyncs = pr.resyncs ++ [(i, d.nextFrame, false)])))
    ∧ (∀ m : MapMsg, pr.state ≠ 0 → m.other = h → h ≠ 0 → known → mirrored → s.twin = m.own → m.mode ≠ 0 →
      (m.digest ≠ s.plandig.toNat → ∃ e : Dev, Gives (.mapMsg m) d e ∧ PairOnly d e ∧ (∀ n, n ≠ i → e.stream n = d.stream n)
          ∧ e.stream i = { s with nmode := 0, resyncing := false, susp := s.mirror != 0 && pr.skewhi } ∧ (∀ t, (i, t) ∉ e.pair.mirrors))
      ∧ (m.digest = s.plandig.toNat → ∃ e : Dev, Gives (.mapMsg m) d e ∧ e.rsv.mem = d.rsv.mem ∧ (∀ n, n ≠ i → e.stream n = d.stream n)
          ∧ e.stream i = (if s.resyncing then { s with susp := true } else s)))
    ∧ (∀ m : MapMsg, pr.state ≠ 0 → m.own = 0 → m.other = 0 →
      (pr.detached = false ∨ pr.detachAt.isSome = true → Gives (.mapMsg m) d
          (d.setPair { pr with twinDetached := true,
                               detachAt := some (match pr.detachAt with | some w => min w m.boundary | none => m.boundary) }))
      ∧ (pr.detached = true → pr.detachAt = none → ∃ e : Dev, Gives (.mapMsg m) d e ∧ PairOnly d e ∧ e.pair.state = 0 ∧ e.pair.twin = 0
          ∧ e.streams = d.streams))
    ∧ (∀ t n done, known → mirrored → s.nextRole = 1 → ∃ e : Dev, Gives (.resyncMsg h t n done) d e ∧ (e.stream i).susp = true
        ∧ (done = false → e.rsv = d.rsv ∧ (e.stream i).descs = s.descs)
        ∧ (done = true → (e.stream i).descs = []
          ∧ e.pair.mirrors.find? (fun m => m.1 == i) = some (i, d.frameAtOrAfter (max t (d.ns + 2 * d.slen)))))
    ∧ (∀ t, pr.ends.find? (fun e => e.1 == i) = none → pr.mirrors.find? (fun e => e.1 == i) = some (i, t) → mirrored →
        ∃ e : Dev, Gives (.mirrorApply i) d e ∧ e.cad.ct = ctAt d t
          ∧ (s.nmode ≠ 0 → e.stream i = { s with mirror := s.nmode, role := s.nrole, nmode := 0, promoted := false, resyncing := false,
                                                 susp := pr.skewhi })
          ∧ (s.nmode = 0 → e.stream i = { s with resyncing := false, susp := pr.skewhi }))
    ∧ (∀ t, pr.ends.find? (fun e => e.1 == i) = some (i, t) → mirrored →
        ∃ e : Dev, Gives (.mirrorApply i) d e ∧ e.cad.ct = ctAt d t ∧ e.stream i = modeNone s)
    ∧ (∀ ib entry idx ct data, s.standby = true → pr.state = 2 → s.state = 2 ∨ s.state = 3 → s.freeIb = some ib →
        data.length = (descOf entry idx ib).len → data.length ≤ s.slotkb * 1024 →
        let a := s.ibuf + ib * s.slotkb * 1024
        a + data.length ≤ 0x6000000000 → d.rsv.owned s.domain a data.length = true → Whole64 d a data.length →
        ∃ e : Dev, Gives (.forwardRecord i entry idx ct data) d e ∧ (e.stream i).fwdidx = (idx + 1) % 2 ^ s.sqLog
          ∧ (e.stream i).descs = s.descs ++ [{ descOf entry idx ib with arr := some (ct * 65536), fwd := true }]
          ∧ Mem.readBytes e.rsv.mem a data.length = data ∧ (∀ p, (p < a ∨ a + data.length ≤ p) → Mem.read e.rsv.mem p = Mem.read d.rsv.mem p)
          ∧ e = { d with pair := e.pair, streams := e.streams, rsv := e.rsv })
    ∧ (∀ tag ws, s.standby = true → s.mirror = 1 → tag ∈ s.coverTags → ∃ e : Dev, Gives (.deltaRecord i tag ws) d e
        ∧ tag ∈ (e.stream i).deltaTags ∧ e.rsv = d.rsv)
    ∧ (∀ tag bs a pl, s.standby = true → s.mirror = 1 → s.period = none → tag ∉ s.coverTags → d.plan i s.planno = some pl →
        (∀ k ∈ pagesOf a bs.length, k ∈ pl.statePages) → ∃ e : Dev, Gives (.deltaRecord i tag [(a, bs)]) d e ∧ tag ∈ (e.stream i).deltaTags
          ∧ Mem.readBytes e.rsv.mem a bs.length = bs ∧ ∀ p, (p < a ∨ a + bs.length ≤ p) → Mem.read e.rsv.mem p = Mem.read d.rsv.mem p)
    ∧ (∀ p x, s.due.find? (fun q => q.fail == 0) = some p → p.desc = some x → s.mirror = 2 → s.role = 1 →
        Tab.find? s.twinDigests p.tag = none → Reaches d s.domain s.obuf (p.out x).1 →
        let start := if s.fixedpost then p.postEnd else p.postCt.getD 0
        let check := start + 3000 + (if pr.skewhi then pr.skew.natAbs else 0)
        ∃ e : Dev, Gives (.hotCoverCheck i) d e
          ∧ e.cad.ct = ctAt d (if p.tag ∈ s.postTags then check
                               else check + shareNs (if s.fixedpost then p.outsize else (p.out x).1) s.eshare)
          ∧ (e.stream i).due = s.due.erase p
          ∧ (p.tag ∈ s.postTags → (e.stream i).ncover = s.ncover ∧ (e.stream i).ncpl = s.ncpl ∧ e.pair.covercnt = pr.covercnt)
          ∧ (p.tag ∉ s.postTags → (e.stream i).ncover = s.ncover + 1 ∧ e.pair.covercnt = pr.covercnt + 1))

namespace Sys2Proof.Spec

/-- ARG0 names training stream `i` with entry `s` and context `t`. -/
def NamesTrain (w : Dev) (r : Req) (i : Nat) (s : Stream) (t : Train) : Prop := Names w r i s ∧ w.train i = some t

/-- The training context that TRAIN_CREATE's payload gives: words 0x04 to 0x4F, RTAG and bucket records (R277, R284, R374). -/
def contextOf (p : List Byte) : Train :=
  let ws := wordsOf (p.drop 76)
  { ({} : Train).setWords [] ws with buckets := bucketsOf (p.drop 156) (ws.getD 9 0), rtag := leNat ((p.drop 152).take 4),
                                     period := BitVec.ofNat 64 (ws.getD 3 0 + ws.getD 4 0 * 2 ^ 32) }

/-- From `w` to `e`, the context of stream `i` has become `t`, and nothing else has changed. -/
def TrainSet (w e : Dev) (i : Nat) (t : Train) : Prop :=
  e = { w with trains := e.trains } ∧ e.train i = some t ∧ ∀ n, n ≠ i → e.train n = w.train n

end Sys2Proof.Spec

/-- A training stream is created with its context where rank, ring and RTAG fit the topology; changes wait for the period they name and come
two slots before it or not at all; a fill writes the counter generator's outputs; state is loaded, from the twin with its SEED and the PERIOD
after it, and checkpoint slots are reserved (R273, R277, R278, R292, R295, R296, R374). A rank that was resynchronised takes part again so
many period starts away as its PERIOD said when the command came, the model's reading (notes/assumptions/101.md). -/
def Obligations.TrainCommandsFollowTheirTable : Prop :=
  ∀ (d w : Dev) (f i : Nat) (s : Stream) (t : Train) (r : Req),
    (let p := r.payload
     let x := streamOfBytes p
     let c := contextOf p
     let n := (wordsOf (p.drop 76)).getD 9 0
     Serving d f 0x700 r w → 156 + 32 * n ≤ p.length → x.kind = 2 → c.fits n = true → bucketsBad c.buckets = false →
      (c.rank = w.link.rank → c.nrank = w.link.nrank → (∀ q ∈ w.trains, q.2.rtag ≠ c.rtag) → w.shareSum 65536 + c.share ≤ 195000 →
        r.domain = 0 ∨ r.domain = x.domain → (w.domain x.domain).state = 1 → w.streamFits x = true →
        w.streamsOf x.domain < (w.domain x.domain).maxStreams → (∃ k, k < 65536 ∧ (w.stream k).state = 0) →
        (∀ q ∈ w.plans, (w.stream q.index).state ≠ 0) → c.bucketsAddr + 32 * n ≤ 0x6000000000 →
        w.rsv.owned x.domain c.bucketsAddr (32 * n) = true →
        ∃ (e : Dev) (k : Nat), Replies (.trainCreate f) d e r { res := [k * 65536 + ((w.stream k).gen + 1)] } ∧ k < 65536
          ∧ (w.stream k).state = 0 ∧ e.train k = some c ∧ (e.stream k).state = 1 ∧ (e.stream k).kind = 2
          ∧ (∀ m, m ≠ k → e.stream m = w.stream m ∧ e.train m = w.train m)
          ∧ Mem.readBytes e.rsv.mem c.bucketsAddr (32 * n) = (p.drop 156).take (32 * n)
          ∧ e = { w with streams := e.streams, trains := e.trains, rsv := e.rsv, free := e.free })
      ∧ (c.rank ≠ w.link.rank ∨ c.nrank ≠ w.link.nrank ∨ (∃ q ∈ w.trains, q.2.rtag = c.rtag) →
        Replies (.trainCreate f) d w r { status := 0x503 }))
    ∧ (Serving d f 0x701 r w → NamesTrain w r i s t → t.phases.length = 5 →
        Replies (.trainQuery f) d w r { payload := t.bytes (handleOf i s) } ∧ (t.bytes (handleOf i s)).length = 256)
    ∧ (let ws := wordsOf r.payload
       let u := t.setWords [] ws
       Serving d f 0x702 r w → NamesTrain w r i s t → 76 ≤ r.payload.length → u.fits (ws.getD 9 0) = true →
        w.shareSum 65536 - t.share + u.share ≤ 195000 →
      (w.tooLate i (r.arg64 1) t = false → ∃ e : Dev, Replies (.trainSet f) d e r {}
          ∧ TrainSet w e i { t with pendSet := t.pendSet ++ [(r.arg64 1, ws)] })
      ∧ (s.period.isSome = true → r.arg64 1 ≤ t.period.toNat → Replies (.trainSet f) d w r { status := 0x102 }))
    ∧ (Serving d f 0x703 r w → NamesTrain w r i s t → r.arg 3 ≤ 3 →
      (w.tooLate i (r.arg64 1) t = false → ∃ e : Dev, Replies (.trainState f) d e r {}
          ∧ TrainSet w e i { t with pendState := t.pendState ++ [(r.arg64 1, r.arg 3)] })
      ∧ (s.period.isSome = true → r.arg64 1 ≤ t.period.toNat → Replies (.trainState f) d w r { status := 0x102 }))
    ∧ (let n := r.arg 5
       let a := leNat (r.payload.take 8)
       Serving d f 0x704 r w →
      (1 ≤ n → n ≤ 4194304 → r.arg64 3 + n ≤ 2 ^ 64 → 8 ≤ r.payload.length → a + 16 * n ≤ 0x6000000000 →
        w.rsv.owned r.domain a (16 * n) = true → ∃ e : Dev, Replies (.trainFill f) d e r {} ∧ e = w.setRsv e.rsv
          ∧ (∀ k, k < n → Mem.readBytes e.rsv.mem (a + 16 * k) 16 = sprayBytes (r.arg64 0) (r.arg 2) (r.arg64 3 + k))
          ∧ ∀ p, (p < a ∨ a + 16 * n ≤ p) → Mem.read e.rsv.mem p = Mem.read w.rsv.mem p)
      ∧ (2 ^ 64 < r.arg64 3 + n → Replies (.trainFill f) d w r { status := 0x201, detail := 5 }))
    ∧ (∀ st seed period, Serving d f 0x705 r w → NamesTrain w r i s t → st ≠ [] → r.arg 1 = 0xFF ∨ (r.arg 1 < t.nrank ∧ r.arg 1 ≠ t.rank) →
        ∃ e : Dev, Replies (.trainResync f st seed period) d e r {} ∧ e = { w with trains := e.trains, rsv := e.rsv }
          ∧ e.train i = some { t with
              resumeAt := some (r.arg64 2, max 1 (r.arg64 2 + (if s.period.isSome then 0 else 1) - t.period.toNat)),
              seed := if r.arg 1 = 0xFF then seed else t.seed, period := if r.arg 1 = 0xFF then period + 1 else t.period })
    ∧ (∀ st seed period, Serving d f 0x706 r w → NamesTrain w r i s t → st ≠ [] →
        let n := (period + 1).toNat
        ∃ e : Dev, Replies (.trainRestore f st seed period) d e r { res := [n % 2 ^ 32, n / 2 ^ 32 % 2 ^ 32] }
          ∧ e = { w with trains := e.trains, rsv := e.rsv } ∧ e.train i = some { t with seed := seed, period := period + 1 })
    ∧ (let k := 2 * r.arg 1
       Serving d f 0x707 r w → 0 < r.arg 1 → (w.ownPages r.domain).length + k ≤ (w.domain r.domain).maxPages →
        Tab.find? w.areas (r.arg 0) = none → (∃ p, p < 195584 ∧ ∀ j, j < k → w.pageFree (p + j) = true) →
        ∃ (e : Dev) (p : Nat), Replies (.trainCkptReserve f) d e r { res := [p * 0x200000 % 2 ^ 32, p * 0x200000 / 2 ^ 32 % 2 ^ 32] }
          ∧ Tab.find? e.areas (r.arg 0) = some (p * 0x200000, r.arg 1, r.domain)
          ∧ (∀ j, j < k → w.pageFree (p + j) = true ∧ pageAt e (p + j) = { valid := true, scrub := false, owner := r.domain })
          ∧ e = { w with areas := e.areas, rsv := e.rsv, free := e.free })

/-- At its send time a rank sends its contribution, once the runs that produce it have retired, or is late; partials, final results,
compressed contributions and blocks are kept, as their frames placed them or as the command gives them, and passed on; without every
final result at OPTOFF the rank is DIVERGED; a checkpoint starts, waits while an earlier copy goes on, commits or is abandoned, and
the twin stores only into the area reserved (R282, R283, R285, R286, R289 to R295, R313). -/
def Obligations.TrainingMessagesMoveTheExchange : Prop :=
  ∀ (d : Dev) (i k : Nat) (t : Train) (b : Bucket) (p : Period), Quiet d → d.train i = some t → t.buckets[k]? = some b →
    let s := d.stream i
    let h := handleOf i s
    let bucket (e : Dev) (c : Bucket) : Prop := (e.train i).map (fun u => u.buckets[k]?) = some (some c)
    (s.period = some p → b.sent = false → t.residualZero = false → t.flushEf = false → b.partIn = false → t.diverged = true →
        ∃ e : Dev, Gives (.bucketSend i k) d e ∧ e.cad.ct = ctAt d (t.sendAt b) ∧ e.rsv = d.rsv
          ∧ e.train i = some { t with nlate := t.nlate + 1, buckets := t.buckets.set k { b with sent := true, late := true, owed := false } })
    ∧ (s.period = some p → p.desc.isSome = true → b.sent = false → b.late = false → b.partIn = false → b.carried = false →
        t.residualZero = false → t.flushEf = false → t.diverged = false → t.abandoned = false → t.tstate = 1 → t.rank = 0 → 1 < t.nrank →
        (∀ q ∈ d.periodRuns i, ∀ st, d.planStep q.2 = some st → k ∈ st.makes → (q.2.planStep, q.2.lbasin) ∈ t.doneRuns) →
        d.link.mode = 1 → (d.port 1).state ≠ 3 → (d.port 0).state = 3 → (d.port 0).queue = [] → (d.port 0).replay.length < 64 →
        (d.port 0).credits.length = 4 → 0 < (d.port 0).credits.getD 0 0 → (d.port 0).txctr.toNat < 2 ^ 62 → 4096 ≤ b.bytes → b.bytes % 4096 = 0 →
        ∃ (e : Dev) (g : Frame) (w : List Byte), Gives (.bucketSend i k) d e ∧ e.cad.ct = ctAt d (t.sendAt b) ∧ e.rsv = d.rsv.moved b.bytes
          ∧ bucket e { b with sent := true, restarted := false } ∧ .frame 0 g w ∈ e.out ∧ g.cls = 0 ∧ g.rtag = t.rtag ∧ g.bucket = k % 4096
          ∧ g.index = 0 ∧ g.payload = Mem.readBytes d.rsv.mem b.addr 4096)
    ∧ (∀ data mask bs ms, d.arrived t 0 k b.bytes data mask = (bs, ms) → t.tstate = 1 → 0 < t.rank → b.partIn = false → bs.length = b.bytes →
        s.period.isSome = true → ms < 2 ^ 64 →
      (b.restarted = true → ∃ e : Dev, Gives (.chainPartial i k data mask) d e ∧ e.train i = some { t with ndrop := t.ndrop + 1 }
          ∧ e.rsv = d.rsv ∧ e.out = d.out)
      ∧ (b.restarted = false → b.sent = false → ∃ e : Dev, Gives (.chainPartial i k data mask) d e
          ∧ bucket e { b with partIn := true, part := bs, mask := ms } ∧ e.rsv = d.rsv ∧ e.out = d.out))
    ∧ (∀ data mask bs ms, d.arrived t 1 k b.bytes data mask = (bs, ms) → t.tstate = 1 → t.rank = 0 → 1 < t.nrank → b.done = false →
        b.owed = false → bs.length = b.bytes → b.bytes % 4 = 0 → s.period.isSome = true → ms < 2 ^ 64 → b.addr + b.bytes ≤ 0x6000000000 →
        d.rsv.owned s.domain b.addr b.bytes = true → Whole64 d b.addr b.bytes →
        ∃ e : Dev, Gives (.finalResult i k data mask) d e ∧ bucket e { b with done := true, mask := ms }
          ∧ Mem.readBytes e.rsv.mem b.addr b.bytes = bs ∧ e.out = d.out
          ∧ ∀ a, (a < b.addr ∨ b.addr + b.bytes ≤ a) → Mem.read e.rsv.mem a = Mem.read d.rsv.mem a)
    ∧ (∀ data mask, d.begun t 0 k = false → d.arrived t 0 k b.bytes data mask = (data, mask))
    ∧ (∀ n data, t.tstate ≠ 1 → n ≠ t.rank → n < t.nrank → Tab.find? b.contribs n = none → s.period.isSome = true → b.done = false →
      (d.ns ≤ t.startCt + t.optoff → b.contribs.length + 1 < t.nrank → ∃ e : Dev, Gives (.compressedContribution i k n data) d e
          ∧ bucket e { b with contribs := Tab.put b.contribs n data } ∧ e.rsv = d.rsv)
      ∧ (t.startCt + t.optoff < d.ns → ∃ e : Dev, Gives (.compressedContribution i k n data) d e ∧ bucket e b ∧ e.rsv = d.rsv ∧ e.out = d.out))
    ∧ (∀ c data, c ≤ t.rank →
        let bs := if c < t.rank ∧ d.begun t 3 c = true then d.assembled t 3 c else data
        ∃ e : Dev, Gives (.kvBlock i c data) d e ∧ e.train i = some { t with kv := Tab.put t.kv c bs } ∧ (t.nrank = t.rank + 1 → e.out = d.out))
    ∧ (∀ c data, t.rank < c → Gives (.kvBlock i c data) d d)
    ∧ (s.period = some p → t.optOk = true → t.tstate = 1 →
      ((∀ x ∈ t.buckets, x.done = true) → Gives (.optoffCheck i) d (d.atNs (t.startCt + t.optoff)))
      ∧ (b.done = false → (∀ x ∈ t.buckets, x.owed = false) → ∃ e : Dev, Gives (.optoffCheck i) d e ∧ e.cad.ct = ctAt d (t.startCt + t.optoff)
          ∧ e.train i = some { t with diverged := true, optOk := false, ndiverge := t.ndiverge + 1 } ∧ e.rsv = d.rsv))
    ∧ (s.period = some p → t.twinoff ≠ 0 → t.abandoned = false →
        ∃ e : Dev, Gives (.offloadFetchFailure i) d e ∧ TrainSet d e i { t with abandoned := true, nabandon := t.nabandon + 1 })
    ∧ (∀ n, t.ckCopy = none → t.ckDue = some n ∨ (t.ckDue = none ∧ s.period = some p ∧ n = t.period.toNat ∧ t.ckEvery ≠ 0 ∧ n % t.ckEvery = 0
          ∧ t.ckLast ≠ some n ∧ (t.phases.getD 3 {}).fin.isSome = true ∧ d.phaseOpen i 3 t.startCt = false) →
        ∃ e : Dev, Gives (.checkpointStart i) d e ∧ e.rsv.mem = d.rsv.mem ∧ e.rsv.pages = d.rsv.pages
          ∧ e.train i = some { t with ckCopy := some (n, 1 - t.ckSlot, d.ns, t.seed.toNat), ckDue := none, ckLast := some n })
    ∧ (∀ n slot start seed, t.ckCopy = some (n, slot, start, seed) →
      (d.twinBusy i = false → (d.port 4).state = 3 → ∃ e : Dev, Gives (.checkpointCommit i) d e
          ∧ e.train i = some { t with ckCopy := none, ckSlot := slot, ckstep := BitVec.ofNat 64 n, nckpt := t.nckpt + 1 } ∧ e.rsv = d.rsv)
      ∧ (n + 2 < t.period.toNat ∨ (n + 2 = t.period.toNat ∧ (t.phases.getD 3 {}).first.isSome = true) →
        ∃ e : Dev, Gives (.checkpointAbandon i) d e ∧ e.train i = some { t with ckCopy := none, nckfail := t.nckfail + 1 } ∧ e.rsv = d.rsv))
    ∧ (∀ n, t.ckCopy = none → t.ckDue = some n →
        n + 2 < t.period.toNat ∨ (n + 2 = t.period.toNat ∧ (t.phases.getD 3 {}).first.isSome = true) →
        ∃ e : Dev, Gives (.checkpointAbandon i) d e ∧ e.train i = some { t with ckDue := none, nckfail := t.nckfail + 1 } ∧ e.rsv = d.rsv)
    ∧ (∀ a n dom addr data, Tab.find? d.areas h = some (a, n, dom) →
      (a ≤ addr → addr + data.length ≤ a + 2 * n * 0x200000 → d.rsv.owned dom addr data.length = true →
        ∃ e : Dev, Gives (.twinStoreData h addr data) d e ∧ Mem.readBytes e.rsv.mem addr data.length = data
          ∧ (∀ q, (q < addr ∨ addr + data.length ≤ q) → Mem.read e.rsv.mem q = Mem.read d.rsv.mem q)
          ∧ e = { d with rsv := e.rsv, pair := e.pair })
      ∧ (addr < a ∨ a + 2 * n * 0x200000 < addr + data.length → ∃ e : Dev, Gives (.twinStoreData h addr data) d e ∧ e.rsv = d.rsv))

/-- FLAGS commands read and clear a stream's flag word and counts; registers are read and written at their device address by R375, and by
the host directly; event queues, the supervisor's buffer and the log are read and set; a Euparum request over MCTP is answered on
the bus (R82, R83, R374 to R379). -/
def Obligations.FlagRegisterEventAndLogCommands : Prop :=
  ∀ (d w : Dev) (f i : Nat) (s : Stream) (r : Req),
    let two (v : Nat) : List Nat := [v % 2 ^ 32, v / 2 ^ 32 % 2 ^ 32]
    (Serving d f 0x800 r w → Names w r i s → Replies (.flagsRead f) d w r
      { res := [s.flags.toNat] ++ two s.novf ++ two s.nsat ++ two s.nvan ++ [s.novb.toNat, s.ntrunc.toNat] })
    ∧ (Serving d f 0x801 r w → Names w r i s →
        let c := s.flags &&& ~~~(BitVec.ofNat 32 (r.arg 1))
        ∃ e : Dev, Replies (.flagsClear f) d e r {} ∧ StreamSet w e i (if bitOf (r.arg 2) 0 then
          { s with flags := c, novf := 0, nsat := 0, nvan := 0, novb := 0, ntrunc := 0 } else { s with flags := c }))
    ∧ (∀ u o, Serving d f 0x900 r w → r.arg 2 = 4 ∨ r.arg 2 = 8 → 1 ≤ r.arg 3 → r.arg 3 ≤ 512 →
      (r.arg64 0 % r.arg 2 = 0 → regTarget (r.arg64 0) (r.arg 2 * r.arg 3) = .reg u o →
        (r.domain = 0 → ¬ (u < 272 ∧ (w.basin u).seq.active.isSome = true) → ∃ (e : Dev) (x : Resp), Replies (.regRead f) d e r x
          ∧ e = w.setCad e.cad ∧ x.status = 0 ∧ (40 < r.arg 2 * r.arg 3 → x.payload.length = r.arg 2 * r.arg 3)
          ∧ (u ≠ 0x1F1 → r.arg 2 = 4 → r.arg 3 = 1 → e = w ∧ x.res = [w.regWord u o % 2 ^ 32]))
        ∧ (r.domain ≠ 0 → (∃ k, k < r.arg 2 * r.arg 3 / 4 ∧ granted u (o + 4 * k) = false) →
          Replies (.regRead f) d w r { status := 0x300 })
        ∧ (r.domain = 0 → u < 272 → (w.basin u).seq.active.isSome = true → 0x2000 ≤ o → o < 0x211C →
          Replies (.regRead f) d w r { status := 0x100 }))
      ∧ (r.arg64 0 % r.arg 2 ≠ 0 → Replies (.regRead f) d w r { status := 0x201 })
      ∧ (r.arg64 0 % r.arg 2 = 0 → regTarget (r.arg64 0) (r.arg 2 * r.arg 3) = .denied → Replies (.regRead f) d w r { status := 0x300 }))
    ∧ (∀ u o, Serving d f 0x901 r w → r.arg 2 = 4 → r.arg64 0 % 4 = 0 → regTarget (r.arg64 0) 4 = .reg u o →
      let v := r.arg 3
      (u = 0x1F1 → o = 0x18 → Replies (.regWrite f) d (w.setCad { w.cad with holdlim := BitVec.ofNat 32 v }) r {})
      ∧ (u = 0x1F3 → o = 0x08 → Replies (.regWrite f) d (w.setPow { w.pow with wakeen := v % 64 }) r {})
      ∧ (u = 0x1F2 → Replies (.regWrite f) d w r {})
      ∧ (u < 272 → o = 0x2100 → ∃ e : Dev, Replies (.regWrite f) d e r {} ∧ e = w.setBasins e.basins ∧ (∀ n, n ≠ u → e.basin n = w.basin n)
          ∧ e.basin u = { w.basin u with flags := { (w.basin u).flags with csc := (w.basin u).flags.csc &&& ~~~(BitVec.ofNat 32 (v % 256)) } })
      ∧ (u < 272 → o = 0 → ∃ e : Dev, Replies (.regWrite f) d e r {} ∧ e = w.setBasins e.basins ∧ ∀ n, e.basin n = w.basin n))
    ∧ (∀ (a : Nat) (v : W64), Quiet d → a % 4 = 0 →
      (regTarget a 4 = .reg 0x1F3 0x08 → Gives (.registerWrite none a 4 v) d (d.setPow { d.pow with wakeen := v.toNat % 64 }))
      ∧ (regTarget a 4 = .reg 0x1F2 0x600 → Gives (.registerWrite none a 4 v) d d)
      ∧ (f < 256 → (d.func f).inReset = false → (d.func f).enable = false → v.toNat < 2 ^ 32 → Gives (.registerWrite (some f) 0x1000 4 v) d
          (d.putFunc f { d.func f with reqbase := (d.func f).reqbase / 2 ^ 32 * 2 ^ 32 + v.toNat / 4096 * 4096 })))
    ∧ (Serving d f 0xE00 r w → r.arg64 0 % 4096 = 0 → 6 ≤ r.arg 2 → r.arg 2 ≤ 14 → r.arg 3 % 2048 < (if f = 0 then 2048 else 256) →
        Replies (.eventConfig f) d (w.putFunc f { w.func f with
          evqBase := r.arg64 0, evqLog := r.arg 2, evqVector := r.arg 3 % 2048, evqEnable := bitOf (r.arg 3) 31,
          evqMask := BitVec.ofNat 32 (r.arg 4), evqHead := 0, evqTail := 0, evqPhase := 1, evqLost := 0, evqSet := true }) r {})
    ∧ (Serving d f 0xE01 r w → Replies (.eventQuery f) d w r
        { res := two (w.func f).evqBase ++ [(w.func f).evqLog] ++ two (w.func f).evqLostTotal.toNat })
    ∧ (Serving d f 0xE02 r w → 1 ≤ r.arg 0 → r.arg 0 ≤ 32 → ∃ (e : Dev) (p : List Byte), Replies (.eventFetch f) d e r { payload := p }
        ∧ e.fh.supBuf = w.fh.supBuf.drop (r.arg 0) ∧ p.length = 32 * min (r.arg 0) w.fh.supBuf.length
        ∧ (∀ k x, k < r.arg 0 → w.fh.supBuf[k]? = some x → leNat ((p.drop (32 * k)).take 2) = x.type % 2 ^ 16
            ∧ leNat ((p.drop (32 * k + 8)).take 8) = x.ct % 2 ^ 64) ∧ e = { w with fh := e.fh, free := e.free })
    ∧ (Serving d f 0xF00 r w → r.arg64 0 + r.arg 2 ≤ 0x2F00000 → r.arg 2 ≤ 4096 → ∃ e : Dev,
        Replies (.logRead f) d e r { payload := (Mem.readBytes w.boot.log (r.arg64 0) (r.arg 2)).map (fun b => ~~~b) }
        ∧ e = w.setBoot e.boot ∧ e.boot.log = w.boot.log ∧ e.boot.fuses = w.boot.fuses)
    ∧ (Serving d f 0xF01 r w → ∃ e : Dev, Replies (.logClear f) d e r {} ∧ e = w.setBoot e.boot ∧ (∀ a, Mem.read e.boot.log a = 0)
        ∧ e.boot.areas = w.boot.areas ∧ e.boot.fuses = w.boot.fuses)
    ∧ (Serving d f r.opcode r w → permOf r.opcode = none → Replies (.unknownOpcode f) d w r { status := 0x200 })
    ∧ (∀ slot pay sig bad, d.aonOn = true → d.boot.retired = false → slot.length = 64 → pay.length ≤ 4096 →
        let op := leNat (slot.take 2)
        let answered (st : Nat) : Prop := ∃ (e : Dev) (b p : List Byte), Gives (.mctpRequest slot pay sig bad) d e
          ∧ e.out = d.out ++ [.mctp b p] ∧ leNat ((b.drop 4).take 2) = st ∧ e = { d with out := e.out, fh := e.fh, free := e.free }
        (op = 0x100 → leNat ((slot.drop 0x14).take 4) ≤ 4096 → answered 0) ∧ (op = 0x400 → answered 0x300) ∧ (op = 0x0FFF → answered 0x200)
        ∧ (op = 0xA00 → d.boot.ready = false → answered 0x303)
        ∧ (op = 0xB01 → d.boot.ready = true → leNat ((slot.drop 0x14).take 4) ≤ 4096 → leNat ((slot.drop 0x20).take 4) = 1 →
            d.floorHigh = true → d.pow.moving = true ∨ d.pow.stable = 3 → answered 0x501))

namespace Sys2Proof.Spec

/-- From `w` to `e`, CT has stepped: what is timed from a CT, and boundaries that wait, have moved with it (notes/assumptions/97.md), and
nothing else has changed. -/
def CtStepped (w e : Dev) : Prop :=
  e = { w with cad := e.cad, basins := e.basins, streams := e.streams, trains := e.trains, lib := e.lib, rsv := e.rsv, hw := e.hw, fh := e.fh,
               ports := e.ports, pair := e.pair, flt := e.flt, pow := e.pow, boot := e.boot, still := e.still, md := e.md }
    ∧ (∀ n, e.basin n = { w.basin n with cis := (e.basin n).cis })
    ∧ (∀ i, e.stream i = { w.stream i with period := (e.stream i).period, due := (e.stream i).due })
    ∧ e.rsv = { w.rsv with ctrls := e.rsv.ctrls } ∧ e.lib = { w.lib with queued := e.lib.queued }
    ∧ e.boot = { w.boot with stepCt := e.boot.stepCt, backoff := e.boot.backoff, recovery := e.boot.recovery }
    ∧ e.cad.table0 = w.cad.table0 ∧ e.cad.table1 = w.cad.table1 ∧ e.cad.dev = w.cad.dev ∧ e.cad.sel = w.cad.sel

end Sys2Proof.Spec

/-- TIME and POWER commands read and set what they name; a change between Run and Trim needs no floor above 1.2 GHz, leaving READY needs
an idle table, and the sequencer then goes step by step, each within its limit, until it rests (R31, R235, R237, R319, R384 to
R386, R393, R397 to R399, R448). -/
def Obligations.TimeAndPowerCommandsFollowTheirTable : Prop :=
  ∀ (d w : Dev) (f : Nat) (r : Req),
    let two (v : Nat) : List Nat := [v % 2 ^ 32, v / 2 ^ 32 % 2 ^ 32]
    let p := w.pow
    (Serving d f 0xA00 r w → Replies (.timeQuery f) d w r
      { res := two w.ns ++ [w.cad.ct % 65536, w.cadWord 0xC, w.cadWord 0x10, w.cadWord 0x14] })
    ∧ (Serving d f 0xA01 r w →
      (bitOf (r.arg 2) 0 = false ∨ w.cad.dev ≠ 0 → Replies (.timeSet f) d (w.setCad { w.cad with label := some (r.arg64 0) }) r {})
      ∧ (bitOf (r.arg 2) 0 = true → w.cad.dev = 0 → w.cad.active = true ∨ w.cad.swapAt.isSome = true →
        Replies (.timeSet f) d w r { status := 0x303 })
      ∧ (bitOf (r.arg 2) 0 = true → w.cad.dev = 0 → w.cad.active = false → w.cad.swapAt = none → r.arg64 0 * 1000000000 < 2 ^ 64 →
        ∃ e : Dev, Replies (.timeSet f) d e r {} ∧ CtStepped w e ∧ e.cad.label = some (r.arg64 0)
          ∧ e.cad.ct = r.arg64 0 * 1000000000 * 65536))
    ∧ (Serving d f 0xA02 r w →
      (w.cad.active = true → Replies (.timeStep f) d (w.setCad { w.cad with stepPend := some (signedOf 64 (r.arg64 0)) }) r { res := two w.nextFrame })
      ∧ (w.cad.active = false → w.cad.swapAt = none → 0 ≤ (w.cad.ct : Int) + signedOf 64 (r.arg64 0) * 65536 → ∃ e : Dev,
          Replies (.timeStep f) d e r {} ∧ CtStepped w e ∧ (e.cad.ct : Int) = (w.cad.ct : Int) + signedOf 64 (r.arg64 0) * 65536
          ∧ e.cad.slew = 0 ∧ e.cad.diverged = false)
      ∧ (w.cad.active = false → w.cad.swapAt.isSome = true → Replies (.timeStep f) d w r { status := 0x303 }))
    ∧ (Serving d f 0xB00 r w → Replies (.powerQuery f) d w r { res := [p.state, p.bclk, p.floor, w.md.pin] })
    ∧ (Serving d f 0xB01 r w →
      (4 < r.arg 0 → Replies (.powerEnter f) d w r { status := 0x201 })
      ∧ (r.arg 0 = 1 → w.floorHigh = true → Replies (.powerEnter f) d w r { status := 0x501 })
      ∧ (r.arg 0 = 1 → w.floorHigh = false → p.state ≠ 1 → w.cad.active = true →
          Replies (.powerEnter f) d (w.setPow { p with latched := some 1 }) r {})
      ∧ (r.arg 0 = 2 ∨ r.arg 0 = 3 ∨ r.arg 0 = 4 →
        (w.mayLeave = true → Replies (.powerEnter f) d (w.setPow { p with latched := some (r.arg 0) }) r {})
        ∧ (w.mayLeave = false → Replies (.powerEnter f) d w r { status := 0x303 })))
    ∧ (Serving d f 0xB02 r w → 400 ≤ r.arg 0 → r.arg 0 ≤ 2000 → 300 ≤ r.arg 1 → r.arg 1 ≤ 1100 →
        Replies (.powerPolicy f) d (w.setPow { p with floor := r.arg 0, cap := r.arg 1 }) r {})
    ∧ (Serving d f 0xB03 r w → r.arg 0 ≤ 4 → (w.port (r.arg 0)).wakesend = true → (w.port (r.arg 0)).state = 0 →
        Replies (.powerWakeport f) d (w.putPort (r.arg 0) { w.port (r.arg 0) with wakeAsk := true, bursts := 0 }) r {})
    ∧ (let t := trkOf r.payload
       Serving d f 0xB04 r w → 0x140 ≤ r.payload.length → 10 ≤ t.period → t.period ≤ 10000 → 6 ≤ t.mlen → t.mlen ≤ 12 → t.refk ≤ 8 →
        Replies (.powerTrickle f) d (w.setPow { p with trkNext := some t }) r {})
    ∧ (∀ t, d.fwOn = true → d.pow.latched = some t → 2 ≤ t → t ≤ 4 → d.fh.inprog = [] →
      (d.pow.wakesrc &&& d.pow.wakeen ≠ 0 → ∃ e : Dev, Gives .coresWait d e ∧ e = d.setPow e.pow ∧ e.pow.latched = none ∧ e.pow.moving = false
          ∧ e.pow.abortcnt = d.pow.abortcnt + 1)
      ∧ (d.pow.wakesrc &&& d.pow.wakeen = 0 → ∃ e : Dev, Gives .coresWait d e ∧ e = d.setPow e.pow ∧ e.pow.moving = true ∧ e.pow.step = 9
          ∧ e.pow.dest = t ∧ e.pow.stepCt = d.ns))
    ∧ (d.pow.moving = true → d.pow.shutSeq = false →
      (d.pow.step ∈ [1, 2, 3, 5, 6, 7, 9, 10, 12] → ∃ e : Dev, Gives .seqStepDone d e ∧ e.pow.step = d.pow.step + 1 ∧ e.pow.moving = true
          ∧ (d.pow.step ∈ [1, 2, 3, 5, 6, 7, 9, 10] → e.pow.stepCt = d.ns))
      ∧ (d.pow.step = 8 → d.pow.dest ≤ 1 → d.pow.latched = none → d.md.perstPend = false → d.still.pending = false → d.pow.ret = none →
          ∃ e : Dev, Gives .seqStepDone d e ∧ e.pow.stable = 3 ∧ e.pow.moving = false ∧ e.pow.state = 0 ∧ e.md.pgood = true)
      ∧ (d.pow.step = 11 → d.pow.dest = 3 → d.pow.latched = none → d.md.perstPend = false → d.still.pending = false →
          ∃ e : Dev, Gives .seqStepDone d e ∧ e.pow.stable = 2 ∧ e.pow.moving = false ∧ e.pow.state = 3))
    ∧ (d.pow.moving = true → ∃ e : Dev, Gives .seqStepTimeout d e ∧ e.pow.moving = false ∧ e.pow.stable = d.pow.stable
        ∧ e.cad.ct = ctAt d (d.pow.stepCt + stepLimit d.pow.step) ∧ e.boot.fuses = d.boot.fuses ∧ e.streams = [] ∧ e.basins = [])
    ∧ (d.awake = true → 2 ≤ d.pow.stable →
        Gives .pcieLinkL0 d ((d.setMd { d.md with wakeN := none }).setHw { d.hw with l0 := true }))

namespace Sys2Proof.Spec

/-- A boot attempt failed with a cause: everything but the always-on domain is reset, and the next attempt waits min(2^(n-1), 64) s after
failure n (R409). -/
def BootFailed (d e : Dev) (cause detail now : Nat) : Prop :=
  e.boot.step = 0xF ∧ e.boot.cause = cause ∧ e.boot.detail = detail ∧ e.boot.fails = d.boot.fails + 1 ∧ e.boot.ready = false
    ∧ e.boot.backoff = some (now + min (2 ^ d.boot.fails) 64 * 1000000000) ∧ e.boot.fuses = d.boot.fuses ∧ e.boot.journal = d.boot.journal
    ∧ e.streams = [] ∧ e.domains = [] ∧ e.rsv = {} ∧ e.basins = []

end Sys2Proof.Spec

/-- A manifest that passes stages its set, its chunks are assembled, hashed and programmed, and activation swaps the areas in one
record or finds the chunk that differs; ABORT empties the set; a recovery image waits for the next boot; the life-cycle moves to its
next state alone, with a fresh NONCE and burnt fuses (R411, R412, R417 to R424, R428 to R430). -/
def Obligations.UpdateAndLifeCycleCommandsFollowTheirTable : Prop :=
  ∀ (d w : Dev) (f : Nat) (r : Req),
    let b := w.boot
    (∀ sig, Serving d f 0xC00 r w →
      (b.updState = 3 → Replies (.updateManifest f sig) d w r { status := 0x303 })
      ∧ (b.updState ≠ 3 → r.arg 0 = 0 → b.pieces = [] → r.payload.length ≤ 4096 → ∀ m, manifestOf r.payload = some m →
        (b.updState = 0 → w.manifestFault sig (some m) = 0 → ∃ e : Dev, Replies (.updateManifest f sig) d e r {} ∧ e = w.setBoot e.boot
            ∧ e.boot.updState = 1 ∧ e.boot.staged = some m ∧ e.boot.present = [] ∧ e.boot.pieces = [] ∧ e.boot.fuses = b.fuses)
        ∧ (sig = false → ∃ e : Dev, Replies (.updateManifest f sig) d e r { status := 0x203 } ∧ e.boot = { b with pieces := [] }))
      ∧ (b.updState ≠ 3 → r.arg 0 % 4096 = 0 → r.arg 0 < 0x20000 → r.payload ≠ [] →
          (heldManifest (Tab.put b.pieces (r.arg 0) r.payload)).length < 8 →
          Replies (.updateManifest f sig) d (w.setBoot { b with pieces := Tab.put b.pieces (r.arg 0) r.payload }) r {}))
    ∧ (∀ m, Serving d f 0xC01 r w → b.staged = some m →
        let i := r.arg 0
        let q := r.arg 1
        let len (k : Nat) : Nat := min 4096 ((if i + 1 = m.nchunk then m.lastlen else 16384) - 4096 * k)
        let held := Tab.at b.quarters [] i
        let t := Tab.put held q r.payload
        let bytes := (List.range 4).flatMap (fun k => Tab.at t [] k)
        let hash := beNat (sha384 (bytes.take (if i + 1 = m.nchunk then m.lastlen else 16384)))
        let whole := ∀ k, k < 4 → len k = 0 ∨ (Tab.find? t k).isSome = true
      (b.updState ≠ 1 → Replies (.updateChunk f) d w r { status := 0x303 })
      ∧ (b.updState = 1 → i < m.nchunk → q ≤ 3 → len q ≠ 0 → r.payload.length = len q → b.erasePend = [] → i ∉ b.present → i ∉ b.queue → held ≠ [] →
        (¬ whole → Replies (.updateChunk f) d (w.setBoot { b with quarters := Tab.put b.quarters i t }) r {})
        ∧ (whole → hash = m.hashes.getD i 0 →
            Replies (.updateChunk f) d (w.setBoot { b with quarters := Tab.put b.quarters i t, queue := b.queue ++ [i] }) r {})
        ∧ (whole → hash ≠ m.hashes.getD i 0 →
            Replies (.updateChunk f) d (w.setBoot { b with quarters := Tab.del b.quarters i }) r { status := 0x601 })))
    ∧ (Serving d f 0xC02 r w → ∃ p : List Byte, Replies (.updateStatus f) d w r { payload := p } ∧ p.length = 256
        ∧ leNat (p.take 4) = b.updState % 2 ^ 32 ∧ leNat ((p.drop 8).take 4) = b.present.length % 2 ^ 32)
    ∧ (∀ bad m, Serving d f 0xC03 r w →
      (b.updState = 2 → b.staged = some m → (∀ c ∈ b.present, c ∉ bad ∧ chunkOk m (b.areas.getD b.view.staging {}).chunks c = true) →
        ∃ e : Dev, Replies (.updateActivate f bad) d e r {} ∧ e.boot.updState = 3 ∧ e.boot.staged = none ∧ e.boot.areas = b.areas
          ∧ e.boot.journal.getLast? = some (.roles b.view.active b.view.staging b.view.shadow true))
      ∧ (b.updState = 2 → (∃ c ∈ b.present, c ∈ bad) → ∃ e : Dev, Replies (.updateActivate f bad) d e r { status := 0x601 } ∧ e = w.setBoot e.boot
          ∧ e.boot.updState = 1 ∧ ∀ c ∈ bad, c ∉ e.boot.present)
      ∧ (b.updState = 0 ∨ b.updState = 3 → Replies (.updateActivate f bad) d w r { status := 0x303 }))
    ∧ (Serving d f 0xC04 r w →
      (b.updState ≠ 3 → ∃ e : Dev, Replies (.updateAbort f) d e r {} ∧ e = w.setBoot e.boot ∧ e.boot.updState = 0 ∧ e.boot.staged = none
          ∧ e.boot.present = [] ∧ e.boot.queue = [] ∧ e.boot.journal.getLast? = some .abort ∧ e.boot.areas = b.areas)
      ∧ (b.updState = 3 → Replies (.updateAbort f) d w r { status := 0x303 }))
    ∧ (∀ sig, Serving d f 0xC05 r w → b.retired = false → r.mctp = false →
      (r.arg 0 = 0 → ∃ e : Dev, Replies (.updateRecovery f sig) d e r {} ∧ e = { w with boot := e.boot, fh := e.fh } ∧ e.boot.recoverNext = true
          ∧ e.boot.recovery.map Recovery.bytes = some r.payload ∧ e.fh = { w.fh with resetAt := some (w.ns + 10000000, false) })
      ∧ (r.arg 0 ≠ 0 → Replies (.updateRecovery f sig) d w r { status := 0x303 }))
    ∧ (∀ i rest good, d.fwOn = true → d.boot.queue = i :: rest →
      (d.boot.erasing = none → d.boot.sectorErased (i / 4) = false → ∃ e : Dev, Gives (.chunkProgram good) d e ∧ e = d.setBoot e.boot
          ∧ e.boot.erasing = some (d.boot.stagingArea, i / 4, false) ∧ e.boot.queue = i :: rest)
      ∧ (∀ a s, d.boot.erasing = some (a, s, false) → ∃ e : Dev, Gives (.chunkProgram good) d e ∧ e.boot.erasing = none ∧ e.boot.queue = i :: rest
          ∧ e.boot.journal.getLast? = some (.eraseDone a s))
      ∧ (∀ a s, d.boot.erasing = some (a, s, true) → Gives (.chunkProgram good) d d)
      ∧ (d.boot.erasing = none → d.boot.sectorErased (i / 4) = true → ∃ e : Dev, Gives (.chunkProgram good) d e ∧ e.boot.queue = rest
          ∧ (good = true → e.boot.present = d.boot.present ++ [i] ∧ e.boot.journal.getLast? = some (.chunkDone i))
          ∧ (good = false → e.boot.present = d.boot.present ∧ e.boot.journal.getLast? = some (.progBegin d.boot.stagingArea i))))
    ∧ (∀ a s x, d.fwOn = true → d.boot.erasing = some (a, s, x) → Gives .eraseResume d (d.setBoot { d.boot with erasing := some (a, s, false) }))
    ∧ (∀ x, d.bootOn = true → d.boot.recovery = some x → d.boot.step = 0xE → d.boot.backoff = none → ∃ e : Dev, Gives .recoveryTimeout d e
        ∧ e.cad.ct = ctAt d (x.lastCt + 60000000000) ∧ e.boot.recovery = none ∧ e.boot.step = d.boot.resumeStep ∧ e.boot.fuses = d.boot.fuses)
    ∧ (Serving d f 0xD00 r w → ∃ (e : Dev) (n : Nat), Replies (.lifecycleQuery f) d e r
          { res := [lifeCycle b.fuses, 0, n % 2 ^ 32, n / 2 ^ 32 % 2 ^ 32] } ∧ n < 2 ^ 64 ∧ e.boot = { b with nonce := some n }
        ∧ e = { w with boot := e.boot, free := e.free })
    ∧ (∀ sig, Serving d f 0xD01 r w →
        let t := r.arg 0
      (t = lifeCycle b.fuses + 1 → t ≤ 3 → w.authorised sig t r.payload = true → ∃ e : Dev, Replies (.lifecycleAdvance f sig) d e r {}
          ∧ lifeCycle e.boot.fuses = t ∧ e.boot.nonce = none ∧ e = { w with boot := e.boot, free := e.free })
      ∧ (t = lifeCycle b.fuses + 1 → t ≤ 3 → w.authorised sig t r.payload = false →
          Replies (.lifecycleAdvance f sig) d (w.setBoot { b with nonce := none }) r { status := 0x203 })
      ∧ (t ≠ lifeCycle b.fuses + 1 → Replies (.lifecycleAdvance f sig) d (w.setBoot { b with nonce := none }) r { status := 0x303 }))

/-- Boot starts at B1 and counts the attempt; a step that completes leads to the next and, after B8, to Ready with domain 0; one that
fails or overruns resets and waits before the next attempt (R8, R222, R224, R260, R407, R409, R429, R454). -/
def Obligations.BootRunsItsSteps : Prop :=
  ∀ (d : Dev), d.bootOn = true →
    let b := d.boot
    let begun (e : Dev) : Prop := e.boot.step = 1 ∧ e.boot.backoff = none ∧ e.boot.waiting = d.md.perst ∧ e.boot.fuses = b.fuses
      ∧ e.boot.attempts = if b.attempts = 0xFFFFFFFF then b.attempts else b.attempts + 1
    (b.ready = false → b.step = 0 → b.backoff = none → b.retired = false → ∃ e : Dev, Gives .bootStart d e ∧ begun e ∧ e = d.setBoot e.boot)
    ∧ (∀ t, b.backoff = some t → b.step = 0xF → ∃ e : Dev, Gives .bootBackoffExpiry d e ∧ begun e ∧ e.cad.ct = ctAt d t)
    ∧ (b.waiting = false →
      (∀ m l, b.step = 1 → lifeCycle b.fuses < 3 → burnt b.fuses 0 = burnt b.fuses 4 → burnt b.fuses 8 = burnt b.fuses 0xC →
          burnt b.fuses 0x10 = burnt b.fuses 0x14 → d.md.still = false →
          ∃ e : Dev, Gives (.bootStepComplete true m l) d e ∧ e = d.setBoot e.boot ∧ e.boot.step = 2 ∧ e.boot.fusesRead = true
            ∧ e.boot.fuses = b.fuses ∧ e.boot.completed = false ∧ e.boot.stepCt = d.ns)
      ∧ (∀ m l, b.step = 1 ∨ b.step = 2 ∨ b.step = 3 → ∃ e : Dev, Gives (.bootStepComplete false m l) d e ∧ BootFailed d e b.step 0 d.ns)
      ∧ (∀ m l, b.step = 2 → ∃ e : Dev, Gives (.bootStepComplete true m l) d e ∧ e.boot.step = 3 ∧ e.boot.devseed = Config.random d.free
          ∧ e.boot.fwkey = (d.setFree (d.free + 1)).drawKeys.1 ∧ e.free = d.free + 9)
      ∧ (∀ ok l, b.step = 5 → ∃ e : Dev, Gives (.bootStepComplete ok 0 l) d e ∧ e.boot.step = 6 ∧ e.fh.corePair = 3 ∧ e.fh.failed = 0)
      ∧ (∀ ok l, b.step = 5 → ∃ e : Dev, Gives (.bootStepComplete ok 6 l) d e ∧ BootFailed d e 7 0 d.ns)
      ∧ (∀ ok l, b.step = 6 → ∃ e : Dev, Gives (.bootStepComplete ok 0 l) d e ∧ e.boot.step = 7 ∧ e.rsv.pages = [] ∧ e.rsv.keys = []
          ∧ e.rsv.mem = [] ∧ ∀ c ∈ e.rsv.ctrls, c.ready = true)
      ∧ (∀ ok m l, b.step = 6 → m % 256 ≠ 0 → ∃ e : Dev, Gives (.bootStepComplete ok m l) d e ∧ BootFailed d e 5 (m % 256) d.ns)
      ∧ (∀ ok m l, b.step = 8 → ∃ e : Dev, Gives (.bootStepComplete ok m l) d e ∧ e.boot.ready = true ∧ e.boot.step = 0 ∧ e.boot.fails = 0
          ∧ e.fh.running = true ∧ e.fh.mbReady = true ∧ (e.domain 0).state = 1 ∧ (e.domain 0).bind = some (0, 0)
          ∧ Tab.find? e.rsv.keys 0 = some d.drawKeys.1
          ∧ ∀ n, n ≠ 0 → e.domain n = d.domain n)
      ∧ (1 ≤ b.step → b.step ≤ 8 → ∃ e : Dev, Gives .bootStepTimeout d e ∧ e.cad.ct = ctAt d (b.stepCt + bootLimit b.step)
          ∧ BootFailed d e 6 b.step (e.cad.ct / 65536)))

namespace Sys2Proof.Spec

/-- The device rests in Trickle or Rest. -/
def Asleep (d : Dev) : Prop := d.pow.moving = false ∧ d.pow.stable = 2 ∧ (d.pow.state = 2 ∨ d.pow.state = 3)

/-- The sequencer enters it from a stable point, with nothing latched. -/
def FallingAsleep (d : Dev) : Prop := d.pow.moving = true ∧ (d.pow.dest = 2 ∨ d.pow.dest = 3) ∧ d.pow.latched = none

/-- WAKE_N after wake source `bit` fired: asserted unless the source is PCIe or the host link is in L0 (R448). -/
def wakePin (d : Dev) (bit : Nat) : Option Nat :=
  if bit ≠ 0 ∧ d.hw.l0 = false ∧ d.md.wakeN = none then some d.ns else d.md.wakeN

/-- The power block after source `bit` woke a sleeping device: recorded, and step U5 has begun. -/
def woken (d : Dev) (bit : Nat) : Power :=
  { d.pow with wakesrc := d.pow.wakesrc ||| 2 ^ bit, dest := 0, latched := none, moving := true, step := 5, stepCt := d.ns }

/-- Command `c` is the firing of wake source `bit` on device `w`, which `d` becomes before. -/
def WakeSource (c : Instr) (d w : Dev) (bit : Nat) : Prop :=
  (bitOf w.pow.wakeen bit = false → Gives c d w)
  ∧ (bitOf w.pow.wakeen bit = true → Asleep w → Gives c d { w with pow := woken w bit, md := { w.md with wakeN := wakePin w bit } })
  ∧ (bitOf w.pow.wakeen bit = true → FallingAsleep w → Gives c d { w with
      pow := { w.pow with wakesrc := w.pow.wakesrc ||| 2 ^ bit, latched := some 0, abortcnt := w.pow.abortcnt + 1 },
      md := { w.md with wakeN := wakePin w bit } })

/-- The module reset: everything but the always-on domain is as after reset, and CT, flash, fuses, journal and host memory stay
(R409, R434). -/
def ModuleReset (d e : Dev) : Prop :=
  e.streams = [] ∧ e.domains = [] ∧ e.basins = [] ∧ e.ports = [] ∧ e.rsv = {} ∧ e.trains = [] ∧ e.pair = {} ∧ e.still.frozen = false
    ∧ e.still.destroyed = false ∧ e.still.held = false ∧ e.boot.step = 0 ∧ e.boot.ready = false ∧ e.boot.fuses = d.boot.fuses
    ∧ e.boot.areas = d.boot.areas ∧ e.boot.journal = d.boot.journal ∧ e.cad.ct = d.cad.ct ∧ e.hostMem = d.hostMem

end Sys2Proof.Spec

/-- Each wake source turns a sleeping device toward Run, or an entry back, when it is enabled, and asserts WAKE_N; a write within the
trickle window does not wake from Trickle; a burst is recognised and counted also while the clocks are stopped; WAKE_N is released 100 ms later;
the trickle period counts, samples and wakes (R318, R388, R391, R394,
R395, R398, R448). -/
def Obligations.WakesTurnTowardRun : Prop :=
  (∀ (d : Dev) (p : Nat), d.awake = false → (d.port p).wakeen = true → (d.port p).state = 0 → d.pow.stable ≠ 1 →
    Gives (.wakeBurstRecognised p) d (d.putPort p { d.port p with wakeseen := true, wakecnt := (d.port p).wakecnt + 1 }))
  ∧ ∀ (d : Dev), d.awake = true →
    WakeSource (.pcieWake false) d d 0
    ∧ (d.pow.state ≠ 2 → WakeSource (.pcieWake true) d d 0)
    ∧ (d.pow.state = 2 → Gives (.pcieWake true) d d)
    ∧ WakeSource .rillTrainingWake d d 1
    ∧ WakeSource .mirrorTrainingWake d d 2
    ∧ (∀ p, (d.port p).wakeen = true →
      (1 ≤ (d.port p).state → (d.port p).state ≤ 3 → d.pow.stable ≠ 1 →
        Gives (.wakeBurstRecognised p) d (d.putPort p { d.port p with wakeseen := true }))
      ∧ ((d.port p).state = 0 → d.pow.stable ≠ 1 → WakeSource (.wakeBurstRecognised p) d
          (d.putPort p { d.port p with wakeseen := true, wakecnt := (d.port p).wakecnt + 1 }) 3))
    ∧ (∀ p, (d.port p).wakeen = false → Gives (.wakeBurstRecognised p) d d)
    ∧ (d.pow.stable ≠ 1 → d.pow.dest ≠ 4 → WakeSource .wakeInNFall d d 4)
    ∧ (∀ t, d.md.wakeN = some t → ∃ e : Dev, Gives .wakeNTimeout d e ∧ e.md = { d.md with wakeN := none }
        ∧ e.cad.ct = ctAt d (t + 100000000) ∧ e.pow = d.pow)
    ∧ (∀ off bs, d.hwOn = true → off + bs.length ≤ 0x100000 → (d.func 0).inReset = false →
      (d.pow.state ≠ 3 → ¬ (d.pow.moving = true ∧ d.pow.dest = 3) → ∃ e : Dev, Gives (.trickleWindowWrite off bs) d e
        ∧ e = d.setPow { d.pow with trkBuf := e.pow.trkBuf, fresh := e.pow.fresh }
        ∧ (∀ k x, bs[k]? = some x → (off + k) % 16384 < 14400 → Mem.read e.pow.trkBuf (off + k) = x)
        ∧ (∀ a, (a < off ∨ off + bs.length ≤ a ∨ 14400 ≤ a % 16384) → Mem.read e.pow.trkBuf a = Mem.read d.pow.trkBuf a)
        ∧ ∀ t, t < 64 → (bitOf e.pow.fresh t = true ↔ bitOf d.pow.fresh t = true ∨ (off ≤ 16384 * t + 14399 ∧ 16384 * t + 14399 < off + bs.length)))
      ∧ (Asleep d → d.pow.state = 3 → bitOf d.pow.wakeen 0 = true → ∃ e : Dev, Gives (.trickleWindowWrite off bs) d e
        ∧ e.pow.heldTlp = d.pow.heldTlp ++ [(off, bs)] ∧ e.pow.trkBuf = d.pow.trkBuf ∧ e.pow.fresh = d.pow.fresh ∧ e.pow.moving = true
        ∧ e.pow.dest = 0 ∧ bitOf e.pow.wakesrc 0 = true))
    ∧ (Asleep d → d.pow.state = 2 →
      let due := d.pow.trkCt + d.pow.trk.period * 1000000
      let k := d.pow.trk
      let stale (t : Nat) : Prop := t < 64 ∧ bitOf k.sloten t = true ∧ bitOf d.pow.fresh t = false ∧ k.stalemax ≠ 0
        ∧ k.stalemax ≤ Tab.at d.pow.age 0 t + 1
      let fresh (t : Nat) : Prop := t < 64 ∧ bitOf k.sloten t = true ∧ bitOf d.pow.fresh t = true
      let seed := (d.boot.devseed.toNat, 0xFFFFFFF2, 2 ^ 16 * (d.pow.trkcnt + 1).toNat)
      let exceeding (t : Nat) : Prop := fresh t ∧ d.pow.exceeds (pixelScore seed k.mlen t) t = true
      ∃ e : Dev, Gives .tricklePeriod d e ∧ e.pow.trkcnt = d.pow.trkcnt + 1 ∧ e.pow.trkCt = due ∧ e.cad.ct = ctAt d due
        ∧ (∀ t, stale t → bitOf e.pow.trkwake t = true ∧ bitOf e.pow.trkstale t = true
            ∧ (bitOf d.pow.wakeen 5 = true → bitOf e.pow.wakesrc 5 = true ∧ e.pow.moving = true ∧ e.pow.dest = 0))
        ∧ (∀ t, exceeding t → bitOf d.pow.wakeen 5 = true → bitOf e.pow.trkwake t = true ∧ bitOf e.pow.wakesrc 5 = true
            ∧ e.pow.moving = true ∧ e.pow.dest = 0 ∧ e.pow.row0On = true)
        ∧ ((∀ t, ¬ stale t) → (∀ t, ¬ exceeding t) → e.pow.moving = false ∧ e.pow.trkwake = d.pow.trkwake ∧ e.pow.wakesrc = d.pow.wakesrc
            ∧ (k.refk = 0 → e.pow.trkRef = d.pow.trkRef)
            ∧ ∀ t px, t < 64 → px < 14400 → k.refk ≠ 0 → k.refk ≤ 8 →
              let r : Int := (Mem.read d.pow.trkRef (16384 * t + px)).toNat
              let x : Int := (Mem.read d.pow.trkBuf (16384 * t + px)).toNat
              ((Mem.read e.pow.trkRef (16384 * t + px)).toNat : Int) = if bitOf k.sloten t && bitOf d.pow.fresh t then r + (x - r) / (2 : Int) ^ k.refk else r))

/-- PWR_EN, PERST_N and WAKE_IN_N: PWR_EN rising or WAKE_IN_N falling starts the sequencer from AUX_ON, PWR_EN falling latches or begins the
way to Off, and at once during a freeze; PERST_N resets at READY, wakes at CORE_ON, waits during a move and does nothing at
AUX_ON; its rise lets the boot ROM go on (R387, R398, R434, R452, R454, R456). -/
def Obligations.PowerPinsMoveTheSequencer : Prop :=
  ∀ (d : Dev),
    let p := d.pow
    let starts (e : Dev) : Prop := e.pow = { p with dest := 0, latched := none, moving := true, step := 1, stepCt := d.ns }
    (d.md.pwren = false → ∃ e : Dev, Gives .pwrEnRise d e ∧ e = { d with pow := e.pow, md := e.md } ∧ e.md.pwren = true
      ∧ (d.md.pwrenFell = true → e.md.thermShut = false ∧ e.md.currShut = false)
      ∧ (p.stable = 1 → p.moving = false → d.md.auxOk = true → d.md.pwrenFell = true ∨ (d.md.thermShut = false ∧ d.md.currShut = false) → starts e)
      ∧ (p.stable = 1 → d.md.pwrenFell = false → d.md.thermShut = true ∨ d.md.currShut = true → p.moving = false → e.pow = p)
      ∧ (p.moving = true → p.dest = 4 → p.latched = none → e.pow = { p with latched := some 0 }))
    ∧ (d.md.pwren = true → ∃ e : Dev, Gives .pwrEnFall d e ∧ e.md.pwren = false ∧ e.md.perstPend = false
      ∧ (d.awake = true → p.moving = true → p.dest ≠ 4 → e.pow = { p with latched := some 4 })
      ∧ (d.awake = true → p.moving = true → p.dest = 4 → e.pow = { p with latched := none })
      ∧ (d.awake = true → p.moving = false → p.stable = 3 → e.pow = { p with dest := 4, latched := none, moving := true, step := 9, stepCt := d.ns })
      ∧ (d.awake = true → p.moving = false → p.stable = 2 → e.pow = { p with dest := 4, latched := none, moving := true, step := 12, stepCt := d.ns })
      ∧ (d.awake = true → p.moving = false → p.stable = 1 → e.pow = p)
      ∧ (d.awake = false → ModuleReset d e ∧ e.pow.dest = 4 ∧ e.pow.moving = true ∧ e.pow.step = 13))
    ∧ (∃ e : Dev, Gives .perstNAssert d e ∧ e.md.perst = true
      ∧ (p.moving = true → e = d.setMd { d.md with perst := true, perstPend := true })
      ∧ (p.moving = false → p.stable = 3 → ModuleReset d e)
      ∧ (p.moving = false → p.stable = 2 → d.awake = true → e.pow = { p with dest := 0, latched := none, moving := true, step := 5, stepCt := d.ns }
          ∧ e.md.perstPend = true)
      ∧ (p.moving = false → p.stable = 1 → e = d.setMd { d.md with perst := true }))
    ∧ (∃ e : Dev, Gives .perstNDeassert d e ∧ e.md = { d.md with perst := false } ∧ e = { d with md := e.md, boot := e.boot }
      ∧ (d.boot.waiting = true → e.boot = { d.boot with waiting := false, stepCt := d.ns }) ∧ (d.boot.waiting = false → e.boot = d.boot))
    ∧ (p.stable = 1 → p.moving = false → d.awake = true → d.md.auxOk = true → d.md.thermShut = false → d.md.currShut = false →
        Gives .wakeInNFall d (d.setPow { p with dest := 0, latched := none, moving := true, step := 1, stepCt := d.ns }))

namespace Sys2Proof.Spec

/-- From `d` to `e` a shutdown of code `n` has begun: recorded, and the sequencer goes to Off by D4 and D5 alone once its step ends
(R452). -/
def ShutDown (d e : Dev) (n : Nat) : Prop :=
  e = { d with pow := e.pow, md := e.md } ∧ e.md.shut = n ∧ e.md.perstPend = false ∧ e.pow.dest = 4 ∧ e.pow.latched = none ∧ e.pow.moving = true
    ∧ (d.pow.moving = false → e.pow.step = 12 ∧ e.pow.stepCt = d.ns)
    ∧ (d.pow.moving = true → e.pow.step = d.pow.step ∧ (e.pow.shutSeq = true ↔ d.pow.step < 12 ∨ d.pow.shutSeq = true))

end Sys2Proof.Spec

/-- The current and voltage overrides lower the clock at once, below the floor if need be, with an event, and only what remains of a spare's
restore takes the new clock with it (R29); each shutdown is recorded and
goes to Off past D1 to D3; input power that returns, or the auxiliary supply, starts the module again; a failed stack resets the module; the inlet drives
THERM_ALERT_N and a hot stack takes doubled refresh (R220, R354, R400, R448, R452). -/
def Obligations.ProtectionsLimitOrShutDown : Prop :=
  ∀ (d : Dev),
    let p := d.pow
    let rates (e : Dev) : Prop := e.flt = { d.flt with rows := e.flt.rows } ∧ ∀ k, Tab.at e.flt.rows {} k
      = { Tab.at d.flt.rows {} k with restoreEnd := (Tab.at e.flt.rows {} k).restoreEnd }
    (∀ watts, Quiet d → 1150 < watts → p.curr = false → ∃ e : Dev, Gives (.currentOverride watts) d e ∧ rates e
        ∧ e = { d with pow := e.pow, md := e.md, flt := e.flt, funcs := e.funcs, fh := e.fh, hostMem := e.hostMem, out := e.out }
        ∧ e.pow.bclk = min p.bclk 1200 ∧ e.pow.curr = true ∧ e.pow.ovrcnt = p.ovrcnt + 1
        ∧ (e.pow.override = true ↔ min p.bclk 1200 < d.effFloor) ∧ e.md = { d.md with pin := watts })
    ∧ (∀ watts, d.due = d → watts ≤ 1150 → Gives (.currentOverride watts) d d)
    ∧ (∀ vin droop, Quiet d → vin < 4000 ∨ droop = true → p.volt = false → ∃ e : Dev, Gives (.voltageOverride vin droop) d e ∧ rates e
        ∧ e = { d with pow := e.pow, md := e.md, flt := e.flt, funcs := e.funcs, fh := e.fh, hostMem := e.hostMem, out := e.out }
        ∧ e.pow.bclk = min p.bclk 800 ∧ e.pow.volt = true ∧ e.pow.ovrcnt = p.ovrcnt + 1
        ∧ (e.pow.override = true ↔ min p.bclk 800 < d.effFloor))
    ∧ (∀ vin, d.due = d → 4000 ≤ vin → Gives (.voltageOverride vin false) d d)
    ∧ (¬ (p.stable = 1 ∧ p.moving = false) →
        (∃ e : Dev, Gives .thermalShutdown d e ∧ ShutDown d e 1 ∧ e.md.thermShut = true ∧ e.md.therm = true)
        ∧ (∃ e : Dev, Gives .overcurrentShutdown d e ∧ ShutDown d e 1 ∧ e.md.currShut = true ∧ e.md.therm = d.md.therm)
        ∧ (∃ e : Dev, Gives .undervoltageShutdown d e ∧ ShutDown d e 2 ∧ e.md.vinok = false)
        ∧ (∃ e : Dev, Gives .overvoltageShutdown d e ∧ ShutDown d e 3 ∧ e.md.vinok = false))
    ∧ (let w := d.setMd { d.md with vinok := true }
       (d.md.pwren = true → d.md.shut = 2 ∨ d.md.shut = 3 → d.mayStart = true →
        Gives .vinRestored d (w.setPow { p with dest := 0, latched := none, moving := true, step := 1, stepCt := d.ns }))
       ∧ (d.md.pwren = false ∨ (d.md.shut ≠ 2 ∧ d.md.shut ≠ 3) → Gives .vinRestored d w))
    ∧ (∃ e : Dev, Gives .auxLoss d e ∧ e.md.auxOk = false ∧ e.md.pgood = false ∧ e.pow.stable = 0 ∧ e.boot.fuses = d.boot.fuses
        ∧ e.boot.areas = d.boot.areas ∧ e.boot.journal = d.boot.journal ∧ e.basins = [] ∧ e.rsv = {} ∧ e.hostMem = d.hostMem)
    ∧ (d.md.auxOk = false → Gives .auxReturn d { d with pow := { p with stable := 1, state := 4 }, md := { d.md with auxOk := true } })
    ∧ (∀ n, Quiet d → n < 8 → (d.ctrl n).ready = true → ∃ e : Dev, Gives (.stackReadyLoss n) d e ∧ ModuleReset d e)
    ∧ (∀ t, d.aonOn = true → ∃ e : Dev, Gives (.coolantInletHigh t) d e ∧ e = d.setMd e.md ∧ e.md.tinlet = t ∧ (45 < t → e.md.therm = true)
        ∧ (t ≤ 45 → p.temp = false → d.md.thermShut = false → e.md.therm = false))
    ∧ (∀ n t, Quiet d → d.rsv.ctrls.length = 8 → n < 8 → ∃ e : Dev, Gives (.refreshRateChange n t) d e
        ∧ e.ctrl n = { d.ctrl n with temp := t, refmode := if 85 < t then 1 else 0 } ∧ (∀ m, m ≠ n → e.ctrl m = d.ctrl m) ∧ e.rsv.mem = d.rsv.mem)

namespace Sys2Proof.Spec

/-- The device with a TAP instruction selected and the freeze state replaced, after the bits `v` have been shifted out. -/
def shifted (d : Dev) (ir : Nat) (t : Still) (bits v : Nat) : Dev := (d.setStill { t with ir := ir }).emit (.tdo bits v)

/-- Instruction `ir` acts as BYPASS: it is selected, one bit comes out, and nothing else changes. -/
def ActsAsBypass (c : Instr) (d : Dev) (ir : Nat) : Prop := ∃ v : Nat, Gives c d (shifted d ir d.still 1 v)

end Sys2Proof.Spec

/-- STILL_N stops the clocks, waits for a stable point or is ignored; its rise resumes them, cancels active runs, holds delivery for 1 ms and
takes the ports DOWN, or holds the device after a destructive shift. The TAP's instructions shift their registers, and the debug ones act as BYPASS but in a
freeze (R432 to R440, R444). What BYPASS, CLAMP and HIGHZ capture is free. -/
def Obligations.FreezesAndTheTestAccessPort : Prop :=
  ∀ (d : Dev),
    let t := d.still
    let pin (v : Bool) : Dev := d.setMd { d.md with still := v }
    let live := d.still.frozen = true ∧ d.boot.dbgdis = false
    (d.aonOn = true → t.frozen = false →
      (d.boot.stillHeard = true → d.pow.moving = false → 2 ≤ d.pow.stable → ∃ e : Dev, Gives .stillAssert d e
          ∧ e = { pin true with still := e.still, rsv := e.rsv, pow := e.pow } ∧ e.pow = { d.pow with clkBase := d.clocks, clkAt := d.ns }
          ∧ e.still.frozen = true ∧ e.still.since = d.ns
          ∧ e.rsv.mem = d.rsv.mem ∧ ∀ c ∈ e.rsv.ctrls, c.selfref = true)
      ∧ (d.boot.stillHeard = true → d.pow.moving = true → Gives .stillAssert d ((pin true).setStill { t with pending := true }))
      ∧ (d.boot.stillHeard = false → Gives .stillAssert d ((pin true).setStill { t with ignored := true })))
    ∧ (t.frozen = true → t.destroyed = false → ∃ e : Dev, Gives .stillRelease d e ∧ e.still.frozen = false ∧ e.still.stillcnt = t.stillcnt + 1
        ∧ e.cad.ct = d.cad.ct ∧ e.cad.holdUntil = d.ns + 1000000 ∧ e.boot.stepCt = d.boot.stepCt + (d.ns - t.since)
        ∧ (∀ b, ((d.basin b).seq.active.isSome = true → (e.basin b).seq.fault.code = 8) ∧ (e.basin b).seq.active = none)
        ∧ (∀ p, p < 5 → (d.port p).state ≠ 0 → (d.port p).state ≠ 4 → Downed e p 8)
        ∧ (∀ p, p < 5 → (d.port p).state = 4 → (e.port p).state = 4))
    ∧ (t.frozen = true → t.destroyed = true → Gives .stillRelease d ((pin false).setStill { t with held := true }))
    ∧ (t.frozen = false → Gives .stillRelease d ((pin false).setStill { t with pending := false }))
    ∧ (d.aonOn = true →
      Gives .trst d (d.setStill { t with ir := 2 })
      ∧ (∀ pins, pins < 2 ^ Config.boundaryLen → Gives (.extest pins) d (shifted d 0 t Config.boundaryLen pins))
      ∧ (∀ pins load, pins < 2 ^ Config.boundaryLen → load < 2 ^ Config.boundaryLen →
          Gives (.samplePreload pins load) d (shifted d 1 { t with boundary := load } Config.boundaryLen pins))
      ∧ Gives .idcode d (shifted d 2 t 32 (1 + 2 * 0x5A3 + 2 ^ 12 * 0x7210 + 2 ^ 28 * (0x72101100 / 2 ^ 8 % 16)))
      ∧ ActsAsBypass .clamp d 3 ∧ ActsAsBypass .highz d 4
      ∧ (∀ tdi, ∃ v : Nat, Gives (.bypass tdi) d (shifted d 0xFF t 2 v) ∧ (v / 2 = 1 ↔ tdi = true))
      ∧ (d.boot.dbgdis = false → Gives .stillstat d (shifted d 0x20 t 32 t.word))
      ∧ (d.boot.dbgdis = true → ActsAsBypass .stillstat d 0x20)
      ∧ (∀ v, live → ∃ e : Dev, Gives (.memaddr v) d e ∧ e = d.setStill { t with ir := 0x21, memaddr := v.toNat % 2 ^ 52 })
      ∧ (∀ v, live → v < 2 ^ 16 → Gives (.scansel v) d (d.setStill { t with ir := 0x28, scansel := v }))
      ∧ (live → let a := t.memaddr / 8 * 8
                let next := (t.memaddr + 8) % 2 ^ 52
        (∀ b o, placeOf a = .locPhys b o → b < 272 → ∃ (e : Dev) (v : Nat), Gives .memdata d e ∧ e = { shifted d 0x22 { t with memaddr := next } 80 v with free := e.free }
          ∧ v % 2 ^ 64 = Mem.readLe (d.basin b).store o 8 ∧ v < 2 ^ 80 ∧ (o < 0x400000 → v < 2 ^ 72))
        ∧ (∀ b o, placeOf a = .mgmt false b 1 o → t.destroyed = false → Gives .memdata d
            (shifted d 0x22 { t with memaddr := next } 80 (d.regWord b o + d.regWord b (o + 4) * 2 ^ 32)))
        ∧ (∀ b o, placeOf a = .mgmt false b 2 o → b < 272 → Gives .memdata d
            (shifted d 0x22 { t with memaddr := next } 80 (Tab.at (d.basin b).prog 0 (o / 8)).toNat))
        ∧ (∀ b o, placeOf a = .mgmt false b 3 o → Gives .memdata d
            (shifted d 0x22 { t with memaddr := next } 80 (d.runnelWord (d.basin b) o)))
        ∧ (∀ h, placeOf a = .rsv h → Gives .memdata d (shifted d 0x22 { t with memaddr := next, denied := true } 80 0)))
      ∧ (∀ n, live → 0 < n → ∃ (e : Dev) (v : Nat), Gives (.scan n) d e ∧ e = { shifted d 0x29 { t with destroyed := true } n v with free := e.free })
      ∧ (¬ live → (∀ v, ActsAsBypass (.memaddr v) d 0x21) ∧ ActsAsBypass .memdata d 0x22 ∧ (∀ v, ActsAsBypass (.scansel v) d 0x28)
          ∧ ∀ n, ActsAsBypass (.scan n) d 0x29))

/-- A step takes the command at the front of the queue and runs it with the queue's rest. On an empty queue a nanosecond passes, which is
the model's choice (notes/assumptions/1.md). -/
def Obligations.AStepRunsTheFrontCommand : Prop :=
  (∀ (c : Instr) (q : List Instr) (d : Dev), step { pending := c :: q, dev := d } = exec c { pending := q, dev := d })
  ∧ ∀ d : Dev, step { pending := [], dev := d } = .next { pending := [], dev := tick d }

/-- Reset leaves nothing waiting, the registers read below at the reset column of their tables, every segment with VALID = 0 and every store zero
(R208), no run, stream, domain, table or key, every fuse bit 0, only the always-on domain powered, and the TAP at IDCODE (R6, R222, R267, R322, R401,
R427, R431, R435, R444). -/
def Obligations.ResetLeavesTheGivenValues : Prop :=
  let s := Machine.State.reset
  let d := s.dev
  s.pending = []
    ∧ (∀ p ∈ [(0x1F2, 0, 0x72101100), (0x1F3, 0, 0), (0x1F3, 4, 0x88000000), (0x1F3, 8, 0x3F), (0x1F3, 0xC, 0), (0x1F3, 0x10, 0x044C0190),
              (0x1F3, 0x14, 0), (0x1F3, 0x18, 0x000803E8), (0x1F1, 0, 0), (0x1F1, 8, 0), (0x1F1, 0xC, 0), (0x1F1, 0x18, 0x3E8), (0x1F1, 0x28, 0),
              (0x1F2, 0x600, 0), (0x1F2, 0x604, 0), (0x1F2, 0x608, 0), (0x1F2, 0x60C, 0), (0x1F2, 0x614, 0), (0x1F2, 0x700, 0), (0x1F4, 0, 0),
              (0x1F4, 4, 0), (0x1F5, 0, 0), (0x1F5, 4, 0), (0x1F8, 0, 0)], d.regWord p.1 p.2.1 = p.2.2)
    ∧ (∀ b, (∀ k, (Tab.find? (d.basin b).tags k).map SegTag.valid ≠ some true) ∧ (∀ a, Mem.read (d.basin b).store a = 0)
        ∧ (d.basin b).seq.active = none ∧ (d.basin b).flags = EngineFlags.reset ∧ ∀ k, sreg d b k = 0)
    ∧ (∀ i, (d.stream i).state = 0) ∧ (∀ n, (d.domain n).state = 0) ∧ d.cad.activeTable = none
    ∧ (∀ p, (d.port p).state = 0 ∧ (d.port p).keyTx = 0) ∧ d.rsv.keys = [] ∧ (∀ a, Mem.read d.rsv.mem a = 0)
    ∧ (∀ a, Mem.read d.boot.fuses a = 0) ∧ d.coreOn = false ∧ d.still.ir = 2

namespace Sys2Proof.Spec

/-- The fuse words stand in the order of R429: a state word is burnt only with its intent word, FIELDED's only with DBGDIS, RETIRED's only with
KEYKILL. -/
def FuseOrder (s : Machine.State) : Prop :=
  let f := s.dev.boot.fuses
  (burnt f 0x04 = true → burnt f 0x00 = true) ∧ (burnt f 0x0C = true → burnt f 0x08 = true ∧ burnt f 0x18 = true)
    ∧ (burnt f 0x14 = true → burnt f 0x10 = true ∧ burnt f 0x1C = true)

end Sys2Proof.Spec

/-- Every step keeps the fuse words in the order of R429, takes no fuse bit back to 0 (R427), and so never moves the life-cycle back (R426):
in particular no command makes a FIELDED module's debug port live again (R440). -/
def Obligations.EveryStepKeepsTheFuses : Prop :=
  ∀ s t : Machine.State, FuseOrder s → step s = .next t →
    FuseOrder t
    ∧ (∀ a k, (Mem.read s.dev.boot.fuses a).getLsbD k = true → (Mem.read t.dev.boot.fuses a).getLsbD k = true)
    ∧ lifeCycle s.dev.boot.fuses ≤ lifeCycle t.dev.boot.fuses
    ∧ (2 ≤ lifeCycle s.dev.boot.fuses → lifeCycle s.dev.boot.fuses < 3 → t.dev.boot.dbgdis = true)

/-- After reset the fuse words stand in the order of R429, and no word counts as burnt. -/
def Obligations.ResetKeepsTheFuses : Prop :=
  FuseOrder Machine.State.reset ∧ ∀ o, burnt Machine.State.reset.dev.boot.fuses o = false
end

