-- ==== Sys2Proof/Laws/State.lean ====
section
/-! SUPPORT. What each update of the device leaves and changes, field by field: true by definition. -/

namespace Sys2Proof.Machine

@[simp] theorem Dev.setBasins_basins (d : Dev) (x : Tab Basin) : (d.setBasins x).basins = x := rfl
@[simp] theorem Dev.setBasins_cad (d : Dev) (x : Tab Basin) : (d.setBasins x).cad = d.cad := rfl
@[simp] theorem Dev.setBasins_streams (d : Dev) (x : Tab Basin) : (d.setBasins x).streams = d.streams := rfl
@[simp] theorem Dev.setBasins_plans (d : Dev) (x : Tab Basin) : (d.setBasins x).plans = d.plans := rfl
@[simp] theorem Dev.setBasins_domains (d : Dev) (x : Tab Basin) : (d.setBasins x).domains = d.domains := rfl
@[simp] theorem Dev.setBasins_models (d : Dev) (x : Tab Basin) : (d.setBasins x).models = d.models := rfl
@[simp] theorem Dev.setBasins_lib (d : Dev) (x : Tab Basin) : (d.setBasins x).lib = d.lib := rfl
@[simp] theorem Dev.setBasins_trains (d : Dev) (x : Tab Basin) : (d.setBasins x).trains = d.trains := rfl
@[simp] theorem Dev.setBasins_rsv (d : Dev) (x : Tab Basin) : (d.setBasins x).rsv = d.rsv := rfl
@[simp] theorem Dev.setBasins_hostMem (d : Dev) (x : Tab Basin) : (d.setBasins x).hostMem = d.hostMem := rfl
@[simp] theorem Dev.setBasins_out (d : Dev) (x : Tab Basin) : (d.setBasins x).out = d.out := rfl
@[simp] theorem Dev.setBasins_funcs (d : Dev) (x : Tab Basin) : (d.setBasins x).funcs = d.funcs := rfl
@[simp] theorem Dev.setBasins_hw (d : Dev) (x : Tab Basin) : (d.setBasins x).hw = d.hw := rfl
@[simp] theorem Dev.setBasins_fh (d : Dev) (x : Tab Basin) : (d.setBasins x).fh = d.fh := rfl
@[simp] theorem Dev.setBasins_ports (d : Dev) (x : Tab Basin) : (d.setBasins x).ports = d.ports := rfl
@[simp] theorem Dev.setBasins_link (d : Dev) (x : Tab Basin) : (d.setBasins x).link = d.link := rfl
@[simp] theorem Dev.setBasins_pair (d : Dev) (x : Tab Basin) : (d.setBasins x).pair = d.pair := rfl
@[simp] theorem Dev.setBasins_flt (d : Dev) (x : Tab Basin) : (d.setBasins x).flt = d.flt := rfl
@[simp] theorem Dev.setBasins_pow (d : Dev) (x : Tab Basin) : (d.setBasins x).pow = d.pow := rfl
@[simp] theorem Dev.setBasins_boot (d : Dev) (x : Tab Basin) : (d.setBasins x).boot = d.boot := rfl
@[simp] theorem Dev.setBasins_still (d : Dev) (x : Tab Basin) : (d.setBasins x).still = d.still := rfl
@[simp] theorem Dev.setBasins_md (d : Dev) (x : Tab Basin) : (d.setBasins x).md = d.md := rfl
@[simp] theorem Dev.setBasins_areas (d : Dev) (x : Tab Basin) : (d.setBasins x).areas = d.areas := rfl
@[simp] theorem Dev.setBasins_free (d : Dev) (x : Tab Basin) : (d.setBasins x).free = d.free := rfl
@[simp] theorem Dev.setCad_basins (d : Dev) (x : Cad) : (d.setCad x).basins = d.basins := rfl
@[simp] theorem Dev.setCad_cad (d : Dev) (x : Cad) : (d.setCad x).cad = x := rfl
@[simp] theorem Dev.setCad_streams (d : Dev) (x : Cad) : (d.setCad x).streams = d.streams := rfl
@[simp] theorem Dev.setCad_plans (d : Dev) (x : Cad) : (d.setCad x).plans = d.plans := rfl
@[simp] theorem Dev.setCad_domains (d : Dev) (x : Cad) : (d.setCad x).domains = d.domains := rfl
@[simp] theorem Dev.setCad_models (d : Dev) (x : Cad) : (d.setCad x).models = d.models := rfl
@[simp] theorem Dev.setCad_lib (d : Dev) (x : Cad) : (d.setCad x).lib = d.lib := rfl
@[simp] theorem Dev.setCad_trains (d : Dev) (x : Cad) : (d.setCad x).trains = d.trains := rfl
@[simp] theorem Dev.setCad_rsv (d : Dev) (x : Cad) : (d.setCad x).rsv = d.rsv := rfl
@[simp] theorem Dev.setCad_hostMem (d : Dev) (x : Cad) : (d.setCad x).hostMem = d.hostMem := rfl
@[simp] theorem Dev.setCad_out (d : Dev) (x : Cad) : (d.setCad x).out = d.out := rfl
@[simp] theorem Dev.setCad_funcs (d : Dev) (x : Cad) : (d.setCad x).funcs = d.funcs := rfl
@[simp] theorem Dev.setCad_hw (d : Dev) (x : Cad) : (d.setCad x).hw = d.hw := rfl
@[simp] theorem Dev.setCad_fh (d : Dev) (x : Cad) : (d.setCad x).fh = d.fh := rfl
@[simp] theorem Dev.setCad_ports (d : Dev) (x : Cad) : (d.setCad x).ports = d.ports := rfl
@[simp] theorem Dev.setCad_link (d : Dev) (x : Cad) : (d.setCad x).link = d.link := rfl
@[simp] theorem Dev.setCad_pair (d : Dev) (x : Cad) : (d.setCad x).pair = d.pair := rfl
@[simp] theorem Dev.setCad_flt (d : Dev) (x : Cad) : (d.setCad x).flt = d.flt := rfl
@[simp] theorem Dev.setCad_pow (d : Dev) (x : Cad) : (d.setCad x).pow = d.pow := rfl
@[simp] theorem Dev.setCad_boot (d : Dev) (x : Cad) : (d.setCad x).boot = d.boot := rfl
@[simp] theorem Dev.setCad_still (d : Dev) (x : Cad) : (d.setCad x).still = d.still := rfl
@[simp] theorem Dev.setCad_md (d : Dev) (x : Cad) : (d.setCad x).md = d.md := rfl
@[simp] theorem Dev.setCad_areas (d : Dev) (x : Cad) : (d.setCad x).areas = d.areas := rfl
@[simp] theorem Dev.setCad_free (d : Dev) (x : Cad) : (d.setCad x).free = d.free := rfl
@[simp] theorem Dev.setStreams_basins (d : Dev) (x : Tab Stream) : (d.setStreams x).basins = d.basins := rfl
@[simp] theorem Dev.setStreams_cad (d : Dev) (x : Tab Stream) : (d.setStreams x).cad = d.cad := rfl
@[simp] theorem Dev.setStreams_streams (d : Dev) (x : Tab Stream) : (d.setStreams x).streams = x := rfl
@[simp] theorem Dev.setStreams_plans (d : Dev) (x : Tab Stream) : (d.setStreams x).plans = d.plans := rfl
@[simp] theorem Dev.setStreams_domains (d : Dev) (x : Tab Stream) : (d.setStreams x).domains = d.domains := rfl
@[simp] theorem Dev.setStreams_models (d : Dev) (x : Tab Stream) : (d.setStreams x).models = d.models := rfl
@[simp] theorem Dev.setStreams_lib (d : Dev) (x : Tab Stream) : (d.setStreams x).lib = d.lib := rfl
@[simp] theorem Dev.setStreams_trains (d : Dev) (x : Tab Stream) : (d.setStreams x).trains = d.trains := rfl
@[simp] theorem Dev.setStreams_rsv (d : Dev) (x : Tab Stream) : (d.setStreams x).rsv = d.rsv := rfl
@[simp] theorem Dev.setStreams_hostMem (d : Dev) (x : Tab Stream) : (d.setStreams x).hostMem = d.hostMem := rfl
@[simp] theorem Dev.setStreams_out (d : Dev) (x : Tab Stream) : (d.setStreams x).out = d.out := rfl
@[simp] theorem Dev.setStreams_funcs (d : Dev) (x : Tab Stream) : (d.setStreams x).funcs = d.funcs := rfl
@[simp] theorem Dev.setStreams_hw (d : Dev) (x : Tab Stream) : (d.setStreams x).hw = d.hw := rfl
@[simp] theorem Dev.setStreams_fh (d : Dev) (x : Tab Stream) : (d.setStreams x).fh = d.fh := rfl
@[simp] theorem Dev.setStreams_ports (d : Dev) (x : Tab Stream) : (d.setStreams x).ports = d.ports := rfl
@[simp] theorem Dev.setStreams_link (d : Dev) (x : Tab Stream) : (d.setStreams x).link = d.link := rfl
@[simp] theorem Dev.setStreams_pair (d : Dev) (x : Tab Stream) : (d.setStreams x).pair = d.pair := rfl
@[simp] theorem Dev.setStreams_flt (d : Dev) (x : Tab Stream) : (d.setStreams x).flt = d.flt := rfl
@[simp] theorem Dev.setStreams_pow (d : Dev) (x : Tab Stream) : (d.setStreams x).pow = d.pow := rfl
@[simp] theorem Dev.setStreams_boot (d : Dev) (x : Tab Stream) : (d.setStreams x).boot = d.boot := rfl
@[simp] theorem Dev.setStreams_still (d : Dev) (x : Tab Stream) : (d.setStreams x).still = d.still := rfl
@[simp] theorem Dev.setStreams_md (d : Dev) (x : Tab Stream) : (d.setStreams x).md = d.md := rfl
@[simp] theorem Dev.setStreams_areas (d : Dev) (x : Tab Stream) : (d.setStreams x).areas = d.areas := rfl
@[simp] theorem Dev.setStreams_free (d : Dev) (x : Tab Stream) : (d.setStreams x).free = d.free := rfl
@[simp] theorem Dev.setPlans_basins (d : Dev) (x : List Plan) : (d.setPlans x).basins = d.basins := rfl
@[simp] theorem Dev.setPlans_cad (d : Dev) (x : List Plan) : (d.setPlans x).cad = d.cad := rfl
@[simp] theorem Dev.setPlans_streams (d : Dev) (x : List Plan) : (d.setPlans x).streams = d.streams := rfl
@[simp] theorem Dev.setPlans_plans (d : Dev) (x : List Plan) : (d.setPlans x).plans = x := rfl
@[simp] theorem Dev.setPlans_domains (d : Dev) (x : List Plan) : (d.setPlans x).domains = d.domains := rfl
@[simp] theorem Dev.setPlans_models (d : Dev) (x : List Plan) : (d.setPlans x).models = d.models := rfl
@[simp] theorem Dev.setPlans_lib (d : Dev) (x : List Plan) : (d.setPlans x).lib = d.lib := rfl
@[simp] theorem Dev.setPlans_trains (d : Dev) (x : List Plan) : (d.setPlans x).trains = d.trains := rfl
@[simp] theorem Dev.setPlans_rsv (d : Dev) (x : List Plan) : (d.setPlans x).rsv = d.rsv := rfl
@[simp] theorem Dev.setPlans_hostMem (d : Dev) (x : List Plan) : (d.setPlans x).hostMem = d.hostMem := rfl
@[simp] theorem Dev.setPlans_out (d : Dev) (x : List Plan) : (d.setPlans x).out = d.out := rfl
@[simp] theorem Dev.setPlans_funcs (d : Dev) (x : List Plan) : (d.setPlans x).funcs = d.funcs := rfl
@[simp] theorem Dev.setPlans_hw (d : Dev) (x : List Plan) : (d.setPlans x).hw = d.hw := rfl
@[simp] theorem Dev.setPlans_fh (d : Dev) (x : List Plan) : (d.setPlans x).fh = d.fh := rfl
@[simp] theorem Dev.setPlans_ports (d : Dev) (x : List Plan) : (d.setPlans x).ports = d.ports := rfl
@[simp] theorem Dev.setPlans_link (d : Dev) (x : List Plan) : (d.setPlans x).link = d.link := rfl
@[simp] theorem Dev.setPlans_pair (d : Dev) (x : List Plan) : (d.setPlans x).pair = d.pair := rfl
@[simp] theorem Dev.setPlans_flt (d : Dev) (x : List Plan) : (d.setPlans x).flt = d.flt := rfl
@[simp] theorem Dev.setPlans_pow (d : Dev) (x : List Plan) : (d.setPlans x).pow = d.pow := rfl
@[simp] theorem Dev.setPlans_boot (d : Dev) (x : List Plan) : (d.setPlans x).boot = d.boot := rfl
@[simp] theorem Dev.setPlans_still (d : Dev) (x : List Plan) : (d.setPlans x).still = d.still := rfl
@[simp] theorem Dev.setPlans_md (d : Dev) (x : List Plan) : (d.setPlans x).md = d.md := rfl
@[simp] theorem Dev.setPlans_areas (d : Dev) (x : List Plan) : (d.setPlans x).areas = d.areas := rfl
@[simp] theorem Dev.setPlans_free (d : Dev) (x : List Plan) : (d.setPlans x).free = d.free := rfl
@[simp] theorem Dev.setDomains_basins (d : Dev) (x : Tab Domain) : (d.setDomains x).basins = d.basins := rfl
@[simp] theorem Dev.setDomains_cad (d : Dev) (x : Tab Domain) : (d.setDomains x).cad = d.cad := rfl
@[simp] theorem Dev.setDomains_streams (d : Dev) (x : Tab Domain) : (d.setDomains x).streams = d.streams := rfl
@[simp] theorem Dev.setDomains_plans (d : Dev) (x : Tab Domain) : (d.setDomains x).plans = d.plans := rfl
@[simp] theorem Dev.setDomains_domains (d : Dev) (x : Tab Domain) : (d.setDomains x).domains = x := rfl
@[simp] theorem Dev.setDomains_models (d : Dev) (x : Tab Domain) : (d.setDomains x).models = d.models := rfl
@[simp] theorem Dev.setDomains_lib (d : Dev) (x : Tab Domain) : (d.setDomains x).lib = d.lib := rfl
@[simp] theorem Dev.setDomains_trains (d : Dev) (x : Tab Domain) : (d.setDomains x).trains = d.trains := rfl
@[simp] theorem Dev.setDomains_rsv (d : Dev) (x : Tab Domain) : (d.setDomains x).rsv = d.rsv := rfl
@[simp] theorem Dev.setDomains_hostMem (d : Dev) (x : Tab Domain) : (d.setDomains x).hostMem = d.hostMem := rfl
@[simp] theorem Dev.setDomains_out (d : Dev) (x : Tab Domain) : (d.setDomains x).out = d.out := rfl
@[simp] theorem Dev.setDomains_funcs (d : Dev) (x : Tab Domain) : (d.setDomains x).funcs = d.funcs := rfl
@[simp] theorem Dev.setDomains_hw (d : Dev) (x : Tab Domain) : (d.setDomains x).hw = d.hw := rfl
@[simp] theorem Dev.setDomains_fh (d : Dev) (x : Tab Domain) : (d.setDomains x).fh = d.fh := rfl
@[simp] theorem Dev.setDomains_ports (d : Dev) (x : Tab Domain) : (d.setDomains x).ports = d.ports := rfl
@[simp] theorem Dev.setDomains_link (d : Dev) (x : Tab Domain) : (d.setDomains x).link = d.link := rfl
@[simp] theorem Dev.setDomains_pair (d : Dev) (x : Tab Domain) : (d.setDomains x).pair = d.pair := rfl
@[simp] theorem Dev.setDomains_flt (d : Dev) (x : Tab Domain) : (d.setDomains x).flt = d.flt := rfl
@[simp] theorem Dev.setDomains_pow (d : Dev) (x : Tab Domain) : (d.setDomains x).pow = d.pow := rfl
@[simp] theorem Dev.setDomains_boot (d : Dev) (x : Tab Domain) : (d.setDomains x).boot = d.boot := rfl
@[simp] theorem Dev.setDomains_still (d : Dev) (x : Tab Domain) : (d.setDomains x).still = d.still := rfl
@[simp] theorem Dev.setDomains_md (d : Dev) (x : Tab Domain) : (d.setDomains x).md = d.md := rfl
@[simp] theorem Dev.setDomains_areas (d : Dev) (x : Tab Domain) : (d.setDomains x).areas = d.areas := rfl
@[simp] theorem Dev.setDomains_free (d : Dev) (x : Tab Domain) : (d.setDomains x).free = d.free := rfl
@[simp] theorem Dev.setModels_basins (d : Dev) (x : Tab Model) : (d.setModels x).basins = d.basins := rfl
@[simp] theorem Dev.setModels_cad (d : Dev) (x : Tab Model) : (d.setModels x).cad = d.cad := rfl
@[simp] theorem Dev.setModels_streams (d : Dev) (x : Tab Model) : (d.setModels x).streams = d.streams := rfl
@[simp] theorem Dev.setModels_plans (d : Dev) (x : Tab Model) : (d.setModels x).plans = d.plans := rfl
@[simp] theorem Dev.setModels_domains (d : Dev) (x : Tab Model) : (d.setModels x).domains = d.domains := rfl
@[simp] theorem Dev.setModels_models (d : Dev) (x : Tab Model) : (d.setModels x).models = x := rfl
@[simp] theorem Dev.setModels_lib (d : Dev) (x : Tab Model) : (d.setModels x).lib = d.lib := rfl
@[simp] theorem Dev.setModels_trains (d : Dev) (x : Tab Model) : (d.setModels x).trains = d.trains := rfl
@[simp] theorem Dev.setModels_rsv (d : Dev) (x : Tab Model) : (d.setModels x).rsv = d.rsv := rfl
@[simp] theorem Dev.setModels_hostMem (d : Dev) (x : Tab Model) : (d.setModels x).hostMem = d.hostMem := rfl
@[simp] theorem Dev.setModels_out (d : Dev) (x : Tab Model) : (d.setModels x).out = d.out := rfl
@[simp] theorem Dev.setModels_funcs (d : Dev) (x : Tab Model) : (d.setModels x).funcs = d.funcs := rfl
@[simp] theorem Dev.setModels_hw (d : Dev) (x : Tab Model) : (d.setModels x).hw = d.hw := rfl
@[simp] theorem Dev.setModels_fh (d : Dev) (x : Tab Model) : (d.setModels x).fh = d.fh := rfl
@[simp] theorem Dev.setModels_ports (d : Dev) (x : Tab Model) : (d.setModels x).ports = d.ports := rfl
@[simp] theorem Dev.setModels_link (d : Dev) (x : Tab Model) : (d.setModels x).link = d.link := rfl
@[simp] theorem Dev.setModels_pair (d : Dev) (x : Tab Model) : (d.setModels x).pair = d.pair := rfl
@[simp] theorem Dev.setModels_flt (d : Dev) (x : Tab Model) : (d.setModels x).flt = d.flt := rfl
@[simp] theorem Dev.setModels_pow (d : Dev) (x : Tab Model) : (d.setModels x).pow = d.pow := rfl
@[simp] theorem Dev.setModels_boot (d : Dev) (x : Tab Model) : (d.setModels x).boot = d.boot := rfl
@[simp] theorem Dev.setModels_still (d : Dev) (x : Tab Model) : (d.setModels x).still = d.still := rfl
@[simp] theorem Dev.setModels_md (d : Dev) (x : Tab Model) : (d.setModels x).md = d.md := rfl
@[simp] theorem Dev.setModels_areas (d : Dev) (x : Tab Model) : (d.setModels x).areas = d.areas := rfl
@[simp] theorem Dev.setModels_free (d : Dev) (x : Tab Model) : (d.setModels x).free = d.free := rfl
@[simp] theorem Dev.setLib_basins (d : Dev) (x : RunLib) : (d.setLib x).basins = d.basins := rfl
@[simp] theorem Dev.setLib_cad (d : Dev) (x : RunLib) : (d.setLib x).cad = d.cad := rfl
@[simp] theorem Dev.setLib_streams (d : Dev) (x : RunLib) : (d.setLib x).streams = d.streams := rfl
@[simp] theorem Dev.setLib_plans (d : Dev) (x : RunLib) : (d.setLib x).plans = d.plans := rfl
@[simp] theorem Dev.setLib_domains (d : Dev) (x : RunLib) : (d.setLib x).domains = d.domains := rfl
@[simp] theorem Dev.setLib_models (d : Dev) (x : RunLib) : (d.setLib x).models = d.models := rfl
@[simp] theorem Dev.setLib_lib (d : Dev) (x : RunLib) : (d.setLib x).lib = x := rfl
@[simp] theorem Dev.setLib_trains (d : Dev) (x : RunLib) : (d.setLib x).trains = d.trains := rfl
@[simp] theorem Dev.setLib_rsv (d : Dev) (x : RunLib) : (d.setLib x).rsv = d.rsv := rfl
@[simp] theorem Dev.setLib_hostMem (d : Dev) (x : RunLib) : (d.setLib x).hostMem = d.hostMem := rfl
@[simp] theorem Dev.setLib_out (d : Dev) (x : RunLib) : (d.setLib x).out = d.out := rfl
@[simp] theorem Dev.setLib_funcs (d : Dev) (x : RunLib) : (d.setLib x).funcs = d.funcs := rfl
@[simp] theorem Dev.setLib_hw (d : Dev) (x : RunLib) : (d.setLib x).hw = d.hw := rfl
@[simp] theorem Dev.setLib_fh (d : Dev) (x : RunLib) : (d.setLib x).fh = d.fh := rfl
@[simp] theorem Dev.setLib_ports (d : Dev) (x : RunLib) : (d.setLib x).ports = d.ports := rfl
@[simp] theorem Dev.setLib_link (d : Dev) (x : RunLib) : (d.setLib x).link = d.link := rfl
@[simp] theorem Dev.setLib_pair (d : Dev) (x : RunLib) : (d.setLib x).pair = d.pair := rfl
@[simp] theorem Dev.setLib_flt (d : Dev) (x : RunLib) : (d.setLib x).flt = d.flt := rfl
@[simp] theorem Dev.setLib_pow (d : Dev) (x : RunLib) : (d.setLib x).pow = d.pow := rfl
@[simp] theorem Dev.setLib_boot (d : Dev) (x : RunLib) : (d.setLib x).boot = d.boot := rfl
@[simp] theorem Dev.setLib_still (d : Dev) (x : RunLib) : (d.setLib x).still = d.still := rfl
@[simp] theorem Dev.setLib_md (d : Dev) (x : RunLib) : (d.setLib x).md = d.md := rfl
@[simp] theorem Dev.setLib_areas (d : Dev) (x : RunLib) : (d.setLib x).areas = d.areas := rfl
@[simp] theorem Dev.setLib_free (d : Dev) (x : RunLib) : (d.setLib x).free = d.free := rfl
@[simp] theorem Dev.setTrains_basins (d : Dev) (x : Tab Train) : (d.setTrains x).basins = d.basins := rfl
@[simp] theorem Dev.setTrains_cad (d : Dev) (x : Tab Train) : (d.setTrains x).cad = d.cad := rfl
@[simp] theorem Dev.setTrains_streams (d : Dev) (x : Tab Train) : (d.setTrains x).streams = d.streams := rfl
@[simp] theorem Dev.setTrains_plans (d : Dev) (x : Tab Train) : (d.setTrains x).plans = d.plans := rfl
@[simp] theorem Dev.setTrains_domains (d : Dev) (x : Tab Train) : (d.setTrains x).domains = d.domains := rfl
@[simp] theorem Dev.setTrains_models (d : Dev) (x : Tab Train) : (d.setTrains x).models = d.models := rfl
@[simp] theorem Dev.setTrains_lib (d : Dev) (x : Tab Train) : (d.setTrains x).lib = d.lib := rfl
@[simp] theorem Dev.setTrains_trains (d : Dev) (x : Tab Train) : (d.setTrains x).trains = x := rfl
@[simp] theorem Dev.setTrains_rsv (d : Dev) (x : Tab Train) : (d.setTrains x).rsv = d.rsv := rfl
@[simp] theorem Dev.setTrains_hostMem (d : Dev) (x : Tab Train) : (d.setTrains x).hostMem = d.hostMem := rfl
@[simp] theorem Dev.setTrains_out (d : Dev) (x : Tab Train) : (d.setTrains x).out = d.out := rfl
@[simp] theorem Dev.setTrains_funcs (d : Dev) (x : Tab Train) : (d.setTrains x).funcs = d.funcs := rfl
@[simp] theorem Dev.setTrains_hw (d : Dev) (x : Tab Train) : (d.setTrains x).hw = d.hw := rfl
@[simp] theorem Dev.setTrains_fh (d : Dev) (x : Tab Train) : (d.setTrains x).fh = d.fh := rfl
@[simp] theorem Dev.setTrains_ports (d : Dev) (x : Tab Train) : (d.setTrains x).ports = d.ports := rfl
@[simp] theorem Dev.setTrains_link (d : Dev) (x : Tab Train) : (d.setTrains x).link = d.link := rfl
@[simp] theorem Dev.setTrains_pair (d : Dev) (x : Tab Train) : (d.setTrains x).pair = d.pair := rfl
@[simp] theorem Dev.setTrains_flt (d : Dev) (x : Tab Train) : (d.setTrains x).flt = d.flt := rfl
@[simp] theorem Dev.setTrains_pow (d : Dev) (x : Tab Train) : (d.setTrains x).pow = d.pow := rfl
@[simp] theorem Dev.setTrains_boot (d : Dev) (x : Tab Train) : (d.setTrains x).boot = d.boot := rfl
@[simp] theorem Dev.setTrains_still (d : Dev) (x : Tab Train) : (d.setTrains x).still = d.still := rfl
@[simp] theorem Dev.setTrains_md (d : Dev) (x : Tab Train) : (d.setTrains x).md = d.md := rfl
@[simp] theorem Dev.setTrains_areas (d : Dev) (x : Tab Train) : (d.setTrains x).areas = d.areas := rfl
@[simp] theorem Dev.setTrains_free (d : Dev) (x : Tab Train) : (d.setTrains x).free = d.free := rfl
@[simp] theorem Dev.setRsv_basins (d : Dev) (x : Rsv) : (d.setRsv x).basins = d.basins := rfl
@[simp] theorem Dev.setRsv_cad (d : Dev) (x : Rsv) : (d.setRsv x).cad = d.cad := rfl
@[simp] theorem Dev.setRsv_streams (d : Dev) (x : Rsv) : (d.setRsv x).streams = d.streams := rfl
@[simp] theorem Dev.setRsv_plans (d : Dev) (x : Rsv) : (d.setRsv x).plans = d.plans := rfl
@[simp] theorem Dev.setRsv_domains (d : Dev) (x : Rsv) : (d.setRsv x).domains = d.domains := rfl
@[simp] theorem Dev.setRsv_models (d : Dev) (x : Rsv) : (d.setRsv x).models = d.models := rfl
@[simp] theorem Dev.setRsv_lib (d : Dev) (x : Rsv) : (d.setRsv x).lib = d.lib := rfl
@[simp] theorem Dev.setRsv_trains (d : Dev) (x : Rsv) : (d.setRsv x).trains = d.trains := rfl
@[simp] theorem Dev.setRsv_rsv (d : Dev) (x : Rsv) : (d.setRsv x).rsv = x := rfl
@[simp] theorem Dev.setRsv_hostMem (d : Dev) (x : Rsv) : (d.setRsv x).hostMem = d.hostMem := rfl
@[simp] theorem Dev.setRsv_out (d : Dev) (x : Rsv) : (d.setRsv x).out = d.out := rfl
@[simp] theorem Dev.setRsv_funcs (d : Dev) (x : Rsv) : (d.setRsv x).funcs = d.funcs := rfl
@[simp] theorem Dev.setRsv_hw (d : Dev) (x : Rsv) : (d.setRsv x).hw = d.hw := rfl
@[simp] theorem Dev.setRsv_fh (d : Dev) (x : Rsv) : (d.setRsv x).fh = d.fh := rfl
@[simp] theorem Dev.setRsv_ports (d : Dev) (x : Rsv) : (d.setRsv x).ports = d.ports := rfl
@[simp] theorem Dev.setRsv_link (d : Dev) (x : Rsv) : (d.setRsv x).link = d.link := rfl
@[simp] theorem Dev.setRsv_pair (d : Dev) (x : Rsv) : (d.setRsv x).pair = d.pair := rfl
@[simp] theorem Dev.setRsv_flt (d : Dev) (x : Rsv) : (d.setRsv x).flt = d.flt := rfl
@[simp] theorem Dev.setRsv_pow (d : Dev) (x : Rsv) : (d.setRsv x).pow = d.pow := rfl
@[simp] theorem Dev.setRsv_boot (d : Dev) (x : Rsv) : (d.setRsv x).boot = d.boot := rfl
@[simp] theorem Dev.setRsv_still (d : Dev) (x : Rsv) : (d.setRsv x).still = d.still := rfl
@[simp] theorem Dev.setRsv_md (d : Dev) (x : Rsv) : (d.setRsv x).md = d.md := rfl
@[simp] theorem Dev.setRsv_areas (d : Dev) (x : Rsv) : (d.setRsv x).areas = d.areas := rfl
@[simp] theorem Dev.setRsv_free (d : Dev) (x : Rsv) : (d.setRsv x).free = d.free := rfl
@[simp] theorem Dev.setHostMem_basins (d : Dev) (x : Mem) : (d.setHostMem x).basins = d.basins := rfl
@[simp] theorem Dev.setHostMem_cad (d : Dev) (x : Mem) : (d.setHostMem x).cad = d.cad := rfl
@[simp] theorem Dev.setHostMem_streams (d : Dev) (x : Mem) : (d.setHostMem x).streams = d.streams := rfl
@[simp] theorem Dev.setHostMem_plans (d : Dev) (x : Mem) : (d.setHostMem x).plans = d.plans := rfl
@[simp] theorem Dev.setHostMem_domains (d : Dev) (x : Mem) : (d.setHostMem x).domains = d.domains := rfl
@[simp] theorem Dev.setHostMem_models (d : Dev) (x : Mem) : (d.setHostMem x).models = d.models := rfl
@[simp] theorem Dev.setHostMem_lib (d : Dev) (x : Mem) : (d.setHostMem x).lib = d.lib := rfl
@[simp] theorem Dev.setHostMem_trains (d : Dev) (x : Mem) : (d.setHostMem x).trains = d.trains := rfl
@[simp] theorem Dev.setHostMem_rsv (d : Dev) (x : Mem) : (d.setHostMem x).rsv = d.rsv := rfl
@[simp] theorem Dev.setHostMem_hostMem (d : Dev) (x : Mem) : (d.setHostMem x).hostMem = x := rfl
@[simp] theorem Dev.setHostMem_out (d : Dev) (x : Mem) : (d.setHostMem x).out = d.out := rfl
@[simp] theorem Dev.setHostMem_funcs (d : Dev) (x : Mem) : (d.setHostMem x).funcs = d.funcs := rfl
@[simp] theorem Dev.setHostMem_hw (d : Dev) (x : Mem) : (d.setHostMem x).hw = d.hw := rfl
@[simp] theorem Dev.setHostMem_fh (d : Dev) (x : Mem) : (d.setHostMem x).fh = d.fh := rfl
@[simp] theorem Dev.setHostMem_ports (d : Dev) (x : Mem) : (d.setHostMem x).ports = d.ports := rfl
@[simp] theorem Dev.setHostMem_link (d : Dev) (x : Mem) : (d.setHostMem x).link = d.link := rfl
@[simp] theorem Dev.setHostMem_pair (d : Dev) (x : Mem) : (d.setHostMem x).pair = d.pair := rfl
@[simp] theorem Dev.setHostMem_flt (d : Dev) (x : Mem) : (d.setHostMem x).flt = d.flt := rfl
@[simp] theorem Dev.setHostMem_pow (d : Dev) (x : Mem) : (d.setHostMem x).pow = d.pow := rfl
@[simp] theorem Dev.setHostMem_boot (d : Dev) (x : Mem) : (d.setHostMem x).boot = d.boot := rfl
@[simp] theorem Dev.setHostMem_still (d : Dev) (x : Mem) : (d.setHostMem x).still = d.still := rfl
@[simp] theorem Dev.setHostMem_md (d : Dev) (x : Mem) : (d.setHostMem x).md = d.md := rfl
@[simp] theorem Dev.setHostMem_areas (d : Dev) (x : Mem) : (d.setHostMem x).areas = d.areas := rfl
@[simp] theorem Dev.setHostMem_free (d : Dev) (x : Mem) : (d.setHostMem x).free = d.free := rfl
@[simp] theorem Dev.setOut_basins (d : Dev) (x : List Msg) : (d.setOut x).basins = d.basins := rfl
@[simp] theorem Dev.setOut_cad (d : Dev) (x : List Msg) : (d.setOut x).cad = d.cad := rfl
@[simp] theorem Dev.setOut_streams (d : Dev) (x : List Msg) : (d.setOut x).streams = d.streams := rfl
@[simp] theorem Dev.setOut_plans (d : Dev) (x : List Msg) : (d.setOut x).plans = d.plans := rfl
@[simp] theorem Dev.setOut_domains (d : Dev) (x : List Msg) : (d.setOut x).domains = d.domains := rfl
@[simp] theorem Dev.setOut_models (d : Dev) (x : List Msg) : (d.setOut x).models = d.models := rfl
@[simp] theorem Dev.setOut_lib (d : Dev) (x : List Msg) : (d.setOut x).lib = d.lib := rfl
@[simp] theorem Dev.setOut_trains (d : Dev) (x : List Msg) : (d.setOut x).trains = d.trains := rfl
@[simp] theorem Dev.setOut_rsv (d : Dev) (x : List Msg) : (d.setOut x).rsv = d.rsv := rfl
@[simp] theorem Dev.setOut_hostMem (d : Dev) (x : List Msg) : (d.setOut x).hostMem = d.hostMem := rfl
@[simp] theorem Dev.setOut_out (d : Dev) (x : List Msg) : (d.setOut x).out = x := rfl
@[simp] theorem Dev.setOut_funcs (d : Dev) (x : List Msg) : (d.setOut x).funcs = d.funcs := rfl
@[simp] theorem Dev.setOut_hw (d : Dev) (x : List Msg) : (d.setOut x).hw = d.hw := rfl
@[simp] theorem Dev.setOut_fh (d : Dev) (x : List Msg) : (d.setOut x).fh = d.fh := rfl
@[simp] theorem Dev.setOut_ports (d : Dev) (x : List Msg) : (d.setOut x).ports = d.ports := rfl
@[simp] theorem Dev.setOut_link (d : Dev) (x : List Msg) : (d.setOut x).link = d.link := rfl
@[simp] theorem Dev.setOut_pair (d : Dev) (x : List Msg) : (d.setOut x).pair = d.pair := rfl
@[simp] theorem Dev.setOut_flt (d : Dev) (x : List Msg) : (d.setOut x).flt = d.flt := rfl
@[simp] theorem Dev.setOut_pow (d : Dev) (x : List Msg) : (d.setOut x).pow = d.pow := rfl
@[simp] theorem Dev.setOut_boot (d : Dev) (x : List Msg) : (d.setOut x).boot = d.boot := rfl
@[simp] theorem Dev.setOut_still (d : Dev) (x : List Msg) : (d.setOut x).still = d.still := rfl
@[simp] theorem Dev.setOut_md (d : Dev) (x : List Msg) : (d.setOut x).md = d.md := rfl
@[simp] theorem Dev.setOut_areas (d : Dev) (x : List Msg) : (d.setOut x).areas = d.areas := rfl
@[simp] theorem Dev.setOut_free (d : Dev) (x : List Msg) : (d.setOut x).free = d.free := rfl
@[simp] theorem Dev.setFuncs_basins (d : Dev) (x : Tab Func) : (d.setFuncs x).basins = d.basins := rfl
@[simp] theorem Dev.setFuncs_cad (d : Dev) (x : Tab Func) : (d.setFuncs x).cad = d.cad := rfl
@[simp] theorem Dev.setFuncs_streams (d : Dev) (x : Tab Func) : (d.setFuncs x).streams = d.streams := rfl
@[simp] theorem Dev.setFuncs_plans (d : Dev) (x : Tab Func) : (d.setFuncs x).plans = d.plans := rfl
@[simp] theorem Dev.setFuncs_domains (d : Dev) (x : Tab Func) : (d.setFuncs x).domains = d.domains := rfl
@[simp] theorem Dev.setFuncs_models (d : Dev) (x : Tab Func) : (d.setFuncs x).models = d.models := rfl
@[simp] theorem Dev.setFuncs_lib (d : Dev) (x : Tab Func) : (d.setFuncs x).lib = d.lib := rfl
@[simp] theorem Dev.setFuncs_trains (d : Dev) (x : Tab Func) : (d.setFuncs x).trains = d.trains := rfl
@[simp] theorem Dev.setFuncs_rsv (d : Dev) (x : Tab Func) : (d.setFuncs x).rsv = d.rsv := rfl
@[simp] theorem Dev.setFuncs_hostMem (d : Dev) (x : Tab Func) : (d.setFuncs x).hostMem = d.hostMem := rfl
@[simp] theorem Dev.setFuncs_out (d : Dev) (x : Tab Func) : (d.setFuncs x).out = d.out := rfl
@[simp] theorem Dev.setFuncs_funcs (d : Dev) (x : Tab Func) : (d.setFuncs x).funcs = x := rfl
@[simp] theorem Dev.setFuncs_hw (d : Dev) (x : Tab Func) : (d.setFuncs x).hw = d.hw := rfl
@[simp] theorem Dev.setFuncs_fh (d : Dev) (x : Tab Func) : (d.setFuncs x).fh = d.fh := rfl
@[simp] theorem Dev.setFuncs_ports (d : Dev) (x : Tab Func) : (d.setFuncs x).ports = d.ports := rfl
@[simp] theorem Dev.setFuncs_link (d : Dev) (x : Tab Func) : (d.setFuncs x).link = d.link := rfl
@[simp] theorem Dev.setFuncs_pair (d : Dev) (x : Tab Func) : (d.setFuncs x).pair = d.pair := rfl
@[simp] theorem Dev.setFuncs_flt (d : Dev) (x : Tab Func) : (d.setFuncs x).flt = d.flt := rfl
@[simp] theorem Dev.setFuncs_pow (d : Dev) (x : Tab Func) : (d.setFuncs x).pow = d.pow := rfl
@[simp] theorem Dev.setFuncs_boot (d : Dev) (x : Tab Func) : (d.setFuncs x).boot = d.boot := rfl
@[simp] theorem Dev.setFuncs_still (d : Dev) (x : Tab Func) : (d.setFuncs x).still = d.still := rfl
@[simp] theorem Dev.setFuncs_md (d : Dev) (x : Tab Func) : (d.setFuncs x).md = d.md := rfl
@[simp] theorem Dev.setFuncs_areas (d : Dev) (x : Tab Func) : (d.setFuncs x).areas = d.areas := rfl
@[simp] theorem Dev.setFuncs_free (d : Dev) (x : Tab Func) : (d.setFuncs x).free = d.free := rfl
@[simp] theorem Dev.setHw_basins (d : Dev) (x : Hw) : (d.setHw x).basins = d.basins := rfl
@[simp] theorem Dev.setHw_cad (d : Dev) (x : Hw) : (d.setHw x).cad = d.cad := rfl
@[simp] theorem Dev.setHw_streams (d : Dev) (x : Hw) : (d.setHw x).streams = d.streams := rfl
@[simp] theorem Dev.setHw_plans (d : Dev) (x : Hw) : (d.setHw x).plans = d.plans := rfl
@[simp] theorem Dev.setHw_domains (d : Dev) (x : Hw) : (d.setHw x).domains = d.domains := rfl
@[simp] theorem Dev.setHw_models (d : Dev) (x : Hw) : (d.setHw x).models = d.models := rfl
@[simp] theorem Dev.setHw_lib (d : Dev) (x : Hw) : (d.setHw x).lib = d.lib := rfl
@[simp] theorem Dev.setHw_trains (d : Dev) (x : Hw) : (d.setHw x).trains = d.trains := rfl
@[simp] theorem Dev.setHw_rsv (d : Dev) (x : Hw) : (d.setHw x).rsv = d.rsv := rfl
@[simp] theorem Dev.setHw_hostMem (d : Dev) (x : Hw) : (d.setHw x).hostMem = d.hostMem := rfl
@[simp] theorem Dev.setHw_out (d : Dev) (x : Hw) : (d.setHw x).out = d.out := rfl
@[simp] theorem Dev.setHw_funcs (d : Dev) (x : Hw) : (d.setHw x).funcs = d.funcs := rfl
@[simp] theorem Dev.setHw_hw (d : Dev) (x : Hw) : (d.setHw x).hw = x := rfl
@[simp] theorem Dev.setHw_fh (d : Dev) (x : Hw) : (d.setHw x).fh = d.fh := rfl
@[simp] theorem Dev.setHw_ports (d : Dev) (x : Hw) : (d.setHw x).ports = d.ports := rfl
@[simp] theorem Dev.setHw_link (d : Dev) (x : Hw) : (d.setHw x).link = d.link := rfl
@[simp] theorem Dev.setHw_pair (d : Dev) (x : Hw) : (d.setHw x).pair = d.pair := rfl
@[simp] theorem Dev.setHw_flt (d : Dev) (x : Hw) : (d.setHw x).flt = d.flt := rfl
@[simp] theorem Dev.setHw_pow (d : Dev) (x : Hw) : (d.setHw x).pow = d.pow := rfl
@[simp] theorem Dev.setHw_boot (d : Dev) (x : Hw) : (d.setHw x).boot = d.boot := rfl
@[simp] theorem Dev.setHw_still (d : Dev) (x : Hw) : (d.setHw x).still = d.still := rfl
@[simp] theorem Dev.setHw_md (d : Dev) (x : Hw) : (d.setHw x).md = d.md := rfl
@[simp] theorem Dev.setHw_areas (d : Dev) (x : Hw) : (d.setHw x).areas = d.areas := rfl
@[simp] theorem Dev.setHw_free (d : Dev) (x : Hw) : (d.setHw x).free = d.free := rfl
@[simp] theorem Dev.setFh_basins (d : Dev) (x : Fh) : (d.setFh x).basins = d.basins := rfl
@[simp] theorem Dev.setFh_cad (d : Dev) (x : Fh) : (d.setFh x).cad = d.cad := rfl
@[simp] theorem Dev.setFh_streams (d : Dev) (x : Fh) : (d.setFh x).streams = d.streams := rfl
@[simp] theorem Dev.setFh_plans (d : Dev) (x : Fh) : (d.setFh x).plans = d.plans := rfl
@[simp] theorem Dev.setFh_domains (d : Dev) (x : Fh) : (d.setFh x).domains = d.domains := rfl
@[simp] theorem Dev.setFh_models (d : Dev) (x : Fh) : (d.setFh x).models = d.models := rfl
@[simp] theorem Dev.setFh_lib (d : Dev) (x : Fh) : (d.setFh x).lib = d.lib := rfl
@[simp] theorem Dev.setFh_trains (d : Dev) (x : Fh) : (d.setFh x).trains = d.trains := rfl
@[simp] theorem Dev.setFh_rsv (d : Dev) (x : Fh) : (d.setFh x).rsv = d.rsv := rfl
@[simp] theorem Dev.setFh_hostMem (d : Dev) (x : Fh) : (d.setFh x).hostMem = d.hostMem := rfl
@[simp] theorem Dev.setFh_out (d : Dev) (x : Fh) : (d.setFh x).out = d.out := rfl
@[simp] theorem Dev.setFh_funcs (d : Dev) (x : Fh) : (d.setFh x).funcs = d.funcs := rfl
@[simp] theorem Dev.setFh_hw (d : Dev) (x : Fh) : (d.setFh x).hw = d.hw := rfl
@[simp] theorem Dev.setFh_fh (d : Dev) (x : Fh) : (d.setFh x).fh = x := rfl
@[simp] theorem Dev.setFh_ports (d : Dev) (x : Fh) : (d.setFh x).ports = d.ports := rfl
@[simp] theorem Dev.setFh_link (d : Dev) (x : Fh) : (d.setFh x).link = d.link := rfl
@[simp] theorem Dev.setFh_pair (d : Dev) (x : Fh) : (d.setFh x).pair = d.pair := rfl
@[simp] theorem Dev.setFh_flt (d : Dev) (x : Fh) : (d.setFh x).flt = d.flt := rfl
@[simp] theorem Dev.setFh_pow (d : Dev) (x : Fh) : (d.setFh x).pow = d.pow := rfl
@[simp] theorem Dev.setFh_boot (d : Dev) (x : Fh) : (d.setFh x).boot = d.boot := rfl
@[simp] theorem Dev.setFh_still (d : Dev) (x : Fh) : (d.setFh x).still = d.still := rfl
@[simp] theorem Dev.setFh_md (d : Dev) (x : Fh) : (d.setFh x).md = d.md := rfl
@[simp] theorem Dev.setFh_areas (d : Dev) (x : Fh) : (d.setFh x).areas = d.areas := rfl
@[simp] theorem Dev.setFh_free (d : Dev) (x : Fh) : (d.setFh x).free = d.free := rfl
@[simp] theorem Dev.setPorts_basins (d : Dev) (x : Tab Port) : (d.setPorts x).basins = d.basins := rfl
@[simp] theorem Dev.setPorts_cad (d : Dev) (x : Tab Port) : (d.setPorts x).cad = d.cad := rfl
@[simp] theorem Dev.setPorts_streams (d : Dev) (x : Tab Port) : (d.setPorts x).streams = d.streams := rfl
@[simp] theorem Dev.setPorts_plans (d : Dev) (x : Tab Port) : (d.setPorts x).plans = d.plans := rfl
@[simp] theorem Dev.setPorts_domains (d : Dev) (x : Tab Port) : (d.setPorts x).domains = d.domains := rfl
@[simp] theorem Dev.setPorts_models (d : Dev) (x : Tab Port) : (d.setPorts x).models = d.models := rfl
@[simp] theorem Dev.setPorts_lib (d : Dev) (x : Tab Port) : (d.setPorts x).lib = d.lib := rfl
@[simp] theorem Dev.setPorts_trains (d : Dev) (x : Tab Port) : (d.setPorts x).trains = d.trains := rfl
@[simp] theorem Dev.setPorts_rsv (d : Dev) (x : Tab Port) : (d.setPorts x).rsv = d.rsv := rfl
@[simp] theorem Dev.setPorts_hostMem (d : Dev) (x : Tab Port) : (d.setPorts x).hostMem = d.hostMem := rfl
@[simp] theorem Dev.setPorts_out (d : Dev) (x : Tab Port) : (d.setPorts x).out = d.out := rfl
@[simp] theorem Dev.setPorts_funcs (d : Dev) (x : Tab Port) : (d.setPorts x).funcs = d.funcs := rfl
@[simp] theorem Dev.setPorts_hw (d : Dev) (x : Tab Port) : (d.setPorts x).hw = d.hw := rfl
@[simp] theorem Dev.setPorts_fh (d : Dev) (x : Tab Port) : (d.setPorts x).fh = d.fh := rfl
@[simp] theorem Dev.setPorts_ports (d : Dev) (x : Tab Port) : (d.setPorts x).ports = x := rfl
@[simp] theorem Dev.setPorts_link (d : Dev) (x : Tab Port) : (d.setPorts x).link = d.link := rfl
@[simp] theorem Dev.setPorts_pair (d : Dev) (x : Tab Port) : (d.setPorts x).pair = d.pair := rfl
@[simp] theorem Dev.setPorts_flt (d : Dev) (x : Tab Port) : (d.setPorts x).flt = d.flt := rfl
@[simp] theorem Dev.setPorts_pow (d : Dev) (x : Tab Port) : (d.setPorts x).pow = d.pow := rfl
@[simp] theorem Dev.setPorts_boot (d : Dev) (x : Tab Port) : (d.setPorts x).boot = d.boot := rfl
@[simp] theorem Dev.setPorts_still (d : Dev) (x : Tab Port) : (d.setPorts x).still = d.still := rfl
@[simp] theorem Dev.setPorts_md (d : Dev) (x : Tab Port) : (d.setPorts x).md = d.md := rfl
@[simp] theorem Dev.setPorts_areas (d : Dev) (x : Tab Port) : (d.setPorts x).areas = d.areas := rfl
@[simp] theorem Dev.setPorts_free (d : Dev) (x : Tab Port) : (d.setPorts x).free = d.free := rfl
@[simp] theorem Dev.setLink_basins (d : Dev) (x : Link) : (d.setLink x).basins = d.basins := rfl
@[simp] theorem Dev.setLink_cad (d : Dev) (x : Link) : (d.setLink x).cad = d.cad := rfl
@[simp] theorem Dev.setLink_streams (d : Dev) (x : Link) : (d.setLink x).streams = d.streams := rfl
@[simp] theorem Dev.setLink_plans (d : Dev) (x : Link) : (d.setLink x).plans = d.plans := rfl
@[simp] theorem Dev.setLink_domains (d : Dev) (x : Link) : (d.setLink x).domains = d.domains := rfl
@[simp] theorem Dev.setLink_models (d : Dev) (x : Link) : (d.setLink x).models = d.models := rfl
@[simp] theorem Dev.setLink_lib (d : Dev) (x : Link) : (d.setLink x).lib = d.lib := rfl
@[simp] theorem Dev.setLink_trains (d : Dev) (x : Link) : (d.setLink x).trains = d.trains := rfl
@[simp] theorem Dev.setLink_rsv (d : Dev) (x : Link) : (d.setLink x).rsv = d.rsv := rfl
@[simp] theorem Dev.setLink_hostMem (d : Dev) (x : Link) : (d.setLink x).hostMem = d.hostMem := rfl
@[simp] theorem Dev.setLink_out (d : Dev) (x : Link) : (d.setLink x).out = d.out := rfl
@[simp] theorem Dev.setLink_funcs (d : Dev) (x : Link) : (d.setLink x).funcs = d.funcs := rfl
@[simp] theorem Dev.setLink_hw (d : Dev) (x : Link) : (d.setLink x).hw = d.hw := rfl
@[simp] theorem Dev.setLink_fh (d : Dev) (x : Link) : (d.setLink x).fh = d.fh := rfl
@[simp] theorem Dev.setLink_ports (d : Dev) (x : Link) : (d.setLink x).ports = d.ports := rfl
@[simp] theorem Dev.setLink_link (d : Dev) (x : Link) : (d.setLink x).link = x := rfl
@[simp] theorem Dev.setLink_pair (d : Dev) (x : Link) : (d.setLink x).pair = d.pair := rfl
@[simp] theorem Dev.setLink_flt (d : Dev) (x : Link) : (d.setLink x).flt = d.flt := rfl
@[simp] theorem Dev.setLink_pow (d : Dev) (x : Link) : (d.setLink x).pow = d.pow := rfl
@[simp] theorem Dev.setLink_boot (d : Dev) (x : Link) : (d.setLink x).boot = d.boot := rfl
@[simp] theorem Dev.setLink_still (d : Dev) (x : Link) : (d.setLink x).still = d.still := rfl
@[simp] theorem Dev.setLink_md (d : Dev) (x : Link) : (d.setLink x).md = d.md := rfl
@[simp] theorem Dev.setLink_areas (d : Dev) (x : Link) : (d.setLink x).areas = d.areas := rfl
@[simp] theorem Dev.setLink_free (d : Dev) (x : Link) : (d.setLink x).free = d.free := rfl
@[simp] theorem Dev.setPair_basins (d : Dev) (x : Pair) : (d.setPair x).basins = d.basins := rfl
@[simp] theorem Dev.setPair_cad (d : Dev) (x : Pair) : (d.setPair x).cad = d.cad := rfl
@[simp] theorem Dev.setPair_streams (d : Dev) (x : Pair) : (d.setPair x).streams = d.streams := rfl
@[simp] theorem Dev.setPair_plans (d : Dev) (x : Pair) : (d.setPair x).plans = d.plans := rfl
@[simp] theorem Dev.setPair_domains (d : Dev) (x : Pair) : (d.setPair x).domains = d.domains := rfl
@[simp] theorem Dev.setPair_models (d : Dev) (x : Pair) : (d.setPair x).models = d.models := rfl
@[simp] theorem Dev.setPair_lib (d : Dev) (x : Pair) : (d.setPair x).lib = d.lib := rfl
@[simp] theorem Dev.setPair_trains (d : Dev) (x : Pair) : (d.setPair x).trains = d.trains := rfl
@[simp] theorem Dev.setPair_rsv (d : Dev) (x : Pair) : (d.setPair x).rsv = d.rsv := rfl
@[simp] theorem Dev.setPair_hostMem (d : Dev) (x : Pair) : (d.setPair x).hostMem = d.hostMem := rfl
@[simp] theorem Dev.setPair_out (d : Dev) (x : Pair) : (d.setPair x).out = d.out := rfl
@[simp] theorem Dev.setPair_funcs (d : Dev) (x : Pair) : (d.setPair x).funcs = d.funcs := rfl
@[simp] theorem Dev.setPair_hw (d : Dev) (x : Pair) : (d.setPair x).hw = d.hw := rfl
@[simp] theorem Dev.setPair_fh (d : Dev) (x : Pair) : (d.setPair x).fh = d.fh := rfl
@[simp] theorem Dev.setPair_ports (d : Dev) (x : Pair) : (d.setPair x).ports = d.ports := rfl
@[simp] theorem Dev.setPair_link (d : Dev) (x : Pair) : (d.setPair x).link = d.link := rfl
@[simp] theorem Dev.setPair_pair (d : Dev) (x : Pair) : (d.setPair x).pair = x := rfl
@[simp] theorem Dev.setPair_flt (d : Dev) (x : Pair) : (d.setPair x).flt = d.flt := rfl
@[simp] theorem Dev.setPair_pow (d : Dev) (x : Pair) : (d.setPair x).pow = d.pow := rfl
@[simp] theorem Dev.setPair_boot (d : Dev) (x : Pair) : (d.setPair x).boot = d.boot := rfl
@[simp] theorem Dev.setPair_still (d : Dev) (x : Pair) : (d.setPair x).still = d.still := rfl
@[simp] theorem Dev.setPair_md (d : Dev) (x : Pair) : (d.setPair x).md = d.md := rfl
@[simp] theorem Dev.setPair_areas (d : Dev) (x : Pair) : (d.setPair x).areas = d.areas := rfl
@[simp] theorem Dev.setPair_free (d : Dev) (x : Pair) : (d.setPair x).free = d.free := rfl
@[simp] theorem Dev.setFlt_basins (d : Dev) (x : Fault3) : (d.setFlt x).basins = d.basins := rfl
@[simp] theorem Dev.setFlt_cad (d : Dev) (x : Fault3) : (d.setFlt x).cad = d.cad := rfl
@[simp] theorem Dev.setFlt_streams (d : Dev) (x : Fault3) : (d.setFlt x).streams = d.streams := rfl
@[simp] theorem Dev.setFlt_plans (d : Dev) (x : Fault3) : (d.setFlt x).plans = d.plans := rfl
@[simp] theorem Dev.setFlt_domains (d : Dev) (x : Fault3) : (d.setFlt x).domains = d.domains := rfl
@[simp] theorem Dev.setFlt_models (d : Dev) (x : Fault3) : (d.setFlt x).models = d.models := rfl
@[simp] theorem Dev.setFlt_lib (d : Dev) (x : Fault3) : (d.setFlt x).lib = d.lib := rfl
@[simp] theorem Dev.setFlt_trains (d : Dev) (x : Fault3) : (d.setFlt x).trains = d.trains := rfl
@[simp] theorem Dev.setFlt_rsv (d : Dev) (x : Fault3) : (d.setFlt x).rsv = d.rsv := rfl
@[simp] theorem Dev.setFlt_hostMem (d : Dev) (x : Fault3) : (d.setFlt x).hostMem = d.hostMem := rfl
@[simp] theorem Dev.setFlt_out (d : Dev) (x : Fault3) : (d.setFlt x).out = d.out := rfl
@[simp] theorem Dev.setFlt_funcs (d : Dev) (x : Fault3) : (d.setFlt x).funcs = d.funcs := rfl
@[simp] theorem Dev.setFlt_hw (d : Dev) (x : Fault3) : (d.setFlt x).hw = d.hw := rfl
@[simp] theorem Dev.setFlt_fh (d : Dev) (x : Fault3) : (d.setFlt x).fh = d.fh := rfl
@[simp] theorem Dev.setFlt_ports (d : Dev) (x : Fault3) : (d.setFlt x).ports = d.ports := rfl
@[simp] theorem Dev.setFlt_link (d : Dev) (x : Fault3) : (d.setFlt x).link = d.link := rfl
@[simp] theorem Dev.setFlt_pair (d : Dev) (x : Fault3) : (d.setFlt x).pair = d.pair := rfl
@[simp] theorem Dev.setFlt_flt (d : Dev) (x : Fault3) : (d.setFlt x).flt = x := rfl
@[simp] theorem Dev.setFlt_pow (d : Dev) (x : Fault3) : (d.setFlt x).pow = d.pow := rfl
@[simp] theorem Dev.setFlt_boot (d : Dev) (x : Fault3) : (d.setFlt x).boot = d.boot := rfl
@[simp] theorem Dev.setFlt_still (d : Dev) (x : Fault3) : (d.setFlt x).still = d.still := rfl
@[simp] theorem Dev.setFlt_md (d : Dev) (x : Fault3) : (d.setFlt x).md = d.md := rfl
@[simp] theorem Dev.setFlt_areas (d : Dev) (x : Fault3) : (d.setFlt x).areas = d.areas := rfl
@[simp] theorem Dev.setFlt_free (d : Dev) (x : Fault3) : (d.setFlt x).free = d.free := rfl
@[simp] theorem Dev.setPow_basins (d : Dev) (x : Power) : (d.setPow x).basins = d.basins := rfl
@[simp] theorem Dev.setPow_cad (d : Dev) (x : Power) : (d.setPow x).cad = d.cad := rfl
@[simp] theorem Dev.setPow_streams (d : Dev) (x : Power) : (d.setPow x).streams = d.streams := rfl
@[simp] theorem Dev.setPow_plans (d : Dev) (x : Power) : (d.setPow x).plans = d.plans := rfl
@[simp] theorem Dev.setPow_domains (d : Dev) (x : Power) : (d.setPow x).domains = d.domains := rfl
@[simp] theorem Dev.setPow_models (d : Dev) (x : Power) : (d.setPow x).models = d.models := rfl
@[simp] theorem Dev.setPow_lib (d : Dev) (x : Power) : (d.setPow x).lib = d.lib := rfl
@[simp] theorem Dev.setPow_trains (d : Dev) (x : Power) : (d.setPow x).trains = d.trains := rfl
@[simp] theorem Dev.setPow_rsv (d : Dev) (x : Power) : (d.setPow x).rsv = d.rsv := rfl
@[simp] theorem Dev.setPow_hostMem (d : Dev) (x : Power) : (d.setPow x).hostMem = d.hostMem := rfl
@[simp] theorem Dev.setPow_out (d : Dev) (x : Power) : (d.setPow x).out = d.out := rfl
@[simp] theorem Dev.setPow_funcs (d : Dev) (x : Power) : (d.setPow x).funcs = d.funcs := rfl
@[simp] theorem Dev.setPow_hw (d : Dev) (x : Power) : (d.setPow x).hw = d.hw := rfl
@[simp] theorem Dev.setPow_fh (d : Dev) (x : Power) : (d.setPow x).fh = d.fh := rfl
@[simp] theorem Dev.setPow_ports (d : Dev) (x : Power) : (d.setPow x).ports = d.ports := rfl
@[simp] theorem Dev.setPow_link (d : Dev) (x : Power) : (d.setPow x).link = d.link := rfl
@[simp] theorem Dev.setPow_pair (d : Dev) (x : Power) : (d.setPow x).pair = d.pair := rfl
@[simp] theorem Dev.setPow_flt (d : Dev) (x : Power) : (d.setPow x).flt = d.flt := rfl
@[simp] theorem Dev.setPow_pow (d : Dev) (x : Power) : (d.setPow x).pow = x := rfl
@[simp] theorem Dev.setPow_boot (d : Dev) (x : Power) : (d.setPow x).boot = d.boot := rfl
@[simp] theorem Dev.setPow_still (d : Dev) (x : Power) : (d.setPow x).still = d.still := rfl
@[simp] theorem Dev.setPow_md (d : Dev) (x : Power) : (d.setPow x).md = d.md := rfl
@[simp] theorem Dev.setPow_areas (d : Dev) (x : Power) : (d.setPow x).areas = d.areas := rfl
@[simp] theorem Dev.setPow_free (d : Dev) (x : Power) : (d.setPow x).free = d.free := rfl
@[simp] theorem Dev.setBoot_basins (d : Dev) (x : Boot) : (d.setBoot x).basins = d.basins := rfl
@[simp] theorem Dev.setBoot_cad (d : Dev) (x : Boot) : (d.setBoot x).cad = d.cad := rfl
@[simp] theorem Dev.setBoot_streams (d : Dev) (x : Boot) : (d.setBoot x).streams = d.streams := rfl
@[simp] theorem Dev.setBoot_plans (d : Dev) (x : Boot) : (d.setBoot x).plans = d.plans := rfl
@[simp] theorem Dev.setBoot_domains (d : Dev) (x : Boot) : (d.setBoot x).domains = d.domains := rfl
@[simp] theorem Dev.setBoot_models (d : Dev) (x : Boot) : (d.setBoot x).models = d.models := rfl
@[simp] theorem Dev.setBoot_lib (d : Dev) (x : Boot) : (d.setBoot x).lib = d.lib := rfl
@[simp] theorem Dev.setBoot_trains (d : Dev) (x : Boot) : (d.setBoot x).trains = d.trains := rfl
@[simp] theorem Dev.setBoot_rsv (d : Dev) (x : Boot) : (d.setBoot x).rsv = d.rsv := rfl
@[simp] theorem Dev.setBoot_hostMem (d : Dev) (x : Boot) : (d.setBoot x).hostMem = d.hostMem := rfl
@[simp] theorem Dev.setBoot_out (d : Dev) (x : Boot) : (d.setBoot x).out = d.out := rfl
@[simp] theorem Dev.setBoot_funcs (d : Dev) (x : Boot) : (d.setBoot x).funcs = d.funcs := rfl
@[simp] theorem Dev.setBoot_hw (d : Dev) (x : Boot) : (d.setBoot x).hw = d.hw := rfl
@[simp] theorem Dev.setBoot_fh (d : Dev) (x : Boot) : (d.setBoot x).fh = d.fh := rfl
@[simp] theorem Dev.setBoot_ports (d : Dev) (x : Boot) : (d.setBoot x).ports = d.ports := rfl
@[simp] theorem Dev.setBoot_link (d : Dev) (x : Boot) : (d.setBoot x).link = d.link := rfl
@[simp] theorem Dev.setBoot_pair (d : Dev) (x : Boot) : (d.setBoot x).pair = d.pair := rfl
@[simp] theorem Dev.setBoot_flt (d : Dev) (x : Boot) : (d.setBoot x).flt = d.flt := rfl
@[simp] theorem Dev.setBoot_pow (d : Dev) (x : Boot) : (d.setBoot x).pow = d.pow := rfl
@[simp] theorem Dev.setBoot_boot (d : Dev) (x : Boot) : (d.setBoot x).boot = x := rfl
@[simp] theorem Dev.setBoot_still (d : Dev) (x : Boot) : (d.setBoot x).still = d.still := rfl
@[simp] theorem Dev.setBoot_md (d : Dev) (x : Boot) : (d.setBoot x).md = d.md := rfl
@[simp] theorem Dev.setBoot_areas (d : Dev) (x : Boot) : (d.setBoot x).areas = d.areas := rfl
@[simp] theorem Dev.setBoot_free (d : Dev) (x : Boot) : (d.setBoot x).free = d.free := rfl
@[simp] theorem Dev.setStill_basins (d : Dev) (x : Still) : (d.setStill x).basins = d.basins := rfl
@[simp] theorem Dev.setStill_cad (d : Dev) (x : Still) : (d.setStill x).cad = d.cad := rfl
@[simp] theorem Dev.setStill_streams (d : Dev) (x : Still) : (d.setStill x).streams = d.streams := rfl
@[simp] theorem Dev.setStill_plans (d : Dev) (x : Still) : (d.setStill x).plans = d.plans := rfl
@[simp] theorem Dev.setStill_domains (d : Dev) (x : Still) : (d.setStill x).domains = d.domains := rfl
@[simp] theorem Dev.setStill_models (d : Dev) (x : Still) : (d.setStill x).models = d.models := rfl
@[simp] theorem Dev.setStill_lib (d : Dev) (x : Still) : (d.setStill x).lib = d.lib := rfl
@[simp] theorem Dev.setStill_trains (d : Dev) (x : Still) : (d.setStill x).trains = d.trains := rfl
@[simp] theorem Dev.setStill_rsv (d : Dev) (x : Still) : (d.setStill x).rsv = d.rsv := rfl
@[simp] theorem Dev.setStill_hostMem (d : Dev) (x : Still) : (d.setStill x).hostMem = d.hostMem := rfl
@[simp] theorem Dev.setStill_out (d : Dev) (x : Still) : (d.setStill x).out = d.out := rfl
@[simp] theorem Dev.setStill_funcs (d : Dev) (x : Still) : (d.setStill x).funcs = d.funcs := rfl
@[simp] theorem Dev.setStill_hw (d : Dev) (x : Still) : (d.setStill x).hw = d.hw := rfl
@[simp] theorem Dev.setStill_fh (d : Dev) (x : Still) : (d.setStill x).fh = d.fh := rfl
@[simp] theorem Dev.setStill_ports (d : Dev) (x : Still) : (d.setStill x).ports = d.ports := rfl
@[simp] theorem Dev.setStill_link (d : Dev) (x : Still) : (d.setStill x).link = d.link := rfl
@[simp] theorem Dev.setStill_pair (d : Dev) (x : Still) : (d.setStill x).pair = d.pair := rfl
@[simp] theorem Dev.setStill_flt (d : Dev) (x : Still) : (d.setStill x).flt = d.flt := rfl
@[simp] theorem Dev.setStill_pow (d : Dev) (x : Still) : (d.setStill x).pow = d.pow := rfl
@[simp] theorem Dev.setStill_boot (d : Dev) (x : Still) : (d.setStill x).boot = d.boot := rfl
@[simp] theorem Dev.setStill_still (d : Dev) (x : Still) : (d.setStill x).still = x := rfl
@[simp] theorem Dev.setStill_md (d : Dev) (x : Still) : (d.setStill x).md = d.md := rfl
@[simp] theorem Dev.setStill_areas (d : Dev) (x : Still) : (d.setStill x).areas = d.areas := rfl
@[simp] theorem Dev.setStill_free (d : Dev) (x : Still) : (d.setStill x).free = d.free := rfl
@[simp] theorem Dev.setMd_basins (d : Dev) (x : Mod) : (d.setMd x).basins = d.basins := rfl
@[simp] theorem Dev.setMd_cad (d : Dev) (x : Mod) : (d.setMd x).cad = d.cad := rfl
@[simp] theorem Dev.setMd_streams (d : Dev) (x : Mod) : (d.setMd x).streams = d.streams := rfl
@[simp] theorem Dev.setMd_plans (d : Dev) (x : Mod) : (d.setMd x).plans = d.plans := rfl
@[simp] theorem Dev.setMd_domains (d : Dev) (x : Mod) : (d.setMd x).domains = d.domains := rfl
@[simp] theorem Dev.setMd_models (d : Dev) (x : Mod) : (d.setMd x).models = d.models := rfl
@[simp] theorem Dev.setMd_lib (d : Dev) (x : Mod) : (d.setMd x).lib = d.lib := rfl
@[simp] theorem Dev.setMd_trains (d : Dev) (x : Mod) : (d.setMd x).trains = d.trains := rfl
@[simp] theorem Dev.setMd_rsv (d : Dev) (x : Mod) : (d.setMd x).rsv = d.rsv := rfl
@[simp] theorem Dev.setMd_hostMem (d : Dev) (x : Mod) : (d.setMd x).hostMem = d.hostMem := rfl
@[simp] theorem Dev.setMd_out (d : Dev) (x : Mod) : (d.setMd x).out = d.out := rfl
@[simp] theorem Dev.setMd_funcs (d : Dev) (x : Mod) : (d.setMd x).funcs = d.funcs := rfl
@[simp] theorem Dev.setMd_hw (d : Dev) (x : Mod) : (d.setMd x).hw = d.hw := rfl
@[simp] theorem Dev.setMd_fh (d : Dev) (x : Mod) : (d.setMd x).fh = d.fh := rfl
@[simp] theorem Dev.setMd_ports (d : Dev) (x : Mod) : (d.setMd x).ports = d.ports := rfl
@[simp] theorem Dev.setMd_link (d : Dev) (x : Mod) : (d.setMd x).link = d.link := rfl
@[simp] theorem Dev.setMd_pair (d : Dev) (x : Mod) : (d.setMd x).pair = d.pair := rfl
@[simp] theorem Dev.setMd_flt (d : Dev) (x : Mod) : (d.setMd x).flt = d.flt := rfl
@[simp] theorem Dev.setMd_pow (d : Dev) (x : Mod) : (d.setMd x).pow = d.pow := rfl
@[simp] theorem Dev.setMd_boot (d : Dev) (x : Mod) : (d.setMd x).boot = d.boot := rfl
@[simp] theorem Dev.setMd_still (d : Dev) (x : Mod) : (d.setMd x).still = d.still := rfl
@[simp] theorem Dev.setMd_md (d : Dev) (x : Mod) : (d.setMd x).md = x := rfl
@[simp] theorem Dev.setMd_areas (d : Dev) (x : Mod) : (d.setMd x).areas = d.areas := rfl
@[simp] theorem Dev.setMd_free (d : Dev) (x : Mod) : (d.setMd x).free = d.free := rfl
@[simp] theorem Dev.setAreas_basins (d : Dev) (x : Tab (Nat × Nat × Nat)) : (d.setAreas x).basins = d.basins := rfl
@[simp] theorem Dev.setAreas_cad (d : Dev) (x : Tab (Nat × Nat × Nat)) : (d.setAreas x).cad = d.cad := rfl
@[simp] theorem Dev.setAreas_streams (d : Dev) (x : Tab (Nat × Nat × Nat)) : (d.setAreas x).streams = d.streams := rfl
@[simp] theorem Dev.setAreas_plans (d : Dev) (x : Tab (Nat × Nat × Nat)) : (d.setAreas x).plans = d.plans := rfl
@[simp] theorem Dev.setAreas_domains (d : Dev) (x : Tab (Nat × Nat × Nat)) : (d.setAreas x).domains = d.domains := rfl
@[simp] theorem Dev.setAreas_models (d : Dev) (x : Tab (Nat × Nat × Nat)) : (d.setAreas x).models = d.models := rfl
@[simp] theorem Dev.setAreas_lib (d : Dev) (x : Tab (Nat × Nat × Nat)) : (d.setAreas x).lib = d.lib := rfl
@[simp] theorem Dev.setAreas_trains (d : Dev) (x : Tab (Nat × Nat × Nat)) : (d.setAreas x).trains = d.trains := rfl
@[simp] theorem Dev.setAreas_rsv (d : Dev) (x : Tab (Nat × Nat × Nat)) : (d.setAreas x).rsv = d.rsv := rfl
@[simp] theorem Dev.setAreas_hostMem (d : Dev) (x : Tab (Nat × Nat × Nat)) : (d.setAreas x).hostMem = d.hostMem := rfl
@[simp] theorem Dev.setAreas_out (d : Dev) (x : Tab (Nat × Nat × Nat)) : (d.setAreas x).out = d.out := rfl
@[simp] theorem Dev.setAreas_funcs (d : Dev) (x : Tab (Nat × Nat × Nat)) : (d.setAreas x).funcs = d.funcs := rfl
@[simp] theorem Dev.setAreas_hw (d : Dev) (x : Tab (Nat × Nat × Nat)) : (d.setAreas x).hw = d.hw := rfl
@[simp] theorem Dev.setAreas_fh (d : Dev) (x : Tab (Nat × Nat × Nat)) : (d.setAreas x).fh = d.fh := rfl
@[simp] theorem Dev.setAreas_ports (d : Dev) (x : Tab (Nat × Nat × Nat)) : (d.setAreas x).ports = d.ports := rfl
@[simp] theorem Dev.setAreas_link (d : Dev) (x : Tab (Nat × Nat × Nat)) : (d.setAreas x).link = d.link := rfl
@[simp] theorem Dev.setAreas_pair (d : Dev) (x : Tab (Nat × Nat × Nat)) : (d.setAreas x).pair = d.pair := rfl
@[simp] theorem Dev.setAreas_flt (d : Dev) (x : Tab (Nat × Nat × Nat)) : (d.setAreas x).flt = d.flt := rfl
@[simp] theorem Dev.setAreas_pow (d : Dev) (x : Tab (Nat × Nat × Nat)) : (d.setAreas x).pow = d.pow := rfl
@[simp] theorem Dev.setAreas_boot (d : Dev) (x : Tab (Nat × Nat × Nat)) : (d.setAreas x).boot = d.boot := rfl
@[simp] theorem Dev.setAreas_still (d : Dev) (x : Tab (Nat × Nat × Nat)) : (d.setAreas x).still = d.still := rfl
@[simp] theorem Dev.setAreas_md (d : Dev) (x : Tab (Nat × Nat × Nat)) : (d.setAreas x).md = d.md := rfl
@[simp] theorem Dev.setAreas_areas (d : Dev) (x : Tab (Nat × Nat × Nat)) : (d.setAreas x).areas = x := rfl
@[simp] theorem Dev.setAreas_free (d : Dev) (x : Tab (Nat × Nat × Nat)) : (d.setAreas x).free = d.free := rfl
@[simp] theorem Dev.setFree_basins (d : Dev) (x : Nat) : (d.setFree x).basins = d.basins := rfl
@[simp] theorem Dev.setFree_cad (d : Dev) (x : Nat) : (d.setFree x).cad = d.cad := rfl
@[simp] theorem Dev.setFree_streams (d : Dev) (x : Nat) : (d.setFree x).streams = d.streams := rfl
@[simp] theorem Dev.setFree_plans (d : Dev) (x : Nat) : (d.setFree x).plans = d.plans := rfl
@[simp] theorem Dev.setFree_domains (d : Dev) (x : Nat) : (d.setFree x).domains = d.domains := rfl
@[simp] theorem Dev.setFree_models (d : Dev) (x : Nat) : (d.setFree x).models = d.models := rfl
@[simp] theorem Dev.setFree_lib (d : Dev) (x : Nat) : (d.setFree x).lib = d.lib := rfl
@[simp] theorem Dev.setFree_trains (d : Dev) (x : Nat) : (d.setFree x).trains = d.trains := rfl
@[simp] theorem Dev.setFree_rsv (d : Dev) (x : Nat) : (d.setFree x).rsv = d.rsv := rfl
@[simp] theorem Dev.setFree_hostMem (d : Dev) (x : Nat) : (d.setFree x).hostMem = d.hostMem := rfl
@[simp] theorem Dev.setFree_out (d : Dev) (x : Nat) : (d.setFree x).out = d.out := rfl
@[simp] theorem Dev.setFree_funcs (d : Dev) (x : Nat) : (d.setFree x).funcs = d.funcs := rfl
@[simp] theorem Dev.setFree_hw (d : Dev) (x : Nat) : (d.setFree x).hw = d.hw := rfl
@[simp] theorem Dev.setFree_fh (d : Dev) (x : Nat) : (d.setFree x).fh = d.fh := rfl
@[simp] theorem Dev.setFree_ports (d : Dev) (x : Nat) : (d.setFree x).ports = d.ports := rfl
@[simp] theorem Dev.setFree_link (d : Dev) (x : Nat) : (d.setFree x).link = d.link := rfl
@[simp] theorem Dev.setFree_pair (d : Dev) (x : Nat) : (d.setFree x).pair = d.pair := rfl
@[simp] theorem Dev.setFree_flt (d : Dev) (x : Nat) : (d.setFree x).flt = d.flt := rfl
@[simp] theorem Dev.setFree_pow (d : Dev) (x : Nat) : (d.setFree x).pow = d.pow := rfl
@[simp] theorem Dev.setFree_boot (d : Dev) (x : Nat) : (d.setFree x).boot = d.boot := rfl
@[simp] theorem Dev.setFree_still (d : Dev) (x : Nat) : (d.setFree x).still = d.still := rfl
@[simp] theorem Dev.setFree_md (d : Dev) (x : Nat) : (d.setFree x).md = d.md := rfl
@[simp] theorem Dev.setFree_areas (d : Dev) (x : Nat) : (d.setFree x).areas = d.areas := rfl
@[simp] theorem Dev.setFree_free (d : Dev) (x : Nat) : (d.setFree x).free = x := rfl

end Sys2Proof.Machine
end

