-- ==== Sys2Proof/Laws/Tab.lean ====
section
/-! SUPPORT. Laws of sparse tables and byte memories: a read after a write, and the canonical form under every operation. -/

namespace Sys2Proof

variable {α : Type}

theorem Tab.find?_put_same (t : Tab α) (k : Nat) (v : α) : Tab.find? (Tab.put t k v) k = some v := by
  induction t with
  | nil => simp [Tab.put, Tab.find?]
  | cons p r ih =>
    obtain ⟨i, w⟩ := p
    by_cases h1 : k < i
    · simp [Tab.put, Tab.find?, h1]
    · by_cases h2 : k = i
      · simp [Tab.put, Tab.find?, h2]
      · simp [Tab.put, Tab.find?, h1, h2, ih, Ne.symm h2]

theorem Tab.find?_put_other (t : Tab α) (k j : Nat) (v : α) (h : j ≠ k) : Tab.find? (Tab.put t k v) j = Tab.find? t j := by
  induction t with
  | nil => simp [Tab.put, Tab.find?, Ne.symm h]
  | cons p r ih =>
    obtain ⟨i, w⟩ := p
    by_cases h1 : k < i
    · simp [Tab.put, Tab.find?, h1, Ne.symm h]
    · by_cases h2 : k = i
      · subst h2
        simp [Tab.put, Tab.find?, Ne.symm h]
      · simp only [Tab.put, h1, h2, if_false, Tab.find?, ih]

theorem Tab.at_put_same (t : Tab α) (d : α) (k : Nat) (v : α) : Tab.at (Tab.put t k v) d k = v := by
  simp [Tab.at, Tab.find?_put_same]

theorem Tab.at_put_other (t : Tab α) (d : α) (k j : Nat) (v : α) (h : j ≠ k) : Tab.at (Tab.put t k v) d j = Tab.at t d j := by
  simp [Tab.at, Tab.find?_put_other t k j v h]

theorem Tab.put_put (t : Tab α) (k : Nat) (v w : α) : Tab.put (Tab.put t k v) k w = Tab.put t k w := by
  induction t with
  | nil => simp [Tab.put]
  | cons p r ih =>
    obtain ⟨i, u⟩ := p
    by_cases h1 : k < i
    · simp [Tab.put, h1]
    · by_cases h2 : k = i
      · simp [Tab.put, h2]
      · simp [Tab.put, h1, h2, ih]

theorem Tab.find?_filter (t : Tab α) (f : Nat → Bool) (j : Nat) (h : f j = true) :
    Tab.find? (List.filter (fun p => f p.1) t) j = Tab.find? t j := by
  induction t with
  | nil => rfl
  | cons p r ih =>
    obtain ⟨i, w⟩ := p
    by_cases hj : i = j
    · subst hj
      simp [List.filter, Tab.find?, h]
    · by_cases hf : f i = true
      · simp [List.filter, Tab.find?, hj, hf, ih]
      · simp [List.filter, Tab.find?, hj, hf, ih]

theorem Tab.find?_filter_out (t : Tab α) (f : Nat → Bool) (j : Nat) (h : f j = false) :
    Tab.find? (List.filter (fun p => f p.1) t) j = none := by
  induction t with
  | nil => rfl
  | cons p r ih =>
    obtain ⟨i, w⟩ := p
    by_cases hj : i = j
    · subst hj
      simp [List.filter, h, ih]
    · by_cases hf : f i = true
      · simp [List.filter, Tab.find?, hj, hf, ih]
      · simp [List.filter, hf, ih]

theorem Tab.find?_del_same (t : Tab α) (k : Nat) : Tab.find? (Tab.del t k) k = none := by
  have := Tab.find?_filter_out t (fun i => decide (i ≠ k)) k (by simp)
  simpa [Tab.del] using this

theorem Tab.find?_del_other (t : Tab α) (k j : Nat) (h : j ≠ k) : Tab.find? (Tab.del t k) j = Tab.find? t j := by
  have := Tab.find?_filter t (fun i => decide (i ≠ k)) j (by simp [h])
  simpa [Tab.del] using this

theorem Tab.find?_clear (t : Tab α) (lo n j : Nat) :
    Tab.find? (Tab.clear t lo n) j = if lo ≤ j ∧ j < lo + n then none else Tab.find? t j := by
  have e : Tab.clear t lo n = List.filter (fun p => decide (p.1 < lo) || decide (lo + n ≤ p.1)) t := rfl
  by_cases h : lo ≤ j ∧ j < lo + n
  · rw [if_pos h, e]
    exact Tab.find?_filter_out t (fun i => decide (i < lo) || decide (lo + n ≤ i)) j (by simp; omega)
  · rw [if_neg h, e]
    exact Tab.find?_filter t (fun i => decide (i < lo) || decide (lo + n ≤ i)) j (by simp; omega)

/-! ### Canonical order -/

theorem Tab.sortedFrom_weaken (t : Tab α) (a : Nat) (h : Tab.sortedFrom (some a) t = true) (b : Option Nat)
    (hb : ∀ c, b = some c → c ≤ a) : Tab.sortedFrom b t = true := by
  cases t with
  | nil => rfl
  | cons p r =>
    obtain ⟨i, w⟩ := p
    cases b with
    | none => simp_all [Tab.sortedFrom]
    | some c =>
      have := hb c rfl
      simp only [Tab.sortedFrom, Bool.and_eq_true, decide_eq_true_eq] at h ⊢
      exact ⟨by omega, h.2⟩

theorem Tab.sortedFrom_put (t : Tab α) (k : Nat) (v : α) (lo : Option Nat) (h : Tab.sortedFrom lo t = true)
    (hk : ∀ c, lo = some c → c < k) : Tab.sortedFrom lo (Tab.put t k v) = true := by
  induction t generalizing lo with
  | nil =>
    cases lo with
    | none => rfl
    | some c => simp [Tab.put, Tab.sortedFrom, hk c rfl]
  | cons p r ih =>
    obtain ⟨i, w⟩ := p
    by_cases h1 : k < i
    · cases lo with
      | none => simp_all [Tab.put, Tab.sortedFrom]
      | some c => simp_all [Tab.put, Tab.sortedFrom]
    · by_cases h2 : k = i
      · subst h2
        cases lo with
        | none => simpa [Tab.put, Tab.sortedFrom] using h
        | some c => simpa [Tab.put, Tab.sortedFrom] using h
      · have h3 : i < k := by omega
        cases lo with
        | none =>
          simp only [Tab.put, h1, h2, if_false, Tab.sortedFrom, Bool.true_and] at h ⊢
          exact ih (some i) h (by intro c hc; cases hc; exact h3)
        | some c =>
          simp only [Tab.put, h1, h2, if_false, Tab.sortedFrom, Bool.and_eq_true] at h ⊢
          exact ⟨h.1, ih (some i) h.2 (by intro c hc; cases hc; exact h3)⟩

theorem Tab.sorted_put (t : Tab α) (k : Nat) (v : α) (h : Tab.sorted t = true) : Tab.sorted (Tab.put t k v) = true :=
  Tab.sortedFrom_put t k v none h (by simp)

theorem Tab.sortedFrom_filter (t : Tab α) (f : Nat × α → Bool) (lo : Option Nat) (h : Tab.sortedFrom lo t = true) :
    Tab.sortedFrom lo (List.filter f t) = true := by
  induction t generalizing lo with
  | nil => rfl
  | cons p r ih =>
    obtain ⟨i, w⟩ := p
    simp only [Tab.sortedFrom, Bool.and_eq_true] at h
    by_cases hf : f (i, w) = true
    · simp only [List.filter, hf, Tab.sortedFrom, Bool.and_eq_true]
      exact ⟨h.1, ih (some i) h.2⟩
    · simp only [List.filter, hf]
      refine ih lo (Tab.sortedFrom_weaken r i h.2 lo ?_)
      intro c hc
      subst hc
      simp at h
      omega

theorem Tab.sorted_del (t : Tab α) (k : Nat) (h : Tab.sorted t = true) : Tab.sorted (Tab.del t k) = true :=
  Tab.sortedFrom_filter t _ none h

theorem Tab.sorted_clear (t : Tab α) (lo n : Nat) (h : Tab.sorted t = true) : Tab.sorted (Tab.clear t lo n) = true :=
  Tab.sortedFrom_filter t _ none h

/-! ### Memory -/

theorem Mem.read_write_same (m : Mem) (a : Nat) (v : Byte) : Mem.read (Mem.write m a v) a = v := by
  by_cases h : v = Mem.fill
  · simp [Mem.read, Mem.write, h, Tab.at, Tab.find?_del_same]
  · simp [Mem.read, Mem.write, h, Tab.at_put_same]

theorem Mem.read_write_other (m : Mem) (a j : Nat) (v : Byte) (h : j ≠ a) : Mem.read (Mem.write m a v) j = Mem.read m j := by
  by_cases hv : v = Mem.fill
  · simp [Mem.read, Mem.write, hv, Tab.at, Tab.find?_del_other m a j h]
  · simp [Mem.read, Mem.write, hv, Tab.at_put_other m Mem.fill a j v h]

theorem Mem.read_writeBytes_below (m : Mem) (a : Nat) (bs : List Byte) (j : Nat) (h : j < a) :
    Mem.read (Mem.writeBytes m a bs) j = Mem.read m j := by
  induction bs generalizing m a with
  | nil => rfl
  | cons b r ih => rw [Mem.writeBytes, ih (Mem.write m a b) (a + 1) (by omega), Mem.read_write_other m a j b (by omega)]

/-- A byte after a write of several bytes: the byte written there, else what it held. -/
theorem Mem.read_writeBytes (m : Mem) (a : Nat) (bs : List Byte) (j : Nat) :
    Mem.read (Mem.writeBytes m a bs) j = if a ≤ j ∧ j < a + bs.length then bs.getD (j - a) 0 else Mem.read m j := by
  induction bs generalizing m a with
  | nil => simp [Mem.writeBytes]
  | cons b r ih =>
    rw [Mem.writeBytes, ih]
    by_cases h1 : j = a
    · subst h1
      simp [Mem.read_write_same]
    · by_cases h2 : a + 1 ≤ j ∧ j < a + 1 + r.length
      · rw [if_pos h2, if_pos (by simp only [List.length_cons]; omega)]
        have : j - a = (j - (a + 1)) + 1 := by omega
        rw [this, List.getD_cons_succ]
      · rw [if_neg h2, if_neg (by simp only [List.length_cons]; omega), Mem.read_write_other m a j b h1]

theorem Mem.read_zero (m : Mem) (a n j : Nat) : Mem.read (Mem.zero m a n) j = if a ≤ j ∧ j < a + n then Mem.fill else Mem.read m j := by
  simp only [Mem.read, Mem.zero, Tab.at, Tab.find?_clear]
  split <;> simp

theorem Mem.wf_nil : Mem.wf [] = true := rfl

theorem Mem.wf_iff (m : Mem) : Mem.wf m = true ↔ Tab.sorted m = true ∧ ∀ p ∈ m, p.2 ≠ Mem.fill := by
  simp [Mem.wf]

theorem Tab.mem_put (t : Tab α) (k : Nat) (v : α) (p : Nat × α) (h : p ∈ Tab.put t k v) : p = (k, v) ∨ p ∈ t := by
  induction t with
  | nil => simpa [Tab.put] using h
  | cons q r ih =>
    obtain ⟨i, w⟩ := q
    by_cases h1 : k < i
    · simpa [Tab.put, h1] using h
    · by_cases h2 : k = i
      · subst h2
        simp only [Tab.put, Nat.lt_irrefl, if_false, if_true, List.mem_cons] at h
        rcases h with h | h
        · exact Or.inl h
        · exact Or.inr (by simp [h])
      · simp only [Tab.put, h1, h2, if_false, List.mem_cons] at h
        rcases h with h | h
        · exact Or.inr (by simp [h])
        · rcases ih h with h | h
          · exact Or.inl h
          · exact Or.inr (by simp [h])

theorem Mem.wf_write (m : Mem) (a : Nat) (v : Byte) (h : Mem.wf m = true) : Mem.wf (Mem.write m a v) = true := by
  rw [Mem.wf_iff] at h ⊢
  by_cases hv : v = Mem.fill
  · rw [Mem.write, if_pos hv]
    exact ⟨Tab.sorted_del m a h.1, fun p hp => h.2 p (List.mem_filter.mp hp).1⟩
  · rw [Mem.write, if_neg hv]
    refine ⟨Tab.sorted_put m a v h.1, fun p hp => ?_⟩
    rcases Tab.mem_put m a v p hp with rfl | hp
    · exact hv
    · exact h.2 p hp

theorem Mem.wf_writeBytes (m : Mem) (a : Nat) (bs : List Byte) (h : Mem.wf m = true) : Mem.wf (Mem.writeBytes m a bs) = true := by
  induction bs generalizing m a with
  | nil => exact h
  | cons b r ih => exact ih (Mem.write m a b) (a + 1) (Mem.wf_write m a b h)

theorem Mem.wf_writeLe (m : Mem) (a n v : Nat) (h : Mem.wf m = true) : Mem.wf (Mem.writeLe m a n v) = true :=
  Mem.wf_writeBytes m a _ h

theorem Mem.wf_zero (m : Mem) (a n : Nat) (h : Mem.wf m = true) : Mem.wf (Mem.zero m a n) = true := by
  rw [Mem.wf_iff] at h ⊢
  exact ⟨Tab.sorted_clear m a n h.1, fun p hp => h.2 p (List.mem_filter.mp hp).1⟩

theorem Mem.wf_apply (m : Mem) (ws : List (Nat × Byte)) (h : Mem.wf m = true) : Mem.wf (Mem.apply m ws) = true := by
  induction ws generalizing m with
  | nil => exact h
  | cons w r ih => exact ih (Mem.write m w.1 w.2) (Mem.wf_write m w.1 w.2 h)

/-! ### Numbers as bytes -/

theorem leBytes_length (n v : Nat) : (leBytes n v).length = n := by
  induction n generalizing v with
  | zero => rfl
  | succ k ih => simp [leBytes, ih]

/-- A number written as n bytes and read back, modulo 2^(8n). -/
theorem leNat_leBytes (n v : Nat) : leNat (leBytes n v) = v % 256 ^ n := by
  induction n generalizing v with
  | zero => simp [leBytes, leNat, Nat.mod_one]
  | succ k ih =>
    have e : 256 ^ (k + 1) = 256 * 256 ^ k := by rw [pow_succ, Nat.mul_comm]
    have t : (BitVec.ofNat 8 v).toNat = v % 256 := by simp [BitVec.toNat_ofNat]
    rw [leBytes, leNat, ih, t, e, Nat.mod_mul]

end Sys2Proof
end

