-- ==== Sys2Proof/Laws/Ops.lean ====
section
/-! SUPPORT. Laws of the shared operations: look-ups after updates, and what a gated command answers. -/

namespace Sys2Proof.Machine

@[simp] theorem Dev.basin_putBasin (d : Dev) (b : Nat) (x : Basin) : (d.putBasin b x).basin b = x := by
  simp [Dev.basin, Dev.putBasin, Tab.at_put_same]

theorem Dev.basin_putBasin_other (d : Dev) (b c : Nat) (x : Basin) (h : c ≠ b) : (d.putBasin b x).basin c = d.basin c := by
  simp [Dev.basin, Dev.putBasin, Tab.at_put_other _ _ _ _ _ h]

@[simp] theorem Dev.putBasin_putBasin (d : Dev) (b : Nat) (x y : Basin) : (d.putBasin b x).putBasin b y = d.putBasin b y := by
  simp [Dev.putBasin, Dev.setBasins, Tab.put_put]

@[simp] theorem Dev.stream_putStream (d : Dev) (i : Nat) (x : Stream) : (d.putStream i x).stream i = x := by
  simp [Dev.stream, Dev.putStream, Tab.at_put_same]

theorem Dev.stream_putStream_other (d : Dev) (i j : Nat) (x : Stream) (h : j ≠ i) : (d.putStream i x).stream j = d.stream j := by
  simp [Dev.stream, Dev.putStream, Tab.at_put_other _ _ _ _ _ h]

@[simp] theorem Dev.putStream_putStream (d : Dev) (i : Nat) (x y : Stream) : (d.putStream i x).putStream i y = d.putStream i y := by
  simp [Dev.putStream, Dev.setStreams, Tab.put_put]

@[simp] theorem Dev.func_putFunc (d : Dev) (f : Nat) (x : Func) : (d.putFunc f x).func f = x := by
  simp [Dev.func, Dev.putFunc, Tab.at_put_same]

@[simp] theorem Dev.putFunc_putFunc (d : Dev) (f : Nat) (x y : Func) : (d.putFunc f x).putFunc f y = d.putFunc f y := by
  simp [Dev.putFunc, Dev.setFuncs, Tab.put_put]

@[simp] theorem Dev.port_putPort (d : Dev) (p : Nat) (x : Port) : (d.putPort p x).port p = x := by
  simp [Dev.port, Dev.putPort, Tab.at_put_same]

@[simp] theorem Dev.putPort_putPort (d : Dev) (p : Nat) (x y : Port) : (d.putPort p x).putPort p y = d.putPort p y := by
  simp [Dev.putPort, Dev.setPorts, Tab.put_put]

@[simp] theorem Dev.domain_putDomain (d : Dev) (n : Nat) (x : Domain) : (d.putDomain n x).domain n = x := by
  simp [Dev.domain, Dev.putDomain, Tab.at_put_same]

@[simp] theorem Dev.stream_putBasin (d : Dev) (b i : Nat) (x : Basin) : (d.putBasin b x).stream i = d.stream i := rfl
@[simp] theorem Dev.basin_putStream (d : Dev) (i b : Nat) (x : Stream) : (d.putStream i x).basin b = d.basin b := rfl
@[simp] theorem Dev.coreOn_putBasin (d : Dev) (b : Nat) (x : Basin) : (d.putBasin b x).coreOn = d.coreOn := rfl

/-- Where no fence is under way, nothing falls due. -/
theorem Dev.due_of_no_fence (d : Dev) (h : d.flt.fencing = []) : d.due = d := by simp [Dev.due, h]

/-- A command of the core part answers the change it makes to what has fallen due. -/
theorem onCore_next (g : Dev → Dev) (s : State) (h : s.dev.coreOn = true) : onCore g s = .next { s with dev := g s.dev.due } := by
  simp [onCore, answer, onlyIf, h]

/-- With no fence under way, it answers the change alone. -/
theorem onCore_next_idle (g : Dev → Dev) (s : State) (h : s.dev.coreOn = true) (hf : s.dev.flt.fencing = []) :
    onCore g s = .next { s with dev := g s.dev } := by
  rw [onCore_next g s h, s.dev.due_of_no_fence hf]

/-- Where the core part does not run, its commands change nothing. -/
theorem onCore_off (g : Dev → Dev) (s : State) (h : s.dev.coreOn = false) : onCore g s = .next s := by
  simp [onCore, answer, onlyIf, h]

end Sys2Proof.Machine
end

