-- ==== Sys2Proof/WellFormed.lean ====
section
/-! DEFINITION. Which commands are well formed: every number an operand carries lies in the range the spec gives it. -/

namespace Sys2Proof

/-- A physical basin number, 0 to 271 (R12). -/
def basinOk (b : Nat) : Bool := decide (b < 272)
/-- A runnel, 0 or 1 (R196). -/
def runnelOk (r : Nat) : Bool := decide (r < 2)
/-- A PCIe function, 0 to 255 (R360). -/
def functionOk (f : Nat) : Bool := decide (f < 256)
/-- A port: rill 0 to 3, mirror link 4 (R374). -/
def portOk (p : Nat) : Bool := decide (p < 5)
/-- A stream index, 0 to 65,535 (R250). -/
def indexOk (i : Nat) : Bool := decide (i < 65536)
/-- A unit of R350: a physical basin, or one of the device blocks 0x1F0, 0x1F4 to 0x1F5 and 0x1F8 to 0x1FF, with rill port p as 0x200 + p. -/
def unitOk (u : Nat) : Bool := decide (u < 272) || u == 0x1F0 || u == 0x1F5 || (decide (0x1F8 ≤ u) && decide (u < 0x204))
/-- A reservoir controller, 0 to 7 (R220). -/
def ctrlOk (n : Nat) : Bool := decide (n < 8)
/-- A mesh row, 0 to 15 (R18). -/
def rowOk (r : Nat) : Bool := decide (r < 16)
/-- A domain, 0 to 1,023 (R12). -/
def domainOk (d : Nat) : Bool := decide (d < 1024)
/-- A device address, 52 bits (R201). -/
def addrOk (a : Nat) : Bool := decide (a < 2 ^ 52)
/-- A scrubber finding: 0 none, 1 corrected, 2 uncorrectable; 3 and 4: a correctable or an uncorrectable error arises, unread. -/
def findingOk (k : Nat) : Bool := decide (k < 5)
/-- A ring slot or submission entry: 64 bytes (R253, R369). -/
def slotBytesOk (l : List Byte) : Bool := l.length == 64

/-- An uncompressed P-384 public key, 97 bytes, and a 32-byte nonce (R307). -/
def keyNonceOk (key nonce : Nat) : Bool := decide (key < 2 ^ 776) && decide (nonce < 2 ^ 256)

/-- Every operand lies in its range. -/
def wf (c : Instr) : Bool :=
  match c with
  | .slotStrobe _ => true
  | .tableSwap => true
  | .timeStepApply => true
  | .runStart b => decide (b < 528)
  | .runEndOffset b => basinOk b
  | .runFlagMerge b => basinOk b
  | .scoreboardGrant b => basinOk b
  | .seqNop b => basinOk b
  | .seqEnd b => basinOk b
  | .seqAdd b => basinOk b
  | .seqSub b => basinOk b
  | .seqAnd b => basinOk b
  | .seqOr b => basinOk b
  | .seqXor b => basinOk b
  | .seqShl b => basinOk b
  | .seqShr b => basinOk b
  | .seqSltu b => basinOk b
  | .seqMul b => basinOk b
  | .seqLi b => basinOk b
  | .seqLdw b => basinOk b
  | .seqStw b => basinOk b
  | .seqJ b => basinOk b
  | .seqBeq b => basinOk b
  | .seqBne b => basinOk b
  | .seqBltu b => basinOk b
  | .seqLoop b => basinOk b
  | .seqJop b => basinOk b
  | .seqSlu b => basinOk b
  | .seqRunl b => basinOk b
  | .seqTzero b => basinOk b
  | .seqTfill b => basinOk b
  | .seqWait b => basinOk b
  | .seqRdslot b => basinOk b
  | .seqFlags b => basinOk b
  | .unlistedOpcode b => basinOk b
  | .programRegionFault b => basinOk b
  | .lpeAdd b => basinOk b
  | .lpeSubtract b => basinOk b
  | .lpeMultiply b => basinOk b
  | .lpeFma b => basinOk b
  | .lpeDivide b => basinOk b
  | .lpeSqrt b => basinOk b
  | .lpeMinimum b => basinOk b
  | .lpeMaximum b => basinOk b
  | .lpeCompare b => basinOk b
  | .lpeConvert b => basinOk b
  | .layerRetire b _ => basinOk b
  | .tileOpRetire b _ => basinOk b
  | .sluiceTransferStart b => basinOk b
  | .transferRetire b _ => basinOk b
  | .amaxGet _ domain _ => domainOk domain
  | .amaxMerge _ domain _ _ => domainOk domain
  | .cscSum b => basinOk b
  | .cscMax b => basinOk b
  | .cscMin b => basinOk b
  | .cscMeanvar b => basinOk b
  | .cscLse b => basinOk b
  | .cscSoftmax b => basinOk b
  | .cscSsq b => basinOk b
  | .cscGnorm b => basinOk b
  | .cascadeRetire b _ => basinOk b
  | .partialArrival b _ => basinOk b
  | .groupCombine b _ => basinOk b
  | .collectiveResult b _ _ => basinOk b
  | .runnelRetire b r => basinOk b && runnelOk r
  | .muNop b r => basinOk b && runnelOk r
  | .muIn b r => basinOk b && runnelOk r
  | .muOut b r => basinOk b && runnelOk r
  | .muOutr b r => basinOk b && runnelOk r
  | .muDone b r => basinOk b && runnelOk r
  | .muIdx b r => basinOk b && runnelOk r
  | .muLi b r => basinOk b && runnelOk r
  | .muLadd b r => basinOk b && runnelOk r
  | .muLsub b r => basinOk b && runnelOk r
  | .muLmul b r => basinOk b && runnelOk r
  | .muLdiv b r => basinOk b && runnelOk r
  | .muLshf b r => basinOk b && runnelOk r
  | .muLsgnAbs b r => basinOk b && runnelOk r
  | .muLsgnNegate b r => basinOk b && runnelOk r
  | .muLsgnSign b r => basinOk b && runnelOk r
  | .muFadd b r => basinOk b && runnelOk r
  | .muFsub b r => basinOk b && runnelOk r
  | .muCvtLgToLg b r => basinOk b && runnelOk r
  | .muCvtLgToA32 b r => basinOk b && runnelOk r
  | .muCvtA32ToLg b r => basinOk b && runnelOk r
  | .muCvtLgToFx b r => basinOk b && runnelOk r
  | .muCvtFxToLg b r => basinOk b && runnelOk r
  | .muCvtFxToLgField b r => basinOk b && runnelOk r
  | .muCvtLgFieldToFx b r => basinOk b && runnelOk r
  | .muCvtLgToFxWrap b r => basinOk b && runnelOk r
  | .muCmp b r => basinOk b && runnelOk r
  | .muSel b r => basinOk b && runnelOk r
  | .muIadd b r => basinOk b && runnelOk r
  | .muIsub b r => basinOk b && runnelOk r
  | .muAnd b r => basinOk b && runnelOk r
  | .muOr b r => basinOk b && runnelOk r
  | .muXor b r => basinOk b && runnelOk r
  | .muShl b r => basinOk b && runnelOk r
  | .muShr b r => basinOk b && runnelOk r
  | .muSra b r => basinOk b && runnelOk r
  | .muLut b r => basinOk b && runnelOk r
  | .muBr b r => basinOk b && runnelOk r
  | .muBany b r => basinOk b && runnelOk r
  | .muBnone b r => basinOk b && runnelOk r
  | .loupeRetire b _ => basinOk b
  | .reservoirRead src _ domain _ addr _ => unitOk src && domainOk domain && addrOk addr
  | .reservoirWrite src _ domain _ addr _ => unitOk src && domainOk domain && addrOk addr
  | .atomicFadd src _ domain _ addr _ => unitOk src && domainOk domain && addrOk addr
  | .atomicCas src _ domain _ addr _ _ => unitOk src && domainOk domain && addrOk addr
  | .semAcq src _ domain _ addr => unitOk src && domainOk domain && addrOk addr
  | .semRel src _ domain _ addr => unitOk src && domainOk domain && addrOk addr
  | .remoteCisternRead b src _ domain _ addr _ => basinOk b && unitOk src && domainOk domain && addrOk addr
  | .routerSinkPacket b _ => basinOk b
  | .quarantineRelease u => unitOk u
  | .quarantineFailback u => unitOk u
  | .epochReissue u => unitOk u
  | .cisternScrub b addr finding => basinOk b && addrOk addr && findingOk finding
  | .reservoirScrub addr finding => addrOk addr && findingOk finding
  | .basinFaultDetected b _ => basinOk b
  | .plannedFence b => basinOk b
  | .spareRestoreDone row => rowOk row
  | .replayStart b => basinOk b
  | .failedPeriodCompletion i => indexOk i
  | .ppsEdge _ => true
  | .ppsTimeout => true
  | .refclkLoss => true
  | .ptmDialogue _ _ => true
  | .ptmTimeout => true
  | .rillTimeTimeout => true
  | .holdlimExceeded => true
  | .cadCtLowRead => true
  | .timeSyncSend p => portOk p
  | .syncFrame a => portOk a.port
  | .followFrame a _ _ _ => portOk a.port
  | .dreqFrame a => portOk a.port
  | .drespFrame a _ => portOk a.port
  | .doorbell f _ _ _ => functionOk f
  | .submissionFetch i _ entry => indexOk i && slotBytesOk entry
  | .frameArrival i _ => indexOk i
  | .posting i => indexOk i
  | .mbReqtailWrite f _ => functionOk f
  | .mbEnable f => functionOk f
  | .mbDisable f => functionOk f
  | .mbRspheadWrite f _ => functionOk f
  | .evqHeadWrite f _ => functionOk f
  | .requestStart f slot _ => functionOk f && slotBytesOk slot
  | .registerWrite _ addr _ _ => addrOk addr
  | .bar2Access f _ _ _ => functionOk f
  | .poisonedTlp f => functionOk f
  | .functionReset f _ => functionOk f
  | .hostlinkRetrain _ _ _ => true
  | .coreMiscompare _ => true
  | .deviceInfo f => functionOk f
  | .deviceHealth f => functionOk f
  | .devicePeers f => functionOk f
  | .deviceRekey f => functionOk f
  | .deviceFuncbind f => functionOk f
  | .deviceWindow f => functionOk f
  | .deviceConfig f => functionOk f
  | .deviceReset f => functionOk f
  | .resetDelayExpiry => true
  | .domainCreate f => functionOk f
  | .domainDestroy f => functionOk f
  | .domainDestroyRelease d => domainOk d
  | .domainQuery f => functionOk f
  | .domainLimits f => functionOk f
  | .pageAssign f => functionOk f
  | .pageRelease f => functionOk f
  | .modelLoad f _ _ => functionOk f
  | .modelUnload f => functionOk f
  | .modelQuery f => functionOk f
  | .runnelInstall f _ _ => functionOk f
  | .runnelImageWrite => true
  | .runnelRemove f => functionOk f
  | .streamCreate f => functionOk f
  | .streamDestroy f => functionOk f
  | .streamReissue f => functionOk f
  | .streamQuery f => functionOk f
  | .streamSet f => functionOk f
  | .streamRing f => functionOk f
  | .slotPlan f _ _ => functionOk f
  | .slotLoad f _ _ => functionOk f
  | .slotCommit f => functionOk f
  | .slotCancel f => functionOk f
  | .slotQuery f => functionOk f
  | .pairAttach f => functionOk f
  | .pairDetach f => functionOk f
  | .detachApply => true
  | .pairMirror f => functionOk f
  | .pairRole f => functionOk f
  | .pairRoleApply i => indexOk i
  | .pairQuery f => functionOk f
  | .trainCreate f => functionOk f
  | .trainQuery f => functionOk f
  | .trainSet f => functionOk f
  | .trainState f => functionOk f
  | .trainFill f => functionOk f
  | .trainResync f _ _ _ => functionOk f
  | .trainRestore f _ _ _ => functionOk f
  | .trainCkptReserve f => functionOk f
  | .flagsRead f => functionOk f
  | .flagsClear f => functionOk f
  | .regRead f => functionOk f
  | .regWrite f => functionOk f
  | .timeQuery f => functionOk f
  | .timeSet f => functionOk f
  | .timeStep f => functionOk f
  | .powerQuery f => functionOk f
  | .powerEnter f => functionOk f
  | .powerPolicy f => functionOk f
  | .powerWakeport f => functionOk f
  | .powerTrickle f => functionOk f
  | .updateManifest f _ => functionOk f
  | .updateChunk f => functionOk f
  | .chunkProgram _ => true
  | .eraseResume => true
  | .updateStatus f => functionOk f
  | .updateActivate f _ => functionOk f
  | .updateAbort f => functionOk f
  | .updateRecovery f _ => functionOk f
  | .recoveryTimeout => true
  | .lifecycleQuery f => functionOk f
  | .lifecycleAdvance f _ => functionOk f
  | .eventConfig f => functionOk f
  | .eventQuery f => functionOk f
  | .eventFetch f => functionOk f
  | .logRead f => functionOk f
  | .logClear f => functionOk f
  | .unknownOpcode f => functionOk f
  | .mctpRequest slot _ _ _ => slotBytesOk slot
  | .coresWait => true
  | .seqStepDone => true
  | .seqStepTimeout => true
  | .pcieWake _ => true
  | .rillTrainingWake => true
  | .mirrorTrainingWake => true
  | .wakeBurstRecognised p => portOk p
  | .wakeInNFall => true
  | .pwrEnRise => true
  | .pwrEnFall => true
  | .perstNAssert => true
  | .perstNDeassert => true
  | .wakeNTimeout => true
  | .currentOverride _ => true
  | .voltageOverride _ _ => true
  | .thermalShutdown => true
  | .overcurrentShutdown => true
  | .undervoltageShutdown => true
  | .overvoltageShutdown => true
  | .vinRestored => true
  | .auxLoss => true
  | .auxReturn => true
  | .tricklePeriod => true
  | .trickleWindowWrite _ _ => true
  | .bootStart => true
  | .bootStepComplete _ _ _ => true
  | .bootStepTimeout => true
  | .bootBackoffExpiry => true
  | .stillAssert => true
  | .stillRelease => true
  | .trst => true
  | .extest _ => true
  | .samplePreload _ _ => true
  | .idcode => true
  | .clamp => true
  | .highz => true
  | .bypass _ => true
  | .stillstat => true
  | .memaddr _ => true
  | .memdata => true
  | .scansel _ => true
  | .scan _ => true
  | .portEnable p => portOk p
  | .portDisable p => portOk p
  | .rilTopoWrite _ => true
  | .downRetry p => portOk p
  | .laneTrainingDone p => portOk p
  | .trainTimeout p => portOk p
  | .keyxTimeout p => portOk p
  | .hello a _ key nonce _ => portOk a.port && keyNonceOk key nonce
  | .finish a _ => portOk a.port
  | .laneLoss p => portOk p
  | .dataFrame p _ _ _ => portOk p
  | .ctrlFrame p _ _ _ => portOk p
  | .ackTimeout p => portOk p
  | .idleFrameTimer p => portOk p
  | .noFrameTimeout p => portOk p
  | .rekeyThreshold p => portOk p
  | .rekeyInit a key nonce _ => portOk a.port && keyNonceOk key nonce
  | .rekeyResp a key nonce _ => portOk a.port && keyNonceOk key nonce
  | .rekeyRetry p => portOk p
  | .counterStop p => portOk p
  | .wakeBurstTimer p => portOk p
  | .join _ => true
  | .hb _ => true
  | .hbCheck => true
  | .postMsg _ _ _ => true
  | .digestMsg _ _ _ _ _ => true
  | .mapMsg _ => true
  | .resyncMsg _ _ _ _ => true
  | .forwardRecord i entry _ _ _ => indexOk i && slotBytesOk entry
  | .deltaRecord i _ _ => indexOk i
  | .hotCoverCheck i => indexOk i
  | .mirrorApply i => indexOk i
  | .bucketSend i _ => indexOk i
  | .chainPartial i _ _ _ => indexOk i
  | .finalResult i _ _ _ => indexOk i
  | .compressedContribution i _ _ _ => indexOk i
  | .kvBlock i _ _ => indexOk i
  | .optoffCheck i => indexOk i
  | .checkpointStart i => indexOk i
  | .checkpointCommit i => indexOk i
  | .checkpointAbandon i => indexOk i
  | .twinStoreData _ addr _ => addrOk addr
  | .offloadFetchFailure i => indexOk i
  | .refclkReturn => true
  | .stackReadyLoss n => ctrlOk n
  | .ingressReadFailure i => indexOk i
  | .coolantInletHigh _ => true
  | .refreshRateChange n _ => ctrlOk n
  | .pcieLinkL0 => true

end Sys2Proof
end

