-- ==== Sys2Proof/Tests/Slice0.lean ====
section
/-! SUPPORT. Checks of the model's own author: ill-formed commands, single steps on small devices, and for each statement with
hypotheses a device and operands that meet them together. -/

open Sys2Proof Sys2Proof.Machine Sys2Proof.Spec

namespace Sys2Proof.Tests

set_option Elab.async false

/-! ### Well-formed commands -/

theorem test_wf_refuses_basin : wf (.runStart 528) = false ∧ wf (.runStart 527) = true ∧ wf (.seqNop 272) = false := by decide
theorem test_wf_refuses_runnel : wf (.muNop 0 2) = false ∧ wf (.muNop 0 1) = true := by decide
theorem test_wf_refuses_function : wf (.mbEnable 256) = false ∧ wf (.mbEnable 255) = true := by decide
theorem test_wf_refuses_port : wf (.portEnable 5) = false ∧ wf (.portEnable 4) = true := by decide
theorem test_wf_refuses_index : wf (.posting 65536) = false ∧ wf (.posting 65535) = true := by decide
theorem test_wf_refuses_unit : wf (.epochReissue 0x1F1) = false ∧ wf (.epochReissue 0x1F5) = true := by decide
theorem test_wf_refuses_ctrl : wf (.stackReadyLoss 8) = false ∧ wf (.stackReadyLoss 7) = true := by decide
theorem test_wf_refuses_row : wf (.spareRestoreDone 16) = false ∧ wf (.spareRestoreDone 15) = true := by decide
theorem test_wf_refuses_domain : wf (.amaxGet 0 1024 0) = false ∧ wf (.amaxGet 0 1023 0) = true := by decide
theorem test_wf_refuses_address : wf (.registerWrite (some 0) (2 ^ 52) 4 0) = false := by decide
theorem test_wf_refuses_finding : wf (.cisternScrub 0 0 5) = false ∧ wf (.cisternScrub 0 0 4) = true := by decide
theorem test_wf_refuses_slot : wf (.requestStart 0 [0] none) = false := by decide

/-- The opcode table gives no row bits, so no word spells a command. -/
theorem test_no_word_spells_a_command (n w : Nat) : decodeTableWord n w = none := rfl

/-! ### Small devices -/

/-- A device at READY whose firmware runs. -/
def up : Dev := { pow := { stable := 3 }, boot := { ready := true } }

/-- A run of domain 1 with segment 0, aperture segment 0 and the region 0 to 9. -/
def run1 : Run :=
  { handle := 0x10001, lbasin := 0, domain := 1, det := false, take := false, post := false, apseg := 1, planStep := 0, entry := some 0,
    base := 0, limit := 9, tstart := 0, tend := 1000, share := 0, segs := 1, model := 0, planno := 0 }

/-- It is active, nothing issued. -/
def act : Active :=
  { run := run1, slot := 0, frame := 0, slotCt := 0, start := 0, fin := 1000, clk0 := 0, epoch := 0, ended := false, nextSeq := 1, gseqs := [], novf := 0,
    nsat := 0, nvan := 0, novb := 0, trunc := false, seedr := 0, evalTags := false }

/-- An instruction word by R107: opcode 63:56, sd 55:51, sa 50:46, sb 45:41, FN 40:32, IMM 31:0. -/
def word (opc sd sa sb fn imm : Nat) : W64 :=
  BitVec.ofNat 64 (opc * 2 ^ 56 + sd * 2 ^ 51 + sa * 2 ^ 46 + sb * 2 ^ 41 + fn * 2 ^ 32 + imm)

/-- A basin that runs `act`, with the instruction `w` next and segment 0 held by domain 1. -/
def bas (w : W64) (store : Mem) (regs : Tab W32) (ops : List Op) : Basin :=
  { Basin.reset with
    logical := 0, store := store, tags := [(0, { valid := true, zeroing := false, domain := 1 })], prog := [(0, w)],
    seq := { Seq.reset with active := some act, limit := 9, regs := regs, ops := ops } }

/-- The device with that basin 0. -/
def dev (x : Basin) : Dev := { up with basins := [(0, x)], lib := { libver := 1 } }

/-- Little-endian words from an address. -/
def words (a : Nat) (ws : List Nat) : Mem := Mem.writeBytes [] a (ws.flatMap (leBytes 4))

/-- An operation in flight. -/
def op (g : Engine) (bytes : List Byte) : Op := Op.new 0 0 g 0 bytes

/-! ### The sequencer -/

theorem test_instruction_fields : insOf (word 0x12 1 2 3 4 5) = ⟨0x12, 1, 2, 3, 4, 5⟩ := by decide +kernel

theorem witness_ScalarInstructions : ∀ c ∈ [0x10, 0x11, 0x12, 0x13, 0x14, 0x15, 0x16, 0x17, 0x18, 0x19, 0x51, 0x52],
    Stands (dev (bas (word c 3 1 2 1 7) [] [] [])) 0 act (insOf (word c 3 1 2 1 7)) ∧ (insOf (word c 3 1 2 1 7)).opc = c := by
  unfold Stands Quiet; decide +kernel

theorem witness_ControlInstructions : ∀ c ∈ [0x00, 0x30, 0x31, 0x32, 0x33, 0x34, 0x50, 0x01],
    Stands (dev (bas (word c 0 1 2 0x3F 7) [] [] [])) 0 act (insOf (word c 0 1 2 0x3F 7)) ∧ (insOf (word c 0 1 2 0x3F 7)).opc = c := by
  unfold Stands Quiet; decide +kernel

/-- A word access at the last word of segment 0 and at the last of tile 0's aperture segment. -/
theorem witness_WordAccesses : ∀ c ∈ [0x20, 0x21], ∀ w ∈ [0xFFFC, 0x40FFFC],
    let d := dev (bas (word c 1 0 2 0 w) [] [] [])
    let i := insOf (word c 1 0 2 0 w)
    Stands d 0 act i ∧ Clean d 0 ∧ ea d 0 i % 4 = 0 ∧ (d.basin 0).rangeCode run1 (ea d 0 i) 4 = 0 ∧ i.opc = c
      ∧ (d.basin 0).seq.ops = [] := by
  unfold Stands Quiet Clean; decide +kernel

/-- A layer of one row, column and product from 0x100 and 0x140 to tile 0; a zero fill of 64 bytes at 0x200; a runnel operation of one
element; a cascade operation `k` on one row; a loupe operation on one element. -/
def jopWords : List Nat := [0, 0x10001, 1, 0x400040, 0x100, 0, 0x140]
def sluWords : List Nat := [2 ^ 31, 0, 0, 0, 0x200, 0, 64, 1]
def rnlWords : List Nat := [2 ^ 12 + 2 ^ 4, 1, 0x100, 0, 0x140, 0x180, 0, 1]
def cscWords (k : Nat) : List Nat := [k * 2 ^ 28 + 2 ^ 19 + 2 ^ 15, 1, 1, 0x100, 0, 0x140, 0x180, 0, 0x100, 1]
def lpeWords : List Nat := [0x100, 0x140, 0x180, 0x1C0, 1]

/-- The device that stands at an engine instruction whose descriptor, at 0x40, is `ws`. -/
def atOp (c fn : Nat) (ws : List Nat) : Dev := dev (bas (word c 0 0 0 fn 0x40) (words 0x40 ws) [] [])
def opIns (c fn : Nat) : Ins := insOf (word c 0 0 0 fn 0x40)

theorem witness_EngineInstructions_layer :
    let d := atOp 0x40 0 jopWords
    let l := layerOf (descAt d 0 (opIns 0x40 0))
    Stands d 0 act (opIns 0x40 0) ∧ Readable d 0 act (opIns 0x40 0) ∧ (opIns 0x40 0).opc = 0x40 ∧ l.code (d.basin 0) run1 = 0 ∧ HasRoom d 0 .jet
      ∧ Unclaimed d 0 l.tiles (segsIn l.reads) (segsIn l.writesTo) (fun o => o.engine == .jet && l.merges (layerOf o.bytes) run1.det) := by
  unfold Stands Quiet Readable Clean HasRoom Unclaimed; decide +kernel

theorem witness_EngineInstructions_sluice :
    let d := atOp 0x41 0 sluWords
    let s := sluiceOf (descAt d 0 (opIns 0x41 0))
    Stands d 0 act (opIns 0x41 0) ∧ Readable d 0 act (opIns 0x41 0) ∧ (d.basin 0).ppbBytes run1 s = [] ∧ d.sluiceCheck 0 run1 s Ppb.blank = (0, 0)
      ∧ HasRoom d 0 .sluice := by
  unfold Stands Quiet Readable Clean HasRoom; decide +kernel

theorem witness_EngineInstructions_runnel : ∀ fn ∈ [0, 1],
    let d := atOp 0x43 fn rnlWords
    let q := rnlOf (descAt d 0 (opIns 0x43 fn))
    Stands d 0 act (opIns 0x43 fn) ∧ Readable d 0 act (opIns 0x43 fn) ∧ q.cntsrc = false ∧ q.count ≤ q.ecap
      ∧ d.rnlCode (d.basin 0) run1 q q.count = 0 ∧ HasRoom d 0 (if fn = 1 then .runnel1 else .runnel0) := by
  unfold Stands Quiet Readable Clean HasRoom; decide +kernel

theorem witness_EngineInstructions_cascade : ∀ k ∈ [0, 1, 2, 3, 4, 5, 6, 7],
    let d := atOp 0x42 0 (cscWords k)
    let c := cscOf (descAt d 0 (opIns 0x42 0))
    Stands d 0 act (opIns 0x42 0) ∧ Readable d 0 act (opIns 0x42 0) ∧ c.op = k ∧ c.code (d.basin 0) run1 = 0 ∧ HasRoom d 0 .cascade := by
  unfold Stands Quiet Readable Clean HasRoom; decide +kernel

theorem witness_EngineInstructions_loupe : ∀ k ∈ [0, 1, 2, 3, 4, 5, 6, 7, 8, 9],
    let d := atOp 0x44 (32 * k) lpeWords
    let i := opIns 0x44 (32 * k)
    Stands d 0 act i ∧ Readable d 0 act i ∧ bitsOf i.fn 8 5 = k ∧ (lpeOf i.fn 0 (descAt d 0 i)).code (d.basin 0) run1 = 0 ∧ HasRoom d 0 .loupe := by
  unfold Stands Quiet Readable Clean HasRoom; decide +kernel

/-- Tiles 0 and 1 of jet 0; no tile; and a range past the sixty-fourth. -/
theorem witness_TileInstructions : ∀ c ∈ [0x48, 0x49],
    let d := dev (bas (word c 0 1 2 0 3) [] [(1, 64)] [])
    let i := insOf (word c 0 1 2 0 3)
    let ts := tilesNamed (sreg d 0 i.sa).toNat i.imm
    Stands d 0 act i ∧ i.opc = c ∧ bitsOf (sreg d 0 i.sa).toNat 12 6 = 1 ∧ ts = [0, 1] ∧ (∀ t ∈ ts, tileIn run1.apseg t = true)
      ∧ HasRoom d 0 .tile := by
  unfold Stands Quiet HasRoom; decide +kernel
theorem witness_TileInstructions_none :
    Stands (dev (bas (word 0x48 0 1 2 0 0) [] [(1, 64)] [])) 0 act (insOf (word 0x48 0 1 2 0 0)) ∧ (insOf (word 0x48 0 1 2 0 0)).imm % 2 ^ 16 = 0 := by
  unfold Stands Quiet; decide +kernel

theorem witness_BadInstructions :
    (let d := dev (bas (word 0xFF 0 0 0 0 0) [] [] [])
     Stands d 0 act (insOf (word 0xFF 0 0 0 0 0)) ∧ listed (insOf (word 0xFF 0 0 0 0 0)) = false)
    ∧ (∀ c ∈ [0x20, 0x21, 0x40, 0x43],
        let d := dev (bas (word c 0 0 0 0 1) [] [] [])
        Stands d 0 act (insOf (word c 0 0 0 0 1)) ∧ ea d 0 (insOf (word c 0 0 0 0 1)) % 4 ≠ 0)
    ∧ (let d := dev (bas (word 0x48 0 1 0 0 1) [] [(1, 191)] [])
       let s := (sreg d 0 1).toNat
       Stands d 0 act (insOf (word 0x48 0 1 0 0 1)) ∧ bitsOf s 12 6 ≠ 0 ∧ 64 < bitsOf s 5 0 + bitsOf s 12 6)
    ∧ (let x := bas 0 [] [] []
       let d := dev { x with seq := { x.seq with pc := 10 } }
       Quiet d ∧ (d.basin 0).seq.active = some act ∧ (d.basin 0).seq.limit < (d.basin 0).seq.pc) := by
  unfold Stands Quiet; decide +kernel

/-! ### Operations in flight -/

/-- The words of a descriptor as its 64 bytes. -/
def desc (ws : List Nat) : List Byte := (ws ++ List.replicate (16 - ws.length) 0).flatMap (leBytes 4)

/-- The device with operation `o` alone in flight. -/
def flying (o : Op) : Dev := dev (bas 0 [(0x100, 7)] [] [o])

/-- Layers whose overflow count stays within its bound, is past it, and has none; and the other engines' operations. -/
def layerOp (ovb : Nat) : Op := { op .jet (desc (jopWords ++ [0, 0, 0, 0, 0, ovb * 2 ^ 16])) with ovCount := 4, writes := [(0x180, 9)] }
def tileOp : Op := { op .tile [] with writes := [(0x400000, 9)], tileClear := [1], tileSet := [0] }
def cscOp (scope : Nat) (ph : OpPhase) : Op :=
  { op .cascade (desc [scope * 2 ^ 13 + 2 ^ 19 + 2 ^ 15, 1, 1, 0x100, 0, 0x140, 0x180, 0, 0x100]) with
    phase := ph, partials := [.lin 0 false], writes := [(0x140, 9)] }
def rnlOp (q : RunnelOp) : Op := { op .runnel0 (desc rnlWords) with rnl := some q }
def lanes2 : RunnelOp := { (rnlOf (desc rnlWords)).start 1 with count := 2, icap := 1, rcap := 1, entry := 0x500, upc := 0x500 }

theorem witness_OperationsRetire : ∀ o ∈ [layerOp 4, layerOp 3, layerOp 0xFFFF, tileOp, cscOp 0 .granted, op .loupe [], rnlOp { lanes2 with ended := true }],
    Front (flying o) 0 act o ∧ Clean (flying o) 0 := by
  unfold Front InFlight Quiet Clean; decide +kernel

/-- SINCOSQ and a function of the shipped library that its runnel has not begun. -/
theorem witness_OperationsRetire_library : ∀ e ∈ [0x000, 0x120],
    let q : RunnelOp := { lanes2 with entry := e, rcap := 2 }
    Front (flying (rnlOp q)) 0 act (rnlOp q) ∧ Clean (flying (rnlOp q)) 0 ∧ (rnlOp q).rnl = some q ∧ q.ended = false
      ∧ (flying (rnlOp q)).libOp q.entry = true ∧ q.count ≤ q.rcap := by
  unfold Front InFlight Quiet Clean; decide +kernel

/-- A zero fill, a copy of 64 bytes from 0x100 to 0x200, and a conversion that has no path. -/
def copyWords : List Nat := [0, 0, 0x100, 0, 0x200, 0, 64, 1]
def badWords : List Nat := [0, 2 * 2 ^ 28 + 3 * 2 ^ 24, 0x100, 0, 0x200, 0, 64, 1]
def sluOp (ws : List Nat) (ph : OpPhase) : Op := { op .sluice (desc ws) with phase := ph }

theorem witness_Transfers_zero :
    let o := sluOp sluWords .granted
    Front (flying o) 0 act o ∧ Clean (flying o) 0 ∧ (flying o).side 0 true (sluiceOf o.bytes).dst = .own 0x200 ∧ (sluiceOf o.bytes).zero = true := by
  unfold Front InFlight Quiet Clean; decide +kernel
theorem witness_Transfers_copy :
    let o := sluOp copyWords .granted
    let s := sluiceOf o.bytes
    Front (flying o) 0 act o ∧ Clean (flying o) 0 ∧ (flying o).side 0 false s.src = .own 0x100 ∧ (flying o).side 0 true s.dst = .own 0x200 ∧ 0 < s.nrows
      ∧ refuseWords (cvtOf s.cvtw) Ppb.blank s.nelem = 0 ∧ o.bytes.length = 64
      ∧ ((flying o).basin 0).rowsCode run1 (rowsAt 0x100 s.spitch s.nelem s.nrows) = (0, 0) := by
  unfold Front InFlight Quiet Clean; decide +kernel
theorem witness_Transfers_refused :
    let o := sluOp badWords .granted
    let s := sluiceOf o.bytes
    Front (flying o) 0 act o ∧ Clean (flying o) 0 ∧ s.zero = false ∧ (flying o).refusal 0 run1 (cvtOf s.cvtw) o.ppb s.ppbv s ≠ 0
      ∧ s.metered (flying o) 0 (o.ppb.getD Ppb.blank) = false := by
  unfold Front InFlight Quiet Clean; decide +kernel
theorem witness_Transfers_retire :
    let o := sluOp sluWords .started
    InFlight (flying o) 0 act o ∧ Clean (flying o) 0 ∧ o.engine = .sluice ∧ o.phase = .started ∧ o.rsvWrites = [] ∧ (sluiceOf o.bytes).zero = true := by
  unfold InFlight Quiet Clean; decide +kernel

/-- A WAIT on every class and an LDW that are held. -/
def held (w : W64) (ops : List Op) : Dev := let x := bas w [] [] ops; dev { x with seq := { x.seq with held := some 0 } }
theorem witness_HeldInstructions : ∀ p ∈ [(word 0x50 0 0 0 0x3F 0, []), (word 0x50 0 0 0 0x3F 0, [tileOp]), (word 0x20 1 0 0 0 0x100, [tileOp])],
    Quiet (held p.1 p.2) ∧ ((held p.1 p.2).basin 0).current = some (act, insOf p.1) ∧ ((held p.1 p.2).basin 0).seq.held = some 0 := by
  unfold Quiet; decide +kernel

/-- A partial of the group of `cscOp`, sent by logical basin `m`. -/
def part (m : Nat) : HeldPartial := { handle := 0x10001, gtag := 0, seq := 0, member := m, row := 0, value := .lin 0 false }
/-- Basin 0 serves the stream; basin 1 is a member with an operation of the group in flight. -/
def group : Dev :=
  { dev (bas 0 [] [] []) with basins := [(0, bas 0 [] [] []), (1, { bas 0 [] [] [cscOp 1 .waiting] with logical := 1 })] }

theorem witness_Groups_arrival :
    Quiet group ∧ (group.basin 0).cis.weirFenced = false ∧ group.servesRun 0 0x10001 = true ∧ group.servesRun 0 0x20001 = false
      ∧ (∀ p ∈ group.basins, p.2.logical = (part 2).member → (p.2.groupOp 0x10001 0 0).isSome = false)
      ∧ Tab.sorted group.basins = true ∧ (group.basin 1).groupOp 0x10001 0 0 = some (cscOp 1 .waiting)
      ∧ (∀ p ∈ group.basins, (p.2.logical = (part 1).member ∧ (p.2.groupOp 0x10001 0 0).isSome = true) ↔ p.1 = 1)
      ∧ (cscOp 1 .waiting).partials[(part 1).row]? = some (part 1).value ∧ (Tab.find? group.basins 1).isSome = true := by
  unfold Quiet; decide +kernel

/-- The root with its own partial held, under SCOPE 0b01 and 0b10. -/
def root (scope : Nat) (ph : OpPhase) : Dev := dev { bas 0 [] [] [cscOp scope ph] with partials := [part 0] }
theorem witness_Groups_root : ∀ p ∈ [(1, OpPhase.waiting), (2, OpPhase.waiting), (2, OpPhase.started)],
    GroupRoot (root p.1 p.2) 0 act (cscOp p.1 p.2) := by
  unfold GroupRoot InFlight Quiet; decide +kernel
theorem witness_Groups_whole : Whole (root 1 .waiting) 0 act (cscOp 1 .waiting) := by
  intro r m hr hm
  have h : r = 0 ∧ m = 0 := by
    have : (cscOf (cscOp 1 .waiting).bytes).rows = 1 ∧ (cscOf (cscOp 1 .waiting).bytes).gcount = 1 := by decide +kernel
    omega
  obtain ⟨rfl, rfl⟩ := h
  exact ⟨part 0, by decide +kernel⟩

/-! ### Micro-programs -/

/-- A micro-op by R191. -/
def mu (op vd va vb vc mod rm im imm : Nat) : W64 :=
  BitVec.ofNat 64 (op * 2 ^ 58 + vd * 2 ^ 54 + va * 2 ^ 50 + vb * 2 ^ 46 + vc * 2 ^ 42 + mod * 2 ^ 38 + rm * 2 ^ 36 + im * 2 ^ 35 + imm)

theorem test_micro_op_fields : mopOf (mu 0x18 1 2 3 4 5 1 1 6) = ⟨0x18, 1, 2, 3, 4, 5, 1, true, 6⟩ := by decide +kernel

/-- Runnel 0 works on the operation with lane state `q` and stands at micro-op `w`; its input bytes lie at 0x100. -/
def atMu (w : W64) (q : RunnelOp) : Dev := dev { bas 0 [(0x100, 7)] [] [rnlOp q] with ustore := [(0x500, w)] }

/-- Two lanes, whose v2 and v3 are `x` and `y`. -/
def with2 (x y : W32) : RunnelOp := { lanes2 with regs := [(2, x), (3, y), (18, x), (19, y)] }

theorem witness_micro_ops : ∀ p ∈ [(0x00, 0, 0), (0x2F, 1, 0), (0x20, 15, 8), (0x20, 1, 3), (0x21, 15, 0)],
    let w := mu p.1 p.2.1 2 3 4 p.2.2 0 1 31
    AtMicroOp (atMu w (with2 5 6)) 0 0 act (rnlOp (with2 5 6)) (with2 5 6) (mopOf w) := by
  unfold AtMicroOp Quiet; decide +kernel

/-- LMUL, LDIV and LSHF of the largest and smallest finite fields whose results stay in range, and LDIV of 0 by 0. -/
theorem witness_LogMicroOps : ∀ p ∈ [(mu 0x0A 1 2 3 0 0 0 0 0, 262142, 130048), (mu 0x0A 1 2 3 0 0 0 0 0, 1, 130048), (mu 0x0B 1 2 3 0 0 0 0 0, 262142, 130048),
      (mu 0x0B 1 2 3 0 0 0 0 0, 0, 0), (mu 0x0C 1 2 0 0 0 0 0 7, 131079, 1)],
    let q := with2 (BitVec.ofNat 32 p.2.1) (BitVec.ofNat 32 p.2.2)
    AtMicroOp (atMu p.1 q) 0 0 act (rnlOp q) q (mopOf p.1) ∧ q.lanes = [0, 1] ∧ q.reg 0 2 = p.2.1 ∧ q.reg 1 3 = p.2.2 := by
  unfold AtMicroOp Quiet; decide +kernel

/-- CVT of every kind, on the values its clauses name. -/
theorem witness_Conversions : ∀ p ∈ [(0, 130048), (1, 130048), (2, 5), (3, 2 ^ 18), (3, 130048), (4, 0), (4, 5), (5, 132094), (6, 262142), (7, 130048)],
    let w := mu 0x18 1 2 0 0 p.1 1 0 30
    let q := with2 (BitVec.ofNat 32 p.2) 0
    AtMicroOp (atMu w q) 0 0 act (rnlOp q) q (mopOf w) ∧ (mopOf w).mod = p.1 ∧ q.reg 0 2 = p.2 ∧ q.reg 1 2 = p.2 := by
  unfold AtMicroOp Quiet; decide +kernel
theorem witness_Conversions_table : ∀ c ∈ [0x10, 0x11, 0x30],
    let w := mu c 1 2 3 0 0 0 0 0x20000
    AtMicroOp (atMu w (with2 5 6)) 0 0 act (rnlOp (with2 5 6)) (with2 5 6) (mopOf w) ∧ (with2 5 6).em ≤ 2 ∧ bitOf (mopOf w).imm 27 = false := by
  unfold AtMicroOp Quiet; decide +kernel

/-- IN of two elements, OUT of two, and OUTR of one record where one is wanted. -/
theorem witness_ElementMicroOps : ∀ p ∈ [(mu 0x01 1 0 0 0 0 0 0 0, fL16), (mu 0x01 1 0 0 0 1 0 0 0, fRaw), (mu 0x01 1 0 0 0 1 0 0 0, fA16), (mu 0x01 1 0 0 0 0 0 0 0, fB32),
      (mu 0x02 0 2 0 0 0 0 0 0, fRaw), (mu 0x02 0 2 0 0 0 0 0 0, fA32), (mu 0x02 0 2 0 0 0 0 0 0, fL16), (mu 0x03 0 2 3 4 0 0 0 0, fL16)],
    let q := { with2 5 6 with afmt := p.2, bfmt := p.2, dfmt := p.2, baddr := 0xFFF8, regs := [(2, 5), (3, 6), (4, 0), (18, 5), (19, 6), (20, 1)] }
    AtMicroOp (atMu p.1 q) 0 0 act (rnlOp q) q (mopOf p.1) ∧ Clean (atMu p.1 q) 0 ∧ q.lanes = [0, 1]
      ∧ ((atMu p.1 q).basin 0).rangeCode run1 (q.aaddr + 32 * q.group * muBytes p.2) (2 * muBytes p.2) = 0
      ∧ ((atMu p.1 q).basin 0).rangeCode run1 (q.baddr + 32 * q.group * muBytes p.2) (2 * muBytes p.2) = 0
      ∧ ((atMu p.1 q).basin 0).rangeCode run1 (q.daddr + 32 * q.group * muBytes p.2) (2 * muBytes p.2) = 0
      ∧ (q.lanes.filter (fun l => q.reg l 4 ≠ 0)).length ≤ q.rcap - q.records := by
  unfold AtMicroOp Quiet Clean; decide +kernel

/-- Branches to their own place, forward, and at the iteration cap; with a lane whose vc is 1, and without. -/
theorem witness_RunnelControl : ∀ c ∈ [0x04, 0x38, 0x39, 0x3A], ∀ n ∈ [0, 1, 2],
    let w := mu c 0 0 0 4 0 0 0 (0x500 + n % 2)
    let q := { lanes2 with iters := 1 - n % 2, icapr := n == 2, regs := [(4, 0), (5, 0), (20, 1), (21, 0)] }
    AtMicroOp (atMu w q) 0 0 act (rnlOp q) q (mopOf w) ∧ q.icap = 1 ∧ q.lanes.any (fun l => q.reg l 4 != 0) = true
      ∧ q.lanes.any (fun l => q.reg l 5 != 0) = false := by
  unfold AtMicroOp Quiet; decide +kernel

/-! ### The reservoir and the weir -/

/-- Pages 0 and 1 belong to domain 1 and page 2 to domain 2; the table of two slots of 10 µs has run since 1 ms, and 100 ns of its
first slot are past. -/
def page (n : Nat) : Page := { valid := true, owner := n }
def table1 : Table := { slen := 10000, nslot := 2, fstart := 1000000, floor := 800, gen := 1, runs := [(0, [run1]), (1, [run1])] }
def stored (m : Mem) : Dev :=
  { up with rsv := { pages := [(0, page 1), (1, page 1), (2, page 2)], mem := m },
            cad := { active := true, table0 := some table1, ct := 1000100 * 65536, strobed := true } }

/-- A range over the end of page 0, and one that leaves page 1. -/
theorem witness_ReservoirAccesses :
    Quiet (stored []) ∧ (stored []).epochOk 0 0 = true ∧ Reaches (stored []) 1 0x1FFFFC 8 ∧ Whole64 (stored []) 0x1FFFFC 8
      ∧ (stored []).rsv.owned 1 0x3FFFFC 8 = false ∧ (stored []).rsv.poisoned 0x3FFFFC 8 = false ∧ Whole64 (stored []) 0x3FFFFC 8
      ∧ OwnsByte (stored []) 1 0x3FFFFF ∧ ¬ OwnsByte (stored []) 1 0x400000 ∧ (stored []).rsv.ctrls.length = 8 := by
  unfold Quiet Reaches Whole64 OwnsByte; decide +kernel

/-- A semaphore that is free, one whose lease has just ended, and one held for a microsecond more. -/
theorem witness_ReservoirAtomics : ∀ w ∈ [0, 5 * 2 ^ 48 + 1000, 5 * 2 ^ 48 + 1001],
    let d := stored (words 8 [w % 2 ^ 32, w / 2 ^ 32])
    Quiet d ∧ d.epochOk 0 0 = true ∧ Reaches d 1 8 8 ∧ Whole64 d 8 8 ∧ Mem.readLe d.rsv.mem 8 8 = w ∧ d.slotStart / 1000 % 2 ^ 48 = 1000
      ∧ d.rsv.ctrls.length = 8 := by
  unfold Quiet Reaches Whole64; decide +kernel

/-- A valid ring of 16 entries with a pending amax of slot 5, one of another domain, an invalid one, and none. -/
def ringWords : List Nat := [16, 100, 1 + 32766 * 2 ^ 16, 0, 5, 0, 200 + 2 ^ 16]
theorem witness_AmaxRing :
    Quiet (stored (words 0x1000 ringWords)) ∧ (stored (words 0x1000 ringWords)).ringOk 1 0x1000 = true
      ∧ rsvPopulated 0x1000 64 = true ∧ (stored (words 0x1000 ringWords)).rsv.owned 2 0x1000 64 = false
      ∧ (stored []).rsv.owned 1 0x1000 64 = true ∧ (ringOf (stored []).rsv.mem 0x1000).ok = false ∧ rsvPopulated 0x6000000000 64 = false
      ∧ (ringOf (stored (words 0x1000 ringWords)).rsv.mem 0x1000).slotct = 5 ∧ (ringOf (stored (words 0x1000 ringWords)).rsv.mem 0x1000).pv = true := by
  unfold Quiet; decide +kernel

/-- A fenced basin, and one with segment 0 open and segment 1 claimed for writing. -/
def fencedBasin : Dev := dev { Basin.reset with cis := { CisRegs.reset with weirFenced := true } }
def openBasin : Dev := flying { op .sluice [] with writeSegs := [1] }
theorem witness_WeirRequests :
    Quiet fencedBasin ∧ Quiet openBasin ∧ (fencedBasin.basin 0).cis.weirFenced = true ∧ (openBasin.basin 0).cis.weirFenced = false
      ∧ openBasin.epochOk 0 0 = true ∧ Clean openBasin 0
      ∧ (openBasin.basin 0).openTo 1 0xFFFC 4 = true ∧ (openBasin.basin 0).openTo 1 0xFFFC 5 = false
      ∧ ∀ o ∈ (openBasin.basin 0).seq.ops, ∀ k ∈ o.writeSegs, 0xFFFC + 4 ≤ k * 65536 ∨ k * 65536 + 65536 ≤ 0xFFFC := by
  unfold Quiet Clean; decide +kernel

/-- Clean units, and ones that hold an error no read has met. -/
def marred : Dev :=
  { up with basins := [(271, { Basin.reset with cis := { CisRegs.reset with badWords := [0x43FFFC], softWords := [8] } })],
            rsv := { poison := [6], soft := [5] } }
theorem witness_Scrubbers :
    Quiet up ∧ Quiet marred ∧ eccWidth 8 = 8 ∧ eccWidth 0x43FFFF = 4 ∧ 0x43FFFC ∈ (marred.basin 271).cis.badWords ∧ (marred.basin 271).cis.lastUe = none
      ∧ (marred.basin 271).cis.ueTimes = [] ∧ (marred.mgmtView 271).state ≠ 2 ∧ 8 ∉ (marred.basin 271).cis.badWords
      ∧ 8 ∈ (marred.basin 271).cis.softWords ∧ 5 ∈ marred.rsv.soft ∧ 5 ∉ marred.rsv.poison ∧ 6 ∈ marred.rsv.poison
      ∧ marred.rsv.ctrls.length = 8 ∧ (marred.ctrl (ctrlOf 192)).ueTimes = [] ∧ (up.basin 271).cis.lastUe = none ∧ (up.mgmtView 271).state ≠ 2
      ∧ (up.basin 271).cis.ueTimes = []
      ∧ up.rsv.ctrls.length = 8 ∧ (up.ctrl (ctrlOf 0x5FFFFFFFFF)).ueTimes = [] := by
  unfold Quiet; decide +kernel

/-! ### Fences, epochs and slots -/

/-- A planned fence waits, and the spare of row 2 restores column 3's segments. -/
def fences : Dev := { stored [] with flt := { planned := [3], rows := [(2, { spstate := 1, fcol := 3, restoreEnd := some 5 })], reissueDue := [7, 0x1F9], changed := [0x1F9] } }
theorem witness_Fences :
    Quiet fences ∧ fences.coreOn = true ∧ fences.flt.fencing = [] ∧ 997100 + 3000 ≤ fences.ns
      ∧ (∀ b ∈ [0, 3, 16, 271], (fences.mgmtView b).state ≠ 2) ∧ fences.spareFree 0 = true ∧ 3 ∈ fences.flt.planned
      ∧ (Tab.at fences.flt.rows {} 2).spstate = 1 ∧ (Tab.at fences.flt.rows {} 2).restoreEnd = some 5 ∧ 7 ∈ fences.flt.reissueDue
      ∧ 7 ∉ fences.flt.changed ∧ 0x1F9 ∈ fences.flt.reissueDue ∧ 0x1F9 ∈ fences.flt.changed
      ∧ max (fences.mgmtView 0x1F9).state (fences.ownView 0x1F9).state ≠ 2 := by
  unfold Quiet; decide +kernel

/-- Traffic of basin 0 in quarantine: a read, a write, an atomic, and one of an epoch that has passed. -/
def held1 (write : Bool) (epoch : Nat) (k : Option Atomic) : Quar :=
  { recv := 0x1F8, src := 0, epoch := epoch, domain := 1, addr := 64, len := 8, write := write, bytes := [1, 2], atomic := k, slot := 1000000 }
def quar (write : Bool) (epoch : Nat) (k : Option Atomic) : Dev :=
  { stored [] with basins := [(0, bas 0 [] [] [])],
                   flt := { quar := [held1 write epoch k], check := [(0, 1)] } }
theorem witness_Epochs :
    (∀ p ∈ [(false, 1, none), (true, 1, none), (false, 1, some (Atomic.fadd 5)), (false, 0, none)],
        Quiet (quar p.1 p.2.1 p.2.2) ∧ (quar p.1 p.2.1 p.2.2).flt.quar = [held1 p.1 p.2.1 p.2.2]
          ∧ (quar p.1 p.2.1 p.2.2).epochOk 0 (BitVec.ofNat 32 p.2.1) = (p.2.1 == 1))
      ∧ Reaches (quar false 1 none) 1 64 8 ∧ (quar true 1 none).rsv.owned 1 64 2 = true ∧ Whole64 (quar true 1 none) 64 2
      ∧ ((quar false 0 none).mgmtView 0).state ≠ 2 ∧ ((quar false 0 none).basin 0).seq.active = some act ∧ act.epoch = BitVec.ofNat 32 0
      ∧ (held1 false 0 none).slot = (quar false 0 none).slotStart := by
  unfold Quiet Reaches Whole64; decide +kernel

/-- The second slot of the first frame is due, and after it the first of the next, its runs delivered in the slot before or not. -/
theorem witness_SlotStrobes :
    StrobeDue (stored []) {} table1 1 ∧ (stored []).cad.ahead ≠ some ((stored []).cad.copy, 1) ∧ (stored []).cad.holdUntil ≤ 1010000
      ∧ (let d := { stored [] with cad := { (stored []).cad with slot := 1, ahead := some (0, 2) } }
         StrobeDue d {} table1 2 ∧ d.cad.ahead = some (d.cad.copy, 2)) := by
  unfold StrobeDue; decide +kernel

/-- A swap and a time step that wait; stream 1 has a descriptor queued. -/
def waiting (swap : Option Nat) (st : Option Int) : Dev :=
  { stored [] with cad := { (stored []).cad with swapAt := swap, stepPend := st, table1 := some { table1 with gen := 2, runs := [] } },
                   streams := [(1, { gen := 1, domain := 1, state := 2, descs := [{ seq := 1, arr := some 5 }] })] }
theorem witness_SwapsAndSteps :
    Quiet (waiting (some 1020000) none) ∧ Quiet (waiting none (some (-5))) ∧ (waiting (some 1020000) none).cad.swapAt = some 1020000
      ∧ (waiting (some 1020000) none).cad.copy ≤ 1
      ∧ ((waiting (some 1020000) none).stream 1).state = 2 ∧ (waiting none (some (-5))).cad.stepPend = some (-5)
      ∧ handleOf 1 ((waiting (some 1020000) none).stream 1) ∉ (((waiting (some 1020000) none).cad.table 1).getD {}).handles
      ∧ (waiting none (some (-5))).cad.activeTable = some table1 := by
  unfold Quiet; decide +kernel

/-- Basin 0 has the run delivered, its stream works on a descriptor; in the second device the views of the basin differ; and logical basin
5 is absent. -/
def frame1 : Desc := { seq := 1, len := 128, outmax := 64, outaddr := 0x8000, cookie := 9, arr := some 5 }
def due (st : Nat) : Dev :=
  { stored [] with basins := [(0, { Basin.reset with logical := 0, ustate := st, delivered := [run1] })],
                   streams := [(1, { gen := 1, domain := 1, state := 2, period := some { desc := some frame1 } })] }
theorem witness_RunStart :
    StartDue (due 0) 0 run1 [] ∧ (due 0).works run1 = true ∧ (due 1).mgmtView 0 ≠ (due 1).ownView 0 ∧ (due 1).restoring 0 = false
      ∧ ((due 0).stream (run1.handle / 65536)).gen = run1.handle % 65536
      ∧ (let r := { run1 with lbasin := 5 }
         let d := (due 0).setCad { (due 0).cad with absent := [r] }
         Quiet d ∧ d.cad.absent.filter (fun q => q.lbasin == 5) = [r]) := by
  unfold StartDue Quiet; decide +kernel

/-- A run in progress, and one whose END has issued and whose operations have retired. -/
def running (e : Bool) : Dev :=
  let x := bas 0 [] [] []
  { due 0 with basins := [(0, { x with seq := { x.seq with active := some { act with ended := e, slotCt := 1000000 } }, partials := [part 0] })] }
theorem witness_RunsEnd : ∀ e ∈ [true, false],
    Quiet (running e) ∧ ((running e).basin 0).seq.active = some { act with ended := e, slotCt := 1000000 } ∧ ((running e).basin 0).seq.ops = []
      ∧ (running e).cad.ct ≤ (1000000 + act.fin) * 65536 ∧ handleOf (runIndex run1) ((running e).stream (runIndex run1)) = run1.handle := by
  unfold Quiet; decide +kernel

/-- A replay that ends within the slot, and one that would end 1 ns past it. -/
def replayed (len : Nat) : Run := { run1 with apseg := 0, segs := 0, tend := len }
def replays (len : Nat) : Dev :=
  { due 0 with basins := [(16, { Basin.reset with logical := 5 })],
               flt := { replays := [(5, replayed len)], replayAt := [(5, limTenths 10000)] } }
theorem witness_Replays : ∀ len ∈ [400, 401],
    (replays len).coreOn = true ∧ (replays len).flt.fencing = [] ∧ (replays len).slen = 10000 ∧ ((replays len).basin 16).logical = 5
      ∧ ((replays len).basin 16).seq.active = none
      ∧ (replays len).restoring 16 = false ∧ Tab.at (replays len).flt.replayAt (limTenths 10000) 5 = limTenths (replays len).slen
      ∧ (limTenths 10000 + 2000 + 10 * len ≤ effTenths 10000 ↔ len = 400)
      ∧ (replays len).works (replayed len) = true := by
  decide +kernel

/-! ### Streams and the host -/

/-- Stream 1 of domain 1, in its state `s`; the domain is bound to function 0, slot 1, where `b` says so. -/
def streams (s : Stream) (b : Bool) : Dev :=
  { stored [] with streams := [(1, s)], domains := [(1, { state := 1, bind := if b then some (0, 1) else none })] }
def stream1 : Stream := { gen := 1, domain := 1, state := 2, sqLog := 6, cqLog := 6, cqPhase := 1, slotkb := 1, nib := 2, sqTail := 1 }

/-- A doorbell to the last indices of the rings, and one past them. -/
theorem witness_Doorbells : ∀ n ∈ [63, 64],
    Quiet (streams stream1 true) ∧ (streams stream1 true).doorbellOk 0 1 (2 ^ 48 + 2 ^ 32 + n * 2 ^ 16 + 63) = (n == 63) := by
  unfold Quiet; decide +kernel

/-- A submission entry of a frame of 4 bytes. -/
def entry1 : List Byte := desc [7, 0, 0x40, 0, 4, 64, 0x8000, 0, 0, 0, 9]
theorem witness_Submissions_fetch :
    Quiet (streams stream1 false) ∧ stream1.state = 2 ∧ stream1.role = 0 ∧ stream1.sqHead ≠ stream1.sqTail ∧ stream1.freeIb = some 0 ∧ stream1.standby = false
      ∧ entryBad stream1 entry1 (descOf entry1 stream1.sqHead 0) = false := by
  unfold Quiet; decide +kernel
/-- Its frame is on the way to the last bytes of page 0. -/
def landing : Stream := { stream1 with ibuf := 0x1FF800, descs := [descOf entry1 0 1] }
theorem witness_Submissions_land :
    let at' := landing.ibuf + 1 * landing.slotkb * 1024
    Quiet (streams landing false) ∧ landing.inFlight = some (descOf entry1 0 1) ∧ (descOf entry1 0 1).len = 4 ∧ landing.mirror = 0
      ∧ (streams landing false).rsv.owned 1 at' 4 = true
      ∧ Whole64 (streams landing false) at' 4 ∧ landing.standby = false ∧ ringFull landing = false ∧ ((streams landing false).domain 1).bind = none := by
  unfold Quiet Whole64; decide +kernel

/-- A period of `frame1` that ended, or failed, and whose completion is to be written; with the ring empty, and full. -/
def ended (fail : Nat) : Period := { desc := some frame1, fail := fail, outsize := 64, postCt := some 1000050, deadline := 1000090 }
def posts (fail head : Nat) : Stream := { stream1 with due := [ended fail], cqbase := 0x4000, cqHead := head }
theorem witness_Periods : ∀ head ∈ [0, 1],
    let d := streams (posts 0 head) false
    Quiet d ∧ d.train 1 = none ∧ (d.domain 1).bind = none ∧ (posts 0 head).role = 0 ∧ (posts 0 head).mirror = 0
      ∧ (posts 0 head).due.find? (fun q => q.fail == 0) = some (ended 0)
      ∧ (posts 0x300 head).period = none ∧ (posts 0x300 head).due.find? (fun q => q.fail != 0) = some (ended 0x300)
      ∧ ringFull (posts 0 head) = (head == 1) ∧ ((ended 0).out frame1).1 = 64 ∧ Reaches d 1 (posts 0 head).obuf 64
      ∧ (posts 0 head).cqbase + 32 ≤ frame1.outaddr := by
  unfold Quiet Reaches; decide +kernel

/-- Functions 0 and 1, with a request of function 0 whose turn it is. -/
def hosts : Dev :=
  { up with funcs := [(0, { enable := true, reqtail := 1, rspvecEn := true, rspvec := 3, unmasked := [3], rspbase := 0x1000 })],
            domains := [(0, { state := 1, bind := some (0, 0) }), (1, { state := 1, bind := some (0, 1) })],
            hw := { funcmap := [(0, 0), (1, 1)] }, rsv := { pages := [(0, page 0)] } }
/-- A request slot: opcode and tag, domain, and no payload. -/
def slotOf (opcode dom : Nat) : List Byte := desc [opcode, dom]
theorem witness_Requests :
    TurnOf hosts 0 { reqOf 0 (slotOf 0x101 0) hosts.ns with pair := hosts.fh.corePair } ∧ permOf 0x101 = some .operator
      ∧ TurnOf hosts 0 { reqOf 0 (slotOf 0x101 1) hosts.ns with pair := hosts.fh.corePair }
      ∧ (reqOf 0 (slotOf 0x101 1) hosts.ns).domain = 1 ∧ hosts.boundTo 5 0 = false ∧ (reqOf 0 (slotOf 0x101 5) hosts.ns).domain = 5
      ∧ (hosts.func 0).rspvec ∈ (hosts.func 0).unmasked := by
  unfold TurnOf; decide +kernel

theorem witness_Mailbox : Quiet hosts ∧ (hosts.func 255).inReset = false ∧ (hosts.func 0).enable = true ∧ (hosts.func 1).enable = false := by
  unfold Quiet; decide +kernel

/-- Offset 0 of function 0, whose quarter 0 has domain 0; function 1 has no domain; windows on pages 0 and 1 of which domain 0 owns the
first, and at the end of the address space. -/
def window (base : Nat) : Dev := hosts.putDomain 0 { state := 1, bind := some (0, 0), wbase := base }
theorem witness_Bar2 :
    Quiet hosts ∧ (hosts.func 0).inReset = false ∧ hosts.slotDomain 0 0 = some 0 ∧ hosts.slotDomain 1 0 = none
      ∧ hosts.epochOk 0x1F0 (hosts.ownView 0x1F0).epoch = true ∧ Reaches hosts 0 0 4096 ∧ Whole64 hosts 0 4096
      ∧ (∀ a ∈ [0x1FF800, 0x600000, 0x7FFFFFFFF0], Quiet (window a) ∧ ((window a).func 0).inReset = false ∧ (window a).slotDomain 0 0 = some 0
          ∧ (window a).epochOk 0x1F0 ((window a).ownView 0x1F0).epoch = true ∧ ((window a).domain 0).wbase = a
          ∧ (window a).rsv.owned 0 a 4096 = false ∧ (window a).rsv.poisoned a 4096 = false) := by
  unfold Quiet Reaches Whole64; decide +kernel
theorem witness_Bar2_offset : (0 : Nat) < 4 * 2 ^ (barLog 0 - 2) ∧ 0 / 2 ^ (barLog 0 - 2) = 0 ∧ 0 % 2 ^ (barLog 0 - 2) = 0 :=
  ⟨Nat.mul_pos (by decide) (Nat.pow_pos (by decide)), Nat.zero_div _, Nat.zero_mod _⟩

/-- Both cores run, one request is in progress, and the link runs at speed 6 by 16. -/
def cores : Dev := { stored [] with fh := { corePair := 3, inprog := [{ opcode := 0x100 }] }, hw := { speed := 6, width := 16 } }
theorem witness_HostErrors :
    Quiet cores ∧ cores.fwOn = true ∧ cores.fh.corePair = 3 ∧ cores.fh.failed = 0 ∧ cores.fh.inprog = [{ opcode := 0x100 }] ∧ (cores.func 0).inReset = false
      ∧ linkRate cores.hw.speed cores.hw.width ≤ linkRate 6 16 ∧ linkRate 6 8 < linkRate cores.hw.speed cores.hw.width
      ∧ cores.cad.active = true ∧ ((cores.putFunc 255 { inReset := true }).func 255).inReset = true := by
  unfold Quiet; decide +kernel

/-! ### Time -/

/-- PPS_IN about to lock, 19 ns and a fraction away from its label; locked; and lost. -/
def pps (st : Nat) : Dev :=
  { up with md := { refok := true },
            cad := { ct := 65536000000000 - 20 * 65536 + 1, label := some 1, dev := if st = 2 then 1 else 0, sel := if st = 2 then 1 else 0,
                     pps := { state := st, spaced := 3, good := 7, last := some 7 }, ptm := { state := st % 2, good := 15, last := some 65515999999999 },
                     rill := { state := st % 2, last := some 7 }, holdStart := some 7 } }
theorem witness_TimeSources : ∀ st ∈ [0, 1, 2, 3],
    (pps st).timeOn = true ∧ (pps st).ptmOn = true ∧ (pps st).cad.pps.state = st ∧ (pps st).md.refok = true ∧ (pps st).cad.pps.spaced = 3
      ∧ (pps st).cad.pps.good = 7 ∧ (pps st).cad.ptm.state ≠ 2 ∧ (pps st).cad.label = some 1 ∧ -(20 * tNs) < tSec - (pps st).cad.ct
      ∧ tSec - (pps st).cad.ct < 20 * tNs ∧ (st = 2 → (pps st).cad.dev = 1) ∧ (pps st).cad.holdReported = false
      ∧ (st % 2 = 1 → (pps st).cad.ptm.state = 1 ∧ (pps st).cad.ptm.good = 15)
      ∧ (pps st).cad.pps.last = some 7 ∧ (pps st).cad.ct < 65515999999999 + 20000000 * 65536 := by decide +kernel

/-- Port 0 is UP; the module gives time there, or takes it from there with an exchange begun. -/
def timing (give ok : Bool) : Dev :=
  { up with ports := [(0, { state := 3 })],
            cad := { ct := 65536000000, dev := bit01 give, sel := bit01 give, rill := { state := 1, good := 63, last := some 65535000000 } },
            link := { fwd := 1, master := give, srcen := !give, t1 := some 0, t2 := some 65536, t3 := some 131072, masterOk := ok } }
theorem witness_RillTime : Good (timing true true) {} ∧ bitOf (timing true true).link.fwd 0 = true ∧ (timing true true).givesTime = true
    ∧ ((timing true true).port 0).txctr.toNat < 2 ^ 62 - 1 ∧ ∀ ok ∈ [true, false], Good (timing false ok) {} ∧ (timing false ok).slaveOn 0 = true
      ∧ (timing false ok).link.masterOk = ok ∧ (timing false ok).link.t1 = some 0 ∧ (timing false ok).cad.rill.state = 1
      ∧ (timing false ok).cad.rill.good = 63 ∧ (timing false ok).cad.ct < 65535000000 + 2000000 * 65536
      ∧ (let off : Int := ((65536 - 0) - (((196608 / 16384 * 16384 : Nat) : Int) - 131072) - signedOf 16 ((timing false ok).port 0).asym * 65536) / 2;
         -(50 * tNs) < off ∧ off < 50 * tNs) := by
  unfold Good InOrder Quiet; decide +kernel

/-! ### The rill -/

/-- A device whose port 0 is `x`. -/
def linked (x : Port) : Dev := { up with ports := [(0, x)], trains := [(1, { rtag := 5 })] }
theorem witness_RillPorts : ∀ n ∈ [0, 1, 2, 3, 4], Quiet (linked { state := n, enable := true })
    ∧ ((linked { state := n, enable := true }).port 0).state = n ∧ ((linked { state := n, enable := true }).port 0).enable = true
    ∧ ((linked { state := n, enable := true }).port 0).variant < 2 ∧ (linked { state := n }).trains ≠ [] ∧ up.trains = [] := by
  unfold Quiet; decide +kernel

/-- A module whose key is in place: PROVISIONED, with a configuration set. -/
def keyed : Boot := { ready := true, fuses := Mem.writeBytes [] 0 (List.replicate 8 0xFF), sets := [{ valid := true }, {}] }
def signing (x : Port) : Dev := { linked x with boot := keyed }

/-- A port in KEYX, whose partner's HELLO is here; and one that is UP with CTR at the rekey threshold, at the last value, and past it. -/
theorem witness_Keys_exchange : keyed.keyReady = true ∧ Quiet (signing { state := 2, hello := some (1, 2, 3) })
    ∧ (signing { state := 2, hello := some (1, 2, 3) }).peerAllowed 0 1 = true ∧ Quiet (signing { state := 2, peerpol := true })
    ∧ (signing { state := 2, peerpol := true }).peerAllowed 0 1 = false ∧ ((signing { state := 2, hello := some (1, 2, 3) }).port 0).queue = [] := by
  unfold Quiet; decide +kernel
theorem witness_Keys_threshold : ∀ c ∈ [2 ^ 48, 2 ^ 62 - 1, 2 ^ 62],
    let d := signing { state := 3, txctr := BitVec.ofNat 64 c, initiator := c == 2 ^ 48 }
    Quiet d ∧ (d.port 0).state = 3 ∧ (d.port 0).txctr.toNat = c ∧ (d.port 0).rekeypend = false ∧ ((d.port 0).initiator = true ↔ c = 2 ^ 48) := by
  unfold Quiet; decide +kernel
/-- A rekey arrives where none has been asked for, where the partner's identity is the lower, and where it is the higher. -/
def rekeying (peer : Nat) : Port := { state := 3, initiator := true, peerid := peer }
theorem witness_Keys_rekey : Good (signing { state := 3 }) { frame := { type := 5, seq := 1 } } ∧ ((signing { state := 3 }).port 0).initiator = false := by
  unfold Good InOrder Quiet; decide +kernel
theorem witness_Keys_crossed (peer : Nat) : Good (signing (rekeying peer)) { frame := { type := 5, seq := 1 } }
    ∧ ((signing (rekeying peer)).port 0).rxseq = 1 ∧ ((signing (rekeying peer)).port 0).peerid = peer :=
  ⟨⟨⟨⟨rfl, rfl⟩, by decide, rfl, rfl, rfl, (by decide : (0 : W64).toNat < 2 ^ 62), rfl, rfl, rfl, by decide⟩, rfl, rfl⟩, rfl, rfl⟩
theorem witness_Keys_order : Config.identity ≤ Config.identity ∧ Config.identity < Config.identity + 1 := ⟨Nat.le_refl _, Nat.lt_succ_self _⟩

/-- A frame of a known stream, in order; ahead; already received; and of no stream. -/
theorem witness_Frames : ∀ p ∈ [(1, 5), (2, 5), (0, 5), (1, 6)],
    let d := linked { state := 3 }
    let f : Frame := { type := 1, seq := p.1, rtag := p.2 }
    InOrder d 0 f ∧ d.trains.any (fun t => t.2.rtag == p.2) = (p.2 == 5) ∧ (d.port 0).rxseq = 1 ∧ (d.port 0).fails = [] := by
  unfold InOrder Quiet; decide +kernel

/-- A frame resent seven times, and eight; and a port that wakes its partner, with the first burst and the ninety-ninth to send. -/
theorem witness_SilentPartners : ∀ n ∈ [(7, 0), (8, 98)],
    let f : Frame := { type := 1, seq := 4, resent := n.1 }
    ((linked { state := 3, replay := [f] }).port 0).replay = [f] ∧ f.type ≠ 4
      ∧ Quiet (linked { state := 3, replay := [f] }) ∧ Quiet (linked { wakesend := true, wakeAsk := true, bursts := n.2 })
      ∧ ((linked { wakesend := true, wakeAsk := true, bursts := n.2 }).port 0).bursts < 99 := by
  unfold Quiet; decide +kernel

/-! ### Requests -/

/-- A device that serves requests: domains 0, 1 (bound to slot 1 of function 0), 2 (not bound) and 3 (being destroyed, with page 4), stream
1 of domain 1, and a function installed in the runnels. -/
def fn5 : RunnelFn := { entry := 0x500, base := 0x500, words := [0x1000000000000000] }
def svc : Dev :=
  { stored [] with
    domains := [(0, { state := 1, bind := some (0, 0) }),
                (1, { state := 1, maxStreams := 2, maxPages := 3, maxModels := 1, maxBudget := 5, bind := some (0, 1) }),
                (2, { state := 1, maxStreams := 1, maxPages := 9, maxModels := 1 }), (3, { state := 2 })],
    streams := [(1, { stream1 with state := 1 }), (2, { gen := 5, state := 4 })],
    hw := { funcmap := [(0, 0), (1, 1)], speed := 6, width := 16 },
    boot := keyed, ports := [(0, { state := 3 })], lib := { libver := 1, fns := [(0x500, fn5)] },
    rsv := { pages := [(0, page 1), (1, page 1), (2, page 2), (3, page 0), (4, page 3)] } }

/-- A request of function 0, and the device that has it in progress. -/
def req (op dom : Nat) (args : List Nat) (pay : List Byte) : Req :=
  { opcode := op, domain := dom, args := args.map (BitVec.ofNat 32), payload := pay }
def served (d : Dev) (r : Req) : Dev := d.setFh { d.fh with inprog := [r] }

/-- The oldest request in progress is being served, on any device that serves requests and has no other in progress. -/
theorem witness_Serving (r : Req) (h : r.func = 0) : Serving (served svc r) 0 r.opcode r svc := ⟨rfl, rfl, h, rfl, [], rfl, rfl⟩

theorem witness_DeviceCommands :
    (let r := req 0x101 0 [32768] []; r.arg 0 % 4096 = 0 ∧ r.arg 0 < 35728)
    ∧ (let r := req 0x102 0 [64] (List.replicate 3072 1); r.arg 0 ≤ 64 ∧ 48 * r.arg 0 ≤ r.payload.length)
    ∧ (let r := req 0x103 0 [0] []; (svc.port (r.arg 0)).state = 3 ∧ (svc.port (r.arg 0)).rekeypend = false ∧ (svc.port (r.arg 0)).txctr.toNat < 2 ^ 62 ∧ svc.boot.keyReady = true)
    ∧ (let r := req 0x104 0 [2, 255, 3, 1] []; bitOf (r.arg 3) 0 = true ∧ (svc.domain (r.arg 0)).state = 1 ∧ (svc.domain (r.arg 0)).bind = none
        ∧ svc.slotDomain (r.arg 1) (r.arg 2) = none)
    ∧ (let r := req 0x104 0 [4, 0, 2, 0] []; let w := svc.putDomain 4 { state := 1, bind := some (0, 2) }
       bitOf (r.arg 3) 0 = false ∧ (w.domain (r.arg 0)).bind = some (r.arg 1, r.arg 2) ∧ w.streamsOf (r.arg 0) = 0)
    ∧ (let r := req 0x105 1 [0xFFE00000, 0x7F] []; r.arg64 0 % 0x200000 = 0 ∧ r.arg64 0 < 2 ^ 39)
    ∧ (req 0x105 1 [1, 0] []).arg64 0 % 0x200000 ≠ 0 ∧ svc.boot.sets.length = 2
    ∧ (∀ p ∈ [(1, 8), (1, 0x77), (2, 63), (3, 300), (3, 1100), (4, 400), (4, 2000), (5, 0)],
        let r := req 0x106 0 [p.1, p.2] []; r.arg 0 = p.1 ∧ r.arg 1 = p.2)
    ∧ (req 0x107 0 [1] []).arg 0 ≤ 1 ∧ (svc.setFh { svc.fh with resetAt := some (2000000, true) }).fh.resetAt = some (2000000, true) := by
  decide +kernel

theorem witness_DomainCommands :
    (let r := req 0x200 0 [1023, 65536, 195584, 256, 1000] []; LimitsOk r ∧ (svc.domain (r.arg 0)).state = 0)
    ∧ (req 0x200 0 [1024] []).arg 0 = 1024
    ∧ (svc.domain 2).state = 1 ∧ svc.streamsOf 2 = 0 ∧ svc.modelsOf 2 = 0 ∧ (svc.domain 1).state = 1 ∧ 0 < svc.streamsOf 1 ∧ (svc.domain 0).state ≠ 0
    ∧ (svc.domain 3).state = 2 ∧ svc.scrubbed 3 = true
    ∧ (let r := req 0x203 0 [1, 1, 2, 0, 0] []; LimitsOk r ∧ svc.streamsOf 1 ≤ r.arg 1 ∧ (svc.ownPages 1).length ≤ r.arg 2 ∧ svc.modelsOf 1 ≤ r.arg 3)
    ∧ (let r := req 0x203 0 [1, 1, 1, 0, 0] []; LimitsOk r ∧ r.arg 2 < (svc.ownPages 1).length)
    ∧ (let r := req 0x205 1 [1, 1] (leBytes 4 1); (pageAt svc 1).valid = true ∧ (pageAt svc 1).owner = r.arg 0 ∧ 1 ∉ svc.pagesInUse)
    ∧ (pageAt svc 0).owner = 1 ∧ 0 ∈ (svc.putStream 1 { stream1 with state := 1, ibuf := 0 }).pagesInUse := by
  unfold LimitsOk; decide +kernel

/-- The first and the last free page named, and any one page asked for. -/
theorem witness_PageAssign :
    (let r := req 0x204 0 [2, 2] (leBytes 4 5 ++ leBytes 4 195583)
     (svc.ownPages 2).length + r.arg 1 ≤ (svc.domain 2).maxPages ∧ [5, 195583].Nodup ∧ (∀ p ∈ [5, 195583], svc.pageFree p = true)
       ∧ 4 * 2 ≤ r.payload.length ∧ ∀ i, i < 2 → ([5, 195583] : List Nat)[i]? = some (leNat ((r.payload.drop (4 * i)).take 4)))
    ∧ (req 0x204 0 [2, 1] []).payload = [] := by decide +kernel
theorem witness_PageAssign_any : 1 ≤ ((List.range 195584).filter (fun p => svc.pageFree p)).length :=
  List.length_pos_of_mem (List.mem_filter.2 ⟨List.mem_range.2 (by decide : 5 < 195584), by decide +kernel⟩)

/-- A model of one segment of logical basin 0, which is free, or held by a model that is loaded and named by a plan. -/
def model0 : Model := { domain := 2, segs := [{ lbasin := 0, seg := 0, addr := 0x400000 }], digest := 5 }
def loaded : Dev :=
  { svc with models := [(0, { model0 with domain := 1 })], plans := [{ index := 1, domain := 1 }] }
theorem witness_ModelCommands :
    (let r := req 0x300 0 [0x400000, 0, 64] []; Reaches svc 2 (r.arg64 0) (r.arg 2) ∧ svc.modelsOf 2 < (svc.domain 2).maxModels)
    ∧ loaded.modelFits model0 = false ∧ loaded.modelNamed 0 = true ∧ Tab.find? loaded.models 0 = some { model0 with domain := 1 }
    ∧ (loaded.setModels [(1, { model0 with domain := 1 })]).modelNamed 1 = false := by
  unfold Reaches; decide +kernel
theorem witness_ModelFits : (svc.setCad {}).modelFits model0 = true ∧ Tab.find? (svc.setCad {}).models 0 = none := by decide +kernel

/-- An image of a DONE alone at 0x600, and the function installed at 0x500, named by no plan and by a plan that the table runs. -/
def fn6 : RunnelFn := { entry := 0x600, base := 0x600, words := [0x1000000000000000] }
def naming : Dev := { svc with plans := [{ index := 1, domain := 1, steps := [{ entries := [0x500] }] }] }
theorem witness_RunnelCommands :
    Reaches svc 0 0x600000 64 ∧ fn6.placed = true ∧ (∀ u ∈ fn6.words.map BitVec.toNat, mopAllowed fn6.base fn6.words.length (BitVec.ofNat 64 u) = true)
      ∧ svc.entryNamed 0x600 = false ∧ svc.fnOverlaps fn6 = false ∧ svc.entryNamed 0x500 = false ∧ naming.entryNamed 0x500 = true
      ∧ Tab.find? svc.lib.fns 0x500 = some fn5 := by
  unfold Reaches; decide +kernel
def imageDue : Dev := { svc with lib := { libver := 1, queued := [(0x600, { fn6 with boundary := 1020000 }), (0x700, { fn6 with boundary := 1040000 })] } }
theorem witness_RunnelImage :
    Quiet imageDue ∧ (0x600, { fn6 with boundary := 1020000 }) ∈ imageDue.lib.queued ∧ (imageDue.lib.queued.map Prod.fst).Nodup
      ∧ ∀ p ∈ imageDue.lib.queued, 1020000 ≤ p.2.boundary := by
  unfold Quiet; decide +kernel

/-! ### Streams, plans and tables -/

/-- A stream's table words from 0x04 on: domain 1, KIND `kind`, rings of 8 and 4,096 entries, one ingress slot of 1 KiB, and shares `sh`. -/
def streamBytes (sh : Nat) (kind : Nat := 0) : List Byte := ([1 + 2 ^ 17 * kind, 0, 0, 0, 0, 3, 0, 0, 0, 12, 0, 0, 0, 2 ^ 24 + 1, sh, 0, 0, sh, 100]).flatMap (leBytes 4)
def sidle : Stream := { stream1 with state := 1 }
theorem witness_StreamCommands :
    (let t := streamOfBytes (streamBytes 1)
     76 ≤ (streamBytes 1).length ∧ t.domain = 1 ∧ svc.streamFits t = true ∧ svc.streamsOf 1 < (svc.domain 1).maxStreams ∧ (svc.stream 0).state = 0 ∧ t.kind ≠ 2)
    ∧ (let t := streamOfBytes (streamBytes 1 2); svc.streamFits t = true ∧ t.kind = 2 ∧ sidle.kind ≠ 2)
    ∧ (svc.putStream 3 sidle).streamsOf 1 = (svc.domain 1).maxStreams ∧ (streamOfBytes (streamBytes 0)).ishare = 0
    ∧ Names svc (req 0x401 1 [0x10001] []) 1 sidle
    ∧ Names (svc.putStream 1 { sidle with gen := 0xFFFF }) (req 0x401 0 [0x1FFFF] []) 1 { sidle with gen := 0xFFFF }
    ∧ Names (svc.putStream 1 stream1) (req 0x401 0 [0x10001] []) 1 stream1 ∧ (svc.stream 2).state = 4 ∧ sidle.gen ≠ (req 0x403 0 [0x10002] []).arg 0 % 65536
    ∧ (let r := req 0x405 1 [0x10001, 0x1FFFC0, 0, 9, 0, 0x3F, 5, 6] []
       r.arg64 1 % 64 = 0 ∧ svc.rsv.owned 1 (r.arg64 1) 64 = true ∧ r.arg64 3 ≠ 0 ∧ signedOf 8 (r.arg 5) = 63) := by
  unfold Names; decide +kernel

/-- A plan for stream 1; the table that is active names its planno 0. -/
def plan0 : Plan := { index := 1, domain := 1, digest := 7 }
theorem witness_SlotPlan : ∀ p ∈ [(0, 0), (1, 0), (1, 1)],
    let r := req 0x500 1 [0x10001, 0, 0, 64, p.1] []
    let img := { plan0 with planno := 1 - p.2 }
    let w := { svc with plans := [{ plan0 with planno := 0 }, { plan0 with planno := 1 }] }
    Names w r 1 sidle ∧ r.arg 4 = p.1 ∧ Reaches w 1 (r.arg64 1) (r.arg 3) ∧ w.train 1 = none ∧ w.planNamed img = (p.2 == 1)
      ∧ (w.plan 1 img.planno).isSome = true := by
  unfold Names Reaches; decide +kernel

/-- An image with a run of stream 1 whose plan is registered, and one whose plan is not. -/
def image (slen : Nat) : Table := { slen := slen, nslot := 2, floor := 400, runs := [(0, [run1])] }
def planned : Dev := { svc with plans := [{ plan0 with steps := [{}] }], domains := svc.domains.take 3 }
theorem witness_SlotLoad :
    (planned.setCad { planned.cad with swapAt := some 5 }).cad.swapAt.isSome = true ∧ planned.cad.swapAt = none ∧ Reaches planned 0 0x600000 64
      ∧ planned.imageFault (image 50000) = (0, 0) ∧ (svc.imageFault (image 50000)).1 ≠ 0 ∧ (planned.imageFault (image 49000)).1 ≠ 0 := by
  unfold Reaches; decide +kernel
theorem witness_SlotLoad_domains (n : Nat) : (planned.domain n).state ≠ 2 := by
  by_cases h : n ≤ 2
  · have : ∀ k ≤ 2, (planned.domain k).state ≠ 2 := by decide +kernel
    exact this n h
  · have hn : ¬ (0 = n) ∧ ¬ (1 = n) ∧ ¬ (2 = n) := by omega
    simp [planned, svc, Dev.domain, Tab.at, Tab.find?, hn]

/-- A device whose shadow holds a table that starts at `start`: another table is active, or none is, and it is `s` seconds later. -/
def shadow (on : Bool) (start s : Nat) (runs : Tab (List Run)) : Dev :=
  { svc with cad := { svc.cad with active := on, ct := svc.cad.ct + s * 65536000000000,
                                   table1 := some { slen := 10000, nslot := 2, fstart := start, floor := 800, runs := runs } } }
theorem witness_SlotCommit :
    svc.cad.table svc.cad.shadow = none ∧ (shadow true 0 0 [(0, [run1])]).admission { slen := 10000, nslot := 2, floor := 800, runs := [(0, [run1])] } ≠ none
      ∧ (∀ p ∈ [(true, 0, 0), (true, 1040000, 0), (true, 7, 0), (false, 0, 0), (false, 1000000000, 0), (false, 1000000000, 1), (false, 7, 0)],
          let d := shadow p.1 p.2.1 p.2.2 []
          ∃ t ∈ d.cad.table d.cad.shadow, d.admission t = none ∧ d.notInstalled t = false ∧ t.fstart = p.2.1 ∧ d.cad.swapAt = none ∧ d.pow.state ≠ 1)
      ∧ (shadow true 0 0 []).cad.activeTable = some table1 ∧ table1.fstart ≤ (shadow true 0 0 []).ns
      ∧ (shadow false 0 0 []).ns + 20000 ≤ 1000000000 ∧ 1000000000 < (shadow false 0 1 []).ns + 20000 := by
  decide +kernel
theorem witness_SlotCancel : ∀ t ∈ [1020100, 1020101],
    let w := svc.setCad { svc.cad with swapAt := some t }
    w.cad.swapAt = some t ∧ w.cad.activeTable = some table1 ∧ (w.ns + 2 * table1.slen < t ↔ t = 1020101) := by decide +kernel
theorem witness_SlotQuery :
    svc.cad.table ((req 0x504 0 [0, 1] []).arg 0) = some table1 ∧ (req 0x504 0 [0, 1] []).arg 1 < table1.nslot
      ∧ (∀ x ∈ Tab.at table1.runs [] 1, x.entry.isSome = true) ∧ Tab.at table1.runs [] 1 = [run1] := by decide +kernel

/-! ### The pair -/

/-- A module of a pair, with stream 1 and its mirror link. -/
def paired (s : Stream) (p : Pair) (q : Port) : Dev :=
  { svc with streams := [(1, s)], ports := [(4, q)], pair := p,
             plans := [{ plan0 with statePages := [3], pages := [0, 3] }] }
def mirrored (mode role : Nat) : Stream := { stream1 with mirror := mode, role := role, mshare := 100, ibuf := 0, obuf := 0x1000, twin := 0x10001 }
def twinId : List Byte := List.replicate 47 0 ++ [9]

theorem witness_PairAttach :
    48 ≤ (req 0x600 0 [] twinId).payload.length ∧ (paired stream1 {} {}).pair.state = 0 ∧ ((paired stream1 {} {}).port 4).state = 0
      ∧ ((paired stream1 {} {}).port 4).variant < 2 ∧ ((paired stream1 {} { state := 3 }).port 4).state = 3
      ∧ ((paired stream1 {} { state := 3 }).port 4).peerid ≠ beNat twinId ∧ (paired stream1 { state := 2 } {}).pair.state ≠ 0 := by decide +kernel
theorem witness_PairDetach : ∀ b ∈ [true, false], ∀ own ∈ [true, false],
    let d := paired (mirrored 2 1) { state := 2, detachAt := some 1020000, twinDetached := b, detached := own } { state := if b then 0 else 3, credits := [1, 0, 0, 0] }
    Quiet d ∧ d.pair.detachAt = some 1020000 ∧ (b = true → (d.port 4).state ≠ 3) ∧ (b = false → Sendable d 4) ∧ d.pair.twinDetached = b
      ∧ d.pair.detached = own ∧ (d.stream 1).mirror ≠ 0 ∧ d.pair.state ≠ 0 := by
  unfold Quiet Sendable; decide +kernel
/-- Shares that come to the limit, and one above it; hot and warm; and a mode without a share. -/
theorem witness_PairMirror : ∀ p ∈ [(0, 0, 0), (1, 0, 2), (1, 194900, 2), (1, 194901, 255), (2, 1, 0)],
    let r := req 0x602 1 [0x10001, 0x10001, p.1, p.2.1, p.2.2, 0, 0] []
    let d := (paired (mirrored 0 0) { state := 2 } {}).putStream 2 { mirrored 1 0 with domain := 2 }
    d.pair.state = 2 ∧ Names d r 1 (mirrored 0 0) ∧ r.arg 2 = p.1 ∧ r.arg 3 = p.2.1 ∧ r.arg 4 = p.2.2 ∧ d.shareSum 1 = 100
      ∧ d.twinMap (r.arg 0) (r.arg 1) = none := by
  unfold Names; decide +kernel
/-- The twin's MAP is here, with this module's digest or with another. -/
def mapped (n : Nat) : Dev := paired (mirrored 2 1) { state := 2, maps := [{ own := 0x10001, other := 0x10001, mode := 2, digest := n }] } {}
def hotReq : Req := req 0x602 1 [0x10001, 0x10001, 2, 1, 0, 0, 0] []
theorem witness_PairMirror_map (n : Nat) : (mapped n).pair.state = 2 ∧ Names (mapped n) hotReq 1 (mirrored 2 1) ∧ (mapped n).shareSum 1 = 0
    ∧ ∃ m, (mapped n).twinMap (hotReq.arg 0) (hotReq.arg 1) = some m ∧ m.digest = n :=
  ⟨rfl, ⟨by decide, rfl, by decide, by decide, by decide, Or.inr rfl⟩, rfl, _, rfl, rfl⟩
/-- Both sides of the comparison occur: the digest itself, and its successor, by which no role's digest is met. -/
theorem witness_PairMirror_digests (n : Nat) : ((mapped n).plandigOf 0x10001 0).toNat = ((mapped 0).plandigOf 0x10001 0).toNat
    ∧ ((mapped n).plandigOf 0x10001 0).toNat + 1 ≠ ((mapped n).plandigOf 0x10001 0).toNat := ⟨rfl, Nat.succ_ne_self _⟩
theorem witness_PairRole : ∀ mode ∈ [1, 2],
    let d := paired (mirrored mode 1) { state := 2, roles := [(1, 0, 1020000)] } {}
    Quiet d ∧ d.pair.state = 2 ∧ Names d (req 0x603 0 [0x10001, 0, 0, 0] []) 1 (mirrored mode 1) ∧ d.stream 1 = mirrored mode 1
      ∧ d.pair.roles.find? (fun e => e.1 == 1) = some (1, 0, 1020000) ∧ Names d (req 0x604 0 [0x10001] []) 1 (mirrored mode 1)
      ∧ (req 0x604 0 [0x10001] []).arg 0 ≠ 0xFFFFFFFF := by
  unfold Quiet Names; decide +kernel

/-- JOINs of the twin: of this firmware without a table and with this module's, of another version, of a table with other slots, and of one
with other boundaries; and the module before its own first table. -/
theorem witness_Join : ∀ on ∈ [true, false],
    let x := paired stream1 { state := 1 } { state := 3 }
    let d := x.setCad { x.cad with active := on }
    Quiet d ∧ d.pair.state = 1 ∧ (d.port 4).state = 3 ∧ d.cad.activeTable = (if on then some table1 else none) ∧ d.fh.fwversion.toNat / 2 ^ 24 = 0
      ∧ table1.slen = 10000 ∧ table1.nslot = 2 ∧ table1.fstart % 20000 = 0 ∧ (2 ^ 24 : Nat) / 2 ^ 24 ≠ 0 := by
  unfold Quiet; decide +kernel
/-- Heartbeats whose times give a skew of 1,001 ns and of 800 ns. -/
theorem witness_Heartbeats : ∀ p ∈ [(2103, 1001), (1701, 800)],
    let d := paired (mirrored 2 1) { state := 2 } {}
    let m : Heartbeat := { sent := 1000000, lastSent := 1, lastArr := p.1 }
    Quiet d ∧ d.pair.state ≠ 0 ∧ m.lastSent ≠ 0 ∧ (d.stream 1).mirror ≠ 0 ∧ d.pair.skewhi = false
      ∧ -(Int.tdiv (((d.ns : Int) - m.sent) - ((m.lastArr : Int) - m.lastSent) - signedOf 16 (d.port 4).asym) 2) = p.2 := by
  unfold Quiet; decide +kernel
theorem witness_HeartbeatCheck : ∀ p ∈ [(1000000, 0), (990000, 0), (990000, 1)],
    let d := paired (mirrored 2 1) { state := 2, hbSlot := p.1, hbmiss := p.2 } {}
    Quiet d ∧ d.pair.state = 2 ∧ d.cad.active = true ∧ d.cad.strobed = true ∧ d.pair.hbDone = false ∧ d.slen = 10000 ∧ d.slotStart = 1000000
      ∧ d.pair.hbmiss = p.2 ∧ (d.stream 1).standby = true := by
  unfold Quiet; decide +kernel
/-- A standby stream of mode `mode`, which changes to mode `nmode` where that is not 0, with a digest of its own for tag 5, a period whose
output is due, and messages that wait. -/
def standing (mode nmode : Nat) : Stream :=
  { mirrored mode 1 with nmode := nmode, nrole := 1, myDigests := [(5, 7)], due := [ended 0], postTags := [0], coverTags := [4], plandig := 1 }
theorem witness_PairMessages : ∀ mode ∈ [1, 2], ∀ nmode ∈ [0, 2],
    let s := standing mode nmode
    let d := paired s { state := 2, mirrors := [(1, 1020000)] } { state := 3 }
    Quiet d ∧ d.stream 1 = s ∧ d.streamOf 0x10001 = some (1, s) ∧ s.mirror = mode ∧ s.nmode = nmode ∧ s.nextRole = 1
      ∧ Tab.find? s.myDigests 6 = none ∧ Tab.find? s.myDigests 5 = some 7 ∧ s.twin = 0x10001 ∧ s.plandig.toNat = 1 ∧ s.role = 1
      ∧ d.pair.ends.find? (fun e => e.1 == 1) = none ∧ d.pair.mirrors.find? (fun e => e.1 == 1) = some (1, 1020000)
      ∧ s.due.find? (fun q => q.fail == 0) = some (ended 0) ∧ (ended 0).desc = some frame1
      ∧ Tab.find? s.twinDigests (ended 0).tag = none ∧ Reaches d 1 s.obuf ((ended 0).out frame1).1
      ∧ (ended 0).tag ∈ s.postTags ∧ (ended 0).tag ∉ ({ s with postTags := [] } : Stream).postTags := by
  unfold Quiet Reaches; decide +kernel
/-- The twin's detach finds no detach here, one whose boundary is to come, and one whose boundary has passed. -/
theorem witness_PairMessages_detach : ∀ x ∈ [(false, none), (true, some 1020000), (true, none)],
    let d := paired (mirrored 2 1) { state := 2, detached := x.1, detachAt := x.2 } {}
    Quiet d ∧ d.pair.state ≠ 0 ∧ d.pair.detached = x.1 ∧ d.pair.detachAt = x.2 := by
  unfold Quiet; decide +kernel
theorem witness_MirrorEnds :
    (paired (mirrored 2 1) { state := 2, ends := [(1, 5)] } {}).pair.ends.find? (fun e => e.1 == 1) = some (1, 5) := by decide +kernel
/-- A forwarded record of a frame of 4 bytes, and deltas of two bytes in the pages of the plan's state: of a period that the standby ran, and of
another. -/
theorem witness_Records :
    let s : Stream := { mirrored 1 1 with coverTags := [4] }
    let d := paired s { state := 2 } {}
    Quiet d ∧ s.standby = true ∧ d.pair.state = 2 ∧ s.state = 2 ∧ s.freeIb = some 0 ∧ (descOf entry1 0 0).len = 4 ∧ 4 ≤ s.slotkb * 1024
      ∧ d.rsv.owned s.domain (s.ibuf + 0) 4 = true ∧ Whole64 d s.ibuf 4 ∧ s.mirror = 1 ∧ s.period = none ∧ 4 ∈ s.coverTags ∧ 5 ∉ s.coverTags
      ∧ (d.plan 1 s.planno).any (fun pl => (pagesOf 0x600000 2).all (fun k => pl.statePages.contains k)) = true := by
  unfold Quiet Whole64; decide +kernel

/-! ### Training -/

/-- A bucket of 4 MiB at 0, its record, and a context of rank `k` of `n` for stream 1. -/
def bucket0 : Bucket := { addr := 0, bytes := 4096, xstart := 1000 }
def context (k n : Nat) (b : Bucket) : Train :=
  { tstate := 1, rank := k, nrank := n, kfrac := 1, buckets := [b], rtag := 5, residualZero := false, startCt := 1000000, optoff := 1000, period := 8,
    ckEvery := 4, ckShare := 1, twinoff := 1,
    phases := [{}, {}, {}, { fin := some 5 }, {}] }
/-- A device of rank `k` of `n` in the ring. Stream 1 works, its period is open where `now` says so; port 0 is UP. -/
def training (k n : Nat) (now : Bool) (t : Train) : Dev :=
  { svc with streams := [(1, { stream1 with kind := 2, period := if now then some { desc := some frame1 } else none })], trains := [(1, t)],
             ports := [(0, { state := 3, credits := [1, 0, 0, 0] })], link := { rank := k, nrank := n, mode := 1 },
             areas := [(0x10001, (0, 1, 1))] }
/-- TRAIN_CREATE's payload: an entry of kind training, the context of rank 1 of 2 with RTAG 9, and one bucket record of 4 MiB at 0. -/
def contextWords : List Nat := [1 + 2 ^ 8 + 2 ^ 15, 7, 0, 8, 0, 0, 1, 0, 0, 1, 0, 0, 0, 0, 0, 0, 0, 1 + 2 ^ 16, 0]
def trainBytes : List Byte :=
  streamBytes 1 2 ++ (contextWords ++ [9, 0, 0, 0x400000, 6, 0, 0, 0, 0]).flatMap (leBytes 4)
theorem witness_TrainCreate : ∀ k ∈ [1, 0],
    let d := training k 2 false (context k 2 bucket0)
    let c := contextOf trainBytes
    let x := streamOfBytes trainBytes
    trainBytes.length = 188 ∧ (wordsOf (trainBytes.drop 76)).getD 9 0 = 1 ∧ x.kind = 2 ∧ c.fits 1 = true ∧ bucketsBad c.buckets = false
      ∧ (k = 1 ↔ c.rank = d.link.rank) ∧ c.nrank = d.link.nrank ∧ (∀ q ∈ d.trains, q.2.rtag ≠ c.rtag) ∧ d.shareSum 65536 + c.share ≤ 195000
      ∧ (d.domain x.domain).state = 1 ∧ d.streamFits x = true ∧ d.streamsOf x.domain < (d.domain x.domain).maxStreams ∧ (d.stream 2).state = 0
      ∧ d.plans = [] ∧ c.bucketsAddr = 0 ∧ d.rsv.owned x.domain 0 32 = true := by decide +kernel

/-- Period 9 is still to come, period 8 has begun. -/
theorem witness_TrainNames : ∀ now ∈ [true, false],
    let t := context 1 2 bucket0
    let d := training 1 2 now t
    let r := req 0x702 1 [0x10001, if now then 8 else 9, 0, 2] (contextWords.flatMap (leBytes 4))
    NamesTrain d r 1 (d.stream 1) t ∧ t.phases.length = 5 ∧ 76 ≤ r.payload.length ∧ (t.setWords [] (wordsOf r.payload)).fits 1 = true
      ∧ (wordsOf r.payload).getD 9 0 = 1 ∧ d.shareSum 65536 - t.share + (t.setWords [] (wordsOf r.payload)).share ≤ 195000
      ∧ d.tooLate 1 (r.arg64 1) t = now ∧ (d.stream 1).period.isSome = now ∧ r.arg 3 ≤ 3 ∧ (now = true → r.arg64 1 ≤ t.period.toNat)
      ∧ NamesTrain d (req 0x705 1 [0x10001, 0xFF, 9, 0] []) 1 (d.stream 1) t ∧ NamesTrain d (req 0x705 1 [0x10001, 0, 9, 0] []) 1 (d.stream 1) t
      ∧ 0 < t.nrank ∧ 0 ≠ t.rank := by
  unfold NamesTrain Names; decide +kernel
/-- The last output of the counter range, and one past it. -/
theorem witness_TrainFill : ∀ n ∈ [1, 2],
    let r := req 0x704 1 [7, 0, 1, 0xFFFFFFFF, 0xFFFFFFFF, n] (leBytes 8 0x1FFFF0)
    r.arg 5 = n ∧ (n = 1 ↔ r.arg64 3 + n ≤ 2 ^ 64) ∧ leNat (r.payload.take 8) = 0x1FFFF0 ∧ svc.rsv.owned r.domain 0x1FFFF0 (16 * n) = true := by
  decide +kernel
theorem witness_TrainCkptReserve :
    let r := req 0x707 2 [0x10001, 1] []
    0 < r.arg 1 ∧ (svc.ownPages r.domain).length + 2 * r.arg 1 ≤ (svc.domain r.domain).maxPages ∧ Tab.find? svc.areas (r.arg 0) = none
      ∧ ∀ j, j < 2 → svc.pageFree (5 + j) = true := by decide +kernel

/-- At the send time of its bucket: rank 0, which is or is not DIVERGED; the run that produces the bucket has retired. -/
theorem witness_BucketSend : ∀ x ∈ [true, false],
    let t := { context 0 2 bucket0 with diverged := x, doneRuns := [(0, 0)] }
    let d := (training 0 2 true t).setPlans [{ plan0 with steps := [{ makes := [0] }] }]
    let p : Period := { desc := some frame1 }
    Quiet d ∧ d.periodRuns 1 = [(0, run1)] ∧ d.planStep run1 = some { makes := [0] } ∧ (run1.planStep, run1.lbasin) ∈ t.doneRuns
      ∧ d.train 1 = some t ∧ t.buckets[0]? = some bucket0 ∧ (d.stream 1).period = some p ∧ p.fail = 0 ∧ p.desc.isSome = true
      ∧ t.residualZero = false ∧ t.flushEf = false ∧ t.abandoned = false ∧ t.tstate = 1
      ∧ d.link.mode = 1 ∧ (d.port 1).state ≠ 3 ∧ (d.port 0).state = 3 ∧ (d.port 0).queue = [] ∧ (d.port 0).replay = []
      ∧ (d.port 0).credits = [1, 0, 0, 0] ∧ (d.port 0).txctr.toNat < 2 ^ 62 ∧ bucket0.bytes = 4096 := by
  unfold Quiet; decide +kernel
/-- A partial result for rank 1, and the final one for rank 0: 8 bytes in page 0, given by the command or placed by frames. -/
def placing (k : Nat) : List Frame :=
  [{ type := 1, cls := 1 - k, rtag := 5, payload := List.replicate 8 1 }, { type := 1, cls := 1 - k, rtag := 5, index := 1, payload := leBytes 8 3 }]
theorem witness_ChainAndFinal : ∀ k ∈ [0, 1], ∀ x ∈ [true, false], ∀ fs ∈ [[], placing k],
    let b := { bucket0 with restarted := x, bytes := 8 }
    let w := training k 2 true (context k 2 b)
    let d := w.setLink { w.link with placed := fs }
    Quiet d ∧ d.begun (context k 2 b) (1 - k) 0 = (fs != [])
      ∧ d.arrived (context k 2 b) (1 - k) 0 b.bytes (List.replicate 8 1) 3 = (List.replicate 8 1, 3) ∧ d.train 1 = some (context k 2 b)
      ∧ (context k 2 b).rank = k ∧ b.partIn = false ∧ b.sent = false ∧ b.done = false ∧ b.owed = false
      ∧ (List.replicate 8 (1 : Byte)).length = b.bytes ∧ (d.stream 1).period.isSome = true ∧ d.rsv.owned (d.stream 1).domain b.addr b.bytes = true
      ∧ Whole64 d b.addr b.bytes := by
  unfold Quiet Whole64; decide +kernel
/-- A block of a lower rank whose frames are here. -/
theorem witness_KvBlock :
    let t := context 1 2 bucket0
    let w := training 1 2 true t
    let d := w.setLink { w.link with placed := [{ type := 1, cls := 3, rtag := 5, payload := [1, 2] }] }
    Quiet d ∧ d.train 1 = some t ∧ 0 < t.rank ∧ d.begun t 3 0 = true ∧ t.nrank = t.rank + 1 := by
  unfold Quiet; decide +kernel
/-- A compressed contribution of rank 1 before OPTOFF, and after it. -/
theorem witness_Compressed : ∀ off ∈ [100, 99],
    let t := { context 0 3 bucket0 with tstate := 2, optoff := off }
    let d := training 0 3 true t
    Quiet d ∧ d.train 1 = some t ∧ t.tstate ≠ 1 ∧ 1 ≠ t.rank ∧ 1 < t.nrank ∧ Tab.find? bucket0.contribs 1 = none ∧ bucket0.contribs.length + 1 < t.nrank
      ∧ (off = 100 ↔ d.ns ≤ t.startCt + t.optoff) ∧ (off = 99 ↔ t.startCt + t.optoff < d.ns) := by
  unfold Quiet; decide +kernel
theorem witness_OptoffAndCheckpoint : ∀ x ∈ [true, false],
    let b := { bucket0 with done := x }
    let t := context 1 2 b
    let d := training 1 2 true t
    Quiet d ∧ (d.stream 1).period = some { desc := some frame1 } ∧ t.optOk = true ∧ t.tstate = 1 ∧ t.twinoff ≠ 0 ∧ t.abandoned = false ∧ b.owed = false
      ∧ t.ckEvery ≠ 0 ∧ t.period.toNat % t.ckEvery = 0 ∧ t.ckCopy = none ∧ t.ckDue = none ∧ t.ckLast ≠ some 8 ∧ (t.phases.getD 3 {}).fin.isSome = true
      ∧ d.phaseOpen 1 3 t.startCt = false ∧ 0 < t.rank ∧ t.nrank = t.rank + 1 := by
  unfold Quiet; decide +kernel
/-- A copy that commits, ones of periods 5 and 6, which are abandoned as period 8's optimiser has begun, and the area of the twin's stream: its
last byte, and one past it. -/
theorem witness_CheckpointEnds : ∀ n ∈ [8, 6, 5],
    let t := { context 1 2 bucket0 with ckCopy := some (n, 0, 5, 6), phases := [{}, {}, {}, { first := some 4, fin := some 5 }, {}] }
    let d := (training 1 2 true t).putPort 4 { state := 3 }
    t.ckCopy = some (n, 0, 5, 6) ∧ d.twinBusy 1 = false ∧ (d.port 4).state = 3 ∧ (n = 5 ↔ n + 2 < t.period.toNat)
      ∧ (n = 6 ↔ n + 2 = t.period.toNat) ∧ (t.phases.getD 3 {}).first.isSome = true ∧ Quiet d
      ∧ ({ t with ckCopy := none, ckDue := some n } : Train).ckDue = some n
      ∧ Tab.find? d.areas (handleOf 1 (d.stream 1)) = some (0, 1, 1) ∧ d.rsv.owned 1 (2 * 0x200000 - 1) 1 = true := by
  unfold Quiet; decide +kernel

/-! ### Flags, registers, events and the log -/

/-- A register's device address, as two words. -/
def regAt (unit off : Nat) : List Nat := let a := unit * 2 ^ 27 + 2 ^ 24 + off; [a % 2 ^ 32, a / 2 ^ 32]
/-- Basin 3 has a run, an event waits, and the log has a byte. -/
def regs : Dev := { svc with basins := [(3, bas 0 [] [] [])], fh := { supBuf := [{ type := 5, ct := 6 }] }, boot := { svc.boot with log := [(0, 5)] } }
theorem witness_Flags : Names svc (req 0x800 1 [0x10001] []) 1 sidle ∧ Names svc (req 0x801 0 [0x10001, 0xFF, 1] []) 1 sidle := by
  unfold Names; decide +kernel
/-- The first and the last register of a block, one word and 512 pairs of words, and a basin whose run is active at both ends of the range. -/
theorem witness_RegRead :
    (∀ p ∈ [(0x1F2, 0, 4, 1), (0x1F5, 0xFFFC, 4, 1), (0x1F1, 0, 8, 512), (271, 0x2000, 4, 1), (3, 0x2000, 4, 1), (3, 0x2118, 4, 1)],
      let r := req 0x900 0 (regAt p.1 p.2.1 ++ [p.2.2.1, p.2.2.2]) []
      r.arg 2 = p.2.2.1 ∧ r.arg 3 = p.2.2.2 ∧ r.arg64 0 % r.arg 2 = 0 ∧ regTarget (r.arg64 0) (r.arg 2 * r.arg 3) = .reg p.1 p.2.1
        ∧ ((regs.basin p.1).seq.active.isSome = true ↔ p.1 = 3))
      ∧ granted 0x1F3 0 = false ∧ regTarget ((req 0x900 0 [0, 2 ^ 19, 4, 1] []).arg64 0) 4 = .denied ∧ (req 0x900 0 [2, 0, 4, 1] []).arg64 0 % 4 ≠ 0 := by
  decide +kernel
theorem witness_RegWrite : ∀ p ∈ [(0x1F1, 0x18), (0x1F3, 8), (0x1F2, 0), (0x1F2, 0x600), (271, 0x2100), (271, 0)],
    let r := req 0x901 0 (regAt p.1 p.2 ++ [4, 0xFFFFFFFF]) []
    r.arg 2 = 4 ∧ r.arg64 0 % 4 = 0 ∧ regTarget (r.arg64 0) 4 = .reg p.1 p.2 ∧ Quiet regs ∧ (regs.func 255).inReset = false
      ∧ (regs.func 255).enable = false := by
  unfold Quiet; decide +kernel
theorem witness_EventsAndLog :
    (∀ n ∈ [6, 14], let r := req 0xE00 0 [0x1000, 0, n, 255 + 2 ^ 31, 0] []; r.arg64 0 % 4096 = 0 ∧ r.arg 2 = n ∧ r.arg 3 % 2048 = 255)
    ∧ (∀ n ∈ [1, 32], (req 0xE02 0 [n] []).arg 0 = n) ∧ regs.fh.supBuf[0]? = some { type := 5, ct := 6 }
    ∧ (let r := req 0xF00 0 [0x2EFF000, 0, 4096] []; r.arg64 0 + r.arg 2 = 0x2F00000) ∧ permOf 0xFFF = none
    ∧ (∀ op ∈ [0x100, 0x400, 0xFFF, 0xA00], let s := slotOf op 0; s.length = 64 ∧ leNat (s.take 2) = op ∧ leNat ((s.drop 0x14).take 4) = 0)
    ∧ regs.aonOn = true ∧ regs.boot.retired = false ∧ ({ regs with boot := {} } : Dev).aonOn = true := by decide +kernel

/-- POWER_ENTER of Trim over MCTP, under a table whose floor is above 1.2 GHz, at READY and on the move. -/
theorem witness_EventsAndLog_mctp : ∀ mv ∈ [true, false],
    let w := svc.setCad { svc.cad with table0 := some { table1 with floor := 2000 } }
    let d := w.setPow { w.pow with moving := mv }
    let s := desc [0xB01, 0, 0, 0, 0, 0, 0, 0, 1]
    d.aonOn = true ∧ d.boot.retired = false ∧ d.boot.ready = true ∧ s.length = 64 ∧ leNat (s.take 2) = 0xB01 ∧ leNat ((s.drop 0x14).take 4) = 0
      ∧ leNat ((s.drop 0x20).take 4) = 1 ∧ d.floorHigh = true ∧ (d.pow.moving = true ∨ d.pow.stable = 3) := by decide +kernel

/-! ### Time, power, update and life-cycle -/

/-- The device without an active table; and with one that names no run, at a floor of `n`. -/
def idle : Dev := svc.setCad { svc.cad with active := false }
def floored (n : Nat) : Dev := svc.setCad { svc.cad with table0 := some { table1 with runs := [], floor := n } }
theorem witness_Time :
    svc.cad.active = true ∧ svc.cad.dev = 0 ∧ bitOf ((req 0xA01 0 [7, 0, 1] []).arg 2) 0 = true ∧ bitOf ((req 0xA01 0 [7, 0, 0] []).arg 2) 0 = false
      ∧ idle.cad.active = false ∧ idle.cad.swapAt = none ∧ (req 0xA01 0 [7, 0, 1] []).arg64 0 * 1000000000 < 2 ^ 64
      ∧ (∀ n ∈ [1, 1000100], 0 ≤ (idle.cad.ct : Int) + signedOf 64 ((req 0xA02 0 [2 ^ 32 - n, 2 ^ 32 - 1] []).arg64 0) * 65536)
      ∧ (idle.setCad { idle.cad with swapAt := some 5 }).cad.swapAt.isSome = true := by decide +kernel
theorem witness_Power :
    (floored 1201).floorHigh = true ∧ (floored 1200).floorHigh = false ∧ svc.pow.state ≠ 1 ∧ (floored 400).mayLeave = true ∧ svc.mayLeave = false
      ∧ (∀ p ∈ [(400, 300), (2000, 1100)], let r := req 0xB02 0 [p.1, p.2] []; r.arg 0 = p.1 ∧ r.arg 1 = p.2)
      ∧ (let w := linked { wakesend := true }; (w.port ((req 0xB03 0 [0] []).arg 0)).wakesend = true ∧ (w.port 0).state = 0)
      ∧ (∀ p ∈ [(10, 6), (10000, 0x8C)], let r := req 0xB04 0 [] (leBytes 4 p.1 ++ leBytes 4 p.2 ++ List.replicate 0x138 0)
          let t := trkOf r.payload
          r.payload.length = 0x140 ∧ t.period = p.1 ∧ t.mlen = p.2 % 16 ∧ t.refk = p.2 / 16) := by decide +kernel
/-- The sequencer: the cores wait with Rest latched; and it stands in step `n`. -/
def seqAt (n dest : Nat) : Dev := { svc with pow := { stable := 3, moving := true, step := n, dest := dest, state := 0 } }
theorem witness_Sequencer :
    (∀ x ∈ [0, 1], let d := svc.setPow { svc.pow with latched := some 3, wakesrc := x }
      d.fwOn = true ∧ d.pow.latched = some 3 ∧ d.fh.inprog = [] ∧ (d.pow.wakesrc &&& d.pow.wakeen = 0 ↔ x = 0))
    ∧ (∀ n ∈ [1, 8, 11, 12], (seqAt n 3).pow.moving = true ∧ (seqAt n 3).pow.shutSeq = false ∧ (seqAt n 3).pow.step = n)
    ∧ (let d := seqAt 8 0; d.pow.dest ≤ 1 ∧ d.pow.latched = none ∧ d.md.perstPend = false ∧ d.still.pending = false ∧ d.pow.ret = none)
    ∧ svc.awake = true ∧ svc.pow.stable = 3 := by decide +kernel

/-- The manifest of one chunk, for the key whose digest a PROVISIONED module has in its fuses, with authority for a transfer to 2. -/
def zeros (n : Nat) : List Byte := List.replicate n 0
def manifest1 : List Byte := ([0x4D56514C, 336, 5, 0, 0x7210, 1, 1].flatMap (leBytes 4)) ++ zeros 308
def fused : Mem := Mem.writeBytes (Mem.writeBytes (Mem.writeBytes [] 0 (List.replicate 8 0xFF)) 0x40 (sha384 (zeros 128))) 0x100 (sha384 (zeros 128))
/-- A module with these fuses, its update in state `n`. -/
def updating (n : Nat) : Dev := { svc with boot := { ready := true, fuses := fused, updState := n, nonce := some 5 } }
theorem witness_Manifest :
    (updating 3).boot.updState = 3 ∧ (manifestOf manifest1).any (fun m => (updating 0).manifestFault true (some m) == 0) = true
      ∧ manifest1.length ≤ 4096 ∧ (heldManifest (Tab.put [] 0x1F000 [5])).length < 8 ∧ (updating 0).boot.pieces = [] := by decide +kernel
/-- A set of two chunks, the last of one byte, the other with a quarter held. -/
def set2 : Manifest := { nchunk := 2, lastlen := 1, hashes := [0, beNat (sha384 [5])] }
def chunks : Dev :=
  { svc with boot := { ready := true, updState := 1, staged := some set2, quarters := [(0, [(1, zeros 4096)]), (1, [(0, [6])])] } }
theorem witness_Chunks : ∀ p ∈ [(0, zeros 4096), (1, [5]), (1, [7])],
    let r := req 0xC01 0 [p.1, 0] p.2
    let held := Tab.at chunks.boot.quarters [] p.1
    r.arg 0 = p.1 ∧ p.1 < set2.nchunk ∧ r.arg 1 ≤ 3 ∧ r.payload.length = min 4096 (if p.1 + 1 = set2.nchunk then set2.lastlen else 16384)
      ∧ chunks.boot.erasePend = [] ∧ p.1 ∉ chunks.boot.present ∧ p.1 ∉ chunks.boot.queue ∧ held ≠ []
      ∧ (p.1 = 0 → Tab.find? (Tab.put held 0 p.2) 2 = none)
      ∧ (p.1 = 1 → (beNat (sha384 (p.2.take 1)) = set2.hashes.getD 1 0 ↔ p.2 = [5])) := by decide +kernel
theorem witness_Activate :
    let w : Dev := { svc with boot := { ready := true, updState := 2, staged := some set2, present := [1], areas := [{}, {}, { chunks := [(1, [5])] }] } }
    w.boot.staged = some set2 ∧ (∀ c ∈ w.boot.present, chunkOk set2 (w.boot.areas.getD w.boot.view.staging {}).chunks c = true) ∧ 1 ∈ w.boot.present := by
  decide +kernel
theorem witness_ChunkProgram :
    let d (present : List Nat) (x : Option (Nat × Nat × Bool)) : Dev :=
      { svc with boot := { ready := true, queue := [2], present := present, erasing := x, recovery := some {}, step := 0xE } }
    (d [] none).fwOn = true ∧ (d [] none).boot.queue = [2] ∧ (d [] none).boot.sectorErased (2 / 4) = false ∧ (d [1] none).boot.sectorErased (2 / 4) = true
      ∧ (∀ x ∈ [true, false], (d [] (some (2, 0, x))).boot.erasing = some (2, 0, x)) ∧ (d [] none).bootOn = true ∧ (d [] none).boot.backoff = none := by
  decide +kernel
def authority (n : Nat) : List Byte := zeros 16 ++ leBytes 4 2 ++ zeros 4 ++ leBytes 8 n ++ zeros 224
theorem witness_LifeCycle : ∀ n ∈ [5, 6],
    lifeCycle (updating 0).boot.fuses = 1 ∧ (req 0xD01 0 [2] (authority n)).arg 0 = 2 ∧ (updating 0).authorised true 2 (authority n) = (n == 5)
      ∧ (req 0xD01 0 [1] []).arg 0 ≠ 1 + 1 ∧ (updating 0).boot.retired = false := by decide +kernel

/-! ### Boot, power and freezes -/

def bootAt (n : Nat) : Dev := { pow := { stable := 2 }, boot := { step := n, backoff := if n = 0xF then some 5 else none } }
theorem witness_Boot : ∀ n ∈ [0, 1, 2, 3, 5, 6, 8, 0xF],
    let d := bootAt n
    d.bootOn = true ∧ d.boot.ready = false ∧ d.boot.step = n ∧ d.boot.retired = false ∧ d.boot.backoff = (if n = 0xF then some 5 else none)
      ∧ d.boot.waiting = false ∧ lifeCycle d.boot.fuses = 0 ∧ burnt d.boot.fuses 0 = burnt d.boot.fuses 4 ∧ d.md.still = false := by decide +kernel

/-- In Trickle or Rest; and on the way there. -/
def asleep (n : Nat) : Dev :=
  { pow := { stable := 2, state := n, trk := { stalemax := 1, sloten := 1, thr := [(0, 5)] } }, ports := [(0, { wakeen := true }), (1, { wakeen := true, state := 3 })],
    md := { wakeN := if n = 3 then none else some 5 } }
def falling (n : Nat) : Dev := { asleep 3 with pow := { stable := 3, moving := true, dest := n, step := 9 } }
theorem witness_Wakes :
    (∀ n ∈ [2, 3], Asleep (asleep n) ∧ (asleep n).awake = true ∧ FallingAsleep (falling n) ∧ (falling n).awake = true)
    ∧ (∀ b ∈ [0, 1, 2, 3, 4, 5], bitOf (asleep 2).pow.wakeen b = true) ∧ bitOf ((asleep 2).setPow { (asleep 2).pow with wakeen := 0 }).pow.wakeen 0 = false
    ∧ ((asleep 3).port 0).state = 0 ∧ ((asleep 3).port 1).state = 3 ∧ ((asleep 3).port 2).wakeen = false ∧ (asleep 3).pow.stable ≠ 1
    ∧ (asleep 3).pow.dest ≠ 4 ∧ (asleep 2).md.wakeN = some 5 := by
  unfold Asleep FallingAsleep; decide +kernel
/-- A burst while the clocks are stopped. -/
theorem witness_Wakes_frozen :
    let d : Dev := { asleep 2 with still := { frozen := true } }
    d.awake = false ∧ (d.port 0).wakeen = true ∧ (d.port 0).state = 0 ∧ d.pow.stable ≠ 1 := by decide +kernel
/-- A write over the end of the trickle window's first tile; a slot that has become stale, and none that is enabled. -/
theorem witness_TrickleWindow :
    (∀ n ∈ [2, 3], (asleep n).hwOn = true ∧ ((asleep n).func 0).inReset = false ∧ 14398 + ([5, 6] : List Byte).length ≤ 0x100000)
    ∧ (let p := (asleep 2).pow; bitOf p.trk.sloten 0 = true ∧ bitOf p.fresh 0 = false ∧ p.trk.stalemax ≠ 0 ∧ p.trk.stalemax ≤ Tab.at p.age 0 0 + 1)
    ∧ ∀ t, bitOf ({} : TrkParams).sloten t = false := ⟨by decide +kernel, by decide +kernel, fun t => by simp [bitOf]⟩

/-- Each stable point with PWR_EN and the latch of a shutdown as given, at rest and moving to `dest`. -/
def pins (stable : Nat) (on shut moving : Bool) (dest : Nat) : Dev :=
  { pow := { stable := stable, moving := moving, dest := dest, step := if moving then 5 else 0 }, md := { pwren := on, thermShut := shut, shut := if shut then 2 else 0 } }
theorem witness_Pins : ∀ stable ∈ [1, 2, 3], ∀ on ∈ [true, false], ∀ shut ∈ [true, false], ∀ mv ∈ [(false, 0), (true, 0), (true, 4)],
    let d := pins stable on shut mv.1 mv.2
    d.md.pwren = on ∧ d.md.pwrenFell = false ∧ d.md.thermShut = shut ∧ d.pow.stable = stable ∧ d.pow.moving = mv.1 ∧ d.pow.dest = mv.2
      ∧ d.pow.latched = none ∧ d.awake = true ∧ d.md.auxOk = true ∧ d.boot.waiting = false
      ∧ (d.mayStart = true ↔ stable = 1 ∧ shut = false ∧ mv.1 = false) ∧ d.md.shut = (if shut then 2 else 0) := by decide +kernel
theorem witness_Pins_frozen :
    (({ pins 3 true false false 0 with still := { frozen := true } } : Dev).awake = false)
      ∧ (({ pins 3 true false false 0 with boot := { waiting := true } } : Dev).boot.waiting = true) := by decide +kernel

theorem witness_Protections :
    Quiet svc ∧ svc.due = svc ∧ (1150 : Nat) < 1151 ∧ svc.pow.curr = false ∧ svc.pow.volt = false ∧ (3999 : Nat) < 4000
      ∧ ¬ (svc.pow.stable = 1 ∧ svc.pow.moving = false)
      ∧ (∃ d : Dev, d.md.pwren = true ∧ d.md.shut = 2 ∧ d.mayStart = true) ∧ (∃ d : Dev, d.md.auxOk = false) ∧ svc.aonOn = true
      ∧ (svc.setRsv { svc.rsv with ctrls := List.replicate 8 { ready := true } }).rsv.ctrls.length = 8
      ∧ ((svc.setRsv { svc.rsv with ctrls := List.replicate 8 { ready := true } }).ctrl 7).ready = true ∧ svc.pow.temp = false ∧ svc.md.thermShut = false :=
  ⟨⟨rfl, rfl⟩, rfl, by decide, rfl, rfl, by decide, by decide +kernel, ⟨{ md := { pwren := true, shut := 2 } }, by decide +kernel⟩,
    ⟨{ md := { auxOk := false } }, rfl⟩, by decide +kernel, by decide +kernel, by decide +kernel, rfl, rfl⟩

/-- A frozen device, its debug port live or not, and the scan chains intact or shifted. -/
def still (x dis : Bool) : Dev :=
  { svc with still := { frozen := true, destroyed := x, memaddr := 3 * 2 ^ 27 + 8 }, ports := [(0, { state := 3 }), (1, { state := 4 })], basins := [(3, bas 0 [] [] [])],
             boot := { svc.boot with fusesRead := true, fuses := if dis then Mem.writeBytes [] 0x18 [0xFF, 0xFF, 0xFF, 0xFF] else [] } }
/-- The same, not frozen yet, at READY or on the move. -/
def ready (moving dis : Bool) : Dev := ((still false dis).setStill {}).setPow { stable := 3, moving := moving }
theorem witness_StillAssert : ∀ moving ∈ [true, false], ∀ dis ∈ [true, false],
    (ready moving dis).aonOn = true ∧ (ready moving dis).still.frozen = false ∧ (ready moving dis).boot.stillHeard = !dis
      ∧ (ready moving dis).pow.moving = moving ∧ 2 ≤ (ready moving dis).pow.stable := by decide +kernel
theorem witness_Freezes : ∀ x ∈ [true, false], ∀ dis ∈ [true, false],
    (still x dis).still.frozen = true ∧ (still x dis).still.destroyed = x ∧ (still x dis).boot.dbgdis = dis
      ∧ (still x dis).aonOn = true ∧ ((still x dis).basin 3).seq.active.isSome = true ∧ ((still x dis).port 0).state = 3
      ∧ ((still x dis).port 1).state = 4 := by decide +kernel
/-- The last words of basin 271's store, registers and program, and of the reservoir. -/
theorem witness_Memdata :
    placeOf (271 * 2 ^ 27 + 0x43FFF8) = .locPhys 271 0x43FFF8 ∧ placeOf (271 * 2 ^ 27 + 2 ^ 24 + 0xFFF8) = .mgmt false 271 1 0xFFF8
      ∧ placeOf (271 * 2 ^ 27 + 2 ^ 25 + 0xFFF8) = .mgmt false 271 2 0xFFF8 ∧ placeOf (2 ^ 51 + 0x5FFFFFFFF8) = .rsv 0x5FFFFFFFF8 := by decide +kernel
theorem witness_Boundary : (0 : Nat) < 2 ^ Config.boundaryLen := Nat.pow_pos (by decide)

/-! ### Steps -/

/-- A FIELDED module, its words in the order of R429, on which a step answers a next state. -/
def fielded : Machine.State :=
  { pending := [.trst], dev := { svc with boot := { fuses := Mem.writeBytes [] 0 (List.replicate 16 0xFF ++ zeros 8 ++ List.replicate 4 0xFF) } } }
theorem witness_FuseOrder : FuseOrder fielded ∧ lifeCycle fielded.dev.boot.fuses = 2 ∧ ∃ t, step fielded = .next t :=
  ⟨by unfold FuseOrder; decide +kernel, by decide +kernel, _, rfl⟩

end Sys2Proof.Tests
end

section
/-! PROOFS. What every command's proof needs: what a gated command answers, what raising an event leaves unchanged. -/

namespace Sys2Proof.Spec

open Sys2Proof Sys2Proof.Machine

/-! ### What a gated command answers -/

/-- On a quiet device a command of the core makes its own change and no other. -/
theorem Quiet.gives {d : Dev} {c : Instr} {g : Dev → Dev} (hq : Quiet d) (hc : ∀ s, exec c s = onCore g s) : Gives c d (g d) := by
  obtain ⟨hon, hdue⟩ := hq
  intro q
  rw [hc, onCore_next g _ hon, hdue]

/-- A command under a condition makes its change where the condition holds. -/
theorem gives_of_onlyIf {d : Dev} {c : Instr} {p : Dev → Bool} {g : Dev → Dev} (hp : p d = true)
    (hc : ∀ s, exec c s = answer (onlyIf p g) s) : Gives c d (g d) := by
  intro q
  simp [hc, answer, onlyIf, hp]

/-- A host access that names a function outside a reset makes its change. -/
theorem onFunc_eq {d : Dev} {f : Nat} (g : Dev → Dev) (hf : f < 256) (hr : (d.func f).inReset = false) : Dev.onFunc f g d = g d := by
  simp [Dev.onFunc, hf, hr]

end Sys2Proof.Spec

namespace Sys2Proof.Machine

open Sys2Proof

/-! ### Events (R377, R379) -/

/-- From `d` to `e` nothing has changed but what an event or a message writes: the functions' queues, the supervisor's buffer, the count
of lost events, host memory and the module's edge. -/
def EventChange (d e : Dev) : Prop :=
  ∃ fs lost buf bufLost hm o,
    e = { d with funcs := fs, fh := { d.fh with evlost := lost, supBuf := buf, supLost := bufLost }, hostMem := hm, out := o }

theorem EventChange.refl (d : Dev) : EventChange d d := ⟨_, _, _, _, _, _, rfl⟩

theorem EventChange.trans {a b c : Dev} (hab : EventChange a b) (hbc : EventChange b c) : EventChange a c := by
  obtain ⟨_, _, _, _, _, _, rfl⟩ := hab
  obtain ⟨_, _, _, _, _, _, rfl⟩ := hbc
  exact ⟨_, _, _, _, _, _, rfl⟩

theorem EventChange.rsv {d e : Dev} (h : EventChange d e) : e.rsv = d.rsv := by obtain ⟨_, _, _, _, _, _, rfl⟩ := h; rfl
theorem EventChange.hw {d e : Dev} (h : EventChange d e) : e.hw = d.hw := by obtain ⟨_, _, _, _, _, _, rfl⟩ := h; rfl
theorem EventChange.boot {d e : Dev} (h : EventChange d e) : e.boot = d.boot := by obtain ⟨_, _, _, _, _, _, rfl⟩ := h; rfl
theorem EventChange.domain {d e : Dev} (h : EventChange d e) (n : Nat) : e.domain n = d.domain n := by
  obtain ⟨_, _, _, _, _, _, rfl⟩ := h; rfl
theorem EventChange.running {d e : Dev} (h : EventChange d e) : e.fh.running = d.fh.running := by
  obtain ⟨_, _, _, _, _, _, rfl⟩ := h; rfl
theorem EventChange.mbReady {d e : Dev} (h : EventChange d e) : e.fh.mbReady = d.fh.mbReady := by
  obtain ⟨_, _, _, _, _, _, rfl⟩ := h; rfl

/-- Replacing a part that no event writes commutes with the change. -/
theorem EventChange.setRsv {d e : Dev} (h : EventChange d e) (r : Rsv) : EventChange (d.setRsv r) (e.setRsv r) := by
  obtain ⟨_, _, _, _, _, _, rfl⟩ := h; exact ⟨_, _, _, _, _, _, rfl⟩

theorem Dev.vector_eventChange (d : Dev) (f v : Nat) : EventChange d (d.vector f v) := by
  unfold Dev.vector
  dsimp only
  split
  · exact ⟨_, _, _, _, _, _, rfl⟩
  · split <;> exact ⟨_, _, _, _, _, _, rfl⟩

theorem Dev.deliver_eventChange (d : Dev) (f : Nat) (x : Event) : EventChange d (d.deliver f x) := by
  unfold Dev.deliver
  dsimp only
  split
  · exact ⟨_, _, _, _, _, _, rfl⟩
  · split
    · exact ⟨_, _, _, _, _, _, rfl⟩
    · exact .trans ⟨_, _, _, _, _, _, rfl⟩ (Dev.vector_eventChange _ _ _)

theorem Dev.supervise_eventChange (d : Dev) (x : Event) : EventChange d (d.supervise x) := ⟨_, _, _, _, _, _, rfl⟩

theorem Dev.raiseAt_eventChange (d : Dev) (ct : Nat) (x : Event) : EventChange d (d.raiseAt ct x) := by
  have toOperator (y : Event) (c : Bool) : EventChange d (if c then (d.deliver 0 y).supervise y else d) := by
    split
    · exact (d.deliver_eventChange 0 y).trans (Dev.supervise_eventChange _ y)
    · exact .refl d
  have toDomain (e : Dev) (f : Nat) (y : Event) :
      EventChange e (if f < 256 then e.deliver f y else e.setFh { e.fh with evlost := e.fh.evlost + 1 }) := by
    split
    · exact e.deliver_eventChange f y
    · exact ⟨_, _, _, _, _, _, rfl⟩
  unfold Dev.raiseAt
  dsimp only
  split
  · split
    · exact ((toOperator _ _).trans (toDomain _ _ _)).trans (Dev.supervise_eventChange _ _)
    · exact (toOperator _ _).trans (toDomain _ _ _)
  · exact toOperator _ _

theorem Dev.raise_eventChange (d : Dev) (x : Event) : EventChange d (d.raise x) := d.raiseAt_eventChange _ x

theorem Dev.raiseO_eventChange (d : Dev) (type source d0 d1 d2 : Nat) : EventChange d (d.raiseO type source d0 d1 d2) :=
  d.raise_eventChange _

end Sys2Proof.Machine
end

section
/-! PROOFS. Reservoir accesses (R203, R222 to R225): what a read or write of owned pages makes of the device, and what one of foreign
pages reads and counts. -/

namespace Sys2Proof.Machine

open Sys2Proof Sys2Proof.Spec

@[simp] theorem Dev.setRsv_setRsv (d : Dev) (r s : Rsv) : (d.setRsv r).setRsv s = d.setRsv s := rfl

/-! ### Reads change counts alone -/

/-- From `r` to `s` the reservoir holds the same bytes, owners and poison, and has denied the same: only budgets and the counts of corrected
errors may differ. -/
structure Rsv.SameData (r s : Rsv) : Prop where
  mem : s.mem = r.mem
  pages : s.pages = r.pages
  poison : s.poison = r.poison
  ctrls : s.ctrls.length = r.ctrls.length
  denied : ∀ k, (s.ctrls.getD k {}).denycnt = (r.ctrls.getD k {}).denycnt

theorem Rsv.SameData.refl (r : Rsv) : r.SameData r := ⟨rfl, rfl, rfl, rfl, fun _ => rfl⟩

theorem Rsv.SameData.trans {r s t : Rsv} (h : r.SameData s) (k : s.SameData t) : r.SameData t :=
  ⟨k.mem.trans h.mem, k.pages.trans h.pages, k.poison.trans h.poison, k.ctrls.trans h.ctrls, fun n => (k.denied n).trans (h.denied n)⟩

/-- A fold of steps that each keep the data keeps the data. -/
theorem Rsv.SameData.foldl {α : Type} {f : Rsv → α → Rsv} (hf : ∀ r x, Rsv.SameData r (f r x)) (l : List α) (r : Rsv) :
    r.SameData (l.foldl f r) := by
  induction l generalizing r with
  | nil => exact .refl r
  | cons x l ih => exact (hf r x).trans (ih (f r x))

/-- Replacing a controller by one that has denied as much keeps the data. -/
theorem Rsv.sameData_set_ctrl (r : Rsv) (n : Nat) (c : Ctrl) (soft : List Nat) (h : c.denycnt = (r.ctrls.getD n {}).denycnt) :
    r.SameData { r with ctrls := r.ctrls.set n c, soft := soft } := by
  refine ⟨rfl, rfl, rfl, by simp, fun k => ?_⟩
  by_cases hk : n = k
  · subst hk
    by_cases hn : n < r.ctrls.length
    · simpa [List.getD_eq_getElem?_getD, hn] using h
    · simp [List.getD_eq_getElem?_getD, hn]
  · simp [List.getD_eq_getElem?_getD, hk]

theorem Rsv.charge_sameData (r : Rsv) (dom a n : Nat) : r.SameData (r.charge dom a n) := by
  have start : r.SameData (r.moved n) := ⟨rfl, rfl, rfl, rfl, fun _ => rfl⟩
  unfold Rsv.charge
  refine start.trans (.foldl (fun s g => ?_) _ _)
  exact s.sameData_set_ctrl _ _ s.soft rfl

theorem Rsv.charge_soft (r : Rsv) (dom a n : Nat) : (r.charge dom a n).soft = r.soft := by
  have keeps (l : List Nat) (f : Rsv → Nat → List Ctrl) (s : Rsv) :
      (l.foldl (fun s g => { s with ctrls := f s g }) s).soft = s.soft := by
    induction l generalizing s with
    | nil => rfl
    | cons g l ih => exact ih _
  exact keeps (granules a n) _ (r.moved n)

theorem Dev.rsvSoft_sameData (d : Dev) (us : List Nat) : ∃ r, d.rsv.SameData r ∧ d.rsvSoft us = d.setRsv r := by
  induction us generalizing d with
  | nil => exact ⟨d.rsv, .refl _, rfl⟩
  | cons u us ih =>
    let c : Ctrl := { d.ctrl (ctrlOf (u * 32)) with cecnt := (d.ctrl (ctrlOf (u * 32))).cecnt + 1 }
    have one : d.rsv.SameData { d.rsv with ctrls := d.rsv.ctrls.set (ctrlOf (u * 32)) c, soft := d.rsv.soft.filter (· ≠ u) } :=
      d.rsv.sameData_set_ctrl _ _ _ rfl
    obtain ⟨r, hr, he⟩ := ih (d.setRsv { d.rsv with ctrls := d.rsv.ctrls.set (ctrlOf (u * 32)) c, soft := d.rsv.soft.filter (· ≠ u) })
    exact ⟨r, one.trans hr, he⟩

/-- A read of a part without poison is counted, and its corrected errors with it. -/
theorem Dev.rsvTouch_sameData (d : Dev) (dom a n : Nat) (hp : unitsIn d.rsv.poison a n = []) :
    ∃ r, d.rsv.SameData r ∧ d.rsvTouch dom a n = d.setRsv r := by
  obtain ⟨r, hr, he⟩ := (d.setRsv (d.rsv.charge dom a n)).rsvSoft_sameData (unitsIn d.rsv.soft a n)
  have hsame : d.rsv.SameData r := (d.rsv.charge_sameData dom a n).trans hr
  refine ⟨r, hsame, ?_⟩
  have hunits : unitsIn r.poison a n = [] := by rw [hsame.poison, hp]
  simp only [Dev.rsvTouch, he, Dev.setRsv_setRsv, Dev.setRsv_rsv, hunits, List.foldl_nil]

/-- A read of a part without errors is counted against the budget, and nothing else changes. -/
theorem Dev.rsvTouch_clean (d : Dev) (dom a n : Nat) (hp : unitsIn d.rsv.poison a n = []) (hs : unitsIn d.rsv.soft a n = []) :
    d.rsvTouch dom a n = d.setRsv (d.rsv.charge dom a n) := by
  have hunits : unitsIn (d.rsv.charge dom a n).poison a n = [] := by rw [(d.rsv.charge_sameData dom a n).poison, hp]
  simp only [Dev.rsvTouch, hs, Dev.rsvSoft, Dev.setRsv_rsv, hunits, List.foldl_nil]

theorem Dev.foldl_rsvTouch_sameData (ps : List (Nat × Nat)) (d : Dev) (dom : Nat)
    (hp : ∀ p ∈ ps, unitsIn d.rsv.poison p.1 p.2 = []) :
    ∃ r, d.rsv.SameData r ∧ ps.foldl (fun d p => d.rsvTouch dom p.1 p.2) d = d.setRsv r := by
  induction ps generalizing d with
  | nil => exact ⟨d.rsv, .refl _, rfl⟩
  | cons p ps ih =>
    obtain ⟨r, hr, he⟩ := d.rsvTouch_sameData dom p.1 p.2 (hp p (by simp))
    obtain ⟨s, hs, hf⟩ := ih (d.setRsv r) (fun q hq => by
      show unitsIn r.poison q.1 q.2 = []
      rw [hr.poison]
      exact hp q (by simp [hq]))
    exact ⟨s, hr.trans hs, by rw [List.foldl_cons, he, hf, Dev.setRsv_setRsv]⟩

/-! ### The parts of a range -/

/-- Where part `k` of a range of `n` bytes from `a` begins: the start of its page, within the range. -/
def partStart (a n k : Nat) : Nat := min (a + n) (max a ((a / 0x200000 + k) * 0x200000))

theorem pageParts_eq (a n : Nat) : pageParts a n
    = (List.range (cdiv (a % 0x200000 + n) 0x200000)).map (fun k => (partStart a n k, partStart a n (k + 1) - partStart a n k)) := by
  unfold pageParts pagesOf
  rw [List.map_map]
  refine List.map_congr_left (fun k hk => ?_)
  have hk := List.mem_range.mp hk
  simp only [cdiv] at hk
  simp only [Function.comp, partStart, Prod.mk.injEq]
  omega

/-- The parts lie in the range, and each in one page. -/
theorem pageParts_bounds (a n : Nat) (p : Nat × Nat) (hp : p ∈ pageParts a n) :
    a ≤ p.1 ∧ p.1 + p.2 ≤ a + n ∧ ∀ x, p.1 ≤ x → x < p.1 + p.2 → x / 0x200000 = p.1 / 0x200000 := by
  rw [pageParts_eq] at hp
  obtain ⟨k, -, rfl⟩ := List.mem_map.mp hp
  simp only [partStart]
  refine ⟨by omega, by omega, fun x h1 h2 => by omega⟩

/-- The parts follow one another and make up the range. -/
theorem pageParts_flatMap {α : Type} (g : Nat → α) (a n : Nat) :
    (pageParts a n).flatMap (fun p => (List.range' p.1 p.2).map g) = (List.range' a n).map g := by
  have upTo (m : Nat) : ((List.range m).map (fun k => (partStart a n k, partStart a n (k + 1) - partStart a n k))).flatMap
      (fun p => (List.range' p.1 p.2).map g) = (List.range' a (partStart a n m - a)).map g := by
    induction m with
    | zero =>
      have : partStart a n 0 - a = 0 := by simp only [partStart]; omega
      simp [this]
    | succ m ih =>
      have hlo : partStart a n m = a + (partStart a n m - a) := by simp only [partStart]; omega
      have hlen : partStart a n (m + 1) - a = (partStart a n m - a) + (partStart a n (m + 1) - partStart a n m) := by
        simp only [partStart]; omega
      rw [List.range_succ, List.map_append, List.flatMap_append, ih, hlen, ← List.range'_append_1, List.map_append, ← hlo]
      simp
  rw [pageParts_eq, upTo]
  congr 2
  simp only [partStart, cdiv]
  omega

/-- What a read of the byte at `x` returns to a domain: zero where the page is not its own (R223). -/
def Rsv.visible (r : Rsv) (dom x : Nat) : Byte := if r.ownedPage dom (x / 0x200000) then Mem.read r.mem x else 0

theorem Mem.readBytes_eq_range' (m : Mem) (a n : Nat) : Mem.readBytes m a n = (List.range' a n).map (Mem.read m) := by
  rw [Mem.readBytes, List.range'_eq_map_range, List.map_map]
  rfl

/-- One part of a read, as the controllers answer it, is what the domain sees of it. -/
theorem Rsv.partRead_eq (r : Rsv) (dom a n : Nat) (p : Nat × Nat) (hp : p ∈ pageParts a n) :
    (if r.ownedPage dom (p.1 / 0x200000) then Mem.readBytes r.mem p.1 p.2 else List.replicate p.2 0)
      = (List.range' p.1 p.2).map (r.visible dom) := by
  obtain ⟨-, -, hpage⟩ := pageParts_bounds a n p hp
  have hx (x : Nat) (h : x ∈ List.range' p.1 p.2) : x / 0x200000 = p.1 / 0x200000 := by
    have := List.mem_range'_1.mp h
    exact hpage x this.1 this.2
  split
  case isTrue hown =>
    rw [Mem.readBytes_eq_range']
    exact List.map_congr_left (fun x h => by simp [Rsv.visible, hx x h, hown])
  case isFalse hown =>
    symm
    rw [List.eq_replicate_iff]
    refine ⟨by simp, fun b hb => ?_⟩
    obtain ⟨x, h, rfl⟩ := List.mem_map.mp hb
    simp [Rsv.visible, hx x h, hown]

theorem Rsv.foreignRead_eq (r : Rsv) (dom a n : Nat) :
    (pageParts a n).flatMap (fun p =>
        if r.ownedPage dom (p.1 / 0x200000) then Mem.readBytes r.mem p.1 p.2 else List.replicate p.2 0)
      = (List.range' a n).map (r.visible dom) := by
  rw [← pageParts_flatMap, List.flatMap_congr (fun p hp => r.partRead_eq dom a n p hp)]

/-- No part of a range without poison is poisoned. -/
theorem Rsv.unitsIn_part (r : Rsv) (dom a n : Nat) (h : r.poisoned a n = false) (p : Nat × Nat) (hp : p ∈ r.reach dom a n) :
    unitsIn r.poison p.1 p.2 = [] := by
  have hbounds : a ≤ p.1 ∧ p.1 + p.2 ≤ a + n := by
    unfold Rsv.reach at hp
    split at hp
    · simp_all
    · obtain ⟨h1, h2, -⟩ := pageParts_bounds a n p (List.mem_filter.mp hp).1
      exact ⟨h1, h2⟩
  have hnone : ∀ u ∈ r.poison, u * 32 < a + n → a < u * 32 + 32 → False := by
    simpa [Rsv.poisoned, unitsIn] using h
  simp only [unitsIn, List.filter_eq_nil_iff, Bool.and_eq_true, decide_eq_true_eq, not_and]
  exact fun u hu h1 h2 => hnone u hu (by omega) (by omega)

/-! ### Denials (R223) -/

/-- The controller of a granule counts a denial. -/
def Rsv.countDenied (r : Rsv) (g : Nat) : Rsv :=
  { r with ctrls := r.ctrls.set (ctrlOf g) { r.ctrls.getD (ctrlOf g) {} with denycnt := (r.ctrls.getD (ctrlOf g) {}).denycnt + 1 } }

theorem ctrlOf_lt (a : Nat) : ctrlOf a < 8 := by
  have field (hi lo : Nat) (h : hi + 1 - lo = 3) : bitsOf a hi lo < 2 ^ 3 := by
    rw [bitsOf, h]; exact Nat.mod_lt _ (by decide)
  exact Nat.xor_lt_two_pow (field 11 9 rfl) (field 23 21 rfl)

/-- A denial counts one for its controller and none for another. -/
theorem Rsv.countDenied_denycnt (r : Rsv) (g k : Nat) (h : r.ctrls.length = 8) (hk : k < 8) :
    ((r.countDenied g).ctrls.getD k {}).denycnt = (r.ctrls.getD k {}).denycnt + BitVec.ofNat 64 (if ctrlOf g = k then 1 else 0) := by
  by_cases hg : ctrlOf g = k
  · simp [Rsv.countDenied, hg, List.getD_eq_getElem?_getD, h, hk]
  · simp [Rsv.countDenied, hg, List.getD_eq_getElem?_getD]

theorem Rsv.foldl_countDenied_denycnt (gs : List Nat) (r : Rsv) (k : Nat) (h : r.ctrls.length = 8) (hk : k < 8) :
    ((gs.foldl Rsv.countDenied r).ctrls.getD k {}).denycnt
      = (r.ctrls.getD k {}).denycnt + BitVec.ofNat 64 (gs.filter (fun g => ctrlOf g == k)).length := by
  induction gs generalizing r with
  | nil => simp
  | cons g gs ih =>
    have hlen : (r.countDenied g).ctrls.length = 8 := by simp [Rsv.countDenied, h]
    rw [List.foldl_cons, ih _ hlen, r.countDenied_denycnt g k h hk, BitVec.add_assoc, ← BitVec.ofNat_add]
    by_cases hg : ctrlOf g = k
    · simp [hg, Nat.add_comm]
    · simp [hg]

theorem Dev.denyGranule_eventChange (d : Dev) (dom kind g : Nat) :
    EventChange (d.setRsv (d.rsv.countDenied g)) (d.denyGranule dom kind g) :=
  (d.setRsv (d.rsv.countDenied g)).raise_eventChange _

theorem Dev.foldl_denyGranule_eventChange (gs : List Nat) (d : Dev) (dom kind : Nat) :
    EventChange (d.setRsv (gs.foldl Rsv.countDenied d.rsv)) (gs.foldl (fun d g => d.denyGranule dom kind g) d) := by
  induction gs generalizing d with
  | nil => exact .refl d
  | cons g gs ih =>
    have first := d.denyGranule_eventChange dom kind g
    have rest := ih (d.denyGranule dom kind g)
    rw [first.rsv] at rest
    exact (first.setRsv _).trans rest

/-- A denial counts every foreign granule and raises events; nothing else changes. -/
theorem Dev.deny_eventChange (d : Dev) (dom a n kind : Nat) :
    EventChange (d.setRsv ((d.rsv.foreign dom a n).foldl Rsv.countDenied d.rsv)) (d.deny dom a n kind) :=
  Dev.foldl_denyGranule_eventChange _ d dom kind

theorem Rsv.foreign_of_sameData {r s : Rsv} (h : r.SameData s) (dom a n : Nat) : s.foreign dom a n = r.foreign dom a n := by
  simp only [Rsv.foreign, Rsv.ownedPage, h.pages]

/-- A denial after a read that counted its parts is counted by every controller whose granules were foreign. -/
theorem Dev.deny_denialsCounted (d : Dev) (r : Rsv) (h : d.rsv.SameData r) (dom a n kind : Nat) :
    DenialsCounted d ((d.setRsv r).deny dom a n kind) dom a n := by
  intro hlen k hk
  have hrsv := ((d.setRsv r).deny_eventChange dom a n kind).rsv
  simp only [Dev.setRsv_rsv, Rsv.foreign_of_sameData h] at hrsv
  rw [Dev.ctrl, hrsv, Rsv.foldl_countDenied_denycnt _ r k (h.ctrls.trans hlen) hk, h.denied k]
  rfl

/-! ### Reads and writes for a domain -/

/-- A read of owned pages without errors returns their bytes and is counted against the budget. -/
theorem Dev.rsvRead_of_reaches (d : Dev) (dom a n : Nat) (h : Reaches d dom a n) :
    d.rsvRead dom a n = (d.setRsv (d.rsv.charge dom a n), .ok (Mem.readBytes d.rsv.mem a n)) := by
  obtain ⟨hin, hown, hpoison, hsoft⟩ := h
  have hunits : unitsIn d.rsv.poison a n = [] := by simpa [Rsv.poisoned] using hpoison
  simp [Dev.rsvRead, rsvPopulated, hin, hown, hpoison, Rsv.reach, d.rsvTouch_clean dom a n hunits hsoft]

/-- A read that takes in foreign pages returns what the domain sees and denies the rest. -/
theorem Dev.rsvRead_of_foreign (d : Dev) (dom a n : Nat) (hin : a + n ≤ 0x6000000000) (hown : d.rsv.owned dom a n = false)
    (hpoison : d.rsv.poisoned a n = false) :
    ∃ r, d.rsv.SameData r
      ∧ d.rsvRead dom a n = ((d.setRsv r).deny dom a n 0, .denied ((List.range' a n).map (d.rsv.visible dom))) := by
  obtain ⟨r, hr, he⟩ := Dev.foldl_rsvTouch_sameData (d.rsv.reach dom a n) d dom (d.rsv.unitsIn_part dom a n hpoison)
  refine ⟨r, hr, ?_⟩
  simp only [Dev.rsvRead, rsvPopulated, hin, decide_true, Bool.not_true, Bool.false_eq_true, if_false, hown, Bool.not_false, if_true, he,
    Rsv.foreignRead_eq]

/-- A store that meets no error in the data units it covers in part stores all its bytes. -/
theorem Dev.rsvStore_of_whole (d : Dev) (a : Nat) (bs : List Byte) (h : Whole64 d a bs.length) :
    d.rsvStore a bs = (d.setRsv (d.rsv.write a bs), false) := by
  have hsoft : d.rsv.soft.filter (fun u => u / 2 ∈ partUnits a bs.length) = [] := by
    simp only [List.filter_eq_nil_iff, decide_eq_true_eq]
    exact fun u hu => h u (List.mem_append_right _ hu)
  have hlost : d.rsv.lostUnits a bs.length = [] := by
    simp only [Rsv.lostUnits, List.filter_eq_nil_iff, List.any_eq_true, beq_iff_eq, not_exists, not_and]
    exact fun u hu p hp hpu => h p (List.mem_append_left _ hp) (hpu ▸ hu)
  simp [Dev.rsvStore, hsoft, hlost, Dev.rsvSoft, Rsv.pieces]

/-- A write to owned pages stores its bytes and is counted against the budget. -/
theorem Dev.rsvWrite_of_owned (d : Dev) (dom a : Nat) (bs : List Byte) (hin : a + bs.length ≤ 0x6000000000)
    (hown : d.rsv.owned dom a bs.length = true) (hwhole : Whole64 d a bs.length) :
    d.rsvWrite dom a bs = (d.setRsv ((d.rsv.charge dom a bs.length).write a bs), .ok []) := by
  have hcharged : Whole64 (d.setRsv (d.rsv.charge dom a bs.length)) a bs.length := by
    simpa only [Whole64, Dev.setRsv_rsv, (d.rsv.charge_sameData dom a bs.length).poison, Rsv.charge_soft] using hwhole
  simp [Dev.rsvWrite, rsvPopulated, hin, hown, Rsv.reach, Dev.rsvStore_of_whole _ a bs hcharged]

/-- A byte that a write brings reads as it was written. -/
theorem Mem.read_writeBytes_within (m : Mem) (a : Nat) (bs : List Byte) (i : Nat) (hi : i < bs.length) :
    some (Mem.read (Mem.writeBytes m a bs) (a + i)) = bs[i]? := by
  rw [Mem.read_writeBytes, if_pos (by omega), Nat.add_sub_cancel_left, List.getD_eq_getElem?_getD]
  simp [hi]

/-- A byte outside a write is as before. -/
theorem Mem.read_writeBytes_outside (m : Mem) (a : Nat) (bs : List Byte) (p : Nat) (hp : p < a ∨ a + bs.length ≤ p) :
    Mem.read (Mem.writeBytes m a bs) p = Mem.read m p := by
  rw [Mem.read_writeBytes, if_neg (by omega)]

end Sys2Proof.Machine
end

section
/-! PROOFS. BAR2 accesses (R223, R362, R364): the answers of the window, and the obligation they settle. -/

namespace Sys2Proof.Machine

open Sys2Proof

/-- A BAR2 access of `n` bytes is answered: it has bytes, stays in its 4 KiB block, and begins below the end of the BAR. -/
def InBar2 (f off n : Nat) : Prop := 0 < n ∧ off % 4096 + n ≤ 4096 ∧ off < 4 * 2 ^ (barLog f - 2)

/-- The domain of the quarter that an offset lies in (R362). -/
def Dev.windowDomain (d : Dev) (f off : Nat) : Option Nat := d.slotDomain f (off / 2 ^ (barLog f - 2))

/-- The reservoir address that an offset reaches through a domain's window (R364). -/
def Dev.windowAt (d : Dev) (f off dom : Nat) : Nat := (d.domain dom).wbase + off % 2 ^ (barLog f - 2)

/-- An access that is answered passes the checks on its offset and length. -/
theorem InBar2.passes {f off n : Nat} (h : InBar2 f off n) : ¬ (n = 0 ∨ 4096 < off % 4096 + n ∨ 4 * 2 ^ (barLog f - 2) ≤ off) := by
  obtain ⟨hpos, hblock, hend⟩ := h
  omega

section
variable {d e : Dev} {f off len dom : Nat} {bs : List Byte}

theorem bar2Access_read_unbound (hin : InBar2 f off len) (hdom : d.windowDomain f off = none) :
    bar2Access f off len none d = d.winDeny.emit (.hostData f (List.replicate len 0) false) := by
  rw [Dev.windowDomain] at hdom
  simp only [bar2Access, Option.map_none, Option.getD_none, if_neg hin.passes, hdom, Option.isSome_none, Bool.false_eq_true, if_false]

theorem bar2Access_read_outside (hin : InBar2 f off len) (hdom : d.windowDomain f off = some dom)
    (hout : 0x6000000000 < d.windowAt f off dom + len) :
    bar2Access f off len none d = d.winDeny.emit (.hostData f (List.replicate len 0) false) := by
  rw [Dev.windowDomain] at hdom
  rw [Dev.windowAt] at hout
  have hpop : rsvPopulated ((d.domain dom).wbase + off % 2 ^ (barLog f - 2)) len = false := decide_eq_false (by omega)
  simp only [bar2Access, Option.map_none, Option.getD_none, if_neg hin.passes, hdom, hpop, Bool.not_false, if_true, Option.isSome_none,
    Bool.false_eq_true, if_false]

variable (hdom : d.windowDomain f off = some dom) (hep : d.epochOk 0x1F0 (d.ownView 0x1F0).epoch = true)
include hdom hep

/-- A read that the controllers answer in full reaches the host as they answer it. -/
theorem bar2Access_read_ok (hin : InBar2 f off len) (hpop : d.windowAt f off dom + len ≤ 0x6000000000)
    (hread : d.rsvRead dom (d.windowAt f off dom) len = (e, .ok bs)) :
    bar2Access f off len none d = e.emit (.hostData f bs false) := by
  rw [Dev.windowDomain] at hdom
  rw [Dev.windowAt] at hpop hread
  have hpop : rsvPopulated ((d.domain dom).wbase + off % 2 ^ (barLog f - 2)) len = true := decide_eq_true hpop
  simp only [bar2Access, Option.map_none, Option.getD_none, if_neg hin.passes, hdom, hpop, hep, Bool.not_true, Bool.false_eq_true, if_false,
    hread]

/-- A read that is denied in part is counted, and reaches the host with its zeros. -/
theorem bar2Access_read_denied (hin : InBar2 f off len) (hpop : d.windowAt f off dom + len ≤ 0x6000000000)
    (hread : d.rsvRead dom (d.windowAt f off dom) len = (e, .denied bs)) :
    bar2Access f off len none d = e.winDeny.emit (.hostData f bs false) := by
  rw [Dev.windowDomain] at hdom
  rw [Dev.windowAt] at hpop hread
  have hpop : rsvPopulated ((d.domain dom).wbase + off % 2 ^ (barLog f - 2)) len = true := decide_eq_true hpop
  simp only [bar2Access, Option.map_none, Option.getD_none, if_neg hin.passes, hdom, hpop, hep, Bool.not_true, Bool.false_eq_true, if_false,
    hread]

/-- A write that the controllers take changes what they change. -/
theorem bar2Access_write_ok {ws : List Byte} (hin : InBar2 f off ws.length) (hpop : d.windowAt f off dom + ws.length ≤ 0x6000000000)
    (hwrite : d.rsvWrite dom (d.windowAt f off dom) ws = (e, .ok bs)) : bar2Access f off len (some ws) d = e := by
  rw [Dev.windowDomain] at hdom
  rw [Dev.windowAt] at hpop hwrite
  have hpop : rsvPopulated ((d.domain dom).wbase + off % 2 ^ (barLog f - 2)) ws.length = true := decide_eq_true hpop
  simp only [bar2Access, Option.map_some, Option.getD_some, if_neg hin.passes, hdom, hpop, hep, Bool.not_true, Bool.false_eq_true, if_false,
    hwrite, reduceCtorEq]

end

end Sys2Proof.Machine

namespace Sys2Proof.Spec

open Sys2Proof Sys2Proof.Machine

theorem gives_bar2Access {d : Dev} {f : Nat} (hq : Quiet d) (hf : f < 256) (hr : (d.func f).inReset = false) (off len : Nat)
    (data : Option (List Byte)) : Gives (.bar2Access f off len data) d (bar2Access f off len data d) := by
  have h := hq.gives (c := .bar2Access f off len data) (g := Dev.onFunc f (bar2Access f off len data)) (fun _ => rfl)
  rwa [onFunc_eq _ hf hr] at h

/-- What a domain sees of a byte of its own, and of another's. -/
theorem visible_of_ownsByte {d : Dev} {dom x : Nat} (h : OwnsByte d dom x) : d.rsv.visible dom x = Mem.read d.rsv.mem x := by
  rw [OwnsByte] at h
  simp [Rsv.visible, h]
theorem visible_of_not_ownsByte {d : Dev} {dom x : Nat} (h : ¬ OwnsByte d dom x) : d.rsv.visible dom x = 0 := by
  rw [OwnsByte] at h
  simp [Rsv.visible, h]

/-- A denied read of the window: counted by the headworks and the controllers, answered with zeros for what is not the domain's own. -/
theorem bar2Access_read_foreign {d : Dev} {f off len dom : Nat} (hin : InBar2 f off len) (hdom : d.windowDomain f off = some dom)
    (hep : d.epochOk 0x1F0 (d.ownView 0x1F0).epoch = true) (hpop : d.windowAt f off dom + len ≤ 0x6000000000)
    (hown : d.rsv.owned dom (d.windowAt f off dom) len = false) (hpoison : d.rsv.poisoned (d.windowAt f off dom) len = false) :
    let e := bar2Access f off len none d
    let ans := (List.range' (d.windowAt f off dom) len).map (d.rsv.visible dom)
    e.hw = { d.hw with windeny := d.hw.windeny + 1 } ∧ e.out.getLast? = some (.hostData f ans false)
      ∧ DenialsCounted d e dom (d.windowAt f off dom) len := by
  obtain ⟨r, hr, hread⟩ := d.rsvRead_of_foreign dom _ len hpop hown hpoison
  have hhw := ((d.setRsv r).deny_eventChange dom (d.windowAt f off dom) len 0).hw
  have hcount := d.deny_denialsCounted r hr dom (d.windowAt f off dom) len 0
  intro e ans
  have he : e = ((d.setRsv r).deny dom (d.windowAt f off dom) len 0).winDeny.emit (.hostData f ans false) :=
    bar2Access_read_denied hdom hep hin hpop hread
  refine ⟨?_, ?_, ?_⟩
  · simp [he, Dev.emit, Dev.winDeny, hhw]
  · simp [he, Dev.emit]
  · rw [he]
    exact hcount

/-- Settles O38: each clause is one answer of the controllers, seen through the window. -/
theorem bar2ReachesTheDomainsWindow : Obligations.Bar2ReachesTheDomainsWindow := by
  unfold Obligations.Bar2ReachesTheDomainsWindow
  intro d f off len bs hq hf hr q
  have gives (data : Option (List Byte)) := gives_bar2Access hq hf hr off len data
  refine ⟨?owned, ?stored, ?foreign, ?outside, ?unbound⟩
  case owned =>
    intro dom hpos hblock hend hdom hep a hreach
    rw [← bar2Access_read_ok hdom hep ⟨hpos, hblock, hend⟩ hreach.1 (d.rsvRead_of_reaches dom a len hreach)]
    exact gives none
  case stored =>
    intro dom hne hblock hend hdom hep a hpop hown hwhole
    have hin : InBar2 f off bs.length := ⟨List.length_pos_iff.mpr hne, hblock, hend⟩
    have he := bar2Access_write_ok (len := len) hdom hep hin hpop (d.rsvWrite_of_owned dom a bs hpop hown hwhole)
    refine ⟨_, he ▸ gives (some bs), rfl, fun i hi => ?_, fun p hp => ?_⟩
    · exact Mem.read_writeBytes_within _ a bs i hi
    · have hmem := (d.rsv.charge_sameData dom a bs.length).mem
      exact (Mem.read_writeBytes_outside _ a bs p hp).trans (by rw [hmem])
  case foreign =>
    intro dom hpos hblock hend hdom hep a hpop hown hpoison
    obtain ⟨hhw, hout, hcount⟩ := bar2Access_read_foreign ⟨hpos, hblock, hend⟩ hdom hep hpop hown hpoison
    refine ⟨_, _, gives none, hhw, hout, by simp, hcount, fun i hi => ?_⟩
    have hbyte : ((List.range' a len).map (d.rsv.visible dom))[i]? = some (d.rsv.visible dom (a + i)) := by simp [hi]
    exact ⟨fun h => by rw [← visible_of_ownsByte h]; exact hbyte, fun h => by rw [← visible_of_not_ownsByte h]; exact hbyte⟩
  case outside =>
    intro dom hpos hblock hend hdom hout
    rw [← Dev.winDeny, ← bar2Access_read_outside ⟨hpos, hblock, hend⟩ hdom hout]
    exact gives none
  case unbound =>
    intro hpos hblock hend hdom
    rw [← Dev.winDeny, ← bar2Access_read_unbound ⟨hpos, hblock, hend⟩ hdom]
    exact gives none

end Sys2Proof.Spec
end

section
/-! PROOFS. The boot ROM (R8, R220, R222, R224, R260, R407, R409, R429, R454): how an attempt begins, fails and ends, and the obligation
that its steps settle. -/

namespace Sys2Proof.Machine

open Sys2Proof Sys2Proof.Spec

/-! ### An attempt begins and fails (R409) -/

/-- An attempt begins at B1, counted, with the fuses as they were (R409, R454). -/
theorem Dev.attempt_boot (d : Dev) :
    d.attempt.boot.step = 1 ∧ d.attempt.boot.backoff = none ∧ d.attempt.boot.waiting = d.md.perst ∧ d.attempt.boot.fuses = d.boot.fuses
      ∧ d.attempt.boot.attempts = if d.boot.attempts = 0xFFFFFFFF then d.boot.attempts else d.boot.attempts + 1 :=
  ⟨rfl, rfl, rfl, rfl, rfl⟩

theorem bootStart_eq {d : Dev} (hready : d.boot.ready = false) (hstep : d.boot.step = 0) (hback : d.boot.backoff = none)
    (hret : d.boot.retired = false) : bootStart d = d.attempt := by
  simp [bootStart, hready, hstep, hback, hret]

theorem bootBackoffExpiry_eq {d : Dev} {t : Nat} (hback : d.boot.backoff = some t) (hstep : d.boot.step = 0xF) :
    bootBackoffExpiry d = (d.atNs t).attempt := by
  simp [bootBackoffExpiry, hback, hstep]

theorem Dev.bootFail_bootFailed (d : Dev) (cause detail : Nat) : BootFailed d (d.bootFail cause detail) cause detail d.ns :=
  ⟨rfl, rfl, rfl, rfl, rfl, rfl, rfl, rfl, rfl, rfl, rfl, rfl⟩

/-- A step that is not waiting for PERST_N overruns its limit at its due time (R407). -/
theorem bootStepTimeout_eq {d : Dev} (hlo : 1 ≤ d.boot.step) (hhi : d.boot.step ≤ 8) (hwait : d.boot.waiting = false) :
    bootStepTimeout d = (d.atNs (d.boot.stepCt + bootLimit d.boot.step)).bootFail 6 d.boot.step := by
  have hstep : ¬ (d.boot.step = 0 ∨ 8 < d.boot.step ∨ d.boot.waiting = true) := by simp [hwait]; omega
  simp only [bootStepTimeout, if_neg hstep]

/-! ### The steps (R407, R408) -/

section
variable {d : Dev} (hwait : d.boot.waiting = false)
include hwait

/-- B1, B2 and B3 fail under their own number when they find a fault. -/
theorem bootStepComplete_not_ok (hstep : d.boot.step = 1 ∨ d.boot.step = 2 ∨ d.boot.step = 3) (mask : Nat) (fails : List Nat) :
    bootStepComplete false mask fails d = d.bootFail d.boot.step 0 := by
  rcases hstep with hstep | hstep | hstep <;> simp [bootStepComplete, hwait, hstep]

/-- B1 with no transition to complete reads the fuses and goes on. -/
theorem bootStepComplete_fusesRead (hstep : d.boot.step = 1) (hcomplete : completeTransition d.boot.fuses = (d.boot.fuses, false))
    (hlife : lifeCycle d.boot.fuses ≠ 3) (hstill : d.md.still = false) (mask : Nat) (fails : List Nat) :
    bootStepComplete true mask fails d = (d.setBoot { d.boot with completed := false, fusesRead := true }).bootStep 2 := by
  simp [bootStepComplete, hwait, hstep, hcomplete, hlife, hstill]

/-- B2 draws DEVSEED, then the firmware region's keys. -/
theorem bootStepComplete_keysDrawn (hstep : d.boot.step = 2) (mask : Nat) (fails : List Nat) :
    bootStepComplete true mask fails d
      = (d.random.2.drawKeys.2.setBoot { d.boot with devseed := d.random.1, fwkey := d.random.2.drawKeys.1 }).bootStep 3 := by
  simp [bootStepComplete, hwait, hstep]

theorem bootStepComplete_five (hstep : d.boot.step = 5) (ok : Bool) (mask : Nat) (fails : List Nat) :
    bootStepComplete ok mask fails d = d.bootB5 mask := by
  simp [bootStepComplete, hwait, hstep]

theorem bootStepComplete_six (hstep : d.boot.step = 6) (ok : Bool) (mask : Nat) (fails : List Nat) :
    bootStepComplete ok mask fails d = d.bootB6 mask := by
  simp [bootStepComplete, hwait, hstep]

theorem bootStepComplete_eight (hstep : d.boot.step = 8) (ok : Bool) (mask : Nat) (fails : List Nat) :
    bootStepComplete ok mask fails d = d.bootB8 := by
  simp [bootStepComplete, hwait, hstep]

end

/-- A transition is interrupted where one word of a pair of intent and state is burnt and the other is not; else B1 has none to complete
(R429). -/
theorem completeTransition_of_settled {f : Mem} (h1 : burnt f 0 = burnt f 4) (h2 : burnt f 8 = burnt f 0xC)
    (h3 : burnt f 0x10 = burnt f 0x14) : completeTransition f = (f, false) := by
  simp [completeTransition, h1, h2, h3]

theorem Dev.bootB5_all_passed (d : Dev) : d.bootB5 0 = (d.setFh { d.fh with corePair := 3, failed := 0 }).bootStep 6 := rfl

/-- One core that passed makes no pair. -/
theorem Dev.bootB5_one_passed (d : Dev) : d.bootB5 6 = d.bootFail 7 0 := rfl

theorem Dev.bootB6_all_trained (d : Dev) : d.bootB6 0
    = (d.setRsv { ({} : Rsv) with ctrls := d.rsv.ctrls.map (fun c => { c with ready := true, selfref := false }) }).bootStep 7 := rfl

theorem Dev.bootB6_failed (d : Dev) {bad : Nat} (h : bad % 256 ≠ 0) : d.bootB6 bad = d.bootFail 5 (bad % 256) := if_pos h

/-! ### Ready (R8, R224, R260, R423) -/

theorem Dev.updateEvent_eventChange (d : Dev) : EventChange d d.updateEvent := d.raiseO_eventChange _ _ _ _ _

/-- A journal record changes the journal alone. -/
theorem Boot.append_frame (b : Boot) (r : JRec) : ∃ j half, b.append r = { b with journal := j, journalHalf := half } := by
  unfold Boot.append
  split <;> exact ⟨_, _, rfl⟩

@[simp] theorem Boot.append_ready (b : Boot) (r : JRec) : (b.append r).ready = b.ready := by
  obtain ⟨_, _, h⟩ := b.append_frame r; rw [h]
@[simp] theorem Boot.append_step (b : Boot) (r : JRec) : (b.append r).step = b.step := by
  obtain ⟨_, _, h⟩ := b.append_frame r; rw [h]
@[simp] theorem Boot.append_fails (b : Boot) (r : JRec) : (b.append r).fails = b.fails := by
  obtain ⟨_, _, h⟩ := b.append_frame r; rw [h]

/-- Promotion writes the journal, the fuses and the update state, and may raise an event; a device that is Ready stays so. -/
theorem Dev.promote_frame (d : Dev) : ∃ b : Boot, b.ready = d.boot.ready ∧ b.step = d.boot.step ∧ b.fails = d.boot.fails
    ∧ EventChange (d.setBoot b) d.promote := by
  unfold Dev.promote
  split
  case h_1 => exact ⟨d.boot, rfl, rfl, rfl, .refl d⟩
  case h_2 m _ =>
    dsimp only
    split
    case isTrue => exact ⟨d.boot, rfl, rfl, rfl, .refl d⟩
    case isFalse =>
      split
      case isTrue =>
        refine ⟨_, ?_, ?_, ?_, Dev.updateEvent_eventChange _⟩ <;> simp
      case isFalse =>
        split
        case isTrue => exact ⟨d.boot, rfl, rfl, rfl, .refl d⟩
        case isFalse => exact ⟨{ d.boot with fuses := burnRevoke (burnSvn d.boot.fuses m.svn) m.revoke m.keyidx }, rfl, rfl, rfl, .refl _⟩

theorem Dev.random_snd (d : Dev) : d.random.2 = d.setFree (d.free + 1) := rfl

@[simp] theorem Dev.setFree_setFree (d : Dev) (m n : Nat) : (d.setFree m).setFree n = d.setFree n := rfl

/-- Four draws make a 256-bit number. -/
theorem Dev.random256_snd (d : Dev) : d.random256.2 = d.setFree (d.free + 4) := by
  simp only [Dev.random256, Dev.random_snd, Dev.setFree_free, Dev.setFree_setFree]

/-- Eight draws make the two keys, and nothing but the count of draws changes. -/
theorem Dev.drawKeys_snd (d : Dev) : d.drawKeys.2 = d.setFree (d.free + 8) := by
  simp only [Dev.drawKeys, Dev.random256_snd, Dev.setFree_free, Dev.setFree_setFree]

/-- Keys depend on the count of draws alone. -/
theorem Dev.drawKeys_fst_congr {d e : Dev} (h : e.free = d.free) : e.drawKeys.1 = d.drawKeys.1 := by
  simp [Dev.drawKeys, Dev.random256, Dev.random, h]

/-- Domain 0 as B8 makes it: with every limit at its largest, and bound to function 0 (R260, R362). -/
def domainZero : Domain :=
  { state := 1, maxStreams := 65536, maxPages := 195584, maxModels := 256, maxBudget := 1000, bind := some (0, 0) }

/-- The device as B8 makes it Ready, before the image's promotion: firmware runs, and domain 0 stands with its keys. -/
def Dev.madeReady (d : Dev) : Dev :=
  let d := d.setFh { d.fh with fwversion := BitVec.ofNat 32 ((d.boot.running.map Manifest.version).getD 0), running := true, mbReady := true }
  let d := d.putDomain 0 domainZero
  let k := d.drawKeys
  let d := k.2.setRsv { k.2.rsv with keys := Tab.put k.2.rsv.keys 0 k.1 }
  d.setBoot { d.boot with ready := true, step := 0, fails := 0 }

theorem Dev.bootB8_eq (d : Dev) :
    d.bootB8 = if d.madeReady.promote.boot.fallback then d.madeReady.promote.updateEvent else d.madeReady.promote := rfl

/-- B8 leaves the device it made Ready, with another boot record that says so too, and perhaps events. -/
theorem Dev.bootB8_frame (d : Dev) : ∃ b : Boot, b.ready = true ∧ b.step = 0 ∧ b.fails = 0 ∧ EventChange (d.madeReady.setBoot b) d.bootB8 := by
  obtain ⟨b, hready, hstep, hfails, hpromote⟩ := d.madeReady.promote_frame
  refine ⟨b, hready, hstep, hfails, ?_⟩
  rw [d.bootB8_eq]
  split
  · exact hpromote.trans (Dev.updateEvent_eventChange _)
  · exact hpromote

theorem Dev.domain_putDomain_other (d : Dev) (n m : Nat) (x : Domain) (h : m ≠ n) : (d.putDomain n x).domain m = d.domain m := by
  simp [Dev.domain, Dev.putDomain, Tab.at_put_other _ _ _ _ _ h]

theorem Dev.madeReady_domains (d : Dev) : d.madeReady.domains = (d.putDomain 0 domainZero).domains := by
  simp [Dev.madeReady, Dev.drawKeys_snd, Dev.putDomain]

theorem Dev.madeReady_domain_zero (d : Dev) : d.madeReady.domain 0 = domainZero := by
  rw [Dev.domain, d.madeReady_domains]
  exact d.domain_putDomain 0 domainZero

theorem Dev.madeReady_domain_other (d : Dev) (n : Nat) (h : n ≠ 0) : d.madeReady.domain n = d.domain n := by
  rw [Dev.domain, d.madeReady_domains]
  exact d.domain_putDomain_other 0 n domainZero h

theorem Dev.madeReady_keys (d : Dev) : Tab.find? d.madeReady.rsv.keys 0 = some d.drawKeys.1 := by
  simp only [Dev.madeReady, Dev.setBoot_rsv, Dev.setRsv_rsv, Tab.find?_put_same]
  exact congrArg some (Dev.drawKeys_fst_congr rfl)

theorem Dev.madeReady_running (d : Dev) : d.madeReady.fh.running = true ∧ d.madeReady.fh.mbReady = true := by
  simp [Dev.madeReady, Dev.drawKeys_snd, Dev.putDomain]

end Sys2Proof.Machine

namespace Sys2Proof.Spec

open Sys2Proof Sys2Proof.Machine

/-- On a device on which the boot ROM may run, a completed step makes its change. -/
theorem gives_bootStepComplete {d e : Dev} (hon : d.bootOn = true) {ok : Bool} {mask : Nat} {fails : List Nat}
    (he : bootStepComplete ok mask fails d = e) : Gives (.bootStepComplete ok mask fails) d e :=
  he ▸ gives_of_onlyIf hon (fun _ => rfl)

/-- What B8 leaves is Ready: firmware runs, and domain 0, bound to function 0, has its keys (R8, R224, R260). -/
theorem ready_of_frame {d e : Dev} {b : Boot} (hready : b.ready = true) (hstep : b.step = 0) (hfails : b.fails = 0)
    (hframe : EventChange (d.madeReady.setBoot b) e) :
    e.boot.ready = true ∧ e.boot.step = 0 ∧ e.boot.fails = 0 ∧ e.fh.running = true ∧ e.fh.mbReady = true ∧ (e.domain 0).state = 1
      ∧ (e.domain 0).bind = some (0, 0) ∧ Tab.find? e.rsv.keys 0 = some d.drawKeys.1 ∧ ∀ n, n ≠ 0 → e.domain n = d.domain n := by
  obtain ⟨hrun, hmb⟩ := d.madeReady_running
  have hboot : e.boot = b := hframe.boot
  have hdomain (n : Nat) : e.domain n = d.madeReady.domain n := by rw [hframe.domain, Dev.domain, Dev.setBoot_domains, ← Dev.domain]
  refine ⟨?_, ?_, ?_, ?_, ?_, ?_, ?_, ?_, fun n hn => ?_⟩
  · rw [hboot, hready]
  · rw [hboot, hstep]
  · rw [hboot, hfails]
  · rw [hframe.running, Dev.setBoot_fh, hrun]
  · rw [hframe.mbReady, Dev.setBoot_fh, hmb]
  · rw [hdomain, d.madeReady_domain_zero, domainZero]
  · rw [hdomain, d.madeReady_domain_zero, domainZero]
  · rw [hframe.rsv, Dev.setBoot_rsv, d.madeReady_keys]
  · rw [hdomain, d.madeReady_domain_other n hn]

/-- Settles O52: each clause is the equation of one step, and a failure is the one of R409. -/
theorem bootRunsItsSteps : Obligations.BootRunsItsSteps := by
  unfold Obligations.BootRunsItsSteps
  intro d hon b begun
  refine ⟨?start, ?expiry, fun hwait => ⟨?fuses, ?notOk, ?keys, ?paired, ?unpaired, ?trained, ?untrained, ?ready, ?timeout⟩⟩
  case start =>
    intro hready hstep hback hret
    refine ⟨d.attempt, ?_, d.attempt_boot, rfl⟩
    rw [← bootStart_eq hready hstep hback hret]
    exact gives_of_onlyIf hon (fun _ => rfl)
  case expiry =>
    intro t hback hstep
    refine ⟨(d.atNs t).attempt, ?_, (d.atNs t).attempt_boot, rfl⟩
    rw [← bootBackoffExpiry_eq hback hstep]
    exact gives_of_onlyIf hon (fun _ => rfl)
  case fuses =>
    intro m l hstep hlife h1 h2 h3 hstill
    have hcomplete := completeTransition_of_settled h1 h2 h3
    exact ⟨_, gives_bootStepComplete hon (bootStepComplete_fusesRead hwait hstep hcomplete hlife.ne hstill m l), rfl, rfl, rfl, rfl, rfl, rfl⟩
  case notOk =>
    intro m l hstep
    exact ⟨_, gives_bootStepComplete hon (bootStepComplete_not_ok hwait hstep m l), d.bootFail_bootFailed _ 0⟩
  case keys =>
    intro m l hstep
    exact ⟨_, gives_bootStepComplete hon (bootStepComplete_keysDrawn hwait hstep m l), rfl, rfl, rfl, rfl⟩
  case paired =>
    intro ok l hstep
    exact ⟨_, gives_bootStepComplete hon ((bootStepComplete_five hwait hstep ok 0 l).trans d.bootB5_all_passed), rfl, rfl, rfl⟩
  case unpaired =>
    intro ok l hstep
    have hfail := (bootStepComplete_five hwait hstep ok 6 l).trans d.bootB5_one_passed
    exact ⟨_, gives_bootStepComplete hon hfail, d.bootFail_bootFailed 7 0⟩
  case trained =>
    intro ok l hstep
    have hdone := (bootStepComplete_six hwait hstep ok 0 l).trans d.bootB6_all_trained
    refine ⟨_, gives_bootStepComplete hon hdone, rfl, rfl, rfl, rfl, fun c hc => ?_⟩
    obtain ⟨c', -, rfl⟩ := List.mem_map.mp hc
    rfl
  case untrained =>
    intro ok m l hstep hm
    have hfail := (bootStepComplete_six hwait hstep ok m l).trans (d.bootB6_failed hm)
    exact ⟨_, gives_bootStepComplete hon hfail, d.bootFail_bootFailed 5 _⟩
  case ready =>
    intro ok m l hstep
    obtain ⟨b', hready, hzero, hfails, hframe⟩ := d.bootB8_frame
    exact ⟨_, gives_bootStepComplete hon (bootStepComplete_eight hwait hstep ok m l), ready_of_frame hready hzero hfails hframe⟩
  case timeout =>
    intro hlo hhi
    refine ⟨_, ?_, rfl, Dev.bootFail_bootFailed (d.atNs (d.boot.stepCt + bootLimit d.boot.step)) 6 d.boot.step⟩
    rw [← bootStepTimeout_eq hlo hhi hwait]
    exact gives_of_onlyIf hon (fun _ => rfl)

end Sys2Proof.Spec
end

section
/-! PROOFS. Tables whose values all pass through a function. -/

namespace Sys2Proof

variable {α : Type}

theorem Tab.find?_mapv (t : Tab α) (f : Nat → α → α) (k : Nat) : Tab.find? (Tab.mapv t f) k = (Tab.find? t k).map (f k) := by
  induction t with
  | nil => rfl
  | cons p r ih =>
    obtain ⟨i, v⟩ := p
    by_cases h : i = k
    · subst h; simp [Tab.mapv, Tab.find?]
    · simpa [Tab.mapv, Tab.find?, h] using ih

/-- Two tables, of which the second holds the values of the first passed through `f`, are related at every key where `f` relates a value to
its image and the default is related to itself. -/
theorem Tab.at_mapv_rel {t : Tab α} {f : Nat → α → α} {d : α} {k : Nat} {R : α → α → Prop} (hd : R d d) (hf : ∀ v, R v (f k v)) :
    R (Tab.at t d k) (Tab.at (Tab.mapv t f) d k) := by
  unfold Tab.at
  rw [Tab.find?_mapv]
  cases Tab.find? t k with
  | none => exact hd
  | some v => exact hf v

theorem Tab.at_mapv_listed {t : Tab α} {k : Nat} (h : (Tab.find? t k).isSome = true) (f : Nat → α → α) (d : α) :
    Tab.at (Tab.mapv t f) d k = f k (Tab.at t d k) := by
  obtain ⟨v, hv⟩ := Option.isSome_iff_exists.mp h
  simp [Tab.at, Tab.find?_mapv, hv]

end Sys2Proof
end

section
/-! PROOFS. The end of a run (R34, R82, R110, R142): what merging flags, stopping a run and ending a period change. -/

namespace Sys2Proof.Machine

open Sys2Proof Sys2Proof.Spec

theorem EventChange.basins {d e : Dev} (h : EventChange d e) : e.basins = d.basins := by obtain ⟨_, _, _, _, _, _, rfl⟩ := h; rfl
theorem EventChange.cad {d e : Dev} (h : EventChange d e) : e.cad = d.cad := by obtain ⟨_, _, _, _, _, _, rfl⟩ := h; rfl
theorem EventChange.streams {d e : Dev} (h : EventChange d e) : e.streams = d.streams := by obtain ⟨_, _, _, _, _, _, rfl⟩ := h; rfl
theorem EventChange.flt {d e : Dev} (h : EventChange d e) : e.flt = d.flt := by obtain ⟨_, _, _, _, _, _, rfl⟩ := h; rfl

theorem Dev.raiseS_eventChange (d : Dev) (type source i d0 d1 d2 : Nat) : EventChange d (d.raiseS type source i d0 d1 d2) :=
  d.raise_eventChange _

/-- A device whose table of basins is another's with basin `b` replaced holds the replacement there and the same basins elsewhere. -/
theorem Dev.basin_of_put {d e : Dev} {b : Nat} {y : Basin} (h : e.basins = Tab.put d.basins b y) :
    e.basin b = y ∧ ∀ n, n ≠ b → e.basin n = d.basin n := by
  constructor
  · rw [Dev.basin, h, Tab.at_put_same]
  · intro n hn
    rw [Dev.basin, h, Tab.at_put_other _ _ _ _ _ hn, Dev.basin]

/-! ### Periods (R244, R464) -/

/-- A phase mark changes training contexts alone. -/
theorem Dev.phaseMark_frame (d : Dev) (r : Run) (f : Train → Nat → Nat → Train) : ∃ ts, d.phaseMark r f = d.setTrains ts := by
  unfold Dev.phaseMark
  split
  · split
    · exact ⟨_, rfl⟩
    · exact ⟨d.trains, rfl⟩
  · exact ⟨d.trains, rfl⟩

/-- The end of a period changes its stream and its training context alone. -/
theorem Dev.closePeriod_frame (d : Dev) (i : Nat) : ∃ ts ss, d.closePeriod i = (d.setTrains ts).setStreams ss := by
  unfold Dev.closePeriod
  split
  · split
    · exact ⟨_, _, rfl⟩
    · exact ⟨d.trains, _, rfl⟩
  · exact ⟨d.trains, _, rfl⟩

/-- A run that posts ends its stream's period, which changes the stream and its training context alone. -/
theorem Dev.postEnds_frame (d : Dev) (r : Run) (fin : Nat) : ∃ ts ss, d.postEnds r fin = (d.setTrains ts).setStreams ss := by
  unfold Dev.postEnds
  dsimp only
  split
  · exact ⟨d.trains, d.streams, rfl⟩
  · obtain ⟨ts, ss, h⟩ := Dev.closePeriod_frame (d.putStream (runIndex r) _) (runIndex r)
    exact ⟨ts, ss, h⟩

@[simp] theorem Dev.postEnds_basins (d : Dev) (r : Run) (fin : Nat) : (d.postEnds r fin).basins = d.basins := by
  obtain ⟨_, _, h⟩ := d.postEnds_frame r fin; rw [h]; rfl
@[simp] theorem Dev.postEnds_cad (d : Dev) (r : Run) (fin : Nat) : (d.postEnds r fin).cad = d.cad := by
  obtain ⟨_, _, h⟩ := d.postEnds_frame r fin; rw [h]; rfl

/-- A run that does not post ends no period. -/
theorem Dev.postEnds_of_no_post (d : Dev) {r : Run} (h : r.post = false) (fin : Nat) : d.postEnds r fin = d := by
  simp [Dev.postEnds, h]

/-! ### Flags and counts (R82, R142) -/

/-- The stream of a run once the run's flags and counts are merged into it. -/
def Stream.merged (s : Stream) (x : Basin) (a : Active) : Stream :=
  { s with flags := s.flags ||| x.flags.sum, novf := satAdd (2 ^ 64 - 1) s.novf a.novf, nsat := satAdd (2 ^ 64 - 1) s.nsat a.nsat,
           nvan := satAdd (2 ^ 64 - 1) s.nvan a.nvan, novb := s.novb + BitVec.ofNat 32 a.novb,
           period := s.period.map (fun p => { p with trunc := p.trunc || a.trunc, ovb := p.ovb || decide (0 < a.novb) }) }

/-- A basin whose flags are merged: its engine words are clear, and its counters are those of `p`. -/
def Basin.flagsMerged (x : Basin) (p : PerfRegs) : Basin := { x with flags := EngineFlags.reset, perf := p }

/-- Merging clears the basin's flag words and counts its clocks; besides the basin it changes training contexts, two open values and, where
the run belongs to it, the stream. -/
theorem Dev.mergeFlags_frame (d : Dev) (b : Nat) (a : Active) : ∃ ts n p,
    let e := ((d.setTrains ts).setFree n).putBasin b ((d.basin b).flagsMerged p)
    d.mergeFlags b a
      = if a.run.entry.isNone ∨ handleOf (runIndex a.run) (d.stream (runIndex a.run)) ≠ a.run.handle then e
        else e.putStream (runIndex a.run) ((d.stream (runIndex a.run)).merged (d.basin b) a) := by
  obtain ⟨ts, hts⟩ := d.phaseMark_frame a.run Train.phaseEnd
  unfold Dev.mergeFlags
  rw [hts]
  exact ⟨ts, _, _, rfl⟩

theorem Dev.mergeFlags_basins (d : Dev) (b : Nat) (a : Active) :
    ∃ p, (d.mergeFlags b a).basins = Tab.put d.basins b ((d.basin b).flagsMerged p) := by
  obtain ⟨_, _, p, h⟩ := d.mergeFlags_frame b a
  refine ⟨p, ?_⟩
  rw [h]
  split <;> rfl

@[simp] theorem Dev.mergeFlags_cad (d : Dev) (b : Nat) (a : Active) : (d.mergeFlags b a).cad = d.cad := by
  obtain ⟨_, _, _, h⟩ := d.mergeFlags_frame b a
  rw [h]
  split <;> rfl

/-- The stream that a run names takes its flags and counts. -/
theorem Dev.mergeFlags_stream (d : Dev) (b : Nat) (a : Active) (hentry : a.run.entry.isSome = true)
    (hname : handleOf (runIndex a.run) (d.stream (runIndex a.run)) = a.run.handle) :
    (d.mergeFlags b a).stream (runIndex a.run) = (d.stream (runIndex a.run)).merged (d.basin b) a := by
  obtain ⟨_, _, _, h⟩ := d.mergeFlags_frame b a
  have hnot : ¬ (a.run.entry.isNone ∨ handleOf (runIndex a.run) (d.stream (runIndex a.run)) ≠ a.run.handle) := by
    simp [hname, Option.isSome_iff_ne_none.mp hentry]
  rw [h, if_neg hnot, Dev.stream_putStream]

/-! ### Stopping (R34, R110) -/

/-- What cancelled transfers have had acknowledged changes the reservoir and the open values alone. -/
theorem Dev.standAcked_frame (d : Dev) (dom : Nat) (ops : List Op) : ∃ n r, d.standAcked dom ops = (d.setFree n).setRsv r := by
  unfold Dev.standAcked
  induction ops generalizing d with
  | nil => exact ⟨d.free, d.rsv, rfl⟩
  | cons o ops ih =>
    rw [List.foldl_cons]
    split
    · obtain ⟨n, r, h⟩ := ih (Dev.setRsv _ _)
      exact ⟨n, r, h⟩
    · exact ih d

/-- A period that fails, or not, changes its stream alone. -/
theorem Dev.failRun_frame (d : Dev) (r : Run) (code : Nat) : ∃ ss, d.failRun r code = d.setStreams ss := by
  unfold Dev.failRun
  dsimp only
  split
  · exact ⟨_, rfl⟩
  · exact ⟨d.streams, rfl⟩

@[simp] theorem Dev.failRun_basins (d : Dev) (r : Run) (code : Nat) : (d.failRun r code).basins = d.basins := by
  obtain ⟨_, h⟩ := d.failRun_frame r code; rw [h]; rfl
@[simp] theorem Dev.failRun_cad (d : Dev) (r : Run) (code : Nat) : (d.failRun r code).cad = d.cad := by
  obtain ⟨_, h⟩ := d.failRun_frame r code; rw [h]; rfl

@[simp] theorem Dev.failRun_flt (d : Dev) (r : Run) (code : Nat) : (d.failRun r code).flt = d.flt := by
  obtain ⟨_, h⟩ := d.failRun_frame r code; rw [h]; rfl

/-- The period of a run's own stream that has not failed yet fails with the code (R464). -/
theorem Dev.failRun_fails {d : Dev} {r : Run} {p : Period} (hentry : r.entry.isSome = true)
    (hgen : (d.stream (runIndex r)).gen = r.handle % 65536) (hperiod : (d.stream (runIndex r)).period = some p) (hfail : p.fail = 0)
    (code : Nat) : ((d.failRun r code).stream (runIndex r)).period.map Period.fail = some code := by
  simp [Dev.failRun, hentry, hgen, failPeriod, hperiod, hfail]

/-- The basin of a run that was stopped: what it held of the run is gone. -/
def Basin.afterStop (y : Basin) (q : Seq) (a : Active) (code pc : Nat) : Basin :=
  { y.dropPartials a.run.handle with seq := q.stopped code pc, eng := (y.dropPartials a.run.handle).eng.idle }

/-- Stopping a run merges its flags, empties its basin's sequencer, fails its period, and raises an event; an overrun is counted. -/
theorem Dev.stopRun_eq {d : Dev} {b : Nat} {a : Active} (h : (d.basin b).seq.active = some a) (code pc : Nat) :
    d.stopRun b code pc =
      let m := (d.standAcked a.run.domain (d.basin b).seq.ops).mergeFlags b a
      let e := (m.putBasin b ((m.basin b).afterStop (d.basin b).seq a code pc)).failRun a.run (0x100 + code)
      (if code = 8 then e.setCad { e.cad with ovrcnt := e.cad.ovrcnt + 1 } else e).raiseS 1 b (runIndex a.run) a.run.lbasin code pc := by
  unfold Dev.stopRun
  dsimp only
  rw [h]
  rfl

theorem Dev.stopRun_basins {d : Dev} {b : Nat} {a : Active} (h : (d.basin b).seq.active = some a) (code pc : Nat) :
    ∃ y : Basin, (d.stopRun b code pc).basins = Tab.put d.basins b y ∧ y.seq = (d.basin b).seq.stopped code pc
      ∧ y.store = (d.basin b).store := by
  obtain ⟨n, r, hack⟩ := d.standAcked_frame a.run.domain (d.basin b).seq.ops
  obtain ⟨p, hmerge⟩ := ((d.setFree n).setRsv r).mergeFlags_basins b a
  have hbasin := (Dev.basin_of_put hmerge).1
  refine ⟨(((((d.setFree n).setRsv r).mergeFlags b a).basin b).afterStop (d.basin b).seq a code pc), ?_, rfl, ?_⟩
  · rw [Dev.stopRun_eq h, hack]
    dsimp only
    rw [(Dev.raiseS_eventChange _ _ _ _ _ _ _).basins, apply_ite Dev.basins, Dev.setCad_basins, ite_self, Dev.failRun_basins, Dev.putBasin,
      Dev.setBasins_basins, hmerge, Tab.put_put]
    rfl
  · exact congrArg (fun x => (x.afterStop (d.basin b).seq a code pc).store) hbasin

theorem Dev.stopRun_cad {d : Dev} {b : Nat} {a : Active} (h : (d.basin b).seq.active = some a) (code pc : Nat) :
    (d.stopRun b code pc).cad = if code = 8 then { d.cad with ovrcnt := d.cad.ovrcnt + 1 } else d.cad := by
  obtain ⟨n, r, hack⟩ := d.standAcked_frame a.run.domain (d.basin b).seq.ops
  rw [Dev.stopRun_eq h, hack]
  dsimp only
  rw [(Dev.raiseS_eventChange _ _ _ _ _ _ _).cad, apply_ite Dev.cad]
  simp [Dev.putBasin]

/-! ### The two ends of a run -/

/-- A run still executing at its end offset is stopped there. -/
theorem runEndOffset_eq {d : Dev} {b : Nat} {a : Active} (h : (d.basin b).seq.active = some a) :
    runEndOffset b d = ((d.atNs (a.slotCt + a.fin)).stopRun b 8 (d.basin b).seq.pc).postEnds a.run a.fin := by
  unfold runEndOffset
  rw [h]

/-- A training run that has retired changes its training context alone. -/
theorem Dev.runRetired_frame (d : Dev) (r : Run) : ∃ ts, d.runRetired r = d.setTrains ts := by
  unfold Dev.runRetired
  split
  · split
    · exact ⟨_, rfl⟩
    · exact ⟨d.trains, rfl⟩
  · exact ⟨d.trains, rfl⟩

/-- The basin of a run that has ended of itself. -/
def Basin.afterEnd (y : Basin) (a : Active) : Basin :=
  { y.dropPartials a.run.handle with seq := { y.seq with active := none, held := none } }

/-- A run that has ended, in time and with nothing in flight, merges its flags and leaves its basin; one that does not post ends no
period. -/
theorem runFlagMerge_eq {d : Dev} {b : Nat} {a : Active} (h : (d.basin b).seq.active = some a) (hend : a.ended = true)
    (hops : (d.basin b).seq.ops = []) (htime : d.cad.ct ≤ (a.slotCt + a.fin) * 65536) (hpost : a.run.post = false) :
    ∃ ts p, runFlagMerge b d = ((d.mergeFlags b a).putBasin b (((d.basin b).flagsMerged p).afterEnd a)).setTrains ts
      ∧ (runFlagMerge b d).basins = Tab.put d.basins b (((d.basin b).flagsMerged p).afterEnd a) := by
  obtain ⟨ts, hts⟩ := (d.mergeFlags b a).runRetired_frame a.run
  obtain ⟨p, hbasins⟩ := d.mergeFlags_basins b a
  have heq : runFlagMerge b d = ((d.mergeFlags b a).putBasin b (((d.basin b).flagsMerged p).afterEnd a)).setTrains ts := by
    unfold runFlagMerge
    dsimp only
    rw [h]
    dsimp only
    rw [if_neg (by simp [hend, hops, htime]), hts, Dev.postEnds_of_no_post _ hpost, ← (Dev.basin_of_put hbasins).1]
    rfl
  refine ⟨ts, p, heq, ?_⟩
  rw [heq, Dev.setTrains_basins, Dev.putBasin, Dev.setBasins_basins, hbasins, Tab.put_put]

end Sys2Proof.Machine

namespace Sys2Proof.Spec

open Sys2Proof Sys2Proof.Machine

/-- Settles O25: a stop empties the sequencer and counts the overrun, and the merge of a run that has ended writes its basin and its
stream. -/
theorem runsEndAndMergeTheirFlags : Obligations.RunsEndAndMergeTheirFlags := by
  unfold Obligations.RunsEndAndMergeTheirFlags
  intro d b a hquiet hactive
  refine ⟨?atOffset, ?atEnd⟩
  case atOffset =>
    obtain ⟨y, hbasins, hseq, hstore⟩ :=
      Dev.stopRun_basins (d := d.atNs (a.slotCt + a.fin)) hactive 8 (d.basin b).seq.pc
    have hcad := Dev.stopRun_cad (d := d.atNs (a.slotCt + a.fin)) hactive 8 (d.basin b).seq.pc
    refine ⟨_, hquiet.gives (fun _ => rfl), ?_⟩
    rw [runEndOffset_eq hactive]
    obtain ⟨hsame, hother⟩ := Dev.basin_of_put (d := d) ((Dev.postEnds_basins _ a.run a.fin).trans hbasins)
    rw [hsame, hseq, hstore, Dev.postEnds_cad, hcad]
    exact ⟨rfl, rfl, rfl, rfl, rfl, rfl, hother⟩
  case atEnd =>
    intro hend hops htime hpost i s
    obtain ⟨ts, p, hmerge, hbasins⟩ := runFlagMerge_eq hactive hend hops htime hpost
    refine ⟨_, hquiet.gives (fun _ => rfl), ?_⟩
    obtain ⟨hsame, hother⟩ := Dev.basin_of_put hbasins
    rw [hsame]
    refine ⟨rfl, rfl, rfl, rfl, hother, fun q hq => ?held, fun hentry hname => ?stream⟩
    case held => simpa using (List.mem_filter.mp hq).2
    case stream =>
      have hstream : (runFlagMerge b d).stream i = s.merged (d.basin b) a := by
        rw [hmerge]
        exact d.mergeFlags_stream b a hentry hname
      rw [hstream]
      exact ⟨rfl, rfl, rfl, rfl⟩

end Sys2Proof.Spec
end

section
/-! PROOFS. What a message or a change of link state leaves unchanged (R301, R323, R324, R330). -/

namespace Sys2Proof.Machine

open Sys2Proof

/-- From `d` to `e` nothing has changed but ports, the pair's registers, training contexts, and what an event or a message writes. -/
def LinkChange (d e : Dev) : Prop :=
  ∃ ps pr ts fs fh hm o, e = { d with ports := ps, pair := pr, trains := ts, funcs := fs, fh := fh, hostMem := hm, out := o }

theorem LinkChange.refl (d : Dev) : LinkChange d d := ⟨_, _, _, _, _, _, _, rfl⟩

theorem LinkChange.trans {a b c : Dev} (hab : LinkChange a b) (hbc : LinkChange b c) : LinkChange a c := by
  obtain ⟨_, _, _, _, _, _, _, rfl⟩ := hab
  obtain ⟨_, _, _, _, _, _, _, rfl⟩ := hbc
  exact ⟨_, _, _, _, _, _, _, rfl⟩

theorem LinkChange.ite {d x y : Dev} {c : Prop} [Decidable c] (hx : LinkChange d x) (hy : LinkChange d y) :
    LinkChange d (if c then x else y) := by
  split
  · exact hx
  · exact hy

theorem EventChange.linkChange {d e : Dev} (h : EventChange d e) : LinkChange d e := by
  obtain ⟨_, _, _, _, _, _, rfl⟩ := h
  exact ⟨_, _, _, _, _, _, _, rfl⟩

theorem LinkChange.basins {d e : Dev} (h : LinkChange d e) : e.basins = d.basins := by obtain ⟨_, _, _, _, _, _, _, rfl⟩ := h; rfl
theorem LinkChange.cad {d e : Dev} (h : LinkChange d e) : e.cad = d.cad := by obtain ⟨_, _, _, _, _, _, _, rfl⟩ := h; rfl
theorem LinkChange.streams {d e : Dev} (h : LinkChange d e) : e.streams = d.streams := by
  obtain ⟨_, _, _, _, _, _, _, rfl⟩ := h; rfl
theorem LinkChange.rsv {d e : Dev} (h : LinkChange d e) : e.rsv = d.rsv := by obtain ⟨_, _, _, _, _, _, _, rfl⟩ := h; rfl
theorem LinkChange.domains {d e : Dev} (h : LinkChange d e) : e.domains = d.domains := by
  obtain ⟨_, _, _, _, _, _, _, rfl⟩ := h; rfl
theorem LinkChange.pow {d e : Dev} (h : LinkChange d e) : e.pow = d.pow := by obtain ⟨_, _, _, _, _, _, _, rfl⟩ := h; rfl

theorem Dev.setPair_linkChange (d : Dev) (p : Pair) : LinkChange d (d.setPair p) := ⟨_, _, _, _, _, _, _, rfl⟩
theorem Dev.putPort_linkChange (d : Dev) (p : Nat) (x : Port) : LinkChange d (d.putPort p x) := ⟨_, _, _, _, _, _, _, rfl⟩

/-! ### Messages -/

theorem Dev.transmit_linkChange (d : Dev) (p : Nat) (f : Frame) : LinkChange d (d.transmit p f) := by
  unfold Dev.transmit
  dsimp only
  split
  · exact .refl d
  · exact ⟨_, _, _, _, _, _, _, rfl⟩

theorem Dev.launch_linkChange (d : Dev) (p : Nat) (f : Frame) : LinkChange d (d.launch p f) :=
  (d.putPort_linkChange p _).trans (Dev.transmit_linkChange _ _ _)

theorem Dev.egress_linkChange (d : Dev) (p n : Nat) : LinkChange d (d.egress p n) := by
  induction n generalizing d with
  | zero => exact .refl d
  | succ n ih =>
    rw [Dev.egress]
    split
    · exact .refl d
    · exact ((d.putPort_linkChange p _).trans (Dev.launch_linkChange _ _ _)).trans (ih _)

theorem Dev.sendMsg_linkChange (d : Dev) (code rtag : Nat) (payload : List Byte) : LinkChange d (d.sendMsg code rtag payload) :=
  (d.putPort_linkChange 4 _).trans (Dev.egress_linkChange _ _ _)

theorem Dev.sendJoin_linkChange (d : Dev) : LinkChange d d.sendJoin :=
  (d.setPair_linkChange _).trans (Dev.sendMsg_linkChange _ _ _ _)

/-! ### The pair -/

theorem Dev.pairEvent_linkChange (d : Dev) : LinkChange d d.pairEvent := (d.raiseO_eventChange _ _ _ _ _).linkChange

theorem Dev.setPairState_linkChange (d : Dev) (st : Nat) : LinkChange d (d.setPairState st) := by
  unfold Dev.setPairState
  split
  · exact .refl d
  · exact (d.setPair_linkChange _).trans (Dev.pairEvent_linkChange _)

theorem Dev.rejoin_linkChange (d : Dev) (j : Join) : LinkChange d (d.rejoin j) := d.setPair_linkChange _

theorem Dev.tryPair_linkChange (d : Dev) (j : Join) : LinkChange d (d.tryPair j) := by
  have hjoined : LinkChange d (d.sendJoin.rejoin j) := d.sendJoin_linkChange.trans (Dev.rejoin_linkChange _ j)
  have hpaired (p : Pair) : LinkChange d (((d.setPair p).setPairState 2).rejoin j) :=
    ((d.setPair_linkChange p).trans (Dev.setPairState_linkChange _ 2)).trans (Dev.rejoin_linkChange _ j)
  exact .ite (.refl d) (.ite ((d.setPair_linkChange _).trans (Dev.pairEvent_linkChange _)) (.ite hjoined (.ite (.refl d) (hpaired _))))

theorem Dev.comparePend_linkChange (d : Dev) : LinkChange d d.comparePend := by
  unfold Dev.comparePend
  split
  · exact .refl d
  · dsimp only
    split
    · exact d.sendJoin_linkChange
    · exact d.sendJoin_linkChange.trans (Dev.tryPair_linkChange _ _)

/-! ### Ports that go DOWN (R301, R385) -/

theorem Dev.linkEvent_linkChange (d : Dev) (p : Nat) : LinkChange d (d.linkEvent p) := (d.raiseO_eventChange _ _ _ _ _).linkChange

theorem Dev.unpair_linkChange (d : Dev) : LinkChange d d.unpair := (d.setPair_linkChange _).trans (Dev.setPairState_linkChange _ _)

theorem Dev.portDown_linkChange (d : Dev) (p cause : Nat) : LinkChange d (d.portDown p cause) := by
  have hdown (x : Port) : LinkChange d ((d.putPort p x).linkEvent p) := (d.putPort_linkChange p x).trans (Dev.linkEvent_linkChange _ p)
  have hlost (e : Dev) : LinkChange e (if (d.port p).state = 3 then e.offloadLost else e) := .ite ⟨_, _, _, _, _, _, _, rfl⟩ (.refl e)
  have hmirror (e : Dev) (q : Pair) : LinkChange e (if q.detached then (e.setPair q).unpair
      else if (d.port p).state = 3 ∧ q.state = 2 then (e.setPair q).setPairState 3 else e.setPair q) :=
    (e.setPair_linkChange q).trans (.ite (Dev.unpair_linkChange _) (.ite (Dev.setPairState_linkChange _ 3) (.refl _)))
  exact .ite (.refl d) (.ite (hdown _) (((hdown _).trans (hlost _)).trans (hmirror _ _)))

theorem Dev.portsDown_linkChange (d : Dev) (cause : Option Nat) : LinkChange d (d.portsDown cause) := by
  unfold Dev.portsDown
  generalize List.range 5 = ps
  induction ps generalizing d with
  | nil => exact .refl d
  | cons p ps ih => exact (d.portDown_linkChange p _).trans (ih _)

end Sys2Proof.Machine
end

section
/-! PROOFS. Swaps and steps of CT (R235, R237, R245, R246, R252). -/

namespace Sys2Proof.Machine

open Sys2Proof Sys2Proof.Spec

/-! ### Tables of the two copies -/

/-- A copy's table aside, the cadence unit stays as it was. -/
theorem Cad.setTable_frame (c : Cad) (k : Nat) (t : Option Table) : ∃ t0 t1, c.setTable k t = { c with table0 := t0, table1 := t1 } := by
  unfold Cad.setTable
  split <;> exact ⟨_, _, rfl⟩

@[simp] theorem Cad.table_setTable (c : Cad) (k : Nat) (t : Option Table) : (c.setTable k t).table k = t := by
  unfold Cad.setTable Cad.table
  split <;> rfl

theorem Cad.table_setTable_shadow (c : Cad) {k : Nat} (hk : k ≤ 1) (t : Option Table) :
    (c.setTable k t).table (1 - k) = c.table (1 - k) := by
  obtain rfl | rfl : k = 0 ∨ k = 1 := by omega
  · rfl
  · rfl

theorem Cad.active_of_activeTable {c : Cad} {t : Table} (h : c.activeTable = some t) : c.active = true := by
  unfold Cad.activeTable at h
  split at h
  · assumption
  · contradiction

/-! ### Steps of CT -/

/-- A step of CT moves what is timed from a CT, and nothing else (R237). -/
theorem Dev.stepCt_ctStepped (w : Dev) (c : Cad) (n : Int) (h0 : c.table0 = w.cad.table0) (h1 : c.table1 = w.cad.table1)
    (hdev : c.dev = w.cad.dev) (hsel : c.sel = w.cad.sel) : CtStepped w ((w.setCad c).stepCt n) := by
  refine ⟨rfl, fun b => ?basin, fun i => ?stream, rfl, rfl, rfl, h0, h1, hdev, hsel⟩
  case basin =>
    exact Tab.at_mapv_rel (t := w.basins) (d := Basin.reset) (f := fun _ x => { x with cis := x.cis.stepCt n })
      (R := fun (x y : Basin) => y = { x with cis := y.cis }) rfl (fun _ => rfl)
  case stream =>
    exact Tab.at_mapv_rel (t := w.streams) (d := {}) (f := fun _ s => s.stepCt n)
      (R := fun (x y : Stream) => y = { x with period := y.period, due := y.due }) rfl (fun _ => rfl)

/-- The cadence unit as a time step leaves it but for the step of CT itself: at the start of the next frame, of a table that starts
`n` ns later (R237). -/
def Cad.newFrame (c : Cad) (t : Table) (n : Int) : Cad :=
  let c := c.setTable c.copy (some (t.shift n))
  { c with slew := 0, diverged := false, stepPend := none, frameInTable := c.frameInTable + 1, slot := 0, strobed := false, frame := c.frame + 1 }

theorem Cad.newFrame_spec {c : Cad} {t : Table} {n : Int} (h : c.active = true) :
    (c.newFrame t n).ct = c.ct ∧ (c.newFrame t n).frameInTable = c.frameInTable + 1
      ∧ (c.newFrame t n).activeTable = some { t with fstart := ((t.fstart : Int) + n).toNat } := by
  have htable : (c.newFrame t n).table c.copy = some (t.shift n) := c.table_setTable c.copy (some (t.shift n))
  obtain ⟨_, _, hframe⟩ := c.setTable_frame c.copy (some (t.shift n))
  have hactive : (c.newFrame t n).active = true ∧ (c.newFrame t n).copy = c.copy := by
    rw [Cad.newFrame, hframe]
    exact ⟨h, rfl⟩
  refine ⟨?_, ?_, ?_⟩
  · rw [Cad.newFrame, hframe]
  · rw [Cad.newFrame, hframe]
  · rw [Cad.activeTable, if_pos hactive.1, hactive.2, htable]
    rfl

/-- With no swap pending, a time step starts the next frame and moves CT. -/
theorem timeStepApply_eq {d : Dev} {n : Int} {t : Table} (hstep : d.cad.stepPend = some n) (htable : d.cad.activeTable = some t)
    (hswap : d.cad.swapAt = none) :
    timeStepApply d = ((d.atNs d.nextFrame).setCad ((d.atNs d.nextFrame).cad.newFrame t n)).stepCt (n * 65536) := by
  have hnone : ((d.atNs d.nextFrame).cad.setTable (d.atNs d.nextFrame).cad.copy (some (t.shift n))).swapAt = none := by
    obtain ⟨_, _, h⟩ := (d.atNs d.nextFrame).cad.setTable_frame (d.atNs d.nextFrame).cad.copy (some (t.shift n))
    rw [h]
    exact hswap
  simp only [timeStepApply, hstep, htable, hnone, Cad.newFrame]

/-! ### Swaps -/

/-- The cadence unit once the shadow copy is in force and the other copy holds no table (R245). -/
def Cad.swapped (c : Cad) : Cad :=
  let n := c.shadow
  let c := c.setTable c.copy none
  { c with copy := n, active := true, slot := 0, frameInTable := 0, strobed := false, swapAt := none, swapcnt := c.swapcnt + 1,
           frame := if c.active && (c.strobed || c.slot != 0) then c.frame + 1 else c.frame }

theorem Cad.swapped_spec {c : Cad} (h : c.copy ≤ 1) :
    c.swapped.ct = c.ct ∧ c.swapped.copy = 1 - c.copy ∧ c.swapped.swapcnt = c.swapcnt + 1 ∧ c.swapped.table c.copy = none
      ∧ c.swapped.table (1 - c.copy) = c.table (1 - c.copy) := by
  have hold : c.swapped.table c.copy = none := c.table_setTable c.copy none
  have hnew : c.swapped.table (1 - c.copy) = c.table (1 - c.copy) := c.table_setTable_shadow h none
  obtain ⟨_, _, hframe⟩ := c.setTable_frame c.copy none
  refine ⟨?_, rfl, ?_, hold, hnew⟩ <;> rw [Cad.swapped, hframe]

/-- A stream at a swap to a table that names the handles `hs` (R252). -/
def Stream.atSwap (s : Stream) (hs : List Nat) (i : Nat) : Stream :=
  if s.state = 2 ∨ s.state = 3 then (if handleOf i s ∈ hs then { s with state := 2 } else s.leave) else s

/-- A stream that takes part in cadence and that the table does not name leaves, with what it has queued. -/
theorem Stream.atSwap_of_not_named {hs : List Nat} {i : Nat} {s : Stream} (hstate : s.state = 2 ∨ s.state = 3) (h : handleOf i s ∉ hs) :
    s.atSwap hs i = s.leave := by
  rw [Stream.atSwap, if_pos hstate, if_neg h]

/-- A swap that no time step precedes puts the shadow copy in force at its boundary; an event and a message of the pair may follow. -/
theorem tableSwap_linkChange {d : Dev} {w : Nat} (hswap : d.cad.swapAt = some w) (hstep : d.cad.stepPend = none) :
    LinkChange (((d.atNs w).setCad (d.atNs w).cad.swapped).setStreams
      (Tab.mapv d.streams (fun i s => s.atSwap ((d.cad.table d.cad.shadow).getD {}).handles i))) (tableSwap d) := by
  have hrun : ¬ (d.cad.active && d.cad.stepPend.isSome && decide (d.nextFrame ≤ w)) = true := by simp [hstep]
  unfold tableSwap
  rw [hswap]
  dsimp only
  rw [if_neg hrun]
  exact (Dev.raiseO_eventChange _ _ _ _ _ _).linkChange.trans (Dev.comparePend_linkChange _)

end Sys2Proof.Machine
end

section
/-! PROOFS. The start of a run (R32, R33, R96, R106, R207, R352). -/

namespace Sys2Proof.Machine

open Sys2Proof Sys2Proof.Spec

/-! ### Segments (R96, R207) -/

/-- The segment is valid and the domain's, so that its contents stay. -/
def SegTag.isOf (t : SegTag) (dom : Nat) : Bool := t.valid && t.domain == dom

/-- The tag of a segment once a run of a domain has it: its own, where it was the domain's already. -/
def SegTag.held (t : SegTag) (dom : Nat) : SegTag := if t.isOf dom then t else { valid := true, zeroing := false, domain := dom }

theorem SegTag.held_isOf (t : SegTag) (dom : Nat) : (t.held dom).isOf dom = true := by
  unfold SegTag.held
  split
  · assumption
  · simp [SegTag.isOf]

/-- What SEGMENT_ZEROING makes of one segment of a run's. -/
def Basin.zeroSeg (dom : Nat) (x : Basin) (k : Nat) : Basin :=
  if (Tab.at x.tags SegTag.reset k).isOf dom then x else x.fillSeg k dom []

theorem Basin.zeroSegs_eq (x : Basin) (r : Run) :
    x.zeroSegs r = ((List.range 64).filter (fun k => bitOf r.segs k)).foldl (Basin.zeroSeg r.domain) x := rfl

theorem Basin.zeroSeg_tag (x : Basin) (dom k j : Nat) :
    Tab.at (x.zeroSeg dom k).tags SegTag.reset j
      = if j = k then (Tab.at x.tags SegTag.reset j).held dom else Tab.at x.tags SegTag.reset j := by
  unfold Basin.zeroSeg SegTag.held
  by_cases hj : j = k
  · subst hj
    split
    · simp
    · simp [Basin.fillSeg, Basin.mend, Tab.at_put_same]
  · split
    · simp
    · simp [Basin.fillSeg, Basin.mend, Tab.at_put_other _ _ _ _ _ hj]

theorem Basin.zeroSeg_read (x : Basin) (dom k p : Nat) :
    Mem.read (x.zeroSeg dom k).store p
      = if p / 65536 = k ∧ (Tab.at x.tags SegTag.reset k).isOf dom = false then 0 else Mem.read x.store p := by
  have hseg : k * 65536 ≤ p ∧ p < k * 65536 + 65536 ↔ p / 65536 = k := by omega
  unfold Basin.zeroSeg
  split
  next h => simp [h]
  next h => simp [Basin.fillSeg, Basin.mend, Mem.writeBytes, Mem.read_zero, Mem.fill, hseg, h]

theorem SegTag.held_held (t : SegTag) (dom : Nat) : (t.held dom).held dom = t.held dom := by
  rw [SegTag.held, if_pos (t.held_isOf dom)]

theorem Basin.foldl_zeroSeg_tag (dom : Nat) (ks : List Nat) (x : Basin) (j : Nat) :
    Tab.at (ks.foldl (Basin.zeroSeg dom) x).tags SegTag.reset j
      = if j ∈ ks then (Tab.at x.tags SegTag.reset j).held dom else Tab.at x.tags SegTag.reset j := by
  induction ks generalizing x with
  | nil => simp
  | cons k ks ih =>
    rw [List.foldl_cons, ih, Basin.zeroSeg_tag]
    by_cases hj : j = k
    · simp [hj, SegTag.held_held]
    · simp [hj]

theorem Basin.foldl_zeroSeg_read (dom : Nat) (ks : List Nat) (x : Basin) (p : Nat) :
    Mem.read (ks.foldl (Basin.zeroSeg dom) x).store p
      = if p / 65536 ∈ ks ∧ (Tab.at x.tags SegTag.reset (p / 65536)).isOf dom = false then 0 else Mem.read x.store p := by
  induction ks generalizing x with
  | nil => simp
  | cons k ks ih =>
    rw [List.foldl_cons, ih, Basin.zeroSeg_tag, Basin.zeroSeg_read]
    by_cases hk : p / 65536 = k
    · subst hk
      simp [SegTag.held_isOf]
    · simp [hk]

/-- From `x` to `y` only what a segment holds, and what is known of its words and tiles, has changed. -/
def Basin.SegsOnly (x y : Basin) : Prop :=
  ∃ st tg tf tc ah ci, y = { x with store := st, tags := tg, tileFlags := tf, tileCover := tc, apHolder := ah, cis := ci }

theorem Basin.SegsOnly.refl (x : Basin) : x.SegsOnly x := ⟨_, _, _, _, _, _, rfl⟩

theorem Basin.SegsOnly.trans {x y z : Basin} (h : x.SegsOnly y) (k : y.SegsOnly z) : x.SegsOnly z := by
  obtain ⟨_, _, _, _, _, _, rfl⟩ := h
  obtain ⟨_, _, _, _, _, _, rfl⟩ := k
  exact ⟨_, _, _, _, _, _, rfl⟩

theorem Basin.SegsOnly.foldl {f : Basin → Nat → Basin} (hf : ∀ x k, Basin.SegsOnly x (f x k)) (ks : List Nat) (x : Basin) :
    x.SegsOnly (ks.foldl f x) := by
  induction ks generalizing x with
  | nil => exact .refl x
  | cons k ks ih => exact (hf x k).trans (ih _)

theorem Basin.zeroSegs_segsOnly (x : Basin) (r : Run) : x.SegsOnly (x.zeroSegs r) := by
  refine .foldl (fun y k => ?_) _ x
  dsimp only
  split
  · exact .refl y
  · exact ⟨_, _, _, _, _, _, rfl⟩

theorem Basin.zeroAperture_segsOnly (x : Basin) (r : Run) : x.SegsOnly (x.zeroAperture r) := by
  refine .foldl (fun y k => ?_) _ x
  split
  · exact .refl y
  · exact ⟨_, _, _, _, _, _, rfl⟩

/-- Zeroing aperture segments leaves the tags and the cistern as they were (R93, R96). -/
theorem Basin.zeroAperture_cistern (x : Basin) (r : Run) :
    (x.zeroAperture r).tags = x.tags ∧ ∀ p, p < 0x400000 → Mem.read (x.zeroAperture r).store p = Mem.read x.store p := by
  unfold Basin.zeroAperture
  generalize (List.range 4).filter (fun a => bitOf r.apseg a) = ks
  induction ks generalizing x with
  | nil => exact ⟨rfl, fun _ _ => rfl⟩
  | cons k ks ih =>
    rw [List.foldl_cons]
    split
    · exact ih x
    · obtain ⟨htags, hread⟩ := ih _
      refine ⟨htags.trans rfl, fun p hp => (hread p hp).trans ?_⟩
      have hout : ¬ (0x400000 + k * 65536 ≤ p ∧ p < 0x400000 + k * 65536 + 65536) := by omega
      exact (Mem.read_zero x.store (0x400000 + k * 65536) 65536 p).trans (if_neg hout)

/-! ### What a run finds -/

/-- The basin as a run finds it: its segments its own, its registers loaded, its generators reseeded where it is deterministic. -/
def Dev.setUp (d : Dev) (b : Nat) (r : Run) : Basin :=
  let x := (((d.basin b).zeroSegs r).zeroAperture r).clearRun r d.cad.slot
  if r.det then x.runReseed (d.seedr r) r.planStep r.lbasin else x

theorem Dev.setUp_tag (d : Dev) (b : Nat) (r : Run) (k : Nat) :
    Tab.at (d.setUp b r).tags SegTag.reset k
      = if k < 64 ∧ bitOf r.segs k = true then (Tab.at (d.basin b).tags SegTag.reset k).held r.domain
        else Tab.at (d.basin b).tags SegTag.reset k := by
  have htags : (d.setUp b r).tags = ((d.basin b).zeroSegs r).tags := by
    rw [← (((d.basin b).zeroSegs r).zeroAperture_cistern r).1]
    unfold Dev.setUp
    dsimp only
    split <;> rfl
  rw [htags, Basin.zeroSegs_eq, Basin.foldl_zeroSeg_tag]
  simp

theorem Dev.setUp_read (d : Dev) (b : Nat) (r : Run) (p : Nat) (hp : p < 0x400000) :
    Mem.read (d.setUp b r).store p
      = if bitOf r.segs (p / 65536) = true ∧ (Tab.at (d.basin b).tags SegTag.reset (p / 65536)).isOf r.domain = false then 0
        else Mem.read (d.basin b).store p := by
  have hstore : (d.setUp b r).store = (((d.basin b).zeroSegs r).zeroAperture r).store := by
    unfold Dev.setUp
    dsimp only
    split <;> rfl
  rw [hstore, (((d.basin b).zeroSegs r).zeroAperture_cistern r).2 p hp, Basin.zeroSegs_eq, Basin.foldl_zeroSeg_read]
  have hlt : p / 65536 < 64 := by omega
  simp [hlt]

/-- The sequencer, the flags and the epoch that a run finds, and what is delivered behind it. -/
theorem Dev.setUp_registers (d : Dev) (b : Nat) (r : Run) :
    (d.setUp b r).seq = ((d.basin b).clearRun r d.cad.slot).seq ∧ (d.setUp b r).flags = EngineFlags.reset
      ∧ (d.setUp b r).epoch = (d.basin b).epoch ∧ (d.setUp b r).delivered = (d.basin b).delivered := by
  obtain ⟨_, _, _, _, _, _, h⟩ := ((d.basin b).zeroSegs_segsOnly r).trans (Basin.zeroAperture_segsOnly _ r)
  unfold Dev.setUp
  dsimp only
  rw [h]
  split <;> exact ⟨rfl, rfl, rfl, rfl⟩

/-! ### The start (R33, R244) -/

/-- The start of a phase does not bear on whether a run does work. -/
theorem Dev.works_phaseStart (d : Dev) (r : Run) : (d.phaseMark r Train.phaseStart).works r = d.works r := by
  have hallows (t : Train) (ph now k : Nat) : (t.phaseStart ph now).allows k = t.allows k := by
    unfold Train.phaseStart
    dsimp only
    split <;> rfl
  unfold Dev.phaseMark
  split
  case h_2 => rfl
  case h_1 t ht =>
    split
    case isFalse => rfl
    case isTrue =>
      unfold Dev.train at ht
      simp only [Dev.works, Dev.putTrain, Dev.train, Dev.setTrains_trains, Tab.find?_put_same, hallows, ht]
      rfl

/-- The basin with a run active. -/
def Basin.activated (x : Basin) (a : Active) : Basin := { x with seq := { x.seq with active := some a } }

/-- A run that does work becomes active on its basin `b`, set up as `x`; a training stream's evaluation counts it. -/
def Dev.workBegun (w : Dev) (b : Nat) (x : Basin) (r : Run) (start fin : Nat) : Dev :=
  let w := w.putBasin b (x.activated (w.active r start fin x.epoch))
  match w.train (runIndex r) with
  | some t =>
    if w.phaseOf r = 4 ∧ (t.phases.getD 4 {}).fin.isNone then w.putTrain (runIndex r) { t with neval := t.neval + 1 } else w
  | none => w

theorem Dev.workBegun_frame (w : Dev) (b : Nat) (x : Basin) (r : Run) (start fin : Nat) : ∃ ts, w.workBegun b x r start fin
    = (w.putBasin b (x.activated (w.active r start fin x.epoch))).setTrains ts := by
  unfold Dev.workBegun
  dsimp only
  split
  · split
    · exact ⟨_, rfl⟩
    · exact ⟨w.trains, rfl⟩
  · exact ⟨w.trains, rfl⟩

theorem Dev.putBasin_setTrains (d : Dev) (ts : Tab Train) (b : Nat) (x : Basin) :
    (d.setTrains ts).putBasin b x = (d.putBasin b x).setTrains ts := rfl

theorem Dev.startRun_eq (d : Dev) (b : Nat) (r : Run) (start fin : Nat) :
    d.startRun b r start fin =
      let w := (d.putBasin b (d.setUp b r)).phaseMark r Train.phaseStart
      if w.works r then w.workBegun b (d.setUp b r) r start fin
      else ((w.putBasin b ((d.setUp b r).dropPartials r.handle)).phaseMark r Train.phaseEnd).postEnds r := rfl

/-- A run as its sequencer holds it at the start: its window, the epoch of its basin and the start of its slot. -/
structure Active.Begins (a : Active) (r : Run) (start fin : Nat) (epoch : W32) (slotCt : Nat) : Prop where
  run : a.run = r
  start : a.start = start
  fin : a.fin = fin
  ended : a.ended = false
  nextSeq : a.nextSeq = 0
  epoch : a.epoch = epoch
  slotCt : a.slotCt = slotCt

/-- A run that does work is active on its basin, which is set up for it; training contexts apart nothing else changes. -/
theorem Dev.startRun_of_works {d : Dev} {r : Run} (h : d.works r = true) (b start fin : Nat) :
    ∃ ts a, d.startRun b r start fin = (d.putBasin b ((d.setUp b r).activated a)).setTrains ts
      ∧ a.Begins r start fin (d.setUp b r).epoch d.slotStart := by
  obtain ⟨ts, hts⟩ := (d.putBasin b (d.setUp b r)).phaseMark_frame r Train.phaseStart
  have hworks : ((d.putBasin b (d.setUp b r)).phaseMark r Train.phaseStart).works r = true :=
    (Dev.works_phaseStart _ r).trans h
  obtain ⟨us, hus⟩ := Dev.workBegun_frame ((d.putBasin b (d.setUp b r)).setTrains ts) b (d.setUp b r) r start fin
  refine ⟨us, ((d.putBasin b (d.setUp b r)).setTrains ts).active r start fin (d.setUp b r).epoch, ?_,
    ⟨rfl, rfl, rfl, rfl, rfl, rfl, rfl⟩⟩
  rw [Dev.startRun_eq]
  dsimp only
  rw [if_pos hworks, hts, hus, Dev.putBasin_setTrains, Dev.putBasin_putBasin]
  rfl

/-! ### Which run starts, or does not (R23, R32, R352) -/

/-- A run that takes nothing leaves its stream as it is at its start. -/
theorem Dev.takeFor_of_no_take (d : Dev) {r : Run} (h : r.take = false) : d.takeFor r = d := by simp [Dev.takeFor, h]

theorem Dev.fenceFirst_of_no_fence {d : Dev} (h : d.flt.fencing = []) (b : Nat) : d.fenceFirst b = d := by simp [Dev.fenceFirst, h]

/-- The device at the start offset of the run that basin `b` starts next, with that run taken off the basin's list. -/
def Dev.poised (d : Dev) (b : Nat) (r : Run) (rest : List Run) : Dev :=
  (d.atNs (d.slotStart + r.tstart)).putBasin b { d.basin b with delivered := rest }

theorem Dev.poised_basin (d : Dev) (b : Nat) (r : Run) (rest : List Run) :
    (d.poised b r rest).basin b = { d.basin b with delivered := rest } := Dev.basin_putBasin _ _ _

theorem Dev.poised_put (d : Dev) (b : Nat) (r : Run) (rest : List Run) (x : Basin) :
    ((d.poised b r rest).putBasin b x).basins = Tab.put d.basins b x := Tab.put_put _ _ _ _

theorem Dev.poised_views (d : Dev) (b : Nat) (r : Run) (rest : List Run) :
    (d.poised b r rest).mgmtView b = d.mgmtView b ∧ (d.poised b r rest).ownView b = d.ownView b := by
  refine ⟨rfl, ?_⟩
  unfold Dev.ownView
  rw [Dev.poised, Dev.basin_putBasin]
  rfl

/-- Where the basin is in order and free, the next run starts, or, where the basin's views do not hold it in service, does not. -/
theorem runStart_delivered {d : Dev} {b : Nat} {r : Run} {rest : List Run} (hb : b < 272) (hfence : d.flt.fencing = [])
    (hnext : (d.basin b).delivered = r :: rest) (hfree : (d.basin b).seq.active = none) (hrestored : d.restoring b = false)
    (htake : r.take = false) :
    runStart b d = if d.mgmtView b ≠ d.ownView b ∨ (d.mgmtView b).state ≠ 0
      then (d.poised b r rest).notStarted b r (fun w => w.epochClash b r) else (d.poised b r rest).startRun b r r.tstart r.tend := by
  obtain ⟨hmgmt, hown⟩ := d.poised_views b r rest
  have hready : (d.poised b r rest).restoring b = false := hrestored
  unfold runStart
  rw [if_neg (by omega), Dev.fenceFirst_of_no_fence hfence]
  simp only [hnext, hfree, Dev.takeFor_of_no_take _ htake]
  change (if (d.poised b r rest).restoring b = true then _
    else if (d.poised b r rest).mgmtView b ≠ (d.poised b r rest).ownView b ∨ ((d.poised b r rest).mgmtView b).state ≠ 0
      then (d.poised b r rest).notStarted b r _ else (d.poised b r rest).startRun b r r.tstart r.tend) = _
  rw [hready, hmgmt, hown]
  rfl

/-- A disagreement of epochs touches no basin: it is counted, reported for reissue, and fails the run's period (R352). -/
theorem Dev.epochClash_spec (d : Dev) (b : Nat) (r : Run) :
    (d.epochClash b r).basins = d.basins ∧ (d.epochClash b r).flt.epochev = d.flt.epochev + 1 ∧ b ∈ (d.epochClash b r).flt.reissue
      ∧ (r.entry.isSome = true → (d.stream (runIndex r)).gen = r.handle % 65536 →
          ∀ p, (d.stream (runIndex r)).period = some p → p.fail = 0 →
            ((d.epochClash b r).stream (runIndex r)).period.map Period.fail = some 0x300) := by
  let l := if b ∈ d.flt.reissue then d.flt.reissue else d.flt.reissue ++ [b]
  let w := d.setFlt { d.flt with epochev := d.flt.epochev + 1, reissue := l }
  have hl : b ∈ l := by
    by_cases h : b ∈ d.flt.reissue <;> simp [l, h]
  have hevent : EventChange (w.failRun r 0x300) (d.epochClash b r) := Dev.raiseO_eventChange _ _ _ _ _ _
  rw [hevent.basins, hevent.flt, Dev.failRun_basins, Dev.failRun_flt]
  refine ⟨rfl, rfl, hl, fun hentry hgen p hperiod hfail => ?_⟩
  rw [Dev.stream, hevent.streams]
  exact Dev.failRun_fails (d := w) hentry hgen hperiod hfail 0x300

/-- The device at the start offset of a run of an absent basin, with that run taken off the list (R23). -/
def Dev.passed (d : Dev) (r : Run) : Dev :=
  let w := d.atNs (d.slotStart + r.tstart)
  w.setCad { w.cad with absent := w.cad.absent.erase r }

/-- The run of an absent basin fails its period at its start offset. -/
theorem runStart_absent {d : Dev} {l : Nat} {r : Run} {rest : List Run} (h : d.cad.absent.filter (fun q => q.lbasin == l) = r :: rest)
    (htake : r.take = false) (hpost : r.post = false) : runStart (272 + l) d = (d.passed r).failRun r 0x200 := by
  have hl : 272 + l - 272 = l := by omega
  unfold runStart
  rw [if_pos (by omega), hl, h]
  dsimp only [Dev.neverStarts]
  rw [Dev.takeFor_of_no_take _ htake, Dev.postEnds_of_no_post _ hpost]
  rfl

end Sys2Proof.Machine
end

section
/-! PROOFS. Swaps, steps of CT and starts of runs at their time (R23, R32, R106, R207, R237, R245, R252, R352). -/

namespace Sys2Proof.Spec

open Sys2Proof Sys2Proof.Machine

/-- With no fence under way nothing falls due, so that a running core is quiet. -/
theorem quiet_of_no_fence {d : Dev} (hon : d.coreOn = true) (h : d.flt.fencing = []) : Quiet d := ⟨hon, d.due_of_no_fence h⟩

/-- A basin that is set up for a run, and on which the run is active, is as a run finds it (R106, R207). -/
theorem runBegun_of_setUp {d e : Dev} {b : Nat} {r : Run} {rest : List Run} {a : Active}
    (he : e.basin b = ((d.poised b r rest).setUp b r).activated a)
    (ha : a.Begins r r.tstart r.tend ((d.poised b r rest).setUp b r).epoch d.slotStart) : RunBegun d b r e := by
  let w := d.poised b r rest
  have hbasin : w.basin b = { d.basin b with delivered := rest } := d.poised_basin b r rest
  obtain ⟨hregs, hflags, hsame, -⟩ := w.setUp_registers b r
  have htag (k : Nat) := w.setUp_tag b r k
  have hread (p : Nat) := w.setUp_read b r p
  rw [hbasin] at hregs hsame htag hread
  unfold RunBegun sreg
  dsimp only
  rw [he]
  have hseq' : (((d.poised b r rest).setUp b r).activated a).seq = { w.setUp b r |>.seq with active := some a } := rfl
  rw [hseq', hregs]
  refine ⟨⟨a, rfl, ha.run, ha.start, ha.fin, ha.ended, ha.nextSeq, ha.epoch.trans hsame, ha.slotCt⟩, rfl, rfl, rfl, rfl, rfl, rfl, hflags,
    rfl, rfl, rfl, fun k hk => ?later, fun k hk hbit => ?held, fun k hbit => ?other, fun k p hk hbit hlo hhi => ?bytes⟩
  case later =>
    have hnone : Tab.at ((({ d.basin b with delivered := rest } : Basin).clearRun r w.cad.slot).seq.regs) 0 k = 0 :=
      (Tab.at_put_other _ _ _ _ _ (by omega)).trans ((Tab.at_put_other _ _ _ _ _ (by omega)).trans (Tab.at_put_other _ _ _ _ _ (by omega)))
    exact (if_neg (by omega)).trans hnone
  case held => exact (htag k).trans (if_pos ⟨hk, hbit⟩)
  case other => exact (htag k).trans (if_neg (by simp [hbit]))
  case bytes =>
    have hseg : p / 65536 = k := by omega
    have hp := hread p (by omega)
    rw [hseg] at hp
    refine hp.trans ?_
    by_cases hown : (Tab.at (d.basin b).tags SegTag.reset k).isOf r.domain = true
    · exact (if_neg (fun h => by simp [hown] at h)).trans (if_pos hown).symm
    · exact (if_pos ⟨hbit, Bool.eq_false_iff.mpr hown⟩).trans (if_neg hown).symm

/-- A run that is due and does work becomes active on its basin at its start offset. -/
theorem runStart_of_works {d : Dev} {b : Nat} {r : Run} {rest : List Run} (hstart : StartDue d b r rest) (hworks : d.works r = true) :
    ∃ ts a, runStart b d = ((d.poised b r rest).putBasin b (((d.poised b r rest).setUp b r).activated a)).setTrains ts
      ∧ a.Begins r r.tstart r.tend ((d.poised b r rest).setUp b r).epoch d.slotStart := by
  obtain ⟨-, hfence, hb, hnext, hfree, hrestored, hviews, hservice, htake⟩ := hstart
  have hin : ¬ (d.mgmtView b ≠ d.ownView b ∨ (d.mgmtView b).state ≠ 0) := by
    rintro (hdiffer | hout)
    · exact hdiffer hviews
    · exact hout hservice
  rw [runStart_delivered hb hfence hnext hfree hrestored htake, if_neg hin]
  exact Dev.startRun_of_works (d := d.poised b r rest) hworks b r.tstart r.tend

/-- Settles O24: a swap and a step are the equations of their boundary, and a run that is due is active on a basin set up for it, or fails
its period. -/
theorem swapsStepsAndRunsStartAtTheirTime : Obligations.SwapsStepsAndRunsStartAtTheirTime := by
  unfold Obligations.SwapsStepsAndRunsStartAtTheirTime
  refine ⟨⟨?swap, ?step⟩, fun d b r rest => ⟨?start, ?clash, ?absent⟩⟩
  case swap =>
    intro d w hquiet hswap hstep hcopy c
    have h := tableSwap_linkChange hswap hstep
    obtain ⟨hct, hnow, hcount, hold, hnew⟩ := Cad.swapped_spec (c := (d.atNs w).cad) hcopy
    refine ⟨_, hquiet.gives (fun _ => rfl), ?_⟩
    have hcad : (tableSwap d).cad = (d.atNs w).cad.swapped := h.cad
    rw [hcad]
    refine ⟨hct, hnow, rfl, rfl, rfl, rfl, hcount, hold, hnew, h.basins, h.rsv, h.domains, fun i hstate hnot hlisted => ?_⟩
    have hstream : (tableSwap d).stream i = (d.stream i).leave := by
      rw [Dev.stream, h.streams, Dev.setStreams_streams, Tab.at_mapv_listed hlisted]
      exact Stream.atSwap_of_not_named hstate hnot
    rw [hstream]
    exact ⟨rfl, rfl, rfl⟩
  case step =>
    intro d n t hquiet hstep htable hswap
    let w := d.atNs d.nextFrame
    obtain ⟨hct, hframe, htable'⟩ := Cad.newFrame_spec (c := w.cad) (t := t) (n := n) (Cad.active_of_activeTable htable)
    obtain ⟨-, hbasin, -, hrsv, -⟩ := (w.setCad (w.cad.newFrame t n)).stepCt_ctStepped (w.cad.newFrame t n) (n * 65536) rfl rfl rfl rfl
    refine ⟨_, hquiet.gives (fun _ => rfl), ?_⟩
    rw [timeStepApply_eq hstep htable hswap]
    refine ⟨fun b => ⟨(congrArg Basin.store (hbasin b) :), (congrArg Basin.seq (hbasin b) :)⟩, (congrArg Rsv.mem hrsv :),
      rfl, rfl, ?_, rfl, rfl, rfl, hframe, rfl, htable'⟩
    exact congrArg (stepFine (n * 65536)) hct
  case start =>
    intro hstart hworks
    obtain ⟨ts, a, hgo, hbegins⟩ := runStart_of_works hstart hworks
    obtain ⟨hon, hfence, -⟩ := hstart
    have hbasins : (runStart b d).basins = Tab.put d.basins b (((d.poised b r rest).setUp b r).activated a) := by
      rw [hgo]
      exact d.poised_put b r rest _
    obtain ⟨hsame, hother⟩ := Dev.basin_of_put hbasins
    obtain ⟨-, -, -, hrest⟩ := (d.poised b r rest).setUp_registers b r
    refine ⟨_, (quiet_of_no_fence hon hfence).gives (fun _ => rfl), ?_, ?_, runBegun_of_setUp hsame hbegins, ?_, hother⟩
    · rw [hgo]
      rfl
    · rw [hsame]
      exact hrest.trans (congrArg Basin.delivered (d.poised_basin b r rest))
    · rw [hgo]
      rfl
  case clash =>
    intro hon hfence hb hnext hfree hrestored hviews htake hpost
    let x := ((d.poised b r rest).basin b).dropPartials r.handle
    have hx : x = { d.basin b with delivered := rest }.dropPartials r.handle := by rw [← d.poised_basin b r rest]
    have hgo : runStart b d = ((d.poised b r rest).putBasin b x).epochClash b r := by
      rw [runStart_delivered hb hfence hnext hfree hrestored htake, if_pos (Or.inl hviews), Dev.notStarted,
        Dev.postEnds_of_no_post _ hpost]
    obtain ⟨hbasins, hcount, hreissue, hfails⟩ := ((d.poised b r rest).putBasin b x).epochClash_spec b r
    rw [← hgo] at hbasins hcount hreissue hfails
    obtain ⟨hsame, hother⟩ := Dev.basin_of_put (hbasins.trans (d.poised_put b r rest x))
    refine ⟨_, (quiet_of_no_fence hon hfence).gives (fun _ => rfl), ?_, ?_, hcount, hreissue, hother, hfails⟩
    · rw [hsame, hx]
      exact hfree
    · rw [hsame, hx]
      rfl
  case absent =>
    intro l hquiet hfirst htake hpost
    refine ⟨_, hquiet.gives (fun _ => rfl), ?_⟩
    rw [runStart_absent hfirst htake hpost, Dev.failRun_cad, Dev.failRun_basins]
    exact ⟨rfl, rfl, rfl, fun hentry hgen p hperiod hfail =>
      Dev.failRun_fails (d := d.passed r) hentry hgen hperiod hfail 0x200⟩

end Sys2Proof.Spec
end

section
/-! PROOFS. Commands that firmware serves, and the TIME and POWER commands (R235, R237, R319, R384 to R388, R393, R398, R399). -/

namespace Sys2Proof.Spec

open Sys2Proof Sys2Proof.Machine

/-! ### What a served command answers -/

/-- A command that serves the request leaves the device of its meaning, and the response. -/
theorem Serving.replies {d w : Dev} {f op : Nat} {r : Req} {c : Instr} {g : Req → Dev → Dev × Resp} {e : Dev} {x : Resp}
    (h : Serving d f op r w) (hc : ∀ s, exec c s = onCmd f op g s) (hg : g r w = (e, x)) : Replies c d e r x := by
  obtain ⟨hon, hdue, hf, hop, rest, hinprog, rfl⟩ := h
  have hserve : Dev.serve f op g d = e.respond r x := by
    unfold Dev.serve
    rw [hinprog]
    dsimp only
    rw [if_pos ⟨hf, hop⟩, hg]
  intro q
  simp [hc, onCmd, answer, onlyIf, hon, hdue, hserve]

/-- While firmware runs, the sequencer rests at READY. -/
theorem ready_of_fwOn {d : Dev} (h : d.fwOn = true) : d.pow.stable = 3 ∧ d.pow.moving = false := by
  simp only [Dev.fwOn, Dev.coreOn, Bool.and_eq_true, beq_iff_eq, Bool.not_eq_true'] at h
  obtain ⟨⟨⟨⟨-, hstable⟩, hmoving⟩, -⟩, -⟩ := h
  exact ⟨hstable, hmoving⟩

theorem Serving.ready {d w : Dev} {f op : Nat} {r : Req} (h : Serving d f op r w) : w.pow.stable = 3 ∧ w.pow.moving = false := by
  obtain ⟨hon, -, -, -, _, -, rfl⟩ := h
  exact ready_of_fwOn hon

end Sys2Proof.Spec

namespace Sys2Proof.Machine

open Sys2Proof Sys2Proof.Spec

variable {w : Dev} {r : Req}

/-! ### TIME -/

theorem cmdTimeSet_label (h : bitOf (r.arg 2) 0 = false ∨ w.cad.dev ≠ 0) :
    cmdTimeSet r w = (w.setCad { w.cad with label := some (r.arg64 0) }, {}) := by
  have hno : ¬ (w.cad.dev = 0 ∧ bitOf (r.arg 2) 0 = true) := by
    rintro ⟨hdev, hbit⟩
    rcases h with h | h
    · simp [h] at hbit
    · exact h hdev
  exact if_neg hno

theorem cmdTimeSet_refused (hbit : bitOf (r.arg 2) 0 = true) (hdev : w.cad.dev = 0) (h : w.cad.active = true ∨ w.cad.swapAt.isSome = true) :
    cmdTimeSet r w = (w, { status := 0x303 }) :=
  (if_pos ⟨hdev, hbit⟩).trans (if_pos h)

theorem cmdTimeSet_step (hbit : bitOf (r.arg 2) 0 = true) (hdev : w.cad.dev = 0) (hidle : w.cad.active = false) (hswap : w.cad.swapAt = none)
    (hfits : r.arg64 0 * 1000000000 < 2 ^ 64) :
    cmdTimeSet r w = ((w.setCad { w.cad with label := some (r.arg64 0) }).stepCt
      ((r.arg64 0 * 1000000000 * 65536 : Nat) - (w.cad.ct : Int)), {}) := by
  have hsec : r.arg64 0 % 2 ^ 64 * 1000000000 % 2 ^ 64 = r.arg64 0 * 1000000000 := by omega
  have hnot : ¬ (w.cad.active = true ∨ w.cad.swapAt.isSome = true) := by simp [hidle, hswap]
  unfold cmdTimeSet
  dsimp only
  rw [if_pos ⟨hdev, hbit⟩, if_neg hnot, hsec]
  rfl

theorem cmdTimeStep_pending (h : w.cad.active = true) :
    cmdTimeStep r w = (w.setCad { w.cad with stepPend := some (signedOf 64 (r.arg64 0)) }, { res := words2 w.nextFrame }) := if_pos h

theorem cmdTimeStep_now (hidle : w.cad.active = false) (hswap : w.cad.swapAt = none) :
    cmdTimeStep r w = ((w.setCad { w.cad with slew := 0, diverged := false }).stepCt (signedOf 64 (r.arg64 0) * 65536), {}) := by
  simp [cmdTimeStep, hidle, hswap, Dev.yes]

theorem cmdTimeStep_refused (hidle : w.cad.active = false) (hswap : w.cad.swapAt.isSome = true) :
    cmdTimeStep r w = (w, { status := 0x303 }) := by
  simp [cmdTimeStep, hidle, hswap, Dev.no, stWRONG_STATE]

/-! ### POWER -/

theorem cmdPowerEnter_invalid (h : 4 < r.arg 0) : cmdPowerEnter r w = (w, { status := 0x201 }) := if_pos h

theorem cmdPowerEnter_conflict (ht : r.arg 0 = 1) (hfloor : w.floorHigh = true) (hready : w.pow.stable = 3) :
    cmdPowerEnter r w = (w, { status := 0x501 }) := by
  simp [cmdPowerEnter, ht, hfloor, hready, Dev.no, stFLOOR_CONFLICT]

/-- With a table active, Trim waits for the next slot boundary (R384). -/
theorem cmdPowerEnter_trim (ht : r.arg 0 = 1) (hfloor : w.floorHigh = false) (hready : w.pow.stable = 3) (hrest : w.pow.moving = false)
    (hrun : w.pow.state ≠ 1) (hactive : w.cad.active = true) :
    cmdPowerEnter r w = (w.setPow { w.pow with latched := some 1 }, {}) := by
  simp [cmdPowerEnter, ht, hfloor, hready, hrest, Dev.trimRequest, hrun, hactive, Dev.yes]

/-- The states that leave READY (R385). -/
theorem cmdPowerEnter_leave (ht : r.arg 0 = 2 ∨ r.arg 0 = 3 ∨ r.arg 0 = 4) (hready : w.pow.stable = 3) (hrest : w.pow.moving = false) :
    cmdPowerEnter r w = if w.mayLeave then (w.setPow { w.pow with latched := some (r.arg 0) }, {}) else (w, { status := 0x303 }) := by
  have hvalid : ¬ 4 < r.arg 0 := by omega
  have hleaves : ¬ r.arg 0 < 2 := by omega
  have htrim : r.arg 0 ≠ 1 := by omega
  cases hmay : w.mayLeave <;> simp [cmdPowerEnter, hvalid, htrim, hready, hrest, hleaves, hmay, Dev.yes, Dev.no, stWRONG_STATE]

theorem cmdPowerPolicy_ok (h1 : 400 ≤ r.arg 0) (h2 : r.arg 0 ≤ 2000) (h3 : 300 ≤ r.arg 1) (h4 : r.arg 1 ≤ 1100) :
    cmdPowerPolicy r w = (w.setPow { w.pow with floor := r.arg 0, cap := r.arg 1 }, {}) :=
  (if_neg (by omega)).trans (if_neg (by omega))

theorem cmdPowerWakeport_ok (hp : r.arg 0 ≤ 4) (hsend : (w.port (r.arg 0)).wakesend = true) (hdown : (w.port (r.arg 0)).state = 0) :
    cmdPowerWakeport r w = (w.putPort (r.arg 0) { w.port (r.arg 0) with wakeAsk := true, bursts := 0 }, {}) := by
  have hvalid : ¬ 4 < r.arg 0 := by omega
  simp [cmdPowerWakeport, hvalid, hsend, hdown, Dev.yes]

theorem cmdPowerTrickle_ok (hlen : 0x140 ≤ r.payload.length) (h1 : 10 ≤ (trkOf r.payload).period) (h2 : (trkOf r.payload).period ≤ 10000)
    (h3 : 6 ≤ (trkOf r.payload).mlen) (h4 : (trkOf r.payload).mlen ≤ 12) (h5 : (trkOf r.payload).refk ≤ 8) :
    cmdPowerTrickle r w = (w.setPow { w.pow with trkNext := some (trkOf r.payload) }, {}) :=
  if_neg (by omega)

end Sys2Proof.Machine
end

section
/-! PROOFS. The sequencer between stable points (R386, R397, R398). -/

namespace Sys2Proof.Machine

open Sys2Proof Sys2Proof.Spec

/-! ### What a step's effect leaves -/

/-- The host writes held on the link reach the trickle buffer and nothing else (R391). -/
theorem Power.windowWrite_frame (p : Power) (off : Nat) (bs : List Byte) :
    ∃ buf fresh, p.windowWrite off bs = { p with trkBuf := buf, fresh := fresh } := by
  unfold Power.windowWrite
  generalize bs.zipIdx = xs
  induction xs generalizing p with
  | nil => exact ⟨p.trkBuf, p.fresh, rfl⟩
  | cons x xs ih =>
    rw [List.foldl_cons]
    dsimp only
    split
    · exact ih p
    · obtain ⟨buf, fresh, h⟩ := ih { p with trkBuf := _, fresh := _ }
      exact ⟨buf, fresh, h⟩

theorem Power.acceptHeld_frame (p : Power) : ∃ buf fresh, p.acceptHeld = { p with trkBuf := buf, fresh := fresh, heldTlp := [] } := by
  have hfold (l : List (Nat × List Byte)) (p : Power) : ∃ buf fresh,
      l.foldl (fun (q : Power) w => q.windowWrite w.1 w.2) p = { p with trkBuf := buf, fresh := fresh } := by
    induction l generalizing p with
    | nil => exact ⟨p.trkBuf, p.fresh, rfl⟩
    | cons w l ih =>
      obtain ⟨buf, fresh, h⟩ := p.windowWrite_frame w.1 w.2
      obtain ⟨buf', fresh', h'⟩ := ih (p.windowWrite w.1 w.2)
      refine ⟨buf', fresh', ?_⟩
      rw [List.foldl_cons, h', h]
  obtain ⟨buf, fresh, h⟩ := hfold p.heldTlp p
  exact ⟨buf, fresh, by rw [Power.acceptHeld, h]⟩

@[simp] theorem Power.acceptHeld_stable (p : Power) : p.acceptHeld.stable = p.stable := by
  obtain ⟨_, _, h⟩ := p.acceptHeld_frame; rw [h]
@[simp] theorem Power.acceptHeld_moving (p : Power) : p.acceptHeld.moving = p.moving := by
  obtain ⟨_, _, h⟩ := p.acceptHeld_frame; rw [h]
@[simp] theorem Power.acceptHeld_state (p : Power) : p.acceptHeld.state = p.state := by
  obtain ⟨_, _, h⟩ := p.acceptHeld_frame; rw [h]

@[simp] theorem Dev.raiseO_pow (d : Dev) (type source d0 d1 d2 : Nat) : (d.raiseO type source d0 d1 d2).pow = d.pow := by
  obtain ⟨_, _, _, _, _, _, h⟩ := d.raiseO_eventChange type source d0 d1 d2; rw [h]
@[simp] theorem Dev.raiseO_md (d : Dev) (type source d0 d1 d2 : Nat) : (d.raiseO type source d0 d1 d2).md = d.md := by
  obtain ⟨_, _, _, _, _, _, h⟩ := d.raiseO_eventChange type source d0 d1 d2; rw [h]
@[simp] theorem Dev.raiseO_still (d : Dev) (type source d0 d1 d2 : Nat) : (d.raiseO type source d0 d1 d2).still = d.still := by
  obtain ⟨_, _, _, _, _, _, h⟩ := d.raiseO_eventChange type source d0 d1 d2; rw [h]

theorem Power.biased_shutSeq (p : Power) (clk : Nat) : (p.biased clk).shutSeq = p.shutSeq := by
  unfold Power.biased
  dsimp only
  split
  · rfl
  · split <;> rfl

/-- The effect of a step between stable points leaves the cadence unit, and whether a shutdown is under way. -/
theorem Dev.stepEffect_frame (d : Dev) {k : Nat} (hk : k ∈ [1, 2, 3, 5, 6, 7, 9, 10]) :
    (d.stepEffect k).cad = d.cad ∧ (d.stepEffect k).pow.shutSeq = d.pow.shutSeq := by
  have hports : d.stepEffect 10 = (d.portsDown none).setBasins [] := rfl
  simp only [List.mem_cons, List.not_mem_nil, or_false] at hk
  rcases hk with rfl | rfl | rfl | rfl | rfl | rfl | rfl | rfl
  · exact ⟨rfl, rfl⟩
  · exact ⟨rfl, rfl⟩
  · exact ⟨rfl, rfl⟩
  · exact ⟨rfl, rfl⟩
  · exact ⟨rfl, rfl⟩
  · exact ⟨rfl, Power.biased_shutSeq _ _⟩
  · exact ⟨rfl, rfl⟩
  · rw [hports, Dev.setBasins_cad, Dev.setBasins_pow, (d.portsDown_linkChange none).cad, (d.portsDown_linkChange none).pow]
    exact ⟨rfl, rfl⟩

/-! ### The end of a step -/

/-- With no shutdown under way the effect of a step is followed by the next step or, after U4, U8, D3 and D5, by a stable point (R397). -/
theorem seqStepDone_eq {d : Dev} (hmoving : d.pow.moving = true)
    (hshut : (d.stepEffect d.pow.step).pow.shutSeq = false ∨ 12 ≤ d.pow.step) :
    seqStepDone d =
      if d.pow.step = 4 then (d.stepEffect d.pow.step).arrive 2
      else if d.pow.step = 8 then (d.stepEffect d.pow.step).arrive 3
      else if d.pow.step = 11 then (d.stepEffect d.pow.step).arrive 2
      else if d.pow.step = 13 then (d.stepEffect d.pow.step).arrive 1
      else (d.stepEffect d.pow.step).beginStep (d.pow.step + 1) := by
  have hgoes : ¬ ((d.stepEffect d.pow.step).pow.shutSeq = true ∧ d.pow.step < 12) := by
    rintro ⟨hdown, hlt⟩
    rcases hshut with h | h
    · simp [h] at hdown
    · omega
  exact (if_neg (by simp [hmoving])).trans (if_neg hgoes)

theorem seqStepDone_next {d : Dev} (hmoving : d.pow.moving = true) (hshut : d.pow.shutSeq = false)
    (hk : d.pow.step ∈ [1, 2, 3, 5, 6, 7, 9, 10, 12]) :
    seqStepDone d = (d.stepEffect d.pow.step).beginStep (d.pow.step + 1) := by
  have hgoes : (d.stepEffect d.pow.step).pow.shutSeq = false ∨ 12 ≤ d.pow.step := by
    by_cases hlast : d.pow.step = 12
    · exact Or.inr (by omega)
    · exact Or.inl ((d.stepEffect_frame (by simpa [hlast] using hk)).2.trans hshut)
  have hbetween : d.pow.step ≠ 4 ∧ d.pow.step ≠ 8 ∧ d.pow.step ≠ 11 ∧ d.pow.step ≠ 13 := by
    simp only [List.mem_cons, List.not_mem_nil, or_false] at hk
    omega
  obtain ⟨h4, h8, h11, h13⟩ := hbetween
  rw [seqStepDone_eq hmoving hgoes, if_neg h4, if_neg h8, if_neg h11, if_neg h13]

/-- With nothing retained, the last step to READY changes nothing before it arrives there (R389). -/
theorem seqStepDone_eight {d : Dev} (hmoving : d.pow.moving = true) (hshut : d.pow.shutSeq = false) (hk : d.pow.step = 8)
    (hret : d.pow.ret = none) : seqStepDone d = d.arrive 3 := by
  have heffect : d.stepEffect 8 = d := by
    change d.retentionRestore = d
    unfold Dev.retentionRestore
    rw [hret]
  rw [seqStepDone_eq hmoving (by rw [hk, heffect]; exact Or.inl hshut), hk, heffect]
  rfl

theorem seqStepDone_eleven {d : Dev} (hmoving : d.pow.moving = true) (hshut : d.pow.shutSeq = false) (hk : d.pow.step = 11) :
    seqStepDone d = (d.stepEffect 11).arrive 2 := by
  rw [seqStepDone_eq hmoving (by rw [hk]; exact Or.inl hshut), hk]
  rfl

/-- U8 ends at READY: with no request latched, no reset and no freeze waiting, the device is in Run (R386, R398, R448). -/
theorem Dev.arrive_ready {d : Dev} (hdest : d.pow.dest ≤ 1) (hlatched : d.pow.latched = none) (hperst : d.md.perstPend = false)
    (hfreeze : d.still.pending = false) :
    (d.arrive 3).pow.stable = 3 ∧ (d.arrive 3).pow.moving = false ∧ (d.arrive 3).pow.state = 0 ∧ (d.arrive 3).md.pgood = true := by
  have hstable : stableOf d.pow.dest = 3 := if_pos (by omega)
  simp [Dev.arrive, Dev.setPgood, hlatched, hperst, Dev.takePending, hfreeze, hstable]

/-- D3 ends at CORE_ON: with no request latched, no reset and no freeze waiting, the device is in Rest (R386, R398). -/
theorem Dev.arrive_rest {d : Dev} (hdest : d.pow.dest = 3) (hlatched : d.pow.latched = none) (hperst : d.md.perstPend = false)
    (hfreeze : d.still.pending = false) :
    (d.arrive 2).pow.stable = 2 ∧ (d.arrive 2).pow.moving = false ∧ (d.arrive 2).pow.state = 3 := by
  simp [Dev.arrive, Dev.setPgood, hlatched, hperst, hdest, Dev.takePending, hfreeze, stableOf]

/-- A step that exceeds its limit resets the module and leaves the sequencer at its last stable point. -/
theorem seqStepTimeout_eq {d : Dev} (hmoving : d.pow.moving = true) :
    let e := (d.atNs (d.pow.stepCt + stepLimit d.pow.step)).resetCore
    seqStepTimeout d = e.setPow { e.pow with moving := false, step := 0 } := if_neg (by simp [hmoving])

/-! ### Leaving READY (R386) -/

/-- From READY, a state that does not rest there begins with D1. -/
theorem firstStep_down {t : Nat} (ht : 2 ≤ t) : firstStep 3 t = some 9 := by
  have hlow : stableOf t < 3 := by
    unfold stableOf
    split_ifs <;> omega
  exact (if_neg (by omega)).trans ((if_neg (by omega)).trans (if_pos rfl))

theorem Dev.goTo_step {d : Dev} {dest k : Nat} (h : firstStep d.pow.stable dest = some k) :
    d.goTo dest = (d.setPow { d.pow with dest := dest, latched := none }).beginStep k := by
  unfold Dev.goTo
  rw [h]

/-- An enabled wake source that is pending abandons the entry. -/
theorem coresWait_abandons {d : Dev} {t : Nat} (hlatched : d.pow.latched = some t) (ht : 2 ≤ t) (hidle : d.fh.inprog = [])
    (hwake : d.pow.wakesrc &&& d.pow.wakeen ≠ 0) :
    coresWait d = d.setPow { d.pow with abortcnt := d.pow.abortcnt + 1, latched := none, target := 0, coresWait := false } := by
  have hgo : ¬ (t < 2 ∨ (!d.fh.inprog.isEmpty) = true) := by simp [hidle]; omega
  unfold coresWait
  rw [hlatched]
  exact (if_neg hgo).trans (if_pos hwake)

/-- Otherwise the sequencer takes its first step down. -/
theorem coresWait_stepsDown {d : Dev} {t : Nat} (hlatched : d.pow.latched = some t) (ht : 2 ≤ t) (hidle : d.fh.inprog = [])
    (hwake : d.pow.wakesrc &&& d.pow.wakeen = 0) (hready : d.pow.stable = 3) :
    coresWait d = d.setPow { d.pow with target := t, coresWait := true, dest := t, latched := none, moving := true, step := 9,
                                        stepCt := d.ns } := by
  have hgo : ¬ (t < 2 ∨ (!d.fh.inprog.isEmpty) = true) := by simp [hidle]; omega
  have hfirst : firstStep d.pow.stable t = some 9 := by
    rw [hready]
    exact firstStep_down ht
  unfold coresWait
  rw [hlatched]
  exact (if_neg hgo).trans ((if_neg (not_not_intro hwake)).trans (Dev.goTo_step (d := d.setPow _) hfirst))

end Sys2Proof.Machine
end

section
/-! PROOFS. TIME and POWER commands and the steps of the sequencer follow their table. -/

namespace Sys2Proof.Spec

open Sys2Proof Sys2Proof.Machine

/-- A command under no condition makes its change. -/
theorem gives_of_answer {c : Instr} {g : Dev → Dev} (d : Dev) (hc : ∀ s, exec c s = answer g s) : Gives c d (g d) :=
  fun q => hc { pending := q, dev := d }

/-- Settles O50: each command is the equation of its case, and each step of the sequencer that of its end. -/
theorem timeAndPowerCommandsFollowTheirTable : Obligations.TimeAndPowerCommandsFollowTheirTable := by
  unfold Obligations.TimeAndPowerCommandsFollowTheirTable
  intro d w f r two p
  refine ⟨?timeQuery, ?timeSet, ?timeStep, ?powerQuery, ?powerEnter, ?powerPolicy, ?powerWakeport, ?powerTrickle, ?coresWait, ?stepDone,
    ?stepTimeout, ?linkL0⟩
  case timeQuery => exact fun h => h.replies (fun _ => rfl) rfl
  case timeSet =>
    intro h
    refine ⟨fun hlabel => h.replies (fun _ => rfl) (cmdTimeSet_label hlabel),
      fun hbit hdev hactive => h.replies (fun _ => rfl) (cmdTimeSet_refused hbit hdev hactive), fun hbit hdev hidle hswap hfits => ?_⟩
    refine ⟨_, h.replies (fun _ => rfl) (cmdTimeSet_step hbit hdev hidle hswap hfits), w.stepCt_ctStepped _ _ rfl rfl rfl rfl, rfl, ?_⟩
    change stepFine _ w.cad.ct = _
    unfold stepFine
    omega
  case timeStep =>
    intro h
    refine ⟨fun hactive => h.replies (fun _ => rfl) (cmdTimeStep_pending hactive), fun hidle hswap hnonneg => ?_,
      fun hidle hswap => h.replies (fun _ => rfl) (cmdTimeStep_refused hidle hswap)⟩
    refine ⟨_, h.replies (fun _ => rfl) (cmdTimeStep_now hidle hswap), w.stepCt_ctStepped _ _ rfl rfl rfl rfl, ?_, rfl, rfl⟩
    exact Int.toNat_of_nonneg hnonneg
  case powerQuery => exact fun h => h.replies (fun _ => rfl) rfl
  case powerEnter =>
    intro h
    obtain ⟨hready, hrest⟩ := h.ready
    refine ⟨fun hbad => h.replies (fun _ => rfl) (cmdPowerEnter_invalid hbad),
      fun ht hfloor => h.replies (fun _ => rfl) (cmdPowerEnter_conflict ht hfloor hready),
      fun ht hfloor hrun hactive => h.replies (fun _ => rfl) (cmdPowerEnter_trim ht hfloor hready hrest hrun hactive),
      fun ht => ⟨fun hmay => h.replies (fun _ => rfl) ?_, fun hmay => h.replies (fun _ => rfl) ?_⟩⟩
    · rw [cmdPowerEnter_leave ht hready hrest, if_pos hmay]
    · rw [cmdPowerEnter_leave ht hready hrest, if_neg (by simp [hmay])]
  case powerPolicy => exact fun h h1 h2 h3 h4 => h.replies (fun _ => rfl) (cmdPowerPolicy_ok h1 h2 h3 h4)
  case powerWakeport => exact fun h hp hsend hdown => h.replies (fun _ => rfl) (cmdPowerWakeport_ok hp hsend hdown)
  case powerTrickle => exact fun h hlen h1 h2 h3 h4 h5 => h.replies (fun _ => rfl) (cmdPowerTrickle_ok hlen h1 h2 h3 h4 h5)
  case coresWait =>
    intro t hon hlatched ht _ hidle
    obtain ⟨hready, hrest⟩ := ready_of_fwOn hon
    have hgives : Gives .coresWait d (coresWait d) := gives_of_onlyIf hon (fun _ => rfl)
    constructor
    · intro hwake
      rw [coresWait_abandons hlatched ht hidle hwake] at hgives
      exact ⟨_, hgives, rfl, rfl, hrest, rfl⟩
    · intro hwake
      rw [coresWait_stepsDown hlatched ht hidle hwake hready] at hgives
      exact ⟨_, hgives, rfl, rfl, rfl, rfl, rfl⟩
  case stepDone =>
    intro hmoving hshut
    have hgives : Gives .seqStepDone d (seqStepDone d) := gives_of_answer d (fun _ => rfl)
    refine ⟨fun hk => ?between, fun hk hdest hlatched hperst hfreeze hret => ?ready, fun hk hdest hlatched hperst hfreeze => ?coreOn⟩
    case between =>
      rw [seqStepDone_next hmoving hshut hk] at hgives
      exact ⟨_, hgives, rfl, rfl, fun hearly => congrArg (fun c => c.ct / 65536) (d.stepEffect_frame hearly).1⟩
    case ready =>
      rw [seqStepDone_eight hmoving hshut hk hret] at hgives
      exact ⟨_, hgives, Dev.arrive_ready hdest hlatched hperst hfreeze⟩
    case coreOn =>
      rw [seqStepDone_eleven hmoving hshut hk] at hgives
      exact ⟨_, hgives, Dev.arrive_rest (d := d.stepEffect 11) hdest hlatched hperst hfreeze⟩
  case stepTimeout =>
    intro hmoving
    have hgives : Gives .seqStepTimeout d (seqStepTimeout d) := gives_of_answer d (fun _ => rfl)
    rw [seqStepTimeout_eq hmoving] at hgives
    exact ⟨_, hgives, rfl, rfl, rfl, rfl, rfl, rfl⟩
  case linkL0 =>
    intro hawake hpowered
    have hon : d.hwOn = true := by simp [Dev.hwOn, hawake, hpowered]
    exact gives_of_onlyIf (g := pcieLinkL0) hon (fun _ => rfl)

end Sys2Proof.Spec
end

section
/-! PROOFS. Runnel lanes (R187, R192, R205): lane registers after writes, and what a micro-op over the active lanes makes of the device. -/

namespace Sys2Proof.Machine

open Sys2Proof Sys2Proof.Spec

/-! ### Lane registers (R187) -/

/-- A lane register after a write: the written one holds the value modulo 2^32, unless it is v0, and every other is unchanged. -/
theorem RunnelOp.reg_setReg (q : RunnelOp) {k i : Nat} (l j v : Nat) (hk : k < 16) (hi : i < 16) :
    (q.setReg l k v).reg j i = if i = k ∧ i ≠ 0 ∧ j = l then v % 2 ^ 32 else q.reg j i := by
  by_cases hi0 : i = 0
  · simp [RunnelOp.reg, hi0]
  by_cases hk0 : k = 0
  · rw [if_neg (by omega), RunnelOp.setReg, if_pos hk0]
  simp only [RunnelOp.reg, RunnelOp.setReg, hi0, hk0, if_false]
  by_cases hkey : i = k ∧ j = l
  · obtain ⟨rfl, rfl⟩ := hkey
    simp [Tab.at_put_same, hi0]
  · rw [Tab.at_put_other _ _ _ _ _ (by omega), if_neg (fun h => hkey ⟨h.1, h.2.2⟩)]

/-- Register `k` of the lanes `ls` written, each with its own value. -/
def RunnelOp.setLanes (q : RunnelOp) (k : Nat) (val : Nat → Nat) (ls : List Nat) : RunnelOp :=
  ls.foldl (fun p l => p.setReg l k (val l)) q

theorem RunnelOp.setLanes_cons (q : RunnelOp) (k : Nat) (val : Nat → Nat) (l : Nat) (ls : List Nat) :
    q.setLanes k val (l :: ls) = (q.setReg l k (val l)).setLanes k val ls := rfl

theorem RunnelOp.setReg_frame (q : RunnelOp) (l k v : Nat) : q.setReg l k v = { q with regs := (q.setReg l k v).regs } := by
  unfold RunnelOp.setReg
  split <;> rfl

theorem RunnelOp.setLanes_frame (k : Nat) (val : Nat → Nat) (ls : List Nat) (q : RunnelOp) :
    q.setLanes k val ls = { q with regs := (q.setLanes k val ls).regs } := by
  induction ls generalizing q with
  | nil => rfl
  | cons l ls ih => rw [RunnelOp.setLanes_cons, ih, q.setReg_frame]

theorem RunnelOp.reg_setLanes {k i : Nat} (val : Nat → Nat) (hk : k < 16) (hi : i < 16) (j : Nat) (ls : List Nat) (q : RunnelOp) :
    (q.setLanes k val ls).reg j i = if i = k ∧ i ≠ 0 ∧ j ∈ ls then val j % 2 ^ 32 else q.reg j i := by
  induction ls generalizing q with
  | nil => simp [RunnelOp.setLanes]
  | cons l ls ih =>
    rw [RunnelOp.setLanes_cons, ih, q.reg_setReg _ _ _ hk hi]
    by_cases hj : j = l
    · subst hj
      by_cases hwrites : i = k ∧ i ≠ 0
      · obtain ⟨rfl, hi0⟩ := hwrites
        simp [hi0]
      · rw [if_neg (by tauto), if_neg (by tauto), if_neg (by tauto)]
    · simp [hj]

/-! ### What a micro-op makes of its lanes -/

/-- Flags gathered over lanes from `c` on are `c` and those gathered from none. -/
theorem foldl_or_start (f : Nat → W32) (ls : List Nat) (c : W32) :
    ls.foldl (fun x l => x ||| f l) c = c ||| ls.foldl (fun x l => x ||| f l) 0 := by
  induction ls generalizing c with
  | nil => simp
  | cons l ls ih =>
    rw [List.foldl_cons, List.foldl_cons, ih, ih (0 ||| f l)]
    simp [BitVec.or_assoc]

/-- Lanes that raise nothing together raise nothing. -/
theorem laneFlags_none (q : RunnelOp) : laneFlags q (fun _ => 0#32) = 0#32 := by simp [laneFlags]

/-- Values written and flags gathered in one pass over the lanes. -/
theorem foldl_setReg_flags (k : Nat) (v : Nat → Flagged) (ls : List Nat) (q : RunnelOp) (c : W32) :
    ls.foldl (fun (t : RunnelOp × W32) l => (t.1.setReg l k (v l).1, t.2 ||| (v l).2)) (q, c)
      = (q.setLanes k (fun l => (v l).1) ls, ls.foldl (fun x l => x ||| (v l).2) c) := by
  induction ls generalizing q c with
  | nil => rfl
  | cons l ls ih => exact ih _ _

/-- Where no word of the basin holds an error, a read goes on with the device as it is (R205). -/
theorem Dev.readFor_of_clean {d : Dev} {b : Nat} (h : Clean d b) (pc : Nat) (rs : List (Nat × Nat)) (k : Dev → Dev) :
    d.readFor b pc rs k = k d := by
  obtain ⟨hbad, hsoft⟩ := h
  have hnone : rs.findSome? (fun r => (d.basin b).badIn r.1 r.2) = none := by simp [Basin.badIn, hbad]
  have hno : rs.flatMap (fun r => (d.basin b).softIn r.1 r.2) = [] := by simp [Basin.softIn, hsoft]
  simp only [Dev.readFor, hnone, hno]
  rfl

/-- An operation `o'` under `o`'s number, put back with lane state `p`, is what `o` has become. -/
theorem Dev.putLanes_moved {d : Dev} {b r : Nat} {o o' : Op} (hseq : o'.seq = o.seq) (p : RunnelOp) (n : Nat) :
    LanesMoved d b r o { o' with rnl := some p } p n (d.putLanes b r o' p n) := by
  refine ⟨rfl, ?_⟩
  simp only [Dev.putLanes, Basin.setOp, hseq]

end Sys2Proof.Machine

namespace Sys2Proof.Spec

open Sys2Proof Sys2Proof.Machine

section
variable {d : Dev} {b r : Nat} {a : Active} {o : Op} {q : RunnelOp} {m : Mop}

/-- A runnel that stands at a micro-op of the kind asked for carries it out. -/
theorem AtMicroOp.mu (h : AtMicroOp d b r a o q m) {sel : Mop → Bool} (hsel : sel m = true)
    (k : Dev → Active → Op → RunnelOp → Mop → Dev) : d.mu b r sel k = k d a o q m := by
  obtain ⟨-, hactive, hengine, holdest, hrnl, hended, hlib, hword, -⟩ := h
  simp [Dev.mu, hactive, hengine, holdest, hrnl, hended, hlib, hword, hsel]

/-- A micro-op over the lanes: what it gives vd of each active lane, the draws it counts and the flags it adds. -/
theorem AtMicroOp.givesLanes (h : AtMicroOp d b r a o q m) {sel : Mop → Bool} (hsel : sel m = true) {c : Instr} {g : Dev → Dev}
    (hc : ∀ s, exec c s = onCore g s) {stoch : RunnelOp → Mop → Bool} {f : RunnelOp → Mop → Nat → Nat → Nat → Nat → Nat → Flagged}
    {mode : RunnelOp → Mop → W32} (hg : g d = d.muLanes b r sel stoch f mode) (val : Nat → Flagged)
    (hval : ∀ l, f q m l (q.reg l m.va) (q.reg l m.vb) (q.reg l m.vc) (if stoch q m then a.laneDraw q l else 0) = val l) :
    GivesLanes c d b r o q m (if stoch q m then q.lanes.length else 0) (fun l => (val l).1)
      ((if q.lanes = [] then 0 else mode q m) ||| laneFlags q (fun l => (val l).2)) := by
  have ⟨hquiet, _, _, _, _, _, _, _, hvd⟩ := h
  have hgives : Gives c d (g d) := hquiet.gives hc
  rw [hg, Dev.muLanes, h.mu hsel] at hgives
  simp only [hval, foldl_setReg_flags] at hgives
  rw [foldl_or_start] at hgives
  refine ⟨_, _, hgives, Dev.putLanes_moved rfl _ _, ?_, fun l k hk => ?_⟩
  · rw [q.setLanes_frame]
  · exact RunnelOp.reg_setLanes _ hvd hk l q.lanes q

end

end Sys2Proof.Spec
end

section
/-! PROOFS. The element micro-ops IN, OUT and OUTR (R62, R188, R192, R196): what they read and write, and the obligation they settle. -/

namespace Sys2Proof.Machine

open Sys2Proof Sys2Proof.Spec

/-! ### IN by format (R192) -/

/-- The format and the base address of the input that IN names. -/
def RunnelOp.inFmt (q : RunnelOp) (m : Mop) : Nat := if m.mod % 2 = 1 then q.bfmt else q.afmt
def RunnelOp.inBase (q : RunnelOp) (m : Mop) : Nat := if m.mod % 2 = 1 then q.baddr else q.aaddr

/-- The code of lane `l`'s element: a raw one is read as a word. -/
def RunnelOp.inCode (q : RunnelOp) (m : Mop) (rd : Nat → Byte) (l : Nat) : Nat :=
  readElem rd (if q.inFmt m = fRaw then fB32 else q.inFmt m) (q.inBase m) (32 * q.group + l)

/-- The number that the `n` bytes of lane `l`'s element make. -/
def RunnelOp.inBytes (q : RunnelOp) (m : Mop) (rd : Nat → Byte) (n l : Nat) : Nat :=
  leNat ((List.range n).map (fun k => rd (q.inBase m + n * (32 * q.group + l) + k)))

/-- An element of `n` whole bytes is the number its bytes make (R53). -/
theorem readElem_of_bytes {f n : Nat} (hf : f ≠ fT5P) (hn : fmtBits f = 8 * n) (hpos : 0 < n) (rd : Nat → Byte) (base j : Nat) :
    readElem rd f base j = leNat ((List.range n).map (fun k => rd (base + n * j + k))) := by
  simp only [readElem, hf, hn, if_false]
  rw [if_neg (by omega), Nat.mul_div_cancel_left n (by decide), Nat.mul_comm j n]

section
variable {q : RunnelOp} {m : Mop} (rd : Nat → Byte) (l draw : Nat)

theorem RunnelOp.inCode_two (hf : q.inFmt m = fL16 ∨ q.inFmt m = fA16) : q.inCode m rd l = q.inBytes m rd 2 l := by
  unfold RunnelOp.inCode
  obtain hf | hf := hf <;> rw [hf] <;> exact readElem_of_bytes (by decide) rfl (by decide) _ _ _

theorem RunnelOp.inCode_four (hf : q.inFmt m = fRaw ∨ q.inFmt m = fA32 ∨ q.inFmt m = fB32) :
    q.inCode m rd l = q.inBytes m rd 4 l := by
  unfold RunnelOp.inCode
  obtain hf | hf | hf := hf <;> rw [hf] <;> exact readElem_of_bytes (by decide) rfl (by decide) _ _ _

theorem muInValue_eq :
    muInValue q m rd l draw =
      if q.inFmt m = fL16 then (lgOfL16 (q.inCode m rd l), 0)
      else if q.inFmt m = fA16 then
        let y := f16.operand q.subn (q.inCode m rd l); let z := f32.acc q.subn (rmDir (q.rmOf m) draw) y.1; (z.1, y.2 ||| z.2)
      else if q.inFmt m = fB32 then
        let y := f32.operand q.subn (q.inCode m rd l)
        let z := f32.acc q.subn (rmDir (q.rmOf m) draw) (y.1.shift (-q.aoff)); (z.1, y.2 ||| z.2)
      else (q.inCode m rd l, 0) := by
  have hfmt : (if m.mod % 2 == 1 then q.bfmt else q.afmt) = q.inFmt m := by simp [RunnelOp.inFmt]
  have hbase : (if m.mod % 2 == 1 then q.baddr else q.aaddr) = q.inBase m := by simp [RunnelOp.inBase]
  simp only [muInValue, hfmt, hbase]
  rfl

theorem muInValue_word (hf : q.inFmt m = fRaw ∨ q.inFmt m = fA32) : muInValue q m rd l draw = (q.inBytes m rd 4 l, 0) := by
  rw [muInValue_eq, q.inCode_four _ _ (by tauto)]
  obtain hf | hf := hf <;> rw [hf] <;> rfl

theorem muInValue_l16 (hf : q.inFmt m = fL16) : muInValue q m rd l draw = (lgOfL16 (q.inBytes m rd 2 l), 0) := by
  rw [muInValue_eq, q.inCode_two _ _ (.inl hf), hf]
  rfl

theorem muInValue_a16 (hf : q.inFmt m = fA16) :
    muInValue q m rd l draw =
      let y := f16.operand q.subn (q.inBytes m rd 2 l)
      let z := f32.acc q.subn (rmDir (q.rmOf m) draw) y.1
      (z.1, y.2 ||| z.2) := by
  rw [muInValue_eq, q.inCode_two _ _ (.inr hf), hf]
  rfl

theorem muInValue_b32 (hf : q.inFmt m = fB32) :
    muInValue q m rd l draw =
      let y := f32.operand q.subn (q.inBytes m rd 4 l)
      let z := f32.acc q.subn (rmDir (q.rmOf m) draw) (y.1.shift (-q.aoff))
      (z.1, y.2 ||| z.2) := by
  rw [muInValue_eq, q.inCode_four _ _ (.inr (.inr hf)), hf]
  rfl

end

theorem inRounds_iff (q : RunnelOp) (m : Mop) : inRounds q m = true ↔ q.inFmt m = fB32 ∨ q.inFmt m = fA16 := by
  simp [inRounds, RunnelOp.inFmt]

/-! ### OUT by format (R192) -/

section
variable {q : RunnelOp} {m : Mop} (v draw : Nat)

theorem muOutValue_raw (hf : q.dfmt = fRaw) : muOutValue q m v draw = (v, 0) := by
  rw [muOutValue, hf]
  rfl

theorem muOutValue_a32 (hf : q.dfmt = fA32) :
    muOutValue q m v draw =
      let y := f32.operand q.subn v; let z := f32.acc q.subn (rmDir (q.rmOf m) draw) y.1; (z.1, y.2 ||| z.2) := by
  rw [muOutValue, hf]
  rfl

theorem muOutValue_l16 (hf : q.dfmt = fL16) :
    muOutValue q m v draw = l16.round q.subn (rmDir (q.rmOf m) draw) (lgf.read (v % 2 ^ 19)) := by
  rw [muOutValue, hf]
  rfl

end

/-- The operation once its active lanes have put out the values `v` in `n` bytes each: their writes, their flags beside `mode`, and the
tiles whose flag a saturated value sets. -/
def Op.putOut (o : Op) (q : RunnelOp) (n : Nat) (v : Nat → Flagged) (mode : W32) : Op :=
  let at' (l : Nat) : Nat := q.daddr + (32 * q.group + l) * n
  { o with writes := o.writes ++ q.lanes.flatMap (fun l => writesAt (at' l) (leBytes n (v l).1)),
           flags := o.flags ||| (mode ||| laneFlags q (fun l => (v l).2)),
           tileSet := (o.tileSet ++ q.lanes.flatMap (fun l => satTilesAt (v l).2 (at' l) n)).dedup }

/-- Writes, flags and tiles gathered in one pass over the lanes. -/
theorem foldl_gather {α β : Type} (ws : Nat → List α) (fl : Nat → W32) (ts : Nat → List β) (ls : List Nat) (w : List α) (c : W32)
    (t : List β) :
    ls.foldl (fun (p : List α × W32 × List β) l => (p.1 ++ ws l, p.2.1 ||| fl l, p.2.2 ++ ts l)) (w, c, t)
      = (w ++ ls.flatMap ws, ls.foldl (fun x l => x ||| fl l) c, t ++ ls.flatMap ts) := by
  induction ls generalizing w c t with
  | nil => simp
  | cons l ls ih => simp [ih]

end Sys2Proof.Machine

namespace Sys2Proof.Spec

open Sys2Proof Sys2Proof.Machine

section
variable {d : Dev} {b r : Nat} {a : Active} {o : Op} {q : RunnelOp} {m : Mop}

/-- The range that the group's lanes touch is open to the run, where there are lanes (R196). -/
def SpanOpen (d : Dev) (b : Nat) (a : Active) (q : RunnelOp) (base f : Nat) : Prop :=
  q.lanes ≠ [] → (d.basin b).rangeCode a.run (base + 32 * q.group * muBytes f) (q.lanes.length * muBytes f) = 0

theorem SpanOpen.code {base f : Nat} (h : SpanOpen d b a q base f) :
    ¬ (if q.lanes = [] then 0 else (d.basin b).rangeCode a.run (q.span base f).1 (q.span base f).2) ≠ 0 := by
  split
  · exact fun hne => hne rfl
  · exact not_not.mpr (h ‹_›)

/-- An IN whose range may be read is a micro-op over the lanes. -/
theorem AtMicroOp.muIn_eq (h : AtMicroOp d b r a o q m) (hop : m.op = 1) (hclean : Clean d b)
    (hopen : SpanOpen d b a q (q.inBase m) (q.inFmt m)) :
    muIn b r d = d.muLanes b r (isOp 1) (fun q m => rmDraw q m && inRounds q m)
      (fun q m l _ _ _ draw => muInValue q m (o.view (d.basin b)) l draw) (fun q m => if inRounds q m then rmMode q m else 0) := by
  rw [muIn, h.mu (by simp [isOp, hop])]
  simp only [Dev.readFor_of_clean hclean]
  exact if_neg hopen.code

/-- IN of a format that does not round gives each lane its element and raises nothing. -/
theorem AtMicroOp.givesIn_exact (h : AtMicroOp d b r a o q m) (hop : m.op = 1) (hclean : Clean d b)
    (hopen : SpanOpen d b a q (q.inBase m) (q.inFmt m)) (hexact : inRounds q m = false) (val : Nat → Nat)
    (hval : ∀ l draw, muInValue q m (o.view (d.basin b)) l draw = (val l, 0)) : GivesLanes (.muIn b r) d b r o q m 0 val 0 := by
  have hgives := h.givesLanes (c := .muIn b r) (by simp [isOp, hop]) (fun _ => rfl) (h.muIn_eq hop hclean hopen)
    (fun l => (val l, 0)) (fun l => hval l _)
  simpa [hexact, laneFlags_none] using hgives

/-- IN of a format that rounds gives each lane its element rounded in the lane's own direction. -/
theorem AtMicroOp.givesIn_rounded (h : AtMicroOp d b r a o q m) (hop : m.op = 1) (hclean : Clean d b)
    (hopen : SpanOpen d b a q (q.inBase m) (q.inFmt m)) (hrounds : inRounds q m = true) (f : Dir → Nat → Flagged)
    (hval : ∀ l draw, muInValue q m (o.view (d.basin b)) l draw = f (rmDir (q.rmOf m) draw) l) :
    GivesCvt (.muIn b r) d b r a o q m f := by
  have hgives := h.givesLanes (c := .muIn b r) (by simp [isOp, hop]) (fun _ => rfl) (h.muIn_eq hop hclean hopen)
    (fun l => f (laneDir a q (q.rmOf m) l) l) (fun l => by rw [hval]; simp [hrounds, rmDraw, laneDir])
  simpa [hrounds, rmDraw, rmMode, laneDraws, GivesCvt] using hgives

/-- An OUT whose range may be written puts out each lane's value and goes on with the next micro-op. -/
theorem AtMicroOp.givesOut (h : AtMicroOp d b r a o q m) (hop : m.op = 2) (hopen : SpanOpen d b a q q.daddr q.dfmt) {n : Nat}
    (hn : muBytes q.dfmt = n) (v : Nat → Flagged)
    (hv : ∀ l, muOutValue q m (q.reg l m.va) (if rmDraw q m && outRounds q then a.laneDraw q l else 0) = v l) :
    Gives (.muOut b r) d (d.putLanes b r (o.putOut q n v (if q.lanes ≠ [] ∧ outRounds q then rmMode q m else 0))
      { q with upc := (q.upc + 1) % 2048 } (if rmDraw q m && outRounds q then q.lanes.length else 0)) := by
  have ⟨hquiet, _⟩ := h
  have hgives : Gives (.muOut b r) d (muOut b r d) := hquiet.gives (fun _ => rfl)
  rw [muOut, h.mu (by simp [isOp, hop])] at hgives
  dsimp only at hgives
  rw [if_neg hopen.code] at hgives
  simp only [hv, hn, foldl_gather] at hgives
  rw [foldl_or_start] at hgives
  exact hgives

/-- OUT in a format that does not round takes no draw and adds no flag but its values'. -/
theorem AtMicroOp.givesOut_exact (h : AtMicroOp d b r a o q m) (hop : m.op = 2) (hopen : SpanOpen d b a q q.daddr q.dfmt) {n : Nat}
    (hn : muBytes q.dfmt = n) (hexact : outRounds q = false) (v : Nat → Flagged) (hv : ∀ l, muOutValue q m (q.reg l m.va) 0 = v l) :
    Gives (.muOut b r) d (d.putLanes b r (o.putOut q n v 0) { q with upc := (q.upc + 1) % 2048 } 0) := by
  simpa [hexact] using h.givesOut hop hopen hn v (fun l => by simpa [hexact] using hv l)

/-- OUT in a format that rounds puts out each lane's value rounded in the lane's own direction. -/
theorem AtMicroOp.givesOut_rounded (h : AtMicroOp d b r a o q m) (hop : m.op = 2) (hopen : SpanOpen d b a q q.daddr q.dfmt) {n : Nat}
    (hn : muBytes q.dfmt = n) (hrounds : outRounds q = true) (f : Dir → Nat → Flagged)
    (hv : ∀ l draw, muOutValue q m (q.reg l m.va) draw = f (rmDir (q.rmOf m) draw) l) :
    Gives (.muOut b r) d (d.putLanes b r
      (o.putOut q n (fun l => f (laneDir a q (q.rmOf m) l) l) (if q.lanes = [] then 0 else rmFlag (q.rmOf m)))
      { q with upc := (q.upc + 1) % 2048 } (laneDraws q (q.rmOf m))) := by
  have hgives := h.givesOut hop hopen hn (fun l => f (laneDir a q (q.rmOf m) l) l)
    (fun l => by rw [hv]; simp [hrounds, rmDraw, laneDir])
  simpa [hrounds, rmDraw, rmMode, laneDraws] using hgives

/-- OUTR appends the records of the lanes whose vc is not 0, where the record cap has room for all of them. -/
theorem AtMicroOp.givesOutr (h : AtMicroOp d b r a o q m) (hop : m.op = 3) {want : List Nat}
    (hwant : q.lanes.filter (fun l => q.reg l m.vc ≠ 0) = want) (hroom : want.length ≤ q.rcap - q.records) :
    Gives (.muOutr b r) d (d.putLanes b r
      { o with writes := o.writes ++ want.zipIdx.flatMap (fun p =>
          writesAt (q.raddr + 8 + 8 * (q.records + p.2)) (leBytes 4 (q.reg p.1 m.va) ++ leBytes 4 (q.reg p.1 m.vb))) }
      { q with upc := (q.upc + 1) % 2048, records := q.records + want.length } 0) := by
  have ⟨hquiet, _⟩ := h
  have hgives : Gives (.muOutr b r) d (muOutr b r d) := hquiet.gives (fun _ => rfl)
  rw [muOutr, h.mu (by simp [isOp, hop])] at hgives
  simpa only [hwant, List.take_of_length_le hroom, decide_eq_false (Nat.not_lt.mpr hroom), Bool.or_false, Bool.false_and,
    Bool.false_eq_true, if_false] using hgives

end

/-- Settles O14: IN is a micro-op over the lanes whose value goes by the input's format, OUT gathers the lanes' values in the output
format, and OUTR the records of the lanes that want one. -/
theorem elementMicroOpsReachTheirElements : Obligations.ElementMicroOpsReachTheirElements := by
  intro d b r a o q m hat hclean
  refine ⟨fun hop => ?input, fun hop hopen => ?output, fun hop hroom => ?records⟩
  case input =>
    intro f base w hopen
    have hspan : SpanOpen d b a q (q.inBase m) (q.inFmt m) := hopen
    have hexact (hf : ¬ (q.inFmt m = fB32 ∨ q.inFmt m = fA16)) : inRounds q m = false := by
      rwa [Bool.eq_false_iff, ne_eq, inRounds_iff]
    refine ⟨fun hf => ?word, fun hf => ?l16, fun hf => ?a16, fun hf => ?b32⟩
    case word =>
      have hf : q.inFmt m = fRaw ∨ q.inFmt m = fA32 := hf
      have hnot : ¬ (q.inFmt m = fB32 ∨ q.inFmt m = fA16) := by obtain h | h := hf <;> rw [h] <;> decide
      exact hat.givesIn_exact hop hclean hspan (hexact hnot) _ (fun l draw => muInValue_word _ l draw hf)
    case l16 =>
      have hf : q.inFmt m = fL16 := hf
      exact hat.givesIn_exact hop hclean hspan (hexact (by rw [hf]; decide)) _ (fun l draw => muInValue_l16 _ l draw hf)
    case a16 =>
      exact hat.givesIn_rounded hop hclean hspan ((inRounds_iff q m).mpr (.inr hf)) _ (fun l draw => muInValue_a16 _ l draw hf)
    case b32 =>
      exact hat.givesIn_rounded hop hclean hspan ((inRounds_iff q m).mpr (.inl hf)) _ (fun l draw => muInValue_b32 _ l draw hf)
  case output =>
    intro put
    have hspan : SpanOpen d b a q q.daddr q.dfmt := hopen
    refine ⟨fun hf => ?raw, fun hf => ?a32, fun hf => ?l16⟩
    case raw =>
      have hgives := hat.givesOut_exact hop hspan (n := 4) (by rw [hf]; rfl) (by rw [outRounds, hf]; rfl) _
        (fun l => muOutValue_raw _ _ hf)
      exact ⟨_, _, hgives, rfl, Dev.putLanes_moved rfl _ _⟩
    case a32 =>
      have hgives := hat.givesOut_exact hop hspan (n := 4) (by rw [hf]; rfl) (by rw [outRounds, hf]; rfl) _
        (fun l => muOutValue_a32 _ _ hf)
      exact ⟨_, _, hgives, rfl, Dev.putLanes_moved rfl _ _⟩
    case l16 =>
      have hgives := hat.givesOut_rounded hop hspan (n := 2) (by rw [hf]; rfl) (by rw [outRounds, hf]; rfl)
        (fun t l => l16.round q.subn t (lgf.read (q.reg l m.va % 2 ^ 19)))
        (fun l draw => muOutValue_l16 _ _ hf)
      exact ⟨_, _, hgives, rfl, Dev.putLanes_moved rfl _ _⟩
  case records =>
    exact ⟨_, _, hat.givesOutr hop rfl hroom, rfl, Dev.putLanes_moved rfl _ _⟩

end Sys2Proof.Spec
end

section
/-! PROOFS. Scalar instructions (R83, R106, R108): how an instruction that nothing holds issues, what a write of a scalar register makes of
the device, and the obligation they settle. -/

namespace Sys2Proof.Spec

open Sys2Proof Sys2Proof.Machine

/-! ### Issue and result -/

/-- A register written and the program counter moved on is the device that the statements speak of. -/
theorem result_eq_wrote (d : Dev) (b k : Nat) (v : W32) : d.result b k v = wrote d b k v := by
  by_cases hk : k = 0 <;> simp [Dev.result, Dev.advance, Dev.goto, Seq.setReg, wrote, withSeq, hk]

section
variable {d : Dev} {b : Nat} {a : Active} {i : Ins}

/-- The instruction that basin `b` stands at is its current one. -/
theorem Stands.current (h : Stands d b a i) : (d.basin b).current = some (a, i) := by
  obtain ⟨-, hactive, hended, hentry, -, hbase, hlimit, hins⟩ := h
  obtain ⟨r, hr⟩ := Option.isSome_iff_exists.mp hentry
  simpa [Basin.current, hactive, hended, hr, Seq.inRegion, hbase, hlimit] using hins

/-- An instruction that nothing holds issues where its opcode is selected. -/
theorem Stands.issue (h : Stands d b a i) {code : Nat} (hop : i.opc = code) (k : Dev → Active → Ins → Dev) :
    d.issue b (opIs code) k = k d a i := by
  have ⟨_, _, _, _, hheld, _⟩ := h
  simp [Dev.issue, h.current, hheld, opIs, hop]

/-- The command of an instruction at which basin `b` stands makes the instruction's change. -/
theorem Stands.gives (h : Stands d b a i) {c : Instr} {code : Nat} {k : Dev → Active → Ins → Dev} (hop : i.opc = code)
    (hc : ∀ s, exec c s = onCore (fun d => d.issue b (opIs code) k) s) : Gives c d (k d a i) := by
  have ⟨hquiet, _⟩ := h
  have hgives := hquiet.gives hc
  rwa [h.issue hop] at hgives

/-- An instruction that computes a value writes it to SD and goes on. -/
theorem Stands.givesWrote (h : Stands d b a i) {c : Instr} {code : Nat} (val : Dev → Active → Ins → W32) (hop : i.opc = code)
    (hc : ∀ s, exec c s = onCore (fun d => d.issue b (opIs code) (fun d a i => d.result b i.sd (val d a i))) s) :
    Gives c d (wrote d b i.sd (val d a i)) := by
  rw [← result_eq_wrote]
  exact h.gives hop hc

/-- An arithmetic instruction computes its value from SA and the second operand. -/
theorem Stands.givesAlu (h : Stands d b a i) {c : Instr} {code : Nat} (f : W32 → W32 → W32) (hop : i.opc = code)
    (hc : ∀ s, exec c s = onCore (fun d => d.alu b code f) s) : Gives c d (wrote d b i.sd (f (sreg d b i.sa) (operandB d b i))) :=
  h.givesWrote (fun d _ i => f (sreg d b i.sa) (operandB d b i)) hop hc

end

/-! ### FLAGS (R83) -/

/-- FLAGS clears the engine flag words, where it is asked to, beside the write of SD. -/
theorem result_putFlags (d : Dev) (b k : Nat) (v : W32) (clear : Bool) :
    (d.putBasin b { d.basin b with flags := if clear then EngineFlags.reset else (d.basin b).flags }).result b k v
      = if clear then (wrote d b k v).putBasin b { (wrote d b k v).basin b with flags := EngineFlags.reset } else wrote d b k v := by
  cases clear <;> simp [result_eq_wrote, wrote, withSeq]

/-- Settles O1: each instruction issues, and all but FLAGS only write SD and go on. -/
theorem scalarInstructionsWriteTheirResult : Obligations.ScalarInstructionsWriteTheirResult := by
  unfold Obligations.ScalarInstructionsWriteTheirResult
  intro d b a i h u v
  refine ⟨?add, ?sub, ?and, ?or, ?xor, ?shl, ?shr, ?sltu, ?mul, ?li, ?rdslot, ?flags⟩
  case add => exact fun hop => h.givesAlu (fun u v => u + v) hop (fun _ => rfl)
  case sub => exact fun hop => h.givesAlu (fun u v => u - v) hop (fun _ => rfl)
  case and => exact fun hop => h.givesAlu (fun u v => u &&& v) hop (fun _ => rfl)
  case or => exact fun hop => h.givesAlu (fun u v => u ||| v) hop (fun _ => rfl)
  case xor => exact fun hop => h.givesAlu (fun u v => u ^^^ v) hop (fun _ => rfl)
  case shl => exact fun hop => h.givesAlu (fun u v => u <<< (v.toNat % 32)) hop (fun _ => rfl)
  case shr => exact fun hop => h.givesAlu (fun u v => u >>> (v.toNat % 32)) hop (fun _ => rfl)
  case sltu => exact fun hop => h.givesAlu (fun u v => if u.toNat < v.toNat then 1 else 0) hop (fun _ => rfl)
  case mul => exact fun hop => h.givesAlu (fun u v => u * v) hop (fun _ => rfl)
  case li => exact fun hop => h.givesWrote (fun _ _ i => BitVec.ofNat 32 i.imm) hop (fun _ => rfl)
  case rdslot =>
    exact fun hop => h.givesWrote (fun d a _ => BitVec.ofNat 32 (if a.run.det then a.run.tstart else d.ns - a.slotCt)) hop (fun _ => rfl)
  case flags =>
    intro hop
    have hgives := h.gives (c := .seqFlags b) hop (fun _ => rfl)
    rwa [result_putFlags] at hgives

end Sys2Proof.Spec
end

section
/-! PROOFS. The FLAGS and REG commands (R82, R83, R375): what each answers, and the register writes of the host (R375, R380). -/

namespace Sys2Proof.Machine

open Sys2Proof Sys2Proof.Spec

theorem Req.arg_lt (r : Req) (k : Nat) : r.arg k < 2 ^ 32 := (r.args.getD k 0).isLt

/-- The low half of a 64-bit argument is its first word. -/
theorem Req.arg64_mod (r : Req) (k : Nat) : r.arg64 k % 2 ^ 32 = r.arg k := by
  have := r.arg_lt k
  unfold Req.arg64
  omega

theorem Req.ofNat_arg (r : Req) (k : Nat) : BitVec.ofNat 32 (r.arg k) = r.args.getD k 0 := by simp [Req.arg]

/-! ### FLAGS (R82, R83) -/

section
variable {w : Dev} {r : Req} {i : Nat} {s : Stream}

/-- A handle that names a stream the request may act on is found. -/
theorem named_of_names (h : Names w r i s) : w.named r (r.arg 0) = (0, i, s) := by
  obtain ⟨hindex, hstream, hgen, hused, hlive, hdomain⟩ := h
  have hmay : r.may s.domain = true := by simpa [Req.may] using hdomain
  simp [Dev.named, hindex, hstream, hgen, hused, hlive, hmay]

theorem cmdFlagsRead_ok (h : Names w r i s) :
    cmdFlagsRead r w = (w,
      { res := [s.flags.toNat] ++ words2 s.novf ++ words2 s.nsat ++ words2 s.nvan ++ [s.novb.toNat, s.ntrunc.toNat] }) := by
  simp [cmdFlagsRead, named_of_names h, Dev.yes]

theorem cmdFlagsClear_ok (h : Names w r i s) :
    let c := s.flags &&& ~~~(BitVec.ofNat 32 (r.arg 1))
    cmdFlagsClear r w = (w.putStream i (if bitOf (r.arg 2) 0 then
      { s with flags := c, novf := 0, nsat := 0, nvan := 0, novb := 0, ntrunc := 0 } else { s with flags := c }), {}) := by
  simp only [cmdFlagsClear, named_of_names h, r.ofNat_arg]
  rfl

theorem putStream_streamSet (w : Dev) (i : Nat) (s : Stream) : StreamSet w (w.putStream i s) i s :=
  ⟨rfl, w.stream_putStream i s, fun n hn => w.stream_putStream_other i n s hn⟩

end

/-! ### Consecutive register reads (R267, R375) -/

theorem Dev.regRead_cad (d : Dev) (u o n : Nat) : ∃ c, (d.regRead u o n).2 = d.setCad c := by
  unfold Dev.regRead cadCtLowRead
  dsimp only
  split
  · split
    · exact ⟨_, rfl⟩
    · split
      · exact ⟨_, rfl⟩
      · split <;> exact ⟨_, rfl⟩
  · split <;> exact ⟨_, rfl⟩

/-- A read of one word outside the cadence unit gives the word and changes nothing. -/
theorem Dev.regRead_word (d : Dev) {u : Nat} (hu : u ≠ 0x1F1) (o : Nat) : d.regRead u o 4 = (d.regWord u o, d) := by
  simp [Dev.regRead, hu]

theorem Dev.regReads_cad (d : Dev) (u o n k : Nat) : ∃ c, (d.regReads u o n k).2 = d.setCad c := by
  induction k generalizing d o with
  | zero => exact ⟨d.cad, rfl⟩
  | succ k ih =>
    obtain ⟨c, hc⟩ := d.regRead_cad u o n
    obtain ⟨c', hc'⟩ := ih (d.setCad c) (o + n)
    exact ⟨c', by rw [Dev.regReads, hc]; exact hc'⟩

theorem Dev.regReads_length (d : Dev) (u o n k : Nat) : (d.regReads u o n k).1.length = k := by
  induction k generalizing d o with
  | zero => rfl
  | succ k ih => simp [Dev.regReads, ih]

/-! ### REG_READ (R375) -/

theorem mem_wordsAt {o n x : Nat} : x ∈ wordsAt o n ↔ ∃ k < n / 4, o + 4 * k = x := by simp [wordsAt]

/-- What REG_READ answers of the values read: up to ten words as RES, more as payload. -/
def regAnswer (n k : Nat) (vs : List Nat) : Resp :=
  let bs := vs.flatMap (fun x => leBytes n x)
  if 40 < n * k then { payload := bs } else { res := (List.range (n * k / 4)).map (fun j => leNat ((bs.drop (4 * j)).take 4)) }

theorem regAnswer_status (n k : Nat) (vs : List Nat) : (regAnswer n k vs).status = 0 := by
  unfold regAnswer
  dsimp only
  split <;> rfl

theorem regAnswer_payload {n k : Nat} {vs : List Nat} (h : 40 < n * k) (hlen : vs.length = k) :
    (regAnswer n k vs).payload.length = n * k := by
  simp [regAnswer, h, leBytes_length, hlen, Nat.mul_comm]

theorem regAnswer_word (v : Nat) : (regAnswer 4 1 [v]).res = [v % 2 ^ 32] := by
  have hword : leNat ((leBytes 4 v).take 4) = v % 2 ^ 32 := by
    rw [List.take_of_length_le (by rw [leBytes_length])]
    exact leNat_leBytes 4 v
  simpa [regAnswer] using hword

section
variable {w : Dev} {r : Req} {u o : Nat} (hwidth : r.arg 2 = 4 ∨ r.arg 2 = 8) (hpos : 1 ≤ r.arg 3) (hmax : r.arg 3 ≤ 512)
include hwidth hpos hmax

/-- Neither check of the width and the count fails. -/
theorem regReadArgs_valid : ¬ (r.arg 2 ≠ 4 ∧ r.arg 2 ≠ 8) ∧ ¬ (r.arg 3 = 0 ∨ 512 < r.arg 3) := by omega

theorem cmdRegRead_misaligned (h : r.arg64 0 % r.arg 2 ≠ 0) : cmdRegRead r w = (w, { status := 0x201 }) := by
  obtain ⟨hvalid, hcount⟩ := regReadArgs_valid hwidth hpos hmax
  simp only [cmdRegRead, if_neg hvalid, if_neg hcount, if_pos h]
  rfl

theorem cmdRegRead_denied (halign : r.arg64 0 % r.arg 2 = 0) (ht : regTarget (r.arg64 0) (r.arg 2 * r.arg 3) = .denied) :
    cmdRegRead r w = (w, { status := 0x300 }) := by
  obtain ⟨hvalid, hcount⟩ := regReadArgs_valid hwidth hpos hmax
  simp only [cmdRegRead, if_neg hvalid, if_neg hcount, if_neg (not_not.mpr halign), ht]
  rfl

/-- A read of register space: refused for what the domain may not read, put off for flag words of a running basin, else carried out. -/
theorem cmdRegRead_reg (halign : r.arg64 0 % r.arg 2 = 0) (ht : regTarget (r.arg64 0) (r.arg 2 * r.arg 3) = .reg u o) :
    cmdRegRead r w =
      if r.domain ≠ 0 ∧ !(wordsAt o (r.arg 2 * r.arg 3)).all (granted u) then (w, { status := 0x300 })
      else if u < 272 ∧ (w.basin u).seq.active.isSome
          ∧ (wordsAt o (r.arg 2 * r.arg 3)).any (fun k => decide (0x2000 ≤ k) && decide (k < 0x211C)) then (w, { status := 0x100 })
      else ((w.regReads u o (r.arg 2) (r.arg 3)).2, regAnswer (r.arg 2) (r.arg 3) (w.regReads u o (r.arg 2) (r.arg 3)).1) := by
  obtain ⟨hvalid, hcount⟩ := regReadArgs_valid hwidth hpos hmax
  simp only [cmdRegRead, if_neg hvalid, if_neg hcount, if_neg (not_not.mpr halign), ht, regAnswer]
  split
  · rfl
  · split
    · rfl
    · split <;> rfl

theorem cmdRegRead_ok (halign : r.arg64 0 % r.arg 2 = 0) (ht : regTarget (r.arg64 0) (r.arg 2 * r.arg 3) = .reg u o)
    (hdom : r.domain = 0) (hidle : ¬ (u < 272 ∧ (w.basin u).seq.active.isSome = true)) :
    cmdRegRead r w = ((w.regReads u o (r.arg 2) (r.arg 3)).2, regAnswer (r.arg 2) (r.arg 3) (w.regReads u o (r.arg 2) (r.arg 3)).1) := by
  rw [cmdRegRead_reg hwidth hpos hmax halign ht, if_neg (fun h => h.1 hdom), if_neg (fun h => hidle ⟨h.1, h.2.1⟩)]

theorem cmdRegRead_ungranted (halign : r.arg64 0 % r.arg 2 = 0) (ht : regTarget (r.arg64 0) (r.arg 2 * r.arg 3) = .reg u o)
    (hdom : r.domain ≠ 0) (hno : ∃ k, k < r.arg 2 * r.arg 3 / 4 ∧ granted u (o + 4 * k) = false) :
    cmdRegRead r w = (w, { status := 0x300 }) := by
  obtain ⟨k, hk, hg⟩ := hno
  have hall : (wordsAt o (r.arg 2 * r.arg 3)).all (granted u) = false :=
    List.all_eq_false.mpr ⟨_, mem_wordsAt.mpr ⟨k, hk, rfl⟩, by simp [hg]⟩
  rw [cmdRegRead_reg hwidth hpos hmax halign ht, if_pos ⟨hdom, by simp [hall]⟩]

theorem cmdRegRead_busy (halign : r.arg64 0 % r.arg 2 = 0) (ht : regTarget (r.arg64 0) (r.arg 2 * r.arg 3) = .reg u o)
    (hdom : r.domain = 0) (hu : u < 272) (hrun : (w.basin u).seq.active.isSome = true) (hlo : 0x2000 ≤ o) (hhi : o < 0x211C) :
    cmdRegRead r w = (w, { status := 0x100 }) := by
  have hbytes : 0 < r.arg 2 * r.arg 3 / 4 := by
    rcases hwidth with h | h <;> rw [h] <;> omega
  have hany : (wordsAt o (r.arg 2 * r.arg 3)).any (fun k => decide (0x2000 ≤ k) && decide (k < 0x211C)) = true :=
    List.any_eq_true.mpr ⟨o, mem_wordsAt.mpr ⟨0, hbytes, rfl⟩, by simp [hlo, hhi]⟩
  rw [cmdRegRead_reg hwidth hpos hmax halign ht, if_neg (fun h => h.1 hdom), if_pos ⟨hu, hrun, hany⟩]

end

/-! ### Register writes (R10, R375) -/

theorem cmdRegWrite_word {w : Dev} {r : Req} {u o : Nat} (hwidth : r.arg 2 = 4) (halign : r.arg64 0 % 4 = 0)
    (ht : regTarget (r.arg64 0) 4 = .reg u o) : cmdRegWrite r w = (w.wordWrite u o (r.arg 3), {}) := by
  have hvalue : w.regWrite u o 4 (r.arg64 3) = w.wordWrite u o (r.arg 3) := by rw [← r.arg64_mod 3]; rfl
  simp [cmdRegWrite, hwidth, halign, ht, hvalue, Dev.yes]

theorem registerWrite_word {a u o : Nat} (halign : a % 4 = 0) (ht : regTarget a 4 = .reg u o) (v : W64) (d : Dev) :
    registerWrite none a 4 v d = d.wordWrite u o (v.toNat % 2 ^ 32) := by
  simp [registerWrite, halign, ht, Dev.regWrite]

theorem Dev.wordWrite_holdlim (d : Dev) (v : Nat) : d.wordWrite 0x1F1 0x18 v = d.setCad { d.cad with holdlim := BitVec.ofNat 32 v } := rfl
theorem Dev.wordWrite_wakeen (d : Dev) (v : Nat) : d.wordWrite 0x1F3 0x08 v = d.setPow { d.pow with wakeen := v % 64 } := rfl
/-- Every register of Fountainhead's block is RO. -/
theorem Dev.wordWrite_fountainhead (d : Dev) (o v : Nat) : d.wordWrite 0x1F2 o v = d := rfl

theorem Dev.wordWrite_basin (d : Dev) {u : Nat} (hu : u < 272) (o v : Nat) : d.wordWrite u o v = d.putBasin u ((d.basin u).regWrite o v) :=
  if_pos hu

theorem Basin.regWrite_csc (x : Basin) (v : Nat) :
    x.regWrite 0x2100 v = { x with flags := { x.flags with csc := w1c x.flags.csc v } } := rfl
theorem Basin.regWrite_ident (x : Basin) (v : Nat) : x.regWrite 0 v = x := rfl

theorem registerWrite_reqbase {d : Dev} {f : Nat} {v : W64} (hf : f < 256) (hr : (d.func f).inReset = false)
    (hoff : (d.func f).enable = false) (hv : v.toNat < 2 ^ 32) :
    registerWrite (some f) 0x1000 4 v d
      = d.putFunc f { d.func f with reqbase := (d.func f).reqbase / 2 ^ 32 * 2 ^ 32 + v.toNat / 4096 * 4096 } := by
  have hexists : ¬ 256 ≤ f := by omega
  have hword : v.toNat % 4294967296 = v.toNat := Nat.mod_eq_of_lt hv
  simp [registerWrite, Dev.bar0, hexists, hr, Dev.bar0Write, hoff, hword]

end Sys2Proof.Machine
end

section
/-! PROOFS. The EVENT and LOG commands (R374, R377, R379, R403): what each answers. -/

namespace Sys2Proof

/-- A number that stands as `n` bytes at offset `o` of a list of bytes is read there. -/
theorem leNat_field {bs pre post : List Byte} {o n v : Nat} (h : bs = pre ++ (leBytes n v ++ post)) (ho : pre.length = o) :
    leNat ((bs.drop o).take n) = v % 256 ^ n := by
  rw [h, ← ho, List.drop_left, List.take_left' (leBytes_length n v), leNat_leBytes]

/-- Blocks of `n` elements, dropped `k` at a time. -/
theorem drop_flatMap_blocks {α β : Type} {f : α → List β} {n : Nat} (hf : ∀ x, (f x).length = n) (l : List α) (k : Nat) :
    (l.flatMap f).drop (n * k) = (l.drop k).flatMap f := by
  induction k generalizing l with
  | zero => rfl
  | succ k ih =>
    cases l with
    | nil => simp
    | cons x l =>
      have hsplit : n * (k + 1) = (f x).length + n * k := by rw [hf, Nat.mul_succ, Nat.add_comm]
      rw [List.flatMap_cons, List.drop_succ_cons, hsplit, List.drop_length_add_append, ih]

end Sys2Proof

namespace Sys2Proof.Machine

open Sys2Proof Sys2Proof.Spec

variable {w : Dev} {r : Req}

/-! ### EVENT (R377, R379) -/

theorem cmdEventConfig_ok (halign : r.arg64 0 % 4096 = 0) (hmin : 6 ≤ r.arg 2) (hmax : r.arg 2 ≤ 14)
    (hvector : r.arg 3 % 2048 < vectorsOf r.func) :
    cmdEventConfig r w = (w.putFunc r.func { w.func r.func with
      evqBase := r.arg64 0, evqLog := r.arg 2, evqVector := r.arg 3 % 2048, evqEnable := bitOf (r.arg 3) 31,
      evqMask := BitVec.ofNat 32 (r.arg 4), evqHead := 0, evqTail := 0, evqPhase := 1, evqLost := 0, evqSet := true }, {}) := by
  have hlog : ¬ (r.arg 2 < 6 ∨ 14 < r.arg 2) := by omega
  have hbits : bitsOf (r.arg 3) 10 0 = r.arg 3 % 2048 := by simp [bitsOf]
  simp [cmdEventConfig, halign, hlog, hbits, hvector, Dev.yes]

theorem eventBytes_length (x : Event) (phase lost : Nat) : (eventBytes x phase lost).length = 32 := by
  simp [eventBytes, leBytes_length]

/-- TYPE stands at offset 0 of an event entry. -/
theorem eventBytes_type (x : Event) (phase lost : Nat) (rest : List Byte) :
    leNat ((eventBytes x phase lost ++ rest).take 2) = x.type % 2 ^ 16 :=
  leNat_field (pre := []) (n := 2) (by simp only [eventBytes, List.append_assoc]; rfl) rfl

/-- CT stands at offset 8 of an event entry. -/
theorem eventBytes_ct (x : Event) (phase lost : Nat) (rest : List Byte) :
    leNat (((eventBytes x phase lost ++ rest).drop 8).take 8) = x.ct % 2 ^ 64 :=
  leNat_field (pre := leBytes 2 x.type ++ leBytes 2 (phase + lost * 256) ++ leBytes 2 x.domain ++ leBytes 2 x.source) (n := 8)
    (by simp only [eventBytes, List.append_assoc]; rfl) (by simp [leBytes_length])

/-- The payload of EVENT_FETCH: the entries in order, of which the first says how many were lost. -/
def fetchedEvents (es : List Event) (phase lost : Nat) : List Byte :=
  es.zipIdx.flatMap (fun p => eventBytes p.1 phase (if p.2 = 0 then lost else 0))

theorem fetchedEvents_length (es : List Event) (phase lost : Nat) : (fetchedEvents es phase lost).length = 32 * es.length := by
  simp [fetchedEvents, List.length_flatMap, eventBytes_length, Nat.mul_comm]

/-- Entry `k` of the payload is the event there. -/
theorem fetchedEvents_entry {es : List Event} {k : Nat} {x : Event} (h : es[k]? = some x) (phase lost : Nat) :
    ∃ n rest, (fetchedEvents es phase lost).drop (32 * k) = eventBytes x phase n ++ rest := by
  obtain ⟨hk, hx⟩ := List.getElem?_eq_some_iff.mp h
  have hblock (p : Event × Nat) : (eventBytes p.1 phase (if p.2 = 0 then lost else 0)).length = 32 := eventBytes_length _ _ _
  have hdrop : es.zipIdx.drop k = (x, k) :: es.zipIdx.drop (k + 1) := by
    rw [List.drop_eq_getElem_cons (by simpa using hk)]
    simp [hx]
  exact ⟨_, _, by rw [fetchedEvents, drop_flatMap_blocks hblock, hdrop, List.flatMap_cons]⟩

theorem cmdEventFetch_ok (hmin : 1 ≤ r.arg 0) (hmax : r.arg 0 ≤ 32) : ∃ lost,
    cmdEventFetch r w = ((w.setFree (w.free + 1)).setFh { w.fh with supBuf := w.fh.supBuf.drop (r.arg 0), supLost := lost },
      { payload := fetchedEvents (w.fh.supBuf.take (r.arg 0)) ((Config.freeValue w.free).toNat % 2) w.fh.supLost }) := by
  have hcount : ¬ (r.arg 0 = 0 ∨ 32 < r.arg 0) := by omega
  exact ⟨_, if_neg hcount⟩

/-! ### LOG (R403, R417) -/

theorem cmdLogRead_ok (hend : r.arg64 0 + r.arg 2 ≤ 0x2F00000) (hmax : r.arg 2 ≤ 4096) :
    cmdLogRead r w = (w.setBoot { w.boot with erasing := w.boot.erasing.map (fun e => (e.1, e.2.1, true)) },
      { payload := (Mem.readBytes w.boot.log (r.arg64 0) (r.arg 2)).map (fun b => ~~~b) }) :=
  (if_neg (Nat.not_lt.mpr hend)).trans (if_neg (Nat.not_lt.mpr hmax))

theorem Boot.erased_frame (b : Boot) (area sector : Nat) :
    ∃ j half, b.erased area sector = { b with journal := j, journalHalf := half } := by
  obtain ⟨_, _, h⟩ := b.append_frame (.eraseBegin area sector)
  obtain ⟨_, _, h'⟩ := (b.append (.eraseBegin area sector)).append_frame (.eraseDone area sector)
  exact ⟨_, _, by rw [Boot.erased, h', h]⟩

/-- Erases are recorded in the journal alone. -/
theorem Boot.foldl_erased_frame (area : Nat) (ks : List Nat) (b : Boot) :
    ∃ j half, ks.foldl (fun b k => b.erased area k) b = { b with journal := j, journalHalf := half } := by
  induction ks generalizing b with
  | nil => exact ⟨_, _, rfl⟩
  | cons k ks ih =>
    obtain ⟨_, _, h⟩ := b.erased_frame area k
    obtain ⟨_, _, h'⟩ := ih (b.erased area k)
    exact ⟨_, _, by rw [List.foldl_cons, h', h]⟩

theorem cmdLogClear_eq (r : Req) (w : Dev) :
    ∃ j half, cmdLogClear r w = (w.setBoot { w.boot with journal := j, journalHalf := half, log := [] }, {}) := by
  obtain ⟨j, half, h⟩ := Boot.foldl_erased_frame 5 (List.range 752) w.boot
  exact ⟨j, half, by rw [cmdLogClear, h]; rfl⟩

end Sys2Proof.Machine
end

section
/-! PROOFS. Euparum over MCTP (R378, R410): what the supervisor answers, and on which grounds. -/

namespace Sys2Proof.Machine

open Sys2Proof

/-- The request that a slot and a payload over MCTP make. -/
def mctpReq (slot pay : List Byte) (d : Dev) : Req := { reqOf 0 slot d.ns with mctp := true, domain := 0, payload := pay }

theorem mctpReq_opcode (slot pay : List Byte) (d : Dev) : (mctpReq slot pay d).opcode = leNat (slot.take 2) := rfl

theorem mctpReq_arg0 (slot pay : List Byte) (d : Dev) : (mctpReq slot pay d).arg 0 = leNat ((slot.drop 0x20).take 4) % 2 ^ 32 := by
  simp [mctpReq, reqOf, Req.arg]

/-- STATUS stands at offset 4 of a response slot. -/
theorem slotBytes_status (r : Req) (x : Resp) (phase ct rlen : Nat) :
    leNat (((slotBytes r x phase ct rlen).drop 4).take 2) = x.status % 2 ^ 16 :=
  leNat_field (pre := leBytes 2 r.opcode ++ leBytes 2 r.tag) (n := 2) (by simp only [slotBytes, List.append_assoc]; rfl)
    (by simp [leBytes_length])

/-- A response over MCTP is counted and sent as one message on the bus. -/
theorem Dev.respond_mctp {r : Req} (hmctp : r.mctp = true) (hcut : r.cut = false) (d : Dev) (x : Resp) :
    d.respond r x = ((d.setFh { d.fh with cmdcnt := d.fh.cmdcnt + 1 }).setFree (d.free + 1)).emit
      (.mctp (slotBytes r x ((Config.freeValue d.free).toNat % 2) d.ns (x.payload.take r.rcap).length) (x.payload.take r.rcap)) := by
  simp only [Dev.respond, hcut, hmctp]
  rfl

/-! ### Which requests are served (R378, R410, R424) -/

section
variable {d : Dev} {r : Req} {sig : Bool} {bad : List Nat}

theorem mctpAnswer_unknown (h : permOf r.opcode = none) : mctpAnswer sig bad r d = (d, { status := 0x200 }) := if_pos h

section
variable (hknown : permOf r.opcode ≠ none) (hlive : d.boot.retired = false)
include hknown hlive

theorem mctpAnswer_denied (h : r.opcode ∉ mctpAlways ∧ r.opcode ∉ mctpReady) : mctpAnswer sig bad r d = (d, { status := 0x300 }) := by
  simp [mctpAnswer, hknown, hlive, h, Dev.no, stDENIED]

theorem mctpAnswer_early (h : r.opcode ∈ mctpReady) (hready : d.boot.ready = false) :
    mctpAnswer sig bad r d = (d, { status := 0x303 }) := by
  simp [mctpAnswer, hknown, hlive, h, hready, Dev.no, stWRONG_STATE]

theorem mctpAnswer_served (hserved : r.opcode ∈ mctpAlways ∨ r.opcode ∈ mctpReady)
    (hready : r.opcode ∈ mctpReady → d.boot.ready = true) (hupdate : r.opcode < 0xC00) (hcap : r.rcap ≤ 4096)
    (hlen : r.payload.length ≤ 4096) : mctpAnswer sig bad r d = mctpServe sig bad r d := by
  have hallowed : ¬ ((!decide (r.opcode ∈ mctpAlways)) = true ∧ (!decide (r.opcode ∈ mctpReady)) = true) := by
    simpa [or_iff_not_imp_left] using hserved
  have hinTime : ¬ (decide (r.opcode ∈ mctpReady) = true ∧ (!d.boot.ready) = true) := by simpa using hready
  have hretired : ¬ (d.boot.retired = true ∧ r.opcode ∉ [0x100, 0xD00, 0xF00]) := by simp [hlive]
  have hstate : ¬ ((d.pow.state = 2 ∨ d.pow.state = 3) ∧ 0xC00 ≤ r.opcode ∧ r.opcode < 0xC05) := by omega
  have hfits : ¬ (4096 < r.rcap ∨ 4096 < r.payload.length) := by omega
  simp only [mctpAnswer, if_neg hknown, if_neg hretired, if_neg hallowed, if_neg hinTime, if_neg hstate, if_neg hfits]

end

theorem mctpServe_info (h : r.opcode = 0x100) : mctpServe sig bad r d = cmdDeviceInfo r d := by simp [mctpServe, h]
theorem mctpServe_powerEnter (h : r.opcode = 0xB01) : mctpServe sig bad r d = cmdPowerEnter r d := by simp [mctpServe, h]

/-- Over MCTP, Trim conflicts with the floor while the sequencer moves, and at every stable point but Trickle and Rest (R31, R388). -/
theorem cmdPowerEnter_conflict_awake (ht : r.arg 0 = 1) (hfloor : d.floorHigh = true) (h : d.pow.moving = true ∨ d.pow.stable ≠ 2) :
    cmdPowerEnter r d = (d, { status := 0x501 }) := by
  simp [cmdPowerEnter, ht, hfloor, h, Dev.no, stFLOOR_CONFLICT]

end

end Sys2Proof.Machine

namespace Sys2Proof.Spec

open Sys2Proof Sys2Proof.Machine

/-- A request over MCTP that changes nothing is answered on the bus with its status. -/
theorem mctp_answered {d : Dev} (hon : d.aonOn = true) {slot pay : List Byte} {sig : Bool} {bad : List Nat} {x : Resp}
    (hx : mctpAnswer sig bad (mctpReq slot pay d) d = (d, x)) :
    ∃ (e : Dev) (b p : List Byte), Gives (.mctpRequest slot pay sig bad) d e ∧ e.out = d.out ++ [.mctp b p]
      ∧ leNat ((b.drop 4).take 2) = x.status % 2 ^ 16 ∧ e = { d with out := e.out, fh := e.fh, free := e.free } := by
  have hgives : Gives (.mctpRequest slot pay sig bad) d (mctpRequest slot pay sig bad d) := gives_of_onlyIf hon (fun _ => rfl)
  have heq : mctpRequest slot pay sig bad d = d.respond (mctpReq slot pay d) x := by
    change (mctpAnswer sig bad (mctpReq slot pay d) d).1.respond (mctpReq slot pay d) (mctpAnswer sig bad (mctpReq slot pay d) d).2 = _
    rw [hx]
  rw [heq, Dev.respond_mctp rfl rfl] at hgives
  exact ⟨_, _, _, hgives, rfl, slotBytes_status _ x _ _ _, rfl⟩

end Sys2Proof.Spec
end

section
/-! PROOFS. The FLAGS, REG, EVENT, LOG and MCTP commands answer as their rules say. -/

namespace Sys2Proof.Spec

open Sys2Proof Sys2Proof.Machine

theorem gives_registerWrite {d : Dev} (hq : Quiet d) (g : Option Nat) (a n : Nat) (v : W64) :
    Gives (.registerWrite g a n v) d (registerWrite g a n v d) := hq.gives (fun _ => rfl)

theorem Serving.func {d w : Dev} {f op : Nat} {r : Req} (h : Serving d f op r w) : r.func = f := by
  obtain ⟨-, -, hfunc, -⟩ := h
  exact hfunc

/-- Settles O49: each command is the equation of its case, a register write that of its register, and an answer over MCTP that of the
check which decides it. -/
theorem flagRegisterEventAndLogCommands : Obligations.FlagRegisterEventAndLogCommands := by
  unfold Obligations.FlagRegisterEventAndLogCommands
  intro d w f i s r two
  refine ⟨?flagsRead, ?flagsClear, ?regRead, ?regWrite, ?hostWrite, ?eventConfig, ?eventQuery, ?eventFetch, ?logRead, ?logClear,
    ?unknown, ?mctp⟩
  case flagsRead => exact fun h hnames => h.replies (fun _ => rfl) (cmdFlagsRead_ok hnames)
  case flagsClear =>
    intro h hnames _
    exact ⟨_, h.replies (fun _ => rfl) (cmdFlagsClear_ok hnames), putStream_streamSet w i _⟩
  case regRead =>
    intro u o h hwidth hpos hmax
    refine ⟨fun halign ht => ⟨fun hdom hidle => ?_, fun hdom hno => ?_, fun hdom hu hrun hlo hhi => ?_⟩,
      fun hmis => h.replies (fun _ => rfl) (cmdRegRead_misaligned hwidth hpos hmax hmis),
      fun halign ht => h.replies (fun _ => rfl) (cmdRegRead_denied hwidth hpos hmax halign ht)⟩
    · obtain ⟨c, hc⟩ := w.regReads_cad u o (r.arg 2) (r.arg 3)
      refine ⟨_, _, h.replies (fun _ => rfl) (cmdRegRead_ok hwidth hpos hmax halign ht hdom hidle), by rw [hc]; rfl,
        regAnswer_status _ _ _, fun hlong => regAnswer_payload hlong (w.regReads_length _ _ _ _), fun hu h4 h1 => ?_⟩
      have hone : w.regReads u o 4 1 = ([w.regWord u o], w) := by simp only [Dev.regReads, w.regRead_word hu]
      rw [h4, h1, hone]
      exact ⟨rfl, regAnswer_word _⟩
    · exact h.replies (fun _ => rfl) (cmdRegRead_ungranted hwidth hpos hmax halign ht hdom hno)
    · exact h.replies (fun _ => rfl) (cmdRegRead_busy hwidth hpos hmax halign ht hdom hu hrun hlo hhi)
  case regWrite =>
    intro u o h hwidth halign ht v
    have hreply : Replies (.regWrite f) d (w.wordWrite u o v) r {} := h.replies (fun _ => rfl) (cmdRegWrite_word hwidth halign ht)
    refine ⟨?holdlim, ?wakeen, ?fountainhead, ?flags, ?ident⟩
    case holdlim =>
      rintro rfl rfl
      exact hreply
    case wakeen =>
      rintro rfl rfl
      exact hreply
    case fountainhead =>
      rintro rfl
      exact hreply
    case flags =>
      rintro hu rfl
      rw [w.wordWrite_basin hu, Basin.regWrite_csc] at hreply
      exact ⟨_, hreply, rfl, fun n hn => w.basin_putBasin_other u n _ hn, w.basin_putBasin u _⟩
    case ident =>
      rintro hu rfl
      rw [w.wordWrite_basin hu, Basin.regWrite_ident] at hreply
      refine ⟨_, hreply, rfl, fun n => ?_⟩
      by_cases hn : n = u
      · rw [hn, w.basin_putBasin]
      · exact w.basin_putBasin_other u n _ hn
  case hostWrite =>
    intro a v hquiet halign
    refine ⟨fun ht => ?wakeen, fun ht => ?bootStatus, fun hf hr hoff hv => ?reqbase⟩
    case wakeen =>
      have hgives := gives_registerWrite hquiet none a 4 v
      rwa [registerWrite_word halign ht, Dev.wordWrite_wakeen, Nat.mod_mod_of_dvd _ (by decide)] at hgives
    case bootStatus =>
      have hgives := gives_registerWrite hquiet none a 4 v
      rwa [registerWrite_word halign ht, Dev.wordWrite_fountainhead] at hgives
    case reqbase =>
      have hgives := gives_registerWrite hquiet (some f) 0x1000 4 v
      rwa [registerWrite_reqbase hf hr hoff hv] at hgives
  case eventConfig =>
    intro h halign hmin hmax hvector
    obtain rfl := h.func
    exact h.replies (fun _ => rfl) (cmdEventConfig_ok halign hmin hmax hvector)
  case eventQuery =>
    intro h
    obtain rfl := h.func
    exact h.replies (fun _ => rfl) rfl
  case eventFetch =>
    intro h hmin hmax
    obtain ⟨lost, hfetch⟩ := cmdEventFetch_ok (w := w) hmin hmax
    refine ⟨_, _, h.replies (fun _ => rfl) hfetch, rfl, by rw [fetchedEvents_length, List.length_take], fun k x hk hx => ?_, rfl⟩
    obtain ⟨n, rest, hentry⟩ := fetchedEvents_entry (by rwa [List.getElem?_take_of_lt hk])
      ((Config.freeValue w.free).toNat % 2) w.fh.supLost
    rw [← List.drop_drop, hentry]
    exact ⟨eventBytes_type x _ n rest, eventBytes_ct x _ n rest⟩
  case logRead =>
    exact fun h hend hmax => ⟨_, h.replies (fun _ => rfl) (cmdLogRead_ok hend hmax), rfl, rfl, rfl⟩
  case logClear =>
    intro h
    obtain ⟨_, _, hclear⟩ := cmdLogClear_eq r w
    exact ⟨_, h.replies (fun _ => rfl) hclear, rfl, fun _ => rfl, rfl, rfl⟩
  case unknown =>
    rintro ⟨hon, -, hfunc, -, rest, hinprog, rfl⟩ hunknown
    have hgives : Gives (.unknownOpcode f) d (unknownOpcode f d) := gives_of_onlyIf hon (fun _ => rfl)
    have hanswer : unknownOpcode f d = (d.setFh { d.fh with inprog := rest }).respond r { status := 0x200 } := by
      unfold unknownOpcode
      rw [hinprog]
      exact if_pos ⟨hfunc, hunknown⟩
    rwa [hanswer] at hgives
  case mctp =>
    intro slot pay sig bad hon hlive _ hpay op answered
    refine ⟨fun hop hcap => ?info, fun hop => ?denied, fun hop => ?unknownOpcode, fun hop hready => ?early,
      fun hop hready hcap harg hfloor hstate => ?conflict⟩
    case info =>
      have hcode : (mctpReq slot pay d).opcode = 0x100 := hop
      have hserved := mctpAnswer_served (sig := sig) (bad := bad) (by rw [hcode]; decide) hlive (by rw [hcode]; decide)
        (fun hlater => absurd hlater (by rw [hcode]; decide)) (by rw [hcode]; decide) hcap hpay
      exact mctp_answered hon (hserved.trans (mctpServe_info hcode))
    case denied =>
      have hcode : (mctpReq slot pay d).opcode = 0x400 := hop
      exact mctp_answered hon (mctpAnswer_denied (by rw [hcode]; decide) hlive (by rw [hcode]; decide))
    case unknownOpcode =>
      have hcode : (mctpReq slot pay d).opcode = 0xFFF := hop
      exact mctp_answered hon (mctpAnswer_unknown (by rw [hcode]; decide))
    case early =>
      have hcode : (mctpReq slot pay d).opcode = 0xA00 := hop
      exact mctp_answered hon (mctpAnswer_early (by rw [hcode]; decide) hlive (by rw [hcode]; decide) hready)
    case conflict =>
      have hcode : (mctpReq slot pay d).opcode = 0xB01 := hop
      have hserved := mctpAnswer_served (sig := sig) (bad := bad) (by rw [hcode]; decide) hlive (by rw [hcode]; decide)
        (fun _ => hready) (by rw [hcode]; decide) hcap hpay
      have htrim : (mctpReq slot pay d).arg 0 = 1 := by simp [mctpReq_arg0, harg]
      have hawake : d.pow.moving = true ∨ d.pow.stable ≠ 2 := hstate.imp_right (fun hready => by omega)
      exact mctp_answered hon (hserved.trans ((mctpServe_powerEnter hcode).trans (cmdPowerEnter_conflict_awake htrim hfloor hawake)))

end Sys2Proof.Spec
end

section
/-! PROOFS. Memory after writes (R53): numbers written and read back, and lists of writes in the order made. -/

namespace Sys2Proof

/-- Bytes written are read back. -/
theorem Mem.readBytes_writeBytes (m : Mem) (a : Nat) (bs : List Byte) : Mem.readBytes (Mem.writeBytes m a bs) a bs.length = bs := by
  refine List.ext_getElem (by simp [Mem.readBytes]) (fun k h _ => ?_)
  have hk : k < bs.length := by simpa [Mem.readBytes] using h
  simp [Mem.readBytes, Mem.read_writeBytes, hk]

/-- A number written is read back modulo the size of its bytes. -/
theorem Mem.readLe_writeLe (m : Mem) (a n v : Nat) : Mem.readLe (Mem.writeLe m a n v) a n = v % 256 ^ n := by
  have hread := Mem.readBytes_writeBytes m a (leBytes n v)
  rw [leBytes_length] at hread
  rw [Mem.readLe, Mem.writeLe, hread, leNat_leBytes]

/-- Writes made in two parts. -/
theorem Mem.apply_append (m : Mem) (ws vs : List (Nat × Byte)) : Mem.apply m (ws ++ vs) = Mem.apply (Mem.apply m ws) vs :=
  List.foldl_append

theorem Mem.apply_cons (m : Mem) (w : Nat × Byte) (ws : List (Nat × Byte)) : Mem.apply m (w :: ws) = Mem.apply (Mem.write m w.1 w.2) ws := rfl

/-- A byte that no write names is as before. -/
theorem Mem.read_apply_untouched {ws : List (Nat × Byte)} {p : Nat} (h : ∀ w ∈ ws, w.1 ≠ p) (m : Mem) :
    Mem.read (Mem.apply m ws) p = Mem.read m p := by
  induction ws generalizing m with
  | nil => rfl
  | cons w ws ih =>
    rw [Mem.apply_cons, ih (fun v hv => h v (List.mem_cons_of_mem w hv)),
      Mem.read_write_other m w.1 p w.2 (h w List.mem_cons_self).symm]

/-- A byte that some write names, and on which all that name it agree. -/
theorem Mem.read_apply_agreed {ws : List (Nat × Byte)} {p : Nat} {v : Byte} (hmem : ∃ w ∈ ws, w.1 = p) (hall : ∀ w ∈ ws, w.1 = p → w.2 = v)
    (m : Mem) : Mem.read (Mem.apply m ws) p = v := by
  induction ws generalizing m with
  | nil => simp at hmem
  | cons w ws ih =>
    have hrest : ∀ u ∈ ws, u.1 = p → u.2 = v := fun u hu => hall u (List.mem_cons_of_mem w hu)
    rw [Mem.apply_cons]
    by_cases hlater : ∃ u ∈ ws, u.1 = p
    · exact ih hlater hrest _
    · have hno : ∀ u ∈ ws, u.1 ≠ p := fun u hu hup => hlater ⟨u, hu, hup⟩
      obtain ⟨u, hu, hup⟩ := hmem
      have hw : u = w := (List.mem_cons.mp hu).resolve_right (fun hin => hno u hin hup)
      subst hw
      rw [Mem.read_apply_untouched hno, ← hup, Mem.read_write_same, hall u List.mem_cons_self hup]

/-- The writes of a list of bytes. -/
theorem Machine.mem_writesAt {a : Nat} {bs : List Byte} {w : Nat × Byte} :
    w ∈ Machine.writesAt a bs ↔ ∃ k, ∃ h : k < bs.length, w = (a + k, bs[k]) := by
  simp only [Machine.writesAt, List.mem_map, Prod.exists, List.mem_zipIdx_iff_getElem?, List.getElem?_eq_some_iff]
  constructor
  · rintro ⟨v, k, ⟨hk, hv⟩, rfl⟩
    exact ⟨k, hk, by rw [hv]⟩
  · rintro ⟨k, hk, rfl⟩
    exact ⟨_, k, ⟨hk, rfl⟩, rfl⟩

theorem Machine.writesAt_cons (a : Nat) (v : Byte) (bs : List Byte) :
    Machine.writesAt a (v :: bs) = (a, v) :: Machine.writesAt (a + 1) bs := by
  simp only [Machine.writesAt, List.zipIdx_cons, List.map_cons, Nat.add_zero, Nat.zero_add, List.cons.injEq, true_and]
  rw [List.zipIdx_succ, List.map_map]
  exact List.map_congr_left (fun p _ => by simp [Nat.add_right_comm, Nat.add_assoc])

/-- The writes of a list of bytes, made. -/
theorem Mem.apply_writesAt (m : Mem) (a : Nat) (bs : List Byte) : Mem.apply m (Machine.writesAt a bs) = Mem.writeBytes m a bs := by
  induction bs generalizing m a with
  | nil => rfl
  | cons v bs ih => rw [Machine.writesAt_cons, Mem.apply_cons, ih, Mem.writeBytes]

end Sys2Proof
end

section
/-! PROOFS. Control and word instructions (R105, R106, R108, R109, R111, R114): where they go on, what holds them, what stops the run, and
the obligations they settle. -/

namespace Sys2Proof.Spec

open Sys2Proof Sys2Proof.Machine

/-! ### Branches and WAIT (R106, R108) -/

section
variable {d : Dev} {b : Nat} {a : Active} {i : Ins}

/-- The command of an instruction at which basin `b` stands, and which it selects, leaves the device that the instruction makes. -/
theorem Stands.givesSelected (h : Stands d b a i) {c : Instr} (sel : Basin → Ins → Bool) {k : Dev → Active → Ins → Dev} {e : Dev}
    (hsel : sel (d.basin b) i = true) (hc : ∀ s, exec c s = onCore (fun d => d.issue b sel k) s) (he : k d a i = e) : Gives c d e := by
  have ⟨hquiet, _, _, _, hheld, _⟩ := h
  have hissue : d.issue b sel k = e := by simp [Dev.issue, h.current, hheld, hsel, he]
  rw [← hissue]
  exact hquiet.gives hc

/-- The command of an instruction at which basin `b` stands leaves the device that the instruction makes. -/
theorem Stands.givesExactly (h : Stands d b a i) {c : Instr} {code : Nat} {k : Dev → Active → Ins → Dev} {e : Dev} (hop : i.opc = code)
    (hc : ∀ s, exec c s = onCore (fun d => d.issue b (opIs code) k) s) (he : k d a i = e) : Gives c d e :=
  h.givesSelected (opIs code) (by simp [opIs, hop]) hc he

/-- A branch goes to IMM where its comparison holds, and on otherwise. -/
theorem Stands.givesBranch (h : Stands d b a i) {c : Instr} {code : Nat} (f : W32 → W32 → Bool) (hop : i.opc = code)
    (hc : ∀ s, exec c s = onCore (fun d => d.branch b code f) s) :
    Gives c d (went d b (if f (sreg d b i.sa) (sreg d b i.sb) then i.imm else (d.basin b).seq.pc + 1)) := by
  rw [apply_ite (went d b)]
  exact h.gives hop hc

/-- A register written before a jump. -/
theorem setReg_goto (d : Dev) (b k t : Nat) (v : W32) :
    (d.putBasin b { d.basin b with seq := (d.basin b).seq.setReg k v }).goto b t
      = withSeq d b { (d.basin b).seq with regs := if k = 0 then (d.basin b).seq.regs else Tab.put (d.basin b).seq.regs k v, pc := t,
                                           last := (d.basin b).seq.pc, held := none } := by
  by_cases hk : k = 0 <;> simp [Dev.goto, Seq.setReg, withSeq, hk]

/-- LOOP writes the difference and branches on it. -/
theorem Stands.givesLoop (h : Stands d b a i) (hop : i.opc = 0x34) :
    let q := (d.basin b).seq
    let w := sreg d b i.sd - 1
    Gives (.seqLoop b) d
      (withSeq d b { q with regs := if i.sd = 0 then q.regs else Tab.put q.regs i.sd w, pc := if w = 0 then q.pc + 1 else i.imm,
                            last := q.pc, held := none }) := by
  intro q w
  refine h.givesExactly hop (fun _ => rfl) ?_
  rw [← setReg_goto]
  by_cases hw : w = 0
  · rw [if_pos hw]
    refine (if_neg (not_not_intro hw)).trans ?_
    simp [Dev.advance, Seq.setReg, q, apply_ite Seq.pc]
    rfl
  · rw [if_neg hw]
    exact if_pos hw

/-- WAIT goes on where nothing of its classes is in flight. -/
theorem doWait_of_clear (h : ∀ o ∈ (d.basin b).seq.ops, waitClass i.fn o.engine = false) :
    d.doWait b i = went d b ((d.basin b).seq.pc + 1) := by
  have hnone : (d.basin b).seq.ops.any (fun o => waitClass i.fn o.engine) = false := by simpa using h
  simp only [Dev.doWait, hnone]
  rfl

/-- WAIT holds while an operation of its classes is in flight. -/
theorem doWait_of_busy (h : ∃ o ∈ (d.basin b).seq.ops, waitClass i.fn o.engine = true) : d.doWait b i = d.hold b := by
  have hsome : (d.basin b).seq.ops.any (fun o => waitClass i.fn o.engine) = true := by simpa using h
  simp only [Dev.doWait, hsome, if_true]

end

/-- Settles O2: each instruction issues and moves the program counter by its own rule. -/
theorem controlInstructionsMoveTheProgramCounter : Obligations.ControlInstructionsMoveTheProgramCounter := by
  unfold Obligations.ControlInstructionsMoveTheProgramCounter
  intro d b a i h q u v w
  refine ⟨?nop, ?j, ?beq, ?bne, ?bltu, ?loop, ?wait, ?ends⟩
  case nop => exact fun hop => h.givesExactly hop (fun _ => rfl) rfl
  case j => exact fun hop => h.givesExactly hop (fun _ => rfl) rfl
  case beq =>
    intro hop
    simpa using h.givesBranch (c := .seqBeq b) (fun u v => u == v) hop (fun _ => rfl)
  case bne =>
    intro hop
    simpa [ite_not] using h.givesBranch (c := .seqBne b) (fun u v => u != v) hop (fun _ => rfl)
  case bltu =>
    intro hop
    simpa using h.givesBranch (c := .seqBltu b) (fun u v => decide (u.toNat < v.toNat)) hop (fun _ => rfl)
  case loop => exact h.givesLoop
  case wait => exact fun hop hclear => h.givesExactly hop (fun _ => rfl) (doWait_of_clear hclear)
  case ends => exact fun hop => h.givesExactly hop (fun _ => rfl) rfl

/-! ### Claims (R109, R112 to R114) -/

/-- What nothing in flight claims is clear, also where fewer tiles and segments are asked for and more operations are excepted. -/
theorem clear_of_unclaimed {d : Dev} {b : Nat} {tiles reads writes ts rs ws : List Nat} {but but' : Op → Bool}
    (h : Unclaimed d b tiles reads writes but) (ht : ∀ t ∈ ts, t ∈ tiles) (hr : ∀ k ∈ rs, k ∈ reads) (hw : ∀ k ∈ ws, k ∈ writes)
    (hbut : ∀ o ∈ (d.basin b).seq.ops, but o = true → but' o = true) : (d.basin b).seq.clear ts rs ws but' = true := by
  simp only [Seq.clear, List.all_eq_true, Bool.and_eq_true, Bool.or_eq_true, decide_eq_true_eq]
  intro o ho
  obtain ⟨htiles, hreads, hwrites⟩ := h o ho
  exact ⟨⟨htiles.imp (hbut o ho) (fun hno t htt => hno t (ht t htt)), fun k hk => hreads k (hr k hk)⟩, fun k hk => hwrites k (hw k hk)⟩

/-- A range that nothing in flight claims is free for a word access. -/
theorem free_of_unclaimed {d : Dev} {b w n : Nat} {write : Bool}
    (h : Unclaimed d b (tilesOf w n) (segsOf w n) (if write then segsOf w n else []) (fun _ => false)) :
    (d.basin b).seq.free w n write = true :=
  clear_of_unclaimed h (fun _ ht => ht) (fun _ hr => hr) (fun _ hw => hw) (fun _ _ hb => hb)

/-! ### LDW and STW (R108, R111) -/

section
variable {d : Dev} {b : Nat} {a : Active} {i : Ins}

theorem wordCode_of_allowed (halign : ea d b i % 4 = 0) (hcode : (d.basin b).rangeCode a.run (ea d b i) 4 = 0) :
    (d.basin b).wordCode a.run (ea d b i) = 0 := by
  rw [Basin.wordCode, if_neg (by simp [halign]), hcode]

/-- LDW writes the word to SD where nothing holds it. -/
theorem doLdw_of_clear (hclean : Clean d b) (halign : ea d b i % 4 = 0) (hcode : (d.basin b).rangeCode a.run (ea d b i) 4 = 0)
    (hfree : Unclaimed d b (tilesOf (ea d b i) 4) (segsOf (ea d b i) 4) [] (fun _ => false)) :
    d.doLdw b a i = wrote d b i.sd (BitVec.ofNat 32 (Mem.readLe (d.basin b).store (ea d b i) 4)) := by
  have hword : (d.basin b).wordCode a.run ((d.basin b).seq.ea i) = 0 := wordCode_of_allowed halign hcode
  have hclear : (d.basin b).seq.free ((d.basin b).seq.ea i) 4 false = true := free_of_unclaimed hfree
  simp only [Dev.doLdw, hword, hclear, Dev.readFor_of_clean hclean, result_eq_wrote]
  rfl

/-- STW stores SB and goes on where nothing holds it. -/
theorem doStw_of_clear (hclean : Clean d b) (halign : ea d b i % 4 = 0) (hcode : (d.basin b).rangeCode a.run (ea d b i) 4 = 0)
    (hfree : Unclaimed d b (tilesOf (ea d b i) 4) (segsOf (ea d b i) 4) (segsOf (ea d b i) 4) (fun _ => false)) :
    d.doStw b a i = (d.putBasin b ((d.basin b).storeWord (ea d b i) (sreg d b i.sb).toNat)).advance b := by
  have hword : (d.basin b).wordCode a.run ((d.basin b).seq.ea i) = 0 := wordCode_of_allowed halign hcode
  have hclear : (d.basin b).seq.free ((d.basin b).seq.ea i) 4 true = true := free_of_unclaimed hfree
  simp only [Dev.doStw, hword, hclear, Dev.readFor_of_clean hclean, ite_self]
  rfl

/-- A word stored changes the memory there, the errors known of it, and the cover and flag of its tile. -/
theorem storeWord_frame (x : Basin) (w v : Nat) :
    x.storeWord w v = { x with store := Mem.writeLe x.store w 4 v, tileFlags := (x.storeWord w v).tileFlags,
                               tileCover := (x.storeWord w v).tileCover, cis := (x.storeWord w v).cis } := by
  unfold Basin.storeWord
  dsimp only
  split
  · rfl
  · split <;> rfl

/-- A word of the cistern leaves every tile's flag. -/
theorem storeWord_tileFlags (x : Basin) {w : Nat} (h : w < 0x400000) (v : Nat) : (x.storeWord w v).tileFlags = x.tileFlags := by
  simp [Basin.storeWord, h]

end

/-- Settles O3: LDW is the write of the word, and STW stores four bytes in its basin and goes on. -/
theorem wordAccessesReachTheirWord : Obligations.WordAccessesReachTheirWord := by
  unfold Obligations.WordAccessesReachTheirWord
  intro d b a i h hclean x w halign hcode
  refine ⟨fun hop hfree => ?ldw, fun hop hfree => ?stw⟩
  case ldw => exact h.givesExactly hop (fun _ => rfl) (doLdw_of_clear hclean halign hcode hfree)
  case stw =>
    have hgives := h.gives (c := .seqStw b) hop (fun _ => rfl)
    rw [doStw_of_clear hclean halign hcode hfree] at hgives
    refine ⟨_, hgives, rfl, fun c hc => ?_, ?_⟩
    · simp [Dev.advance, Dev.goto, Dev.basin_putBasin_other _ _ _ _ hc]
    · have hframe := storeWord_frame x w (sreg d b i.sb).toNat
      have hbasin : ((d.putBasin b (x.storeWord w (sreg d b i.sb).toNat)).advance b).basin b
          = { x.storeWord w (sreg d b i.sb).toNat with seq := { x.seq with pc := x.seq.pc + 1, last := x.seq.pc, held := none } } := by
        rw [hframe]
        simp [Dev.advance, Dev.goto]
      have hstore : (x.storeWord w (sreg d b i.sb).toNat).store = Mem.writeLe x.store w 4 (sreg d b i.sb).toNat := by rw [hframe]
      dsimp only
      rw [hbasin]
      dsimp only
      rw [hstore, Mem.readLe_writeLe]
      refine ⟨?_, Nat.mod_eq_of_lt (sreg d b i.sb).isLt, fun p hp => ?_, fun hw => storeWord_tileFlags x hw _⟩
      · rw [hframe]
      · exact Mem.read_writeBytes_outside _ _ _ _ (by rwa [leBytes_length])

/-! ### Held instructions (R109) -/

/-- Settles O9: a grant tries the held instruction again. -/
theorem heldInstructionsIssueWhenTheirClaimsClear : Obligations.HeldInstructionsIssueWhenTheirClaimsClear := by
  unfold Obligations.HeldInstructionsIssueWhenTheirClaimsClear
  intro d b a i h hquiet hcurrent hheld
  have hgives : Gives (.scoreboardGrant b) d (scoreboardGrant b d) := hquiet.gives (fun _ => rfl)
  have hwait (hop : i.opc = 0x50) : scoreboardGrant b d = d.doWait b i := by simp [scoreboardGrant, hcurrent, hheld, hop]
  refine ⟨fun hop hclear => ?goesOn, fun hop hbusy => ?waits, fun hop hclean halign hcode hfree => ?ldw⟩
  case goesOn => rwa [hwait hop, doWait_of_clear hclear] at hgives
  case waits => rwa [hwait hop, doWait_of_busy hbusy] at hgives
  case ldw =>
    have hldw : scoreboardGrant b d = d.doLdw b a i := by simp [scoreboardGrant, hcurrent, hheld, hop]
    rwa [hldw, doLdw_of_clear hclean halign hcode hfree] at hgives

/-! ### Faults (R105, R111) -/

/-- A command that stops a run leaves its basin empty of it and every other basin as it was. -/
theorem stopsRun_of_stopRun {c : Instr} {d : Dev} {b : Nat} {a : Active} (hactive : (d.basin b).seq.active = some a) {code pc : Nat}
    (hgives : Gives c d (d.stopRun b code pc)) : StopsRun c d b code pc := by
  obtain ⟨y, hbasins, hseq, hstore⟩ := Dev.stopRun_basins hactive code pc
  obtain ⟨hsame, hother⟩ := Dev.basin_of_put hbasins
  refine ⟨_, hgives, ?_⟩
  rw [hsame, hseq, hstore]
  exact ⟨rfl, rfl, rfl, rfl, rfl, hother⟩

theorem wordCode_misaligned {d : Dev} {b : Nat} {i : Ins} (h : ea d b i % 4 ≠ 0) (r : Run) : (d.basin b).wordCode r (ea d b i) = 6 :=
  if_pos h

theorem doLdw_misaligned {d : Dev} {b : Nat} {i : Ins} (h : ea d b i % 4 ≠ 0) (a : Active) :
    d.doLdw b a i = d.stopRun b 6 (d.basin b).seq.pc := by
  have hcode : (d.basin b).wordCode a.run ((d.basin b).seq.ea i) = 6 := wordCode_misaligned h a.run
  simp [Dev.doLdw, hcode]

theorem doStw_misaligned {d : Dev} {b : Nat} {i : Ins} (h : ea d b i % 4 ≠ 0) (a : Active) :
    d.doStw b a i = d.stopRun b 6 (d.basin b).seq.pc := by
  have hcode : (d.basin b).wordCode a.run ((d.basin b).seq.ea i) = 6 := wordCode_misaligned h a.run
  simp [Dev.doStw, hcode]

theorem descriptor_misaligned {d : Dev} {b addr : Nat} (h : addr % 64 ≠ 0) (a : Active) (k : Dev → List Byte → Dev) :
    d.descriptor b addr a k = d.stopRun b 6 (d.basin b).seq.pc := if_pos h

/-- A tile range past the sixty-fourth tile of its row stops the run. -/
theorem goTile_past {d : Dev} {b : Nat} {i : Ins} (hcount : bitsOf (sreg d b i.sa).toNat 12 6 ≠ 0) (hmask : i.imm % 2 ^ 16 ≠ 0)
    (hpast : 64 < bitsOf (sreg d b i.sa).toNat 5 0 + bitsOf (sreg d b i.sa).toNat 12 6) (a : Active) (v : Nat) :
    d.goTile b a i v = d.stopRun b 3 (d.basin b).seq.pc :=
  (if_neg (by rintro (h | h) <;> contradiction)).trans (if_pos hpast)

/-- A program counter outside the run's region stops it at the instruction that left it. -/
theorem programRegionFault_of_left {d : Dev} {b : Nat} {a : Active} (hactive : (d.basin b).seq.active = some a) (hended : a.ended = false)
    (hentry : a.run.entry.isSome = true) (hleft : (d.basin b).seq.pc < (d.basin b).seq.base ∨ (d.basin b).seq.limit < (d.basin b).seq.pc) :
    programRegionFault b d = d.stopRun b 2 (d.basin b).seq.last := by
  have hout : (d.basin b).seq.inRegion = false := by
    simp only [Seq.inRegion, Bool.and_eq_false_iff, decide_eq_false_iff_not]
    omega
  obtain ⟨r, hr⟩ := Option.isSome_iff_exists.mp hentry
  simp [programRegionFault, hactive, hended, hr, hout]

/-- Settles O6: each fault is a stop of the run with its code. -/
theorem badInstructionsStopTheRun : Obligations.BadInstructionsStopTheRun := by
  unfold Obligations.BadInstructionsStopTheRun
  refine ⟨fun d b a i h => ?_, fun d b a hquiet hactive hended hentry hleft => ?region⟩
  case region =>
    apply stopsRun_of_stopRun hactive
    rw [← programRegionFault_of_left hactive hended hentry hleft]
    exact hquiet.gives (fun _ => rfl)
  have ⟨hquiet, hactive, _⟩ := h
  refine ⟨fun hlist => ?unlisted, fun hop hbad => ?ldw, fun hop hbad => ?stw, fun hop hbad => ?jop, fun hop hbad => ?runl,
    fun hop hcount hmask hpast => ?tzero⟩ <;> apply stopsRun_of_stopRun hactive
  case unlisted =>
    exact h.givesSelected (fun _ i => !listed i) (by simp [hlist]) (fun _ => rfl) rfl
  case ldw => exact h.givesExactly hop (fun _ => rfl) (doLdw_misaligned hbad a)
  case stw => exact h.givesExactly hop (fun _ => rfl) (doStw_misaligned hbad a)
  case jop => exact h.givesExactly hop (fun _ => rfl) (descriptor_misaligned hbad a _)
  case runl => exact h.givesExactly hop (fun _ => rfl) (descriptor_misaligned hbad a _)
  case tzero => exact h.givesExactly hop (fun _ => rfl) (goTile_past hcount hmask hpast a 0)

end Sys2Proof.Spec
end

section
/-! PROOFS. Operations granted (R95, R97, R106, R109, R112, R113): what a grant makes of its basin, and which operations it leaves as they
were. -/

namespace Sys2Proof.Machine

open Sys2Proof Sys2Proof.Spec

/-! ### A grant (R109) -/

/-- A basin whose run has taken the number of its next operation. -/
def Basin.taken (x : Basin) (a : Active) : Basin := { x with seq := { x.seq with active := some { a with nextSeq := a.nextSeq + 1 } } }

/-- An operation as it stands when basin `b` grants instruction `i` of run `a`. -/
def Dev.granted (d : Dev) (b : Nat) (a : Active) (i : Ins) (g : Engine) (bytes : List Byte) : Op :=
  Op.new a.nextSeq (d.basin b).seq.pc g (ea d b i) bytes

theorem Dev.grant_eq {d : Dev} {b : Nat} {a : Active} (hactive : (d.basin b).seq.active = some a) (g : Engine) (i : Ins) (bytes : List Byte)
    (f : Basin → Op → Basin) : d.grant b g i bytes f = (d.putBasin b (f ((d.basin b).taken a) (d.granted b a i g bytes))).advance b := by
  simp only [Dev.grant, Basin.takeSeq, hactive]
  rfl

theorem Dev.basin_advance_put (d : Dev) (b : Nat) (y : Basin) :
    ((d.putBasin b y).advance b).basin b = { y with seq := { y.seq with pc := y.seq.pc + 1, last := y.seq.pc, held := none } } := by
  simp [Dev.advance, Dev.goto]

theorem Dev.basin_advance_put_other (d : Dev) {b c : Nat} (h : c ≠ b) (y : Basin) : ((d.putBasin b y).advance b).basin c = d.basin c := by
  simp [Dev.advance, Dev.goto, Dev.basin_putBasin_other _ _ _ _ h]

theorem room_of_hasRoom {d : Dev} {b : Nat} {g : Engine} (h : HasRoom d b g) : (d.basin b).seq.room g = true := by
  obtain ⟨hops, hlayers⟩ := h
  by_cases hg : g = .jet
  · have hfour : ((d.basin b).seq.ops.filter Op.isLayer).length < 4 := hlayers hg
    simp [Seq.room, hops, hfour]
  · simp [Seq.room, hops, hg]

/-! ### Which operations a grant changes (R113, R141) -/

/-- The same operation, but for what merged layers raise. -/
def Op.SameButRaised (p p' : Op) : Prop :=
  p' = { p with jetFlags := p'.jetFlags, tileSet := p'.tileSet, ovCount := p'.ovCount, satCount := p'.satCount, skipped := p'.skipped }

theorem Op.SameButRaised.refl (p : Op) : p.SameButRaised p := rfl

theorem Op.SameButRaised.trans {p q r : Op} (h : p.SameButRaised q) (k : q.SameButRaised r) : p.SameButRaised r := by
  rw [Op.SameButRaised, k, h]

theorem Op.SameButRaised.engine {p q : Op} (h : p.SameButRaised q) : q.engine = p.engine := by rw [h]

theorem Op.remerged_sameButRaised (o : Op) (s : Tab W32 × List Nat × Nat × Nat × Nat) (inv : W32) : o.SameButRaised (o.remerged s inv) := rfl

/-- Operation `o` has joined those in flight: it is the last, and of the others only layers have changed, where it is one too, and only in
what merged layers raise. -/
def Joined (old new : List Op) (g : Engine) (o : Op) : Prop :=
  new.getLast? = some o ∧ new.length = old.length + 1
    ∧ ∀ (k : Nat) (p : Op), old[k]? = some p → p.seq ≠ o.seq →
        ∃ p', new[k]? = some p' ∧ (p.engine ≠ .jet ∨ g ≠ .jet → p' = p) ∧ p.SameButRaised p'

theorem joined_append (old : List Op) (g : Engine) (o : Op) : Joined old (old ++ [o]) g o := by
  refine ⟨by simp, by simp, fun k p hk _ => ⟨p, ?_, fun _ => rfl, Op.SameButRaised.refl p⟩⟩
  rw [List.getElem?_append_left (List.getElem?_eq_some_iff.mp hk).1, hk]

/-- The operation may be replaced by one of its number once it has joined. -/
theorem joined_setOp (old : List Op) (g : Engine) {o o' : Op} (hseq : o'.seq = o.seq) :
    Joined old ((old ++ [o]).map (fun p => if p.seq = o'.seq then o' else p)) g o' := by
  refine ⟨by simp [hseq], by simp, fun k p hk hp => ⟨p, ?_, fun _ => rfl, Op.SameButRaised.refl p⟩⟩
  rw [List.getElem?_map, List.getElem?_append_left (List.getElem?_eq_some_iff.mp hk).1, hk]
  simp [hp]

/-! ### Merged layers (R113, R141) -/

/-- An operation after the replacements of a merge, in their order. -/
def Op.afterMerge (l : List (Op × Op)) (p : Op) : Op := l.foldl (fun p q => if p = q.1 then q.2 else p) p

theorem Basin.remerge_ops (x : Basin) (old new : List Op) : (x.remerge old new).seq.ops = x.seq.ops.map (Op.afterMerge (old.zip new)) := by
  have hfold (l : List (Op × Op)) (ops : List Op) :
      l.foldl (fun ops q => ops.map (fun p => if p = q.1 then q.2 else p)) ops = ops.map (Op.afterMerge l) := by
    induction l generalizing ops with
    | nil => exact (List.map_id ops).symm
    | cons q l ih =>
      rw [List.foldl_cons, ih, List.map_map]
      rfl
  exact hfold _ _

/-- Replacements of layers by layers that differ in what they raise alone. -/
theorem Op.afterMerge_spec {l : List (Op × Op)} (h : ∀ q ∈ l, q.1.engine = .jet ∧ q.1.SameButRaised q.2) (p : Op) :
    (p.engine ≠ .jet → Op.afterMerge l p = p) ∧ p.SameButRaised (Op.afterMerge l p) := by
  induction l generalizing p with
  | nil => exact ⟨fun _ => rfl, Op.SameButRaised.refl p⟩
  | cons q l ih =>
    obtain ⟨hjet, hsame⟩ := h q List.mem_cons_self
    have htail := ih (fun r hr => h r (List.mem_cons_of_mem q hr))
    change (_ → Op.afterMerge l (if p = q.1 then q.2 else p) = p) ∧ Op.SameButRaised p (Op.afterMerge l (if p = q.1 then q.2 else p))
    by_cases hp : p = q.1
    · subst hp
      rw [if_pos rfl]
      exact ⟨fun hno => absurd hjet hno, hsame.trans (htail _).2⟩
    · rw [if_neg hp]
      exact htail p

/-- A layer that merges with others joins them. -/
theorem joined_remerge (x : Basin) {old new : List Op} (h : ∀ q ∈ old.zip new, q.1.engine = .jet ∧ q.1.SameButRaised q.2) (o : Op) :
    Joined x.seq.ops ((x.remerge old new).addOp o).seq.ops .jet o := by
  have hops : ((x.remerge old new).addOp o).seq.ops = x.seq.ops.map (Op.afterMerge (old.zip new)) ++ [o] := by
    rw [← Basin.remerge_ops]; rfl
  rw [hops]
  refine ⟨by simp, by simp, fun k p hk _ => ⟨Op.afterMerge (old.zip new) p, ?_, fun hnot => ?_, (Op.afterMerge_spec h p).2⟩⟩
  · rw [List.getElem?_append_left (by simpa using (List.getElem?_eq_some_iff.mp hk).1), List.getElem?_map, hk]
    rfl
  · exact (Op.afterMerge_spec h p).1 (hnot.resolve_right (fun hno => hno rfl))

/-- The operations that a layer merges with, beside what it makes of them. -/
theorem Layer.compute_others (l : Layer) (x : Basin) (o : Op) (others : List (Op × Layer)) (k : Nat) {q : Op × Op}
    (hq : q ∈ (others.map Prod.fst).zip (l.compute x o others k).2.1) : q.1 ∈ others.map Prod.fst ∧ q.1.SameButRaised q.2 := by
  have hmade : ∃ f : (Op × Layer) × Nat → Op, (l.compute x o others k).2.1 = others.zipIdx.map f ∧ ∀ p, Op.SameButRaised p.1.1 (f p) :=
    ⟨_, rfl, fun p => Op.remerged_sameButRaised _ _ _⟩
  obtain ⟨f, hf, hsame⟩ := hmade
  obtain ⟨j, hj, rfl⟩ := List.mem_iff_getElem.mp (hf ▸ hq)
  have hlt : j < others.length := by simp at hj; exact hj
  simp only [List.getElem_zip, List.getElem_map, List.getElem_zipIdx, Nat.zero_add]
  exact ⟨List.mem_map_of_mem (List.getElem_mem hlt), hsame (others[j], j)⟩

/-- A layer computed on a basin changes the basin's generators alone. -/
theorem Layer.compute_basin (l : Layer) (x : Basin) (o : Op) (others : List (Op × Layer)) (k : Nat) :
    ∃ gs, (l.compute x o others k).2.2 = { x with gens := gs } := ⟨_, rfl⟩

/-- A layer computed is the operation granted, with its claims and results. -/
theorem Layer.compute_op (l : Layer) (x : Basin) (o : Op) (others : List (Op × Layer)) (k : Nat) :
    let p := (l.compute x o others k).1
    p.engine = o.engine ∧ p.pc = o.pc ∧ p.desc = o.desc ∧ p.bytes = o.bytes ∧ p.seq = o.seq := ⟨rfl, rfl, rfl, rfl, rfl⟩

/-! ### The basin of a grant -/

/-- The same operation as it was issued: its place in the program, its engine and its descriptor. -/
def Op.SameIssue (o o' : Op) : Prop := o'.engine = o.engine ∧ o'.pc = o.pc ∧ o'.desc = o.desc ∧ o'.bytes = o.bytes ∧ o'.seq = o.seq

/-- From `x` to `y` an operation that issued as `o` has joined, and beside it only engine registers, generators and the run's own counts may
have changed. -/
def Basin.GrantedTo (x y : Basin) (o : Op) : Prop :=
  y = { x with seq := y.seq, eng := y.eng, gens := y.gens } ∧ y.seq = { x.seq with active := y.seq.active, ops := y.seq.ops }
    ∧ ∃ o', Joined x.seq.ops y.seq.ops o.engine o' ∧ o.SameIssue o'

/-- An operation that is put behind those in flight. -/
theorem Basin.addOp_grantedTo (x : Basin) (o : Op) {o' : Op} (h : o.SameIssue o') : x.GrantedTo (x.addOp o') o :=
  ⟨rfl, rfl, o', joined_append _ _ _, h⟩

/-- A cascade operation joins, and a local one is replaced at once by the operation with its outputs. -/
theorem Basin.cscStart_grantedTo (x : Basin) (a : Active) (o : Op) (c : Csc) : x.GrantedTo (x.cscStart a o c) o := by
  unfold Basin.cscStart
  dsimp only
  split
  · exact ⟨rfl, rfl, _, joined_setOp _ _ rfl, rfl, rfl, rfl, rfl, rfl⟩
  · exact ⟨rfl, rfl, _, joined_append _ _ _, rfl, rfl, rfl, rfl, rfl⟩

/-- Basin `b` grants one operation and goes on; how many open values that took is not said. -/
def Grants (d : Dev) (b : Nat) (a : Active) (i : Ins) (g : Engine) (bytes : List Byte) (e : Dev) : Prop :=
  ∃ y n, e = ((d.putBasin b y).advance b).setFree n ∧ (d.basin b).GrantedTo y (d.granted b a i g bytes)

/-- A grant whose basin has one operation more. -/
theorem Dev.grant_grants {d : Dev} {b : Nat} {a : Active} (hactive : (d.basin b).seq.active = some a) (i : Ins) (g : Engine)
    (bytes : List Byte) {f : Basin → Op → Basin}
    (hf : (d.basin b).GrantedTo (f ((d.basin b).taken a) (d.granted b a i g bytes)) (d.granted b a i g bytes)) :
    Grants d b a i g bytes (d.grant b g i bytes f) :=
  ⟨_, d.free, Dev.grant_eq hactive g i bytes f, hf⟩

end Sys2Proof.Machine
end

section
/-! PROOFS. Issue of engine operations (R97, R98, R107 to R114, R172, R196, R209, R210): each engine's instruction grants one operation where
its checks pass and nothing holds it, and the obligation that this settles. -/

namespace Sys2Proof.Machine

open Sys2Proof Sys2Proof.Spec

/-! ### Each engine's grant -/

section
variable {d : Dev} {b : Nat} {a : Active} {i : Ins} {bs : List Byte}

theorem mem_segsIn {rs : List (Nat × Nat)} {k : Nat} (h : k ∈ (rs.flatMap (fun r => segsOf r.1 r.2)).dedup) : k ∈ segsIn rs :=
  List.mem_dedup.mp h

theorem mem_tilesIn {rs : List (Nat × Nat)} {t : Nat} (h : t ∈ (rs.flatMap (fun r => tilesOf r.1 r.2)).dedup) : t ∈ tilesIn rs :=
  List.mem_dedup.mp h

/-- A layer whose descriptor is valid is granted; the layers that it merges with do not hold it (R113). -/
theorem goJop_grants (hactive : (d.basin b).seq.active = some a) (hclean : Clean d b) (hcode : (layerOf bs).code (d.basin b) a.run = 0)
    (hroom : HasRoom d b .jet)
    (hfree : Unclaimed d b (layerOf bs).tiles (segsIn (layerOf bs).reads) (segsIn (layerOf bs).writesTo)
      (fun o => o.engine == .jet && (layerOf bs).merges (layerOf o.bytes) a.run.det)) :
    Grants d b a i .jet bs (d.goJop b a i bs) := by
  generalize hothers : ((d.basin b).seq.ops.filter (fun o => o.engine == .jet && (layerOf bs).merges (layerOf o.bytes) a.run.det)).map
    (fun o => (o, layerOf o.bytes)) = others
  have hjets : ∀ o ∈ others.map Prod.fst, o.engine = .jet := by
    intro o ho
    simp only [← hothers, List.map_map, List.mem_map, List.mem_filter, Bool.and_eq_true, beq_iff_eq] at ho
    obtain ⟨p, ⟨_, hjet, _⟩, rfl⟩ := ho
    exact hjet
  have hbut : ∀ o ∈ (d.basin b).seq.ops, (o.engine == .jet && (layerOf bs).merges (layerOf o.bytes) a.run.det) = true →
      others.any (fun p => p.1.seq == o.seq) = true := by
    intro o ho hmerges
    rw [← hothers, List.any_eq_true]
    exact ⟨(o, layerOf o.bytes), List.mem_map_of_mem (List.mem_filter.mpr ⟨ho, hmerges⟩), beq_self_eq_true _⟩
  have hclear := clear_of_unclaimed hfree (fun _ ht => ht) (fun _ => mem_segsIn) (fun _ => mem_segsIn) hbut
  have hgo : d.goJop b a i bs = (d.grant b .jet i bs (fun y o =>
      let r := (layerOf bs).compute y o others d.free
      (r.2.2.remerge (others.map Prod.fst) r.2.1).addOp r.1)).setFree (d.free + 1) := by
    simp only [Dev.goJop, hcode, hothers, room_of_hasRoom hroom, hclear, Dev.readFor_of_clean hclean]
    rfl
  rw [hgo, Dev.grant_eq hactive]
  refine ⟨_, d.free + 1, rfl, ?_⟩
  dsimp only
  generalize hr : (layerOf bs).compute ((d.basin b).taken a) (d.granted b a i .jet bs) others d.free = r
  have hsame := (layerOf bs).compute_op ((d.basin b).taken a) (d.granted b a i .jet bs) others d.free
  obtain ⟨gs, hgens⟩ := (layerOf bs).compute_basin ((d.basin b).taken a) (d.granted b a i .jet bs) others d.free
  have hnew : ∀ q ∈ (others.map Prod.fst).zip r.2.1, q.1.engine = .jet ∧ q.1.SameButRaised q.2 := by
    intro q hq
    rw [← hr] at hq
    obtain ⟨hmem, hraised⟩ := (layerOf bs).compute_others _ _ _ _ hq
    exact ⟨hjets _ hmem, hraised⟩
  rw [hr] at hsame hgens
  rw [hgens]
  exact ⟨rfl, rfl, r.1, joined_remerge _ hnew _, hsame⟩

/-- A transfer whose descriptor passes its checks is granted. -/
theorem goSlu_grants (hactive : (d.basin b).seq.active = some a) {s : Sluice} {p : Ppb} (hs : sluiceOf bs = s)
    (hp : (if bs.length = 128 then ppbOf (bs.drop 64) else Ppb.blank) = p) (hcheck : d.sluiceCheck b a.run s p = (0, 0))
    (hroom : HasRoom d b .sluice)
    (hfree : Unclaimed d b (d.sluiceClaims b s p).2.2 (d.sluiceClaims b s p).1 (d.sluiceClaims b s p).2.1 (fun _ => false)) :
    Grants d b a i .sluice bs (d.goSlu b a i bs) := by
  have hclear := clear_of_unclaimed hfree (fun _ ht => ht) (fun _ hr => hr) (fun _ hw => hw) (fun _ _ hb => hb)
  have hgo : d.goSlu b a i bs = d.grant b .sluice i bs (fun y o => y.addOp { o with
      readSegs := (d.sluiceClaims b s p).1, writeSegs := (d.sluiceClaims b s p).2.1, tiles := (d.sluiceClaims b s p).2.2 }) := by
    simp only [Dev.goSlu, hs, hp, hcheck, room_of_hasRoom hroom, hclear]
    rfl
  rw [hgo]
  exact Dev.grant_grants hactive i .sluice bs (Basin.addOp_grantedTo _ _ ⟨rfl, rfl, rfl, rfl, rfl⟩)

/-- A cascade operation whose descriptor is valid is granted. -/
theorem goCsc_grants (hactive : (d.basin b).seq.active = some a) (hclean : Clean d b) (hcode : (cscOf bs).code (d.basin b) a.run = 0)
    (hroom : HasRoom d b .cascade)
    (hfree : Unclaimed d b (tilesIn ((cscOf bs).reads ++ (cscOf bs).writesTo (d.basin b).logical)) (segsIn (cscOf bs).reads)
      (segsIn ((cscOf bs).writesTo (d.basin b).logical)) (fun _ => false)) :
    Grants d b a i .cascade bs (d.goCsc b a i bs) := by
  have hclear := clear_of_unclaimed hfree (fun _ => mem_tilesIn) (fun _ => mem_segsIn) (fun _ => mem_segsIn) (fun _ _ hb => hb)
  have hgo : d.goCsc b a i bs = d.grant b .cascade i bs (fun y o => match y.seq.active with
      | some a => y.cscStart a o (cscOf bs)
      | none => y) := by
    simp only [Dev.goCsc, hcode, room_of_hasRoom hroom, hclear, Dev.readFor_of_clean hclean]
    rfl
  rw [hgo]
  exact Dev.grant_grants hactive i .cascade bs (((d.basin b).taken a).cscStart_grantedTo _ _ _)

/-- A loupe operation whose ranges are allowed is granted. -/
theorem goLpe_grants (hactive : (d.basin b).seq.active = some a) (hclean : Clean d b) {l : Lpe}
    (hl : lpeOf i.fn (d.basin b).eng.lpeRnd bs = l) (hcode : l.code (d.basin b) a.run = 0) (hroom : HasRoom d b .loupe)
    (hfree : Unclaimed d b (tilesIn (l.reads ++ [(l.d, l.count * l.dst)])) (segsIn l.reads) (segsOf l.d (l.count * l.dst)) (fun _ => false)) :
    Grants d b a i .loupe bs (d.goLpe b a i bs) := by
  have hclear := clear_of_unclaimed hfree (fun _ => mem_tilesIn) (fun _ => mem_segsIn) (fun _ hw => hw) (fun _ _ hb => hb)
  have hgo : d.goLpe b a i bs = d.grant b .loupe i bs (fun y o => y.addOp (l.compute y o)) := by
    simp only [Dev.goLpe, hl, hcode, room_of_hasRoom hroom, hclear, Dev.readFor_of_clean hclean]
    rfl
  rw [hgo]
  exact Dev.grant_grants hactive i .loupe bs (Basin.addOp_grantedTo _ _ ⟨rfl, rfl, rfl, rfl, rfl⟩)

/-- The element count that a runnel descriptor gives, or that its count word holds (R196). -/
def Rnl.countIn (q : Rnl) (m : Mem) : Nat := if q.cntsrc then Mem.readLe m q.cntaddr 4 % 2 ^ 24 else q.count

/-- The basin of a runnel operation of `n` elements at its grant on runnel `r`, with the ranges it claims: RUN_STATUS shows it unless an
earlier one runs (R200). -/
def Basin.runnelGranted (y : Basin) (o : Op) (g : Engine) (r : Nat) (q : Rnl) (n : Nat) (claims : List (Nat × Nat) × List (Nat × Nat)) : Basin :=
  { (y.addOp { o with readSegs := (claims.1.flatMap (fun p => segsOf p.1 p.2)).dedup,
                      writeSegs := (claims.2.flatMap (fun p => segsOf p.1 p.2)).dedup,
                      tiles := ((claims.1 ++ claims.2).flatMap (fun p => tilesOf p.1 p.2)).dedup, rnl := some (q.start n),
                      flags := if q.em = 3 then flINV else 0 }) with
    eng := if (y.oldest g).isSome then y.eng else y.eng.runStatus r (q.start n) }

/-- A runnel operation within its element cap is granted. -/
theorem goRunl_grants (hactive : (d.basin b).seq.active = some a) (hclean : Clean d b) {q : Rnl} {n : Nat} {g : Engine}
    (hq : rnlOf bs = q) (hn : q.countIn (d.basin b).store = n) (hg : (if bitOf i.fn 0 then Engine.runnel1 else .runnel0) = g)
    (hcap : n ≤ q.ecap) (hcode : d.rnlCode (d.basin b) a.run q n = 0) (hroom : HasRoom d b g)
    (hcount : q.cntsrc = true → Unclaimed d b (tilesOf q.cntaddr 4) (segsOf q.cntaddr 4) [] (fun _ => false))
    (hfree : let r := q.ranges (d.muUses q.entry) n
      Unclaimed d b (tilesIn (r.1 ++ r.2)) (segsIn r.1) (segsIn r.2) (fun _ => false)) :
    Grants d b a i g bs (d.goRunl b a i bs) := by
  have hclear := clear_of_unclaimed hfree (fun _ => mem_tilesIn) (fun _ => mem_segsIn) (fun _ => mem_segsIn) (fun _ _ hb => hb)
  have hword : (q.cntsrc && !(d.basin b).seq.free q.cntaddr 4 false) = false := by
    cases hsrc : q.cntsrc
    · rfl
    · rw [free_of_unclaimed (hcount hsrc)]; rfl
  have hstart : (q.start n).ecapr = false := decide_eq_false (by omega)
  have hread : (if q.cntsrc then Mem.readLe (d.basin b).store q.cntaddr 4 % 2 ^ 24 else q.count) = n := hn
  have hgo : d.goRunl b a i bs = d.grant b g i bs (fun y o => y.runnelGranted o g (if bitOf i.fn 0 then 1 else 0) q n
      (q.ranges (d.muUses q.entry) n)) := by
    simp only [Dev.goRunl, hq, hg, hword, hread, Nat.min_eq_left hcap, hcode, room_of_hasRoom hroom, hclear, Dev.readFor_of_clean hclean, hstart]
    rfl
  rw [hgo]
  exact Dev.grant_grants hactive i g bs ⟨rfl, rfl, _, joined_append _ _ _, rfl, rfl, rfl, rfl, rfl⟩

end

/-! ### Descriptors (R97, R147) -/

theorem dw_append {bs : List Byte} {o : Nat} (h : o + 4 ≤ bs.length) (more : List Byte) : dw (bs ++ more) o = dw bs o := by
  rw [dw, dw, List.drop_append_of_le_length (by omega), List.take_append_of_le_length (by simp; omega)]

theorem dq_append {bs : List Byte} {o : Nat} (h : o + 8 ≤ bs.length) (more : List Byte) : dq (bs ++ more) o = dq bs o := by
  rw [dq, dq, List.drop_append_of_le_length (by omega), List.take_append_of_le_length (by simp; omega)]

/-- A transfer's descriptor is its first 64 bytes, whatever parameter block follows. -/
theorem sluiceOf_append {bs : List Byte} (h : bs.length = 64) (more : List Byte) : sluiceOf (bs ++ more) = sluiceOf bs := by
  have hword (o : Nat) (ho : o ≤ 56) : dw (bs ++ more) o = dw bs o ∧ dq (bs ++ more) o = dq bs o :=
    ⟨dw_append (by omega) more, dq_append (by omega) more⟩
  simp [sluiceOf, hword]

/-- On a basin without errors a transfer's parameter block is read behind its descriptor, where there is one to read. -/
theorem doSlu_of_clean {d : Dev} {b : Nat} (h : Clean d b) (a : Active) (i : Ins) (bs : List Byte) :
    d.doSlu b a i bs = d.goSlu b a i (bs ++ (d.basin b).ppbBytes a.run (sluiceOf bs)) := by
  obtain ⟨hbad, hsoft⟩ := h
  have hnone : (d.basin b).badIn (sluiceOf bs).ppb 64 = none := by simp [Basin.badIn, hbad]
  have hno : (d.basin b).softIn (sluiceOf bs).ppb 64 = [] := by simp [Basin.softIn, hsoft]
  unfold Dev.doSlu
  dsimp only
  split
  next hempty => rw [hempty, List.append_nil]
  next => rw [hnone, hno]; rfl

/-- A parameter block is absent or 64 bytes long, so that the operation's bytes tell which. -/
theorem ppbOf_behind (x : Basin) (r : Run) (s : Sluice) {bs : List Byte} (h : bs.length = 64) :
    (if (bs ++ x.ppbBytes r s).length = 128 then ppbOf ((bs ++ x.ppbBytes r s).drop 64) else Ppb.blank)
      = if x.ppbBytes r s = [] then Ppb.blank else ppbOf (x.ppbBytes r s) := by
  have hlength : x.ppbBytes r s = [] ∨ (x.ppbBytes r s).length = 64 := by
    unfold Basin.ppbBytes
    split
    · exact .inr (by simp [Mem.readBytes])
    · exact .inl rfl
  rcases hlength with hempty | hfull
  · simp [hempty, h]
  · have hne : x.ppbBytes r s ≠ [] := by intro hempty; simp [hempty] at hfull
    rw [if_neg hne, if_pos (by simp [h, hfull]), List.drop_left' h]

end Sys2Proof.Machine

namespace Sys2Proof.Spec

open Sys2Proof Sys2Proof.Machine

section
variable {d : Dev} {b : Nat} {a : Active} {i : Ins}

theorem descAt_length (d : Dev) (b : Nat) (i : Ins) : (descAt d b i).length = 64 := by simp [descAt, Mem.readBytes]

/-- A descriptor that may be read is read whole. -/
theorem Readable.descriptor (h : Readable d b a i) (k : Dev → List Byte → Dev) :
    d.descriptor b ((d.basin b).seq.ea i) a k = k d (descAt d b i) := by
  obtain ⟨hclean, halign, hcode⟩ := h
  have halign' : (d.basin b).seq.ea i % 64 = 0 := halign
  have hcode' : (d.basin b).cisCode a.run ((d.basin b).seq.ea i) 64 = 0 := hcode
  simp only [Dev.descriptor, halign', hcode', Dev.readFor_of_clean hclean]
  rfl

theorem Readable.peek (h : Readable d b a i) (hactive : (d.basin b).seq.active = some a) : (d.basin b).peek i = some (descAt d b i) := by
  obtain ⟨⟨hbad, _⟩, halign, hcode⟩ := h
  have hnone : ((d.basin b).badIn (ea d b i) 64).isNone = true := by simp [Basin.badIn, hbad]
  simp only [Basin.peek, hactive]
  exact if_pos ⟨halign, hcode, hnone⟩

/-- A basin that grants an operation of an engine has issued it. -/
theorem issued_of_grants {g : Engine} {bytes more : List Byte} {e : Dev} (hlen : bytes.length = 64)
    (h : Grants d b a i g (bytes ++ more) e) : Issued d b a i g bytes e := by
  obtain ⟨y, n, rfl, hframe, hseq, o, ⟨hlast, hcount, hkeep⟩, hengine, hpc, hdesc, hbytes, hnum⟩ := h
  have hbasin : (((d.putBasin b y).advance b).setFree n).basin b = _ := d.basin_advance_put b y
  have hgo : y.seq.pc = (d.basin b).seq.pc := by rw [hseq]
  refine ⟨rfl, fun c hc => d.basin_advance_put_other hc y, ?_⟩
  rw [hbasin]
  refine ⟨?frame, ?sequencer, o, hlast, hcount, hkeep, hengine, hpc, hdesc, ?bytes, hnum⟩
  case frame => rw [hframe]
  case sequencer => dsimp only; rw [hgo, hseq]
  case bytes => rw [hbytes]; exact List.take_left' hlen

/-- An instruction whose command reads its descriptor and then grants an operation issues that operation. -/
theorem Stands.issues (h : Stands d b a i) (hread : Readable d b a i) {c : Instr} {g : Engine} (sel : Basin → Ins → Bool)
    {go : Dev → Nat → Active → Ins → List Byte → Dev} (hsel : sel (d.basin b) i = true)
    (hc : ∀ s, exec c s = onCore (fun d => d.issue b sel (fun d a i => d.descriptor b ((d.basin b).seq.ea i) a (fun d bs => go d b a i bs))) s)
    {more : List Byte} (hgo : Grants d b a i g (descAt d b i ++ more) (go d b a i (descAt d b i))) :
    Issues c d b a i g (descAt d b i) :=
  ⟨_, h.givesSelected sel hsel hc (hread.descriptor _), issued_of_grants (descAt_length d b i) hgo⟩

/-- The command of a cascade operation issues it where the descriptor names the operation. -/
theorem Stands.issuesCsc (h : Stands d b a i) (hread : Readable d b a i) {c : Instr} (sel : Basin → Ins → Bool)
    (hsel : sel (d.basin b) i = true) (hc : ∀ s, exec c s = onCore (fun d => d.csc b sel) s) (hcode : (cscOf (descAt d b i)).code (d.basin b) a.run = 0)
    (hroom : HasRoom d b .cascade)
    (hfree : let c := cscOf (descAt d b i)
      Unclaimed d b (tilesIn (c.reads ++ c.writesTo (d.basin b).logical)) (segsIn c.reads) (segsIn (c.writesTo (d.basin b).logical)) (fun _ => false)) :
    Issues c d b a i .cascade (descAt d b i) := by
  have ⟨_, hactive, _⟩ := h
  have ⟨hclean, _⟩ := hread
  refine h.issues hread (go := Dev.goCsc) (more := []) sel hsel hc ?_
  rw [List.append_nil]
  exact goCsc_grants hactive hclean hcode hroom hfree

theorem cscIs_of_op (h : Readable d b a i) (hactive : (d.basin b).seq.active = some a) (hop : i.opc = 0x42) {k : Nat}
    (hk : (cscOf (descAt d b i)).op = k) : cscIs k (d.basin b) i = true := by
  simp [cscIs, hop, h.peek hactive, hk]

end

/-- Settles O4: each engine's instruction reads its descriptor and grants one operation; the commands of the cascade and of the loupe select
by the operation. -/
theorem engineInstructionsIssueAnOperation : Obligations.EngineInstructionsIssueAnOperation := by
  unfold Obligations.EngineInstructionsIssueAnOperation
  intro d b a i h hread x bs
  have ⟨_, hactive, _⟩ := h
  have ⟨hclean, _⟩ := hread
  refine ⟨?jop, ?slu, ?runl, ?csc, ?lpe⟩
  case jop =>
    intro l hop hcode hroom hfree
    refine h.issues hread (go := Dev.goJop) (more := []) (opIs 0x40) (by simp [opIs, hop]) (fun _ => rfl) ?_
    rw [List.append_nil]
    exact goJop_grants hactive hclean hcode hroom hfree
  case slu =>
    intro s pb p k hop hcheck hroom hfree
    refine h.issues hread (go := Dev.doSlu) (more := pb) (opIs 0x41) (by simp [opIs, hop]) (fun _ => rfl) ?_
    rw [doSlu_of_clean hclean]
    have hs : sluiceOf (bs ++ pb) = s := sluiceOf_append (descAt_length d b i) pb
    have hp : (if (bs ++ pb).length = 128 then ppbOf ((bs ++ pb).drop 64) else Ppb.blank) = p := ppbOf_behind x a.run s (descAt_length d b i)
    exact goSlu_grants hactive hs hp hcheck hroom hfree
  case runl =>
    intro q n g r hop hcap hcode hroom hcount hfree
    refine h.issues hread (go := Dev.goRunl) (more := []) (opIs 0x43) (by simp [opIs, hop]) (fun _ => rfl) ?_
    rw [List.append_nil]
    exact goRunl_grants hactive hclean rfl rfl rfl hcap hcode hroom hcount hfree
  case csc =>
    intro c w hop hcode hroom hfree
    have hsel {k : Nat} (hk : c.op = k) : cscIs k x i = true := cscIs_of_op hread hactive hop hk
    refine ⟨fun hk => ?sum, fun hk => ?max, fun hk => ?min, fun hk => ?meanvar, fun hk => ?lse, fun hk => ?softmax, fun hk => ?ssq,
      fun hk => ?gnorm⟩
    case sum => exact h.issuesCsc hread _ (by rw [hsel hk]; rfl) (fun _ => rfl) hcode hroom hfree
    all_goals exact h.issuesCsc hread _ (hsel hk) (fun _ => rfl) hcode hroom hfree
  case lpe =>
    intro l k w hop hcode hroom hfree
    have hissues {c : Instr} {m : Nat} (hk : k = m) (hc : ∀ s, exec c s = onCore (fun d => d.lpe b m) s) : Issues c d b a i .loupe bs := by
      refine h.issues hread (go := Dev.goLpe) (more := []) _ (by simpa [hop] using hk) hc ?_
      rw [List.append_nil]
      exact goLpe_grants hactive hclean rfl hcode hroom hfree
    exact ⟨fun hk => hissues hk (fun _ => rfl), fun hk => hissues hk (fun _ => rfl), fun hk => hissues hk (fun _ => rfl),
      fun hk => hissues hk (fun _ => rfl), fun hk => hissues hk (fun _ => rfl), fun hk => hissues hk (fun _ => rfl),
      fun hk => hissues hk (fun _ => rfl), fun hk => hissues hk (fun _ => rfl), fun hk => hissues hk (fun _ => rfl),
      fun hk => hissues hk (fun _ => rfl)⟩

end Sys2Proof.Spec
end

section
/-! PROOFS. Tile instructions (R93, R95, R108, R112): what the writes of a fill make of the accumulator store, and the obligation they
settle. -/

namespace Sys2Proof.Machine

open Sys2Proof Sys2Proof.Spec

/-! ### The writes of a fill -/

/-- Value `v` in each of the 64 words of the tiles `ts`. -/
def tileFill (ts : List Nat) (v : Nat) : List (Nat × Byte) :=
  ts.flatMap (fun t => (List.range 64).flatMap (fun w => writesAt (0x400000 + 256 * t + 4 * w) (leBytes 4 v)))

theorem mem_tileFill {ts : List Nat} {v : Nat} {u : Nat × Byte} :
    u ∈ tileFill ts v ↔ ∃ t ∈ ts, ∃ w < 64, ∃ k < 4, u = (0x400000 + 256 * t + 4 * w + k, (leBytes 4 v).getD k 0) := by
  simp only [tileFill, List.mem_flatMap, List.mem_range, mem_writesAt]
  constructor
  · rintro ⟨t, ht, w, hw, k, hk, rfl⟩
    exact ⟨t, ht, w, hw, k, by simpa [leBytes_length] using hk, by simp [hk]⟩
  · rintro ⟨t, ht, w, hw, k, hk, rfl⟩
    have hlt : k < (leBytes 4 v).length := by simpa [leBytes_length] using hk
    exact ⟨t, ht, w, hw, k, hlt, by simp [hlt]⟩

/-- Every word of a filled tile reads as the value. -/
theorem readLe_tileFill (m : Mem) {ts : List Nat} {t w : Nat} (ht : t ∈ ts) (hw : w < 64) {v : Nat} (hv : v < 2 ^ 32) :
    Mem.readLe (Mem.apply m (tileFill ts v)) (0x400000 + 256 * t + 4 * w) 4 = v := by
  have hbyte (k : Nat) (hk : k < 4) : Mem.read (Mem.apply m (tileFill ts v)) (0x400000 + 256 * t + 4 * w + k) = (leBytes 4 v).getD k 0 := by
    refine Mem.read_apply_agreed ⟨_, mem_tileFill.mpr ⟨t, ht, w, hw, k, hk, rfl⟩, rfl⟩ (fun u hu hsame => ?_) m
    obtain ⟨t', _, w', hw', k', hk', rfl⟩ := mem_tileFill.mp hu
    have hkk : k' = k := by dsimp only at hsame; omega
    rw [hkk]
  have hbytes : Mem.readBytes (Mem.apply m (tileFill ts v)) (0x400000 + 256 * t + 4 * w) 4 = leBytes 4 v := by
    refine List.ext_getElem (by simp [Mem.readBytes, leBytes_length]) (fun k h hk => ?_)
    rw [leBytes_length] at hk
    simp [Mem.readBytes, hbyte k hk, leBytes_length, hk]
  rw [Mem.readLe, hbytes, leNat_leBytes]
  exact Nat.mod_eq_of_lt hv

/-- A fill writes no byte outside its tiles. -/
theorem tileFill_within {ts : List Nat} {v p : Nat} (h : ∀ t ∈ ts, p < 0x400000 + 256 * t ∨ 0x400000 + 256 * t + 256 ≤ p) {u : Nat × Byte}
    (hu : u ∈ tileFill ts v) : u.1 ≠ p := by
  obtain ⟨t, ht, w, hw, k, hk, rfl⟩ := mem_tileFill.mp hu
  have hp := h t ht
  dsimp only
  omega

end Sys2Proof.Machine

namespace Sys2Proof.Spec

open Sys2Proof Sys2Proof.Machine

/-! ### TZERO and TFILL -/

/-- The fill that a tile instruction of run `a` grants. -/
def tileOp (d : Dev) (b : Nat) (a : Active) (i : Ins) (v : Nat) : Op :=
  let ts := tilesNamed (sreg d b i.sa).toNat i.imm
  { d.granted b a i .tile [] with tiles := ts, tileClear := ts, writes := tileFill ts v }

section
variable {d : Dev} {b : Nat} {a : Active} {i : Ins}

/-- Naming no tile is a NOP. -/
theorem goTile_none (h : bitsOf (sreg d b i.sa).toNat 12 6 = 0 ∨ i.imm % 2 ^ 16 = 0) (v : Nat) :
    d.goTile b a i v = went d b ((d.basin b).seq.pc + 1) := if_pos h

/-- A fill of tiles that the run may reach and that nothing holds is granted. -/
theorem goTile_grants (hactive : (d.basin b).seq.active = some a) (hcount : bitsOf (sreg d b i.sa).toNat 12 6 ≠ 0)
    (hmask : i.imm % 2 ^ 16 ≠ 0) (hfit : bitsOf (sreg d b i.sa).toNat 5 0 + bitsOf (sreg d b i.sa).toNat 12 6 ≤ 64)
    (hopen : ∀ t ∈ tilesNamed (sreg d b i.sa).toNat i.imm, tileIn a.run.apseg t = true) (hroom : HasRoom d b .tile)
    (hfree : Unclaimed d b (tilesNamed (sreg d b i.sa).toNat i.imm) [] [] (fun _ => false)) (v : Nat) :
    d.goTile b a i v = (d.putBasin b (((d.basin b).taken a).addOp (tileOp d b a i v))).advance b := by
  have hall : (tilesNamed (sreg d b i.sa).toNat i.imm).all (tileIn a.run.apseg) = true := List.all_eq_true.mpr hopen
  have hclear := clear_of_unclaimed hfree (fun _ ht => ht) (fun _ hr => hr) (fun _ hw => hw) (fun _ _ hb => hb)
  have hsa : ((d.basin b).seq.reg i.sa).toNat = (sreg d b i.sa).toNat := rfl
  have hsome : ¬ (bitsOf (sreg d b i.sa).toNat 12 6 = 0 ∨ i.imm % 2 ^ 16 = 0) := not_or.mpr ⟨hcount, hmask⟩
  simp only [Dev.goTile, hsa, if_neg hsome, if_neg (Nat.not_lt.mpr hfit), hall, room_of_hasRoom hroom, hclear, Dev.grant_eq hactive]
  rfl

end

/-- Settles O5: the fill that is granted is the last operation, and its writes are those of the tiles named. -/
theorem tileInstructionsFillTheNamedTiles : Obligations.TileInstructionsFillTheNamedTiles := by
  unfold Obligations.TileInstructionsFillTheNamedTiles
  intro d b a i h s ts goal fits
  have ⟨_, hactive, _⟩ := h
  have fill {c : Instr} {v : Nat} (hv : v < 2 ^ 32) (hcount : bitsOf s 12 6 ≠ 0) (hmask : i.imm % 2 ^ 16 ≠ 0) (hfits : fits)
      (hgives : Gives c d (d.goTile b a i v)) : goal c v := by
    obtain ⟨hfit, hopen, hroom, hfree⟩ := hfits
    rw [goTile_grants hactive hcount hmask hfit hopen hroom hfree v] at hgives
    refine ⟨_, tileOp d b a i v, hgives, rfl, fun n hn => Dev.basin_advance_put_other d hn _, ?basin, rfl, rfl, rfl, rfl, rfl, rfl,
      fun t ht w hw => readLe_tileFill _ ht hw hv, fun p hp u hu => tileFill_within hp hu⟩
    case basin => rw [Dev.basin_advance_put]; rfl
  refine ⟨fun hop hnone => ?zeroNone, fun hop hnone => ?fillNone, fun hop hcount hmask hfits => ?zero, fun hop hcount hmask hfits => ?fill⟩
  case zeroNone => exact h.givesExactly hop (fun _ => rfl) (goTile_none hnone 0)
  case fillNone => exact h.givesExactly hop (fun _ => rfl) (goTile_none hnone _)
  case zero => exact fill (by decide) hcount hmask hfits (h.givesExactly hop (fun _ => rfl) rfl)
  case fill => exact fill (sreg d b i.sb).isLt hcount hmask hfits (h.givesExactly hop (fun _ => rfl) rfl)

end Sys2Proof.Spec
end

section
/-! PROOFS. Retirement (R81, R95, R109, R112, R139 to R143, R171, R196, R200): what a retiring operation makes of its basin, and the obligation
that this settles. -/

namespace Sys2Proof.Machine

open Sys2Proof Sys2Proof.Spec

/-! ### The basin of a retired operation -/

/-- The tile flags after an operation: those it clears, then those it sets (R95, R101). -/
def Op.tileFlagsAfter (o : Op) (t : Tab Bool) : Tab Bool :=
  o.tileSet.foldl (fun t k => Tab.put t k true) (o.tileClear.foldl (fun t k => Tab.del t k) t)

/-- A basin with an operation's writes made, its flags posted and its claims gone. -/
def Basin.retired (x : Basin) (o : Op) : Basin :=
  { x.commit o with flags := x.flags.post o, seq := { x.seq with ops := x.seq.ops.filter (fun p => p.seq ≠ o.seq) } }

theorem Basin.foldl_mend_frame (ws : List (Nat × Byte)) (x : Basin) : ∃ c, ws.foldl (fun x w => x.mend w.1 1) x = { x with cis := c } := by
  induction ws generalizing x with
  | nil => exact ⟨x.cis, rfl⟩
  | cons w ws ih =>
    obtain ⟨c, hc⟩ := ih (x.mend w.1 1)
    exact ⟨c, hc⟩

/-- The writes of an operation change the memory, the errors known of it, and the flags and cover of tiles. -/
theorem Basin.commit_frame (x : Basin) (o : Op) : ∃ c v,
    x.commit o = { x with store := Mem.apply x.store o.writes, cis := c, tileFlags := o.tileFlagsAfter x.tileFlags, tileCover := v } := by
  obtain ⟨c, hc⟩ := Basin.foldl_mend_frame o.writes { x with store := Mem.apply x.store o.writes }
  unfold Basin.commit
  dsimp only
  rw [hc]
  exact ⟨c, _, rfl⟩

/-- Where no word of the basin holds an error, an operation retires whole (R205). -/
theorem Dev.retire_of_clean {d : Dev} {b : Nat} (h : (d.basin b).cis.badWords = []) (o : Op) :
    d.retire b o = d.putBasin b ((d.basin b).retired o) := by
  obtain ⟨c, v, hcommit⟩ := (d.basin b).commit_frame o
  have hnone : partWords o.writes (d.basin b).cis.badWords = none := by simp [partWords, h]
  simp only [Dev.retire, hnone, Basin.retired, hcommit]

theorem Op.tileFlagsAfter_set (o : Op) (t : Tab Bool) {k : Nat} (h : k ∈ o.tileSet) : Tab.at (o.tileFlagsAfter t) false k = true := by
  have hput (ks : List Nat) (t : Tab Bool) (hk : k ∈ ks ∨ Tab.at t false k = true) :
      Tab.at (ks.foldl (fun t k => Tab.put t k true) t) false k = true := by
    induction ks generalizing t with
    | nil => exact hk.resolve_left (by simp)
    | cons j ks ih =>
      refine ih _ ?_
      by_cases hj : k = j
      · exact .inr (hj ▸ Tab.at_put_same _ _ _ _)
      · rw [Tab.at_put_other _ _ _ _ _ hj]
        exact hk.imp_left (fun hin => (List.mem_cons.mp hin).resolve_left hj)
  exact hput _ _ (.inl h)

theorem Op.tileFlagsAfter_other (o : Op) (t : Tab Bool) {k : Nat} (hset : k ∉ o.tileSet) (hclear : k ∉ o.tileClear) :
    Tab.at (o.tileFlagsAfter t) false k = Tab.at t false k := by
  have hput (ks : List Nat) (t : Tab Bool) (hk : k ∉ ks) :
      Tab.at (ks.foldl (fun t k => Tab.put t k true) t) false k = Tab.at t false k := by
    induction ks generalizing t with
    | nil => rfl
    | cons j ks ih =>
      obtain ⟨hj, hks⟩ := not_or.mp (mt List.mem_cons.mpr hk)
      rw [List.foldl_cons, ih _ hks, Tab.at_put_other _ _ _ _ _ hj]
  have hdel (ks : List Nat) (t : Tab Bool) (hk : k ∉ ks) : Tab.at (ks.foldl (fun t k => Tab.del t k) t) false k = Tab.at t false k := by
    induction ks generalizing t with
    | nil => rfl
    | cons j ks ih =>
      obtain ⟨hj, hks⟩ := not_or.mp (mt List.mem_cons.mpr hk)
      rw [List.foldl_cons, ih _ hks, Tab.at, Tab.at, Tab.find?_del_other _ _ _ hj]
  exact (hput _ _ hset).trans (hdel _ _ hclear)

/-- A basin whose run, operations and engine registers are `act`, `ops` and `en`. -/
def Basin.withRun (x : Basin) (act : Option Active) (ops : List Op) (en : EngineRegs) : Basin :=
  { x with seq := { x.seq with active := act, ops := ops }, eng := en }

/-- What retirement needs of the basin before it: its run's counts, its engine registers and what stands for the operation itself may have
changed first. -/
theorem retired_of_basin {d e : Dev} {b : Nat} {o : Op} {act : Option Active} {ops : List Op} {en en' : EngineRegs}
    (hother : ∀ c, c ≠ b → e.basin c = d.basin c)
    (hops : ops.filter (fun p => p.seq ≠ o.seq) = (d.basin b).seq.ops.filter (fun p => p.seq ≠ o.seq))
    (hbasin : e.basin b = { ((d.basin b).withRun act ops en).retired o with eng := en' }) : Retired d b o e := by
  obtain ⟨c, v, hcommit⟩ := ((d.basin b).withRun act ops en).commit_frame o
  have hy : e.basin b = { ({ (d.basin b).withRun act ops en with
      store := Mem.apply (d.basin b).store o.writes, cis := c, tileFlags := o.tileFlagsAfter (d.basin b).tileFlags, tileCover := v } : Basin) with
      flags := (d.basin b).flags.post o, seq := { (d.basin b).seq with active := act, ops := ops.filter (fun p => p.seq ≠ o.seq) },
      eng := en' } := by
    rw [hbasin, Basin.retired, hcommit]
    rfl
  unfold Retired
  dsimp only
  rw [hy]
  exact ⟨hother, rfl, fun p hp => Mem.read_apply_untouched hp _, hops, rfl, rfl, rfl, rfl, rfl, rfl⟩

/-- Retirement on a basin whose run's counts, operations of its number and engine registers have changed first. -/
theorem retired_put_withRun (d : Dev) (b : Nat) (o : Op) (act : Option Active) {ops : List Op} (en : EngineRegs)
    (hops : ops.filter (fun p => p.seq ≠ o.seq) = (d.basin b).seq.ops.filter (fun p => p.seq ≠ o.seq)) :
    Retired d b o (d.putBasin b (((d.basin b).withRun act ops en).retired o)) :=
  retired_of_basin (fun _ hc => Dev.basin_putBasin_other _ _ _ _ hc) hops (Dev.basin_putBasin _ _ _)

/-- Retirement on the basin as it stands. -/
theorem retired_put (d : Dev) (b : Nat) (o : Op) : Retired d b o (d.putBasin b ((d.basin b).retired o)) :=
  retired_put_withRun d b o _ _ rfl

theorem Basin.retired_eng (x : Basin) (o : Op) : (x.retired o).eng = x.eng := by
  obtain ⟨c, v, hcommit⟩ := x.commit_frame o
  rw [Basin.retired, hcommit]

theorem Basin.retired_tileFlags (x : Basin) (o : Op) : (x.retired o).tileFlags = o.tileFlagsAfter x.tileFlags := by
  obtain ⟨c, v, hcommit⟩ := x.commit_frame o
  rw [Basin.retired, hcommit]

theorem Basin.retired_store (x : Basin) (o : Op) : (x.retired o).store = Mem.apply x.store o.writes := by
  obtain ⟨c, v, hcommit⟩ := x.commit_frame o
  rw [Basin.retired, hcommit]

/-! ### Layers (R109, R139 to R143) -/

/-- The layer's overflow count passes its bound. -/
def Layer.exceeds (l : Layer) (o : Op) : Bool := l.ovb != 0xFFFF && decide (l.ovb < o.ovCount)

theorem Layer.exceeds_iff (l : Layer) (o : Op) : l.exceeds o = true ↔ l.ovb ≠ 0xFFFF ∧ l.ovb < o.ovCount := by simp [Layer.exceeds]

/-- A layer with no earlier one on its jets counts, retires, and raises an event where it passes its bound. -/
theorem layerRetire_eq {d : Dev} {b : Nat} {a : Active} {o : Op} (h : InFlight d b a o) (hclean : Clean d b) (hjet : o.engine = .jet)
    (hfirst : ∀ p ∈ (d.basin b).seq.ops, p.engine = .jet → p.seq < o.seq → (layerOf o.bytes).shares (layerOf p.bytes) = false) :
    let l := layerOf o.bytes
    let w := d.putBasin b (((d.basin b).layerDone a o l (l.exceeds o)).retired o)
    layerRetire b o.seq d = if l.exceeds o then w.raiseS 2 b (runIndex a.run) a.run.lbasin l.descId o.ovCount else w := by
  obtain ⟨_, hactive, hop⟩ := h
  obtain ⟨hbad, _⟩ := hclean
  have hnone : partWords o.writes (d.basin b).cis.badWords = none := by simp [partWords, hbad]
  have hgo : ¬ (o.engine ≠ .jet ∨ (d.basin b).seq.ops.any (fun p => p.engine == .jet && decide (p.seq < o.seq)
      && (layerOf o.bytes).shares (layerOf p.bytes)) = true) := by
    simp only [hjet, ne_eq, not_true_eq_false, false_or, List.any_eq_true, Bool.and_eq_true, beq_iff_eq, decide_eq_true_eq, not_exists, not_and,
      Bool.not_eq_true]
    exact fun p hp hbefore => hfirst p hp hbefore.1 hbefore.2
  intro l w
  have hretire : (d.putBasin b ((d.basin b).layerDone a o l (l.exceeds o))).retire b o = w := by
    rw [Dev.retire_of_clean (by rw [Dev.basin_putBasin]; exact hbad), Dev.basin_putBasin, Dev.putBasin_putBasin]
  unfold layerRetire
  simp only [hactive, hop, if_neg hgo, hnone]
  rw [← hretire]
  rfl

/-! ### The cascade (R171, R200) -/

theorem Basin.cscShow_frame (x : Basin) : ∃ en, x.cscShow = { x with eng := en } := ⟨_, rfl⟩

/-- CSC_STATUS shows busy while an operation is in the cascade. -/
theorem Basin.cscShow_busy (x : Basin) : x.cscShow.eng.cscBusy = x.seq.ops.any (fun p => p.engine == .cascade) := by
  unfold Basin.cscShow
  dsimp only
  split
  next o _ hops =>
    have ho : o ∈ x.seq.ops.filter (fun o => o.engine == .cascade) := by rw [hops]; exact List.mem_cons_self
    exact (List.any_eq_true.mpr ⟨o, List.mem_filter.mp ho⟩).symm
  next hops => exact (List.any_eq_false.mpr (List.filter_eq_nil_iff.mp hops)).symm

/-! ### The runnels (R196, R200) -/

/-- The operation with the word of its record count behind its writes. -/
def Op.withCount (o : Op) (q : RunnelOp) : Op := { o with writes := o.writes ++ writesAt q.raddr (leBytes 4 q.records) }

/-- The end of a runnel operation retires it with its count word; RUN_STATUS stays where no other waits for the runnel. -/
theorem Dev.runnelEnd_eq {d : Dev} {b : Nat} (h : (d.basin b).cis.badWords = []) (r : Nat) (o : Op) (q : RunnelOp) : ∃ en,
    d.runnelEnd b r o q = d.putBasin b (({ d.basin b with eng := en } : Basin).retired (o.withCount q))
      ∧ ((∀ p ∈ (d.basin b).seq.ops, p.engine = o.engine → p.seq = o.seq) → en = (d.basin b).eng) := by
  unfold Dev.runnelEnd
  dsimp only
  rw [Dev.retire_of_clean (by rw [Dev.basin_putBasin]; exact h), Dev.basin_putBasin, Dev.putBasin_putBasin]
  refine ⟨_, rfl, fun halone => ?_⟩
  have hnone : (d.basin b).seq.ops.find? (fun p => p.engine == o.engine && p.seq != o.seq) = none := by
    simpa [List.find?_eq_none] using halone
  rw [hnone]
  rfl

/-- The count word of a retired operation reads as its records. -/
theorem readLe_withCount (m : Mem) (o : Op) {q : RunnelOp} (h : q.records < 2 ^ 32) :
    Mem.readLe (Mem.apply m (o.withCount q).writes) q.raddr 4 = q.records := by
  have hwrite : Mem.apply m (o.withCount q).writes = Mem.writeLe (Mem.apply m o.writes) q.raddr 4 q.records := by
    rw [Op.withCount, Mem.apply_append, Mem.apply_writesAt, Mem.writeLe]
  rw [hwrite, Mem.readLe_writeLe]
  exact Nat.mod_eq_of_lt h

/-- An operation that heads its engine and is the one of its number still heads it once it is replaced by one of its number and engine. -/
theorem Basin.oldest_setOp {x : Basin} {o o' : Op} (hold : x.oldest o.engine = some o) (hop : x.op o.seq = some o)
    (hengine : o'.engine = o.engine) (hseq : o'.seq = o.seq) : (x.setOp o').oldest o.engine = some o' := by
  have hfind (ops : List Op) (hold : ops.find? (fun p => p.engine == o.engine) = some o) (hop : ops.find? (fun p => p.seq == o.seq) = some o) :
      (ops.map (fun p => if p.seq = o'.seq then o' else p)).find? (fun p => p.engine == o.engine) = some o' := by
    induction ops with
    | nil => simp at hold
    | cons p ops ih =>
      by_cases hp : p.engine = o.engine
      · have hpo : p = o := by simpa [hp] using hold
        simp [hpo, hseq, hengine]
      · have hnot : p.seq ≠ o.seq := by
          intro hsame
          have hpo : p = o := by simpa [hsame] using hop
          exact hp (congrArg Op.engine hpo)
        simp only [List.map_cons, hseq, if_neg hnot, List.find?_cons, beq_eq_false_iff_ne.mpr hp]
        rw [hseq] at ih
        exact ih (by simpa [hp] using hold) (by simpa [hnot] using hop)
  exact hfind _ hold hop

/-- Replacing an operation by one of its number leaves those of other numbers. -/
theorem Basin.setOp_others (x : Basin) (o' : Op) :
    (x.setOp o').seq.ops.filter (fun p => p.seq ≠ o'.seq) = x.seq.ops.filter (fun p => p.seq ≠ o'.seq) := by
  change (x.seq.ops.map (fun p => if p.seq = o'.seq then o' else p)).filter _ = _
  induction x.seq.ops with
  | nil => rfl
  | cons p ops ih => by_cases hp : p.seq = o'.seq <;> simpa [hp] using ih

/-- The operation at the head of runnel `r` of basin `b`, with its lanes. -/
def Dev.runnelHead (d : Dev) (b r : Nat) : Option (Op × RunnelOp) :=
  match rnlEngine r, (d.basin b).seq.active with
  | some e, some _ => ((d.basin b).oldest e).bind (fun o => o.rnl.map (fun q => (o, q)))
  | _, _ => none

theorem Dev.runnelHead_of_oldest {d : Dev} {b r : Nat} {a : Active} {o : Op} {q : RunnelOp} (hr : rnlEngine r = some o.engine)
    (hactive : (d.basin b).seq.active = some a) (hold : (d.basin b).oldest o.engine = some o) (hrnl : o.rnl = some q) :
    d.runnelHead b r = some (o, q) := by
  simp [Dev.runnelHead, hr, hactive, hold, hrnl]

theorem runnelRetire_eq (b r : Nat) (d : Dev) : runnelRetire b r d =
    match d.runnelHead b r with
    | none => d
    | some (o, q) =>
      if q.ended then d.runnelEnd b r o q
      else if d.libOp q.entry then
        d.readFor b o.pc [(q.aaddr, q.count * muBytes q.afmt)] (fun d =>
          let d := d.runLibrary b r o q
          match d.runnelHead b r with
          | some (o, q) => d.runnelEnd b r o q
          | none => d)
      else d := rfl

/-- An operation whose last group has ended retires. -/
theorem runnelRetire_of_ended {d : Dev} {b r : Nat} {o : Op} {q : RunnelOp} (hhead : d.runnelHead b r = some (o, q)) (hended : q.ended = true) :
    runnelRetire b r d = d.runnelEnd b r o q := by
  rw [runnelRetire_eq, hhead]
  exact if_pos hended

/-- The writes of a library function: its results and its records (R199). -/
def RunnelOp.libraryWrites (q : RunnelOp) (rd : Nat → Byte) : List (Nat × Byte) :=
  (q.library rd).1 ++ (q.library rd).2.2.zipIdx.flatMap (fun p => writesAt (q.raddr + 8 + 8 * p.2) (leBytes 4 p.1.1 ++ leBytes 4 p.1.2))

/-- The lanes of a library function that has been carried out within its record cap. -/
def RunnelOp.libraryDone (q : RunnelOp) (rd : Nat → Byte) : RunnelOp :=
  { q with records := (q.library rd).2.2.length, rcapr := false, ended := true }

/-- The operation of a library function that has been carried out. -/
def Op.libraryDone (o : Op) (q : RunnelOp) (rd : Nat → Byte) : Op :=
  { o with writes := o.writes ++ q.libraryWrites rd, flags := o.flags ||| (q.library rd).2.1, rnl := some (q.libraryDone rd) }

/-- A library function within its record cap puts its results behind the operation's writes. -/
theorem Dev.runLibrary_eq (d : Dev) (b r : Nat) (o : Op) {q : RunnelOp} (hcap : q.entry ≠ 0x120 ∨ q.count ≤ q.rcap) : ∃ en,
    d.runLibrary b r o q = d.putBasin b { (d.basin b).setOp (o.libraryDone q (Mem.read (d.basin b).store)) with eng := en } := by
  have hfull : (q.entry == 0x120 && decide (q.rcap < q.count)) = false := by
    rcases hcap with hentry | hcount
    · simp [hentry]
    · simp [Nat.not_lt.mpr hcount]
  unfold Dev.runLibrary
  simp only [hfull]
  exact ⟨_, rfl⟩

/-- A library function that heads its runnel is carried out whole and retires (R199). -/
theorem runnelRetire_library {d : Dev} {b r : Nat} {a : Active} {o : Op} {q : RunnelOp} (hfront : Front d b a o) (hclean : Clean d b)
    (hr : rnlEngine r = some o.engine) (hrnl : o.rnl = some q) (hended : q.ended = false) (hlib : d.libOp q.entry = true)
    (hcap : q.entry ≠ 0x120 ∨ q.count ≤ q.rcap) :
    let rd := Mem.read (d.basin b).store
    let o' := o.libraryDone q rd
    ∃ en, runnelRetire b r d = d.putBasin b
      (((d.basin b).withRun (d.basin b).seq.active ((d.basin b).setOp o').seq.ops en).retired (o'.withCount (q.libraryDone rd))) := by
  intro rd o'
  obtain ⟨⟨_, hactive, hop⟩, hold⟩ := hfront
  obtain ⟨en, hrun⟩ := d.runLibrary_eq b r o hcap
  generalize hw : d.putBasin b { (d.basin b).setOp o' with eng := en } = w at hrun
  have hbasin : w.basin b = { (d.basin b).setOp o' with eng := en } := by rw [← hw, Dev.basin_putBasin]
  have hhead : w.runnelHead b r = some (o', q.libraryDone rd) :=
    Dev.runnelHead_of_oldest (a := a) hr (by rw [hbasin]; exact hactive) (by rw [hbasin]; exact Basin.oldest_setOp (o := o) hold hop rfl rfl) rfl
  have hbad : (w.basin b).cis.badWords = [] := by rw [hbasin]; exact hclean.1
  obtain ⟨en', hend, _⟩ := w.runnelEnd_eq hbad r o' (q.libraryDone rd)
  refine ⟨en', ?_⟩
  have hgo : runnelRetire b r d = w.runnelEnd b r o' (q.libraryDone rd) := by
    rw [runnelRetire_eq, Dev.runnelHead_of_oldest hr hactive hold hrnl]
    simp only [hended, hlib, Dev.readFor_of_clean hclean, hrun, hhead]
    rfl
  rw [hgo, hend, hbasin, ← hw, Dev.putBasin_putBasin]
  rfl

end Sys2Proof.Machine

namespace Sys2Proof.Spec

open Sys2Proof Sys2Proof.Machine

/-- Settles O7: each engine's retirement is the basin with the operation retired, and beside it what the engine counts and shows. -/
theorem operationsRetireWithTheirWrites : Obligations.OperationsRetireWithTheirWrites := by
  unfold Obligations.OperationsRetireWithTheirWrites
  intro d b a o h hclean
  have ⟨hquiet, hactive, hop⟩ := h
  have ⟨hbad, _⟩ := hclean
  refine ⟨?layer, fun hengine => ?tile, fun hengine hfront hphase => ?cascade, fun hengine hfront => ?loupe,
    fun r q hr hfront hrnl hended => ?ended, fun r q hr hfront hrnl hended hlib hcap => ?library⟩
  case layer =>
    intro l past hjet hfirst
    have hgives : Gives (.layerRetire b o.seq) d (layerRetire b o.seq d) := hquiet.gives (fun _ => rfl)
    have heq := layerRetire_eq h hclean hjet hfirst
    dsimp only at heq
    generalize hw : d.putBasin b (((d.basin b).layerDone a o (layerOf o.bytes) ((layerOf o.bytes).exceeds o)).retired o) = w at heq
    generalize layerRetire b o.seq d = e at hgives heq
    have hbasins : e.basins = w.basins := by
      rw [heq]
      split
      · exact (Dev.raiseS_eventChange _ _ _ _ _ _ _).basins
      · rfl
    have hbasin : e.basin b = ((d.basin b).layerDone a o l (l.exceeds o)).retired o := by
      rw [Dev.basin, hbasins, ← hw]
      exact Dev.basin_putBasin _ _ _
    have heng : (e.basin b).eng = ((d.basin b).layerDone a o l (l.exceeds o)).eng := by rw [hbasin, Basin.retired_eng]
    refine ⟨e, hgives, ?retired, fun hwithin => ?quiet, ?exceed, ?_⟩
    case retired =>
      refine retired_of_basin (fun c hc => ?_) rfl hbasin
      rw [Dev.basin, hbasins, ← hw]
      exact Dev.basin_putBasin_other _ _ _ _ hc
    case quiet =>
      have hno : ¬ l.exceeds o = true := fun hyes => hwithin ((l.exceeds_iff o).mp hyes)
      rw [heq, if_neg hno, ← hw]
      rfl
    case exceed =>
      rw [heng]
      exact l.exceeds_iff o
    rw [heng, hbasin]
    exact ⟨rfl, rfl, rfl, _, rfl, rfl, rfl, rfl⟩
  case tile =>
    have hgo : tileOpRetire b o.seq d = d.putBasin b ((d.basin b).retired o) := by
      simp [tileOpRetire, hop, hengine, Dev.retire_of_clean hbad]
    have hgives : Gives (.tileOpRetire b o.seq) d (tileOpRetire b o.seq d) := hquiet.gives (fun _ => rfl)
    rw [hgo] at hgives
    refine ⟨_, hgives, retired_put d b o, rfl, ?_⟩
    rw [Dev.basin_putBasin, Basin.retired_eng, Basin.retired_tileFlags]
    exact ⟨rfl, fun t ht => o.tileFlagsAfter_set _ ht, fun t hset hclear => o.tileFlagsAfter_other _ hset hclear⟩
  case cascade =>
    obtain ⟨_, hold⟩ := hfront
    rw [hengine] at hold
    have hgo : cascadeRetire b o.seq d = d.putBasin b ((d.basin b).retired o).cscShow := by
      simp [cascadeRetire, hactive, hold, hphase, Dev.retire_of_clean hbad]
    have hgives : Gives (.cascadeRetire b o.seq) d (cascadeRetire b o.seq d) := hquiet.gives (fun _ => rfl)
    rw [hgo] at hgives
    refine ⟨_, hgives, ?_, rfl, ?_⟩
    · exact retired_of_basin (fun c hc => Dev.basin_putBasin_other _ _ _ _ hc) rfl (Dev.basin_putBasin _ _ _)
    · rw [Dev.basin_putBasin]
      exact Basin.cscShow_busy _
  case loupe =>
    obtain ⟨_, hold⟩ := hfront
    rw [hengine] at hold
    have hgo : loupeRetire b o.seq d = d.putBasin b ((d.basin b).retired o) := by
      simp [loupeRetire, hactive, hold, Dev.retire_of_clean hbad]
    have hgives : Gives (.loupeRetire b o.seq) d (loupeRetire b o.seq d) := hquiet.gives (fun _ => rfl)
    rw [hgo] at hgives
    refine ⟨_, hgives, retired_put d b o, rfl, ?_⟩
    rw [Dev.basin_putBasin, Basin.retired_eng]
  case ended =>
    obtain ⟨_, hold⟩ := hfront
    have hgives : Gives (.runnelRetire b r) d (runnelRetire b r d) := hquiet.gives (fun _ => rfl)
    obtain ⟨en, hend, hstays⟩ := d.runnelEnd_eq hbad r o q
    rw [runnelRetire_of_ended (Dev.runnelHead_of_oldest hr hactive hold hrnl) hended, hend] at hgives
    refine ⟨_, hgives, ?_, rfl, ?_⟩
    · exact retired_put_withRun d b (o.withCount q) _ en rfl
    · rw [Dev.basin_putBasin, Basin.retired_store, Basin.retired_eng]
      exact ⟨fun hrecords => readLe_withCount _ o hrecords, hstays⟩
  case library =>
    intro v records
    have hgives : Gives (.runnelRetire b r) d (runnelRetire b r d) := hquiet.gives (fun _ => rfl)
    obtain ⟨en, hend⟩ := runnelRetire_library hfront hclean hr hrnl hended hlib hcap
    rw [hend] at hgives
    refine ⟨_, hgives, rfl, ?_⟩
    exact retired_put_withRun d b ((o.libraryDone q _).withCount _) _ en ((d.basin b).setOp_others (o.libraryDone q _))

end Sys2Proof.Spec
end

section
/-! PROOFS. Tables after several entries are put, and the least of a list of numbers. -/

namespace Sys2Proof

variable {α : Type}

theorem Tab.not_mem_keys_of_find? {t : Tab α} {k : Nat} (h : Tab.find? t k = none) : k ∉ t.map Prod.fst := by
  induction t with
  | nil => simp
  | cons p t ih =>
    obtain ⟨i, v⟩ := p
    by_cases hi : i = k
    · simp [Tab.find?, hi] at h
    · have ht : Tab.find? t k = none := by simpa [Tab.find?, hi] using h
      simpa [Ne.symm hi] using ih ht

/-- Entries put one after another leave what stands at a key that none of them has. -/
theorem Tab.find?_foldl_put_other {ps : List (Nat × α)} {k : Nat} (h : k ∉ ps.map Prod.fst) (t : Tab α) :
    Tab.find? (ps.foldl (fun t p => Tab.put t p.1 p.2) t) k = Tab.find? t k := by
  induction ps generalizing t with
  | nil => rfl
  | cons p ps ih =>
    obtain ⟨hp, hps⟩ := not_or.mp (mt List.mem_cons.mpr h)
    rw [List.foldl_cons, ih hps, Tab.find?_put_other _ _ _ _ hp]

/-- Of entries with different keys each is found once all are put. -/
theorem Tab.find?_foldl_put_mem {ps : List (Nat × α)} (hkeys : (ps.map Prod.fst).Nodup) {k : Nat} {v : α} (h : (k, v) ∈ ps) (t : Tab α) :
    Tab.find? (ps.foldl (fun t p => Tab.put t p.1 p.2) t) k = some v := by
  induction ps generalizing t with
  | nil => simp at h
  | cons p ps ih =>
    obtain ⟨hp, hps⟩ := List.nodup_cons.mp hkeys
    rw [List.foldl_cons]
    rcases List.mem_cons.mp h with rfl | hin
    · rw [Tab.find?_foldl_put_other hp, Tab.find?_put_same]
    · exact ih hps hin _

/-- The least of a list is the one that no other is below. -/
theorem foldl_min_eq {m w : Nat} {ws : List Nat} (hmem : m ∈ w :: ws) (hleast : ∀ y ∈ w :: ws, m ≤ y) : ws.foldl min w = m := by
  induction ws generalizing w with
  | nil => exact (List.mem_singleton.mp hmem).symm
  | cons v ws ih =>
    have hw := hleast w List.mem_cons_self
    have hv := hleast v (List.mem_cons_of_mem w List.mem_cons_self)
    have hrest : ∀ y ∈ ws, m ≤ y := fun y hy => hleast y (List.mem_cons_of_mem w (List.mem_cons_of_mem v hy))
    rw [List.foldl_cons]
    refine ih ?_ (fun y hy => ?_)
    · rcases List.mem_cons.mp hmem with rfl | hin
      · rw [min_eq_left hv]; exact List.mem_cons_self
      rcases List.mem_cons.mp hin with rfl | hin
      · rw [min_eq_right hw]; exact List.mem_cons_self
      · exact List.mem_cons_of_mem _ hin
    · rcases List.mem_cons.mp hy with rfl | hin
      · exact le_min hw hv
      · exact hrest y hin

end Sys2Proof
end

section
/-! PROOFS. The MODEL and RUNNEL commands (R105, R195, R198, R206, R223, R261, R374): what each answers, and the obligation they settle. -/

namespace Sys2Proof.Machine

open Sys2Proof Sys2Proof.Spec

/-! ### Signed images (R223) -/

/-- A request may act on an object of its own domain, and on any as domain 0 (R373). -/
theorem Req.may_of_own {r : Req} {n : Nat} (h : r.domain = 0 ∨ r.domain = n) : r.may n = true := by simpa [Req.may] using h

/-- An image in pages of the domain's own is read whole; the read is counted against the domain's budget. -/
theorem Dev.imageRead_of_reaches {d : Dev} {dom a n : Nat} (hn : 0 < n) (h : Reaches d dom a n) :
    d.imageRead dom a n = (d.setRsv (d.rsv.charge dom a n), 0) := by
  have ⟨hin, _⟩ := h
  have hvalid : ¬ ((!rsvPopulated a n) = true ∨ n = 0) := by simp [rsvPopulated, hin]; omega
  simp only [Dev.imageRead, if_neg hvalid, d.rsvRead_of_reaches dom a n h]

/-! ### A model placed in its basins (R105, R206) -/

/-- From `d` to `e` what basins hold has changed, and the bytes that the reservoir moved for it are counted; nothing else has. -/
def Dev.PlacedTo (d e : Dev) : Prop := ∃ bs n, e = (d.setBasins bs).setRsv { d.rsv with slotBytes := n }

theorem Dev.PlacedTo.refl (d : Dev) : d.PlacedTo d := ⟨d.basins, d.rsv.slotBytes, rfl⟩

theorem Dev.PlacedTo.trans {d e f : Dev} (h : d.PlacedTo e) (k : e.PlacedTo f) : d.PlacedTo f := by
  obtain ⟨_, _, rfl⟩ := h
  obtain ⟨bs, n, rfl⟩ := k
  exact ⟨bs, n, rfl⟩

theorem Dev.PlacedTo.foldl {α : Type} {f : Dev → α → Dev} (hf : ∀ d x, Dev.PlacedTo d (f d x)) (l : List α) (d : Dev) :
    d.PlacedTo (l.foldl f d) := by
  induction l generalizing d with
  | nil => exact .refl d
  | cons x l ih => exact (hf d x).trans (ih _)

theorem Dev.PlacedTo.physOf {d e : Dev} (h : d.PlacedTo e) (l : Nat) : e.physOf l = d.physOf l := by obtain ⟨_, _, rfl⟩ := h; rfl

/-- A program put into the basin that carries its logical number. -/
def Dev.placeProg (d : Dev) (g : ModelProg) : Dev :=
  match d.physOf g.lbasin with
  | some b => d.putBasin b { d.basin b with prog := Tab.putList (d.basin b).prog g.base g.words }
  | none => d

/-- A segment of a model of domain `dom` filled in the basin that carries its logical number. -/
def Dev.placeSeg (dom : Nat) (d : Dev) (s : ModelSeg) : Dev :=
  match d.physOf s.lbasin with
  | some b => (d.putBasin b ((d.basin b).fillSeg s.seg dom (Mem.readBytes d.rsv.mem s.addr 65536))).setRsv (d.rsv.moved 65536)
  | none => d

theorem Dev.placeModel_eq (d : Dev) (m : Model) : d.placeModel m = m.segs.foldl (Dev.placeSeg m.domain) (m.progs.foldl Dev.placeProg d) := rfl

theorem Dev.placeProg_placedTo (d : Dev) (g : ModelProg) : d.PlacedTo (d.placeProg g) := by
  unfold Dev.placeProg
  split
  · exact ⟨_, d.rsv.slotBytes, rfl⟩
  · exact .refl d

theorem Dev.placeSeg_placedTo (dom : Nat) (d : Dev) (s : ModelSeg) : d.PlacedTo (Dev.placeSeg dom d s) := by
  unfold Dev.placeSeg
  split
  · exact ⟨_, _, rfl⟩
  · exact .refl d

theorem Dev.placeModel_placedTo (d : Dev) (m : Model) : d.PlacedTo (d.placeModel m) :=
  (Dev.PlacedTo.foldl Dev.placeProg_placedTo m.progs d).trans (.foldl (Dev.placeSeg_placedTo m.domain) m.segs _)

/-- The tag of a segment that a domain holds. -/
def SegTag.givenTo (dom : Nat) : SegTag := { valid := true, zeroing := false, domain := dom }

/-- A placed segment has the domain's tag, and every other tag of its basin is as before. -/
theorem Dev.placeSeg_tag (dom : Nat) (d : Dev) (s : ModelSeg) {b k : Nat}
    (h : (d.physOf s.lbasin = some b ∧ s.seg = k) ∨ Tab.find? (d.basin b).tags k = some (SegTag.givenTo dom)) :
    Tab.find? ((Dev.placeSeg dom d s).basin b).tags k = some (SegTag.givenTo dom) := by
  unfold Dev.placeSeg
  cases hphys : d.physOf s.lbasin with
  | none => exact h.resolve_left (fun hhere => by simp [hphys] at hhere)
  | some c =>
    change Tab.find? ((d.putBasin c _).basin b).tags k = _
    by_cases hb : b = c
    · subst hb
      rw [Dev.basin_putBasin]
      change Tab.find? (Tab.put (d.basin b).tags s.seg (SegTag.givenTo dom)) k = _
      by_cases hk : k = s.seg
      · rw [hk, Tab.find?_put_same]
      · rw [Tab.find?_put_other _ _ _ _ hk]
        exact h.resolve_left (fun hhere => hk hhere.2.symm)
    · rw [Dev.basin_putBasin_other _ _ _ _ hb]
      refine h.resolve_left (fun hhere => hb ?_)
      rw [hphys] at hhere
      exact (Option.some.inj hhere.1).symm

/-- Every segment of a placed model has its domain's tag in the basin that carries it. -/
theorem Dev.placeModel_tag (d : Dev) (m : Model) {s : ModelSeg} (hs : s ∈ m.segs) {b : Nat} (hphys : d.physOf s.lbasin = some b) :
    Tab.find? ((d.placeModel m).basin b).tags s.seg = some (SegTag.givenTo m.domain) := by
  have hfold (l : List ModelSeg) (d : Dev) (hphys : d.physOf s.lbasin = some b)
      (h : s ∈ l ∨ Tab.find? (d.basin b).tags s.seg = some (SegTag.givenTo m.domain)) :
      Tab.find? ((l.foldl (Dev.placeSeg m.domain) d).basin b).tags s.seg = some (SegTag.givenTo m.domain) := by
    induction l generalizing d with
    | nil => exact h.resolve_left (by simp)
    | cons t l ih =>
      refine ih _ (((Dev.placeSeg_placedTo m.domain d t).physOf _).trans hphys) ?_
      rcases h with hin | htag
      · rcases List.mem_cons.mp hin with rfl | hl
        · exact .inr (Dev.placeSeg_tag _ _ _ (.inl ⟨hphys, rfl⟩))
        · exact .inl hl
      · exact .inr (Dev.placeSeg_tag _ _ _ (.inr htag))
  rw [Dev.placeModel_eq]
  exact hfold m.segs _ (((Dev.PlacedTo.foldl Dev.placeProg_placedTo m.progs d).physOf _).trans hphys) (.inl hs)

/-! ### MODEL (R261, R374) -/

section
variable {w : Dev} {r : Req} {img : Model} {n : Nat}

@[simp] theorem Dev.modelsOf_setRsv (d : Dev) (x : Rsv) (n : Nat) : (d.setRsv x).modelsOf n = d.modelsOf n := rfl
@[simp] theorem Dev.absent_setRsv (d : Dev) (x : Rsv) (l : Nat) : (d.setRsv x).absent l = d.absent l := rfl
@[simp] theorem Dev.tableRuns_setRsv (d : Dev) (x : Rsv) : (d.setRsv x).tableRuns = d.tableRuns := rfl
@[simp] theorem Dev.planStep_setRsv (d : Dev) (x : Rsv) (r : Run) : (d.setRsv x).planStep r = d.planStep r := rfl

/-- A model fits by what is resident and what the tables name, whatever the reservoir counts. -/
@[simp] theorem Dev.modelFits_setRsv (d : Dev) (x : Rsv) (m : Model) : (d.setRsv x).modelFits m = d.modelFits m := by
  simp only [Dev.modelFits, Dev.absent_setRsv, Dev.tableRuns_setRsv, Dev.setRsv_models]

theorem Dev.openValue_snd (d : Dev) : d.openValue.2 = d.setFree (d.free + 1) := rfl

theorem Dev.pick_of_ne (d : Dev) {l : List Nat} (h : l ≠ []) :
    d.pick l = (l[d.openValue.1.toNat % l.length]?, d.openValue.2) := by
  unfold Dev.pick
  rw [if_neg h]

/-- A choice among numbers takes one of them. -/
theorem Dev.pick_of_mem (d : Dev) {l : List Nat} {j : Nat} (h : j ∈ l) : ∃ k ∈ l, ∃ m, d.pick l = (some k, d.setFree m) := by
  have hne : l ≠ [] := List.ne_nil_of_mem h
  have hlt : d.openValue.1.toNat % l.length < l.length := Nat.mod_lt _ (List.length_pos_of_ne_nil hne)
  refine ⟨_, List.getElem_mem hlt, d.free + 1, ?_⟩
  rw [d.pick_of_ne hne, List.getElem?_eq_getElem hlt, d.openValue_snd]

/-- The free entries of the model table. -/
def Dev.freeModels (d : Dev) : List Nat := (List.range 256).filter (fun k => (Tab.find? d.models k).isNone)

theorem Dev.mem_freeModels {d : Dev} {k : Nat} : k ∈ d.freeModels ↔ k < 256 ∧ Tab.find? d.models k = none := by simp [Dev.freeModels]

/-- MODEL_LOAD once the image has been read, which changes what the reservoir counts. -/
theorem cmdModelLoad_eq (hn : n = if r.domain = 0 then img.domain else r.domain) (hstate : (w.domain n).state = 1) {x : Rsv}
    (hread : w.imageRead n (r.arg64 0) (r.arg 2) = (w.setRsv x, 0)) (sigOk : Bool) :
    let d := w.setRsv x
    let m := { img with domain := n }
    cmdModelLoad sigOk img r w =
      if !sigOk then d.no stBAD_SIGNATURE
      else if (w.domain n).maxModels ≤ w.modelsOf n then d.no stLIMIT
      else match (d.pick w.freeModels).1 with
        | none => d.no stNO_SPACE
        | some k => if w.modelFits m then (((d.pick w.freeModels).2.setModels (Tab.put w.models k m)).placeModel m).yes [k] else d.no stNO_SPACE := by
  intro d m
  unfold Dev.freeModels
  simp only [cmdModelLoad, ← hn, hstate, hread, one_ne_zero, ne_eq, not_true_eq_false, if_false, Dev.modelFits_setRsv, Dev.modelsOf_setRsv,
    Dev.setRsv_models, d, m]
  <;> rfl

theorem cmdModelLoad_unsigned (hn : n = if r.domain = 0 then img.domain else r.domain) (hstate : (w.domain n).state = 1) {x : Rsv}
    (hread : w.imageRead n (r.arg64 0) (r.arg 2) = (w.setRsv x, 0)) : cmdModelLoad false img r w = (w.setRsv x, { status := 0x203 }) :=
  cmdModelLoad_eq hn hstate hread false

theorem cmdModelLoad_unfit (hn : n = if r.domain = 0 then img.domain else r.domain) (hstate : (w.domain n).state = 1) {x : Rsv}
    (hread : w.imageRead n (r.arg64 0) (r.arg 2) = (w.setRsv x, 0)) (hlimit : w.modelsOf n < (w.domain n).maxModels)
    (hfits : w.modelFits { img with domain := n } = false) : cmdModelLoad true img r w = (w.setRsv x, { status := 0x401 }) := by
  rw [cmdModelLoad_eq hn hstate hread]
  simp only [hfits, if_neg (Nat.not_le.mpr hlimit), Bool.not_true, Bool.false_eq_true, if_false]
  split <;> rfl

/-- A model that fits takes a free entry and is placed; its segments have its domain's tag, and nothing but the table, the basins and
what the reservoir counts has changed. -/
theorem cmdModelLoad_fit (hn : n = if r.domain = 0 then img.domain else r.domain) (hstate : (w.domain n).state = 1) {x : Rsv}
    (hread : w.imageRead n (r.arg64 0) (r.arg 2) = (w.setRsv x, 0)) (hlimit : w.modelsOf n < (w.domain n).maxModels)
    (hfits : w.modelFits { img with domain := n } = true) (hfree : ∃ k, k < 256 ∧ Tab.find? w.models k = none) :
    ∃ (e : Dev) (k : Nat), cmdModelLoad true img r w = (e, { res := [k] }) ∧ k < 256 ∧ Tab.find? w.models k = none
      ∧ e.models = Tab.put w.models k { img with domain := n } ∧ e.rsv = { x with slotBytes := e.rsv.slotBytes }
      ∧ e = { w with models := e.models, basins := e.basins, rsv := e.rsv, free := e.free }
      ∧ ∀ s ∈ img.segs, ∀ b, w.physOf s.lbasin = some b → Tab.find? (e.basin b).tags s.seg = some (SegTag.givenTo n) := by
  obtain ⟨j, hj⟩ := hfree
  obtain ⟨k, hk, free, hpick⟩ := (w.setRsv x).pick_of_mem (Dev.mem_freeModels.mpr hj)
  obtain ⟨hlt, hnone⟩ := Dev.mem_freeModels.mp hk
  let d := ((w.setRsv x).setFree free).setModels (Tab.put w.models k { img with domain := n })
  have hload : cmdModelLoad true img r w = (d.placeModel { img with domain := n }, { res := [k] }) := by
    rw [cmdModelLoad_eq hn hstate hread]
    simp only [hpick, hfits, if_neg (Nat.not_le.mpr hlimit), Bool.not_true, Bool.false_eq_true, if_false, if_true, Dev.yes, d]
  obtain ⟨bs, moved, hplaced⟩ := d.placeModel_placedTo { img with domain := n }
  have htags (s : ModelSeg) (hs : s ∈ img.segs) (b : Nat) (hphys : w.physOf s.lbasin = some b) :=
    d.placeModel_tag { img with domain := n } hs hphys
  rw [hplaced] at hload htags
  exact ⟨_, k, hload, hlt, hnone, rfl, rfl, rfl, htags⟩

variable {m : Model}

theorem cmdModelUnload_free (hm : Tab.find? w.models (r.arg 0) = some m) (hown : r.domain = 0 ∨ r.domain = m.domain)
    (hnamed : w.modelNamed (r.arg 0) = false) : cmdModelUnload r w = (w.setModels (Tab.del w.models (r.arg 0)), {}) := by
  simp [cmdModelUnload, hm, Req.may_of_own hown, hnamed, Dev.yes]

theorem cmdModelUnload_named (hm : Tab.find? w.models (r.arg 0) = some m) (hown : r.domain = 0 ∨ r.domain = m.domain)
    (hnamed : w.modelNamed (r.arg 0) = true) : cmdModelUnload r w = (w, { status := 0x304 }) := by
  simp [cmdModelUnload, hm, Req.may_of_own hown, hnamed, Dev.no, stIN_USE]

theorem cmdModelQuery_ok (hm : Tab.find? w.models (r.arg 0) = some m) (hown : r.domain = 0 ∨ r.domain = m.domain) :
    cmdModelQuery r w = w.yes [m.domain, (m.segs.map ModelSeg.lbasin ++ m.progs.map ModelProg.lbasin).dedup.length, m.segs.length]
      (beBytes 48 m.digest) := by
  simp [cmdModelQuery, hm, Req.may_of_own hown]

/-! ### RUNNEL (R195, R198) -/

variable {fn : RunnelFn}

@[simp] theorem Dev.entryNamed_setRsv (d : Dev) (x : Rsv) (e : Nat) : (d.setRsv x).entryNamed e = d.entryNamed e := by
  simp only [Dev.entryNamed, Dev.tableRuns_setRsv, Dev.planStep_setRsv]
@[simp] theorem Dev.fnOverlaps_setRsv (d : Dev) (x : Rsv) (f : RunnelFn) : (d.setRsv x).fnOverlaps f = d.fnOverlaps f := by
  simp only [Dev.fnOverlaps, Dev.setRsv_lib]
@[simp] theorem Dev.frameAtOrAfter_setRsv (d : Dev) (x : Rsv) (t : Nat) : (d.setRsv x).frameAtOrAfter t = d.frameAtOrAfter t := rfl

theorem cmdRunnelInstall_unsigned {x : Rsv} (hread : w.imageRead 0 (r.arg64 0) (r.arg 2) = (w.setRsv x, 0)) :
    cmdRunnelInstall false fn r w = (w.setRsv x, { status := 0x203 }) := by
  simp [cmdRunnelInstall, hread, Dev.no, stBAD_SIGNATURE]

/-- A checked image waits for the next frame boundary. -/
theorem cmdRunnelInstall_ok {x : Rsv} (hread : w.imageRead 0 (r.arg64 0) (r.arg 2) = (w.setRsv x, 0)) (hplaced : fn.placed = true)
    (hwords : ∀ u ∈ fn.words, mopAllowed fn.base fn.words.length u = true) (hnamed : w.entryNamed fn.entry = false)
    (hmeets : w.fnOverlaps fn = false) :
    let t := w.frameAtOrAfter w.ns
    cmdRunnelInstall true fn r w = ((w.setRsv x).setLib { w.lib with queued := Tab.put w.lib.queued fn.entry { fn with boundary := t } },
      { res := [t % 2 ^ 32, t / 2 ^ 32 % 2 ^ 32, fn.entry] }) := by
  intro t
  have hchecked : ¬ ((!fn.placed) = true ∨ (!fn.words.all (mopAllowed fn.base fn.words.length)) = true) := by
    simpa [hplaced] using hwords
  simp only [cmdRunnelInstall, hread, if_neg hchecked, Dev.entryNamed_setRsv, hnamed, Dev.fnOverlaps_setRsv, hmeets, ne_eq, not_true_eq_false,
    Bool.not_true, Bool.false_eq_true, if_false, Dev.frameAtOrAfter_setRsv, Dev.yes]
  rfl

theorem cmdRunnelRemove_free {x : RunnelFn} (hx : Tab.find? w.lib.fns (r.arg 0) = some x) (hnamed : w.entryNamed (r.arg 0) = false) :
    cmdRunnelRemove r w = (w.setLib { w.lib with fns := Tab.del w.lib.fns (r.arg 0) }, {}) := by
  simp [cmdRunnelRemove, hx, hnamed, Dev.yes]

theorem cmdRunnelRemove_named {x : RunnelFn} (hx : Tab.find? w.lib.fns (r.arg 0) = some x) (hnamed : w.entryNamed (r.arg 0) = true) :
    cmdRunnelRemove r w = (w, { status := 0x304 }) := by
  simp [cmdRunnelRemove, hx, hnamed, Dev.no, stIN_USE]

end

/-! ### Images written at their boundary (R198) -/

/-- The library once the images whose boundary has come are written. -/
def RunLib.written (l : RunLib) (now : Nat) : RunLib :=
  let due := l.queued.filter (fun p => decide (p.2.boundary ≤ now))
  { libver := due.foldl (fun v p => if p.2.base < 0x500 then BitVec.ofNat 32 p.2.version else v) l.libver,
    fns := due.foldl (fun t p => Tab.put t p.1 p.2) l.fns,
    queued := l.queued.filter (fun p => decide (now < p.2.boundary)) }

/-- The device at the boundary of `t` ns, with the images whose time has come in every runnel. -/
def Dev.imagesWritten (d : Dev) (t : Nat) : Dev :=
  let e := (d.atNs t).setLib (d.lib.written (d.atNs t).ns)
  e.setBasins (Tab.mapv e.basins (fun _ x => { x with ustore := e.lib.store.1, utable := e.lib.store.2 }))

/-- Images are written at the first boundary that one of them waits for. -/
theorem runnelImageWrite_eq {d : Dev} {p : Nat × RunnelFn} (hp : p ∈ d.lib.queued) (hfirst : ∀ q ∈ d.lib.queued, p.2.boundary ≤ q.2.boundary) :
    runnelImageWrite d = d.imagesWritten p.2.boundary := by
  have hmem : p.2.boundary ∈ d.lib.queued.map (fun q => q.2.boundary) := List.mem_map_of_mem hp
  have hleast : ∀ y ∈ d.lib.queued.map (fun q => q.2.boundary), p.2.boundary ≤ y := by
    intro y hy
    obtain ⟨q, hq, rfl⟩ := List.mem_map.mp hy
    exact hfirst q hq
  unfold runnelImageWrite
  cases hbounds : d.lib.queued.map (fun q => q.2.boundary) with
  | nil => simp [hbounds] at hmem
  | cons w ws =>
    rw [hbounds] at hmem hleast
    dsimp only
    rw [foldl_min_eq hmem hleast]
    rfl

theorem Dev.le_ns_atNs (d : Dev) (t : Nat) : t ≤ (d.atNs t).ns := by
  change t ≤ max d.cad.ct (t * 65536) / 65536
  omega

section
variable {l : RunLib} {now k : Nat} {x : RunnelFn}

/-- An image whose boundary has come stands under its entry and waits no more. -/
theorem RunLib.written_due (hkeys : (l.queued.map Prod.fst).Nodup) (hx : (k, x) ∈ l.queued) (hdue : x.boundary ≤ now) :
    Tab.find? (l.written now).fns k = some x ∧ ∀ y, (k, y) ∉ (l.written now).queued := by
  constructor
  · have hkeys' : ((l.queued.filter (fun p => decide (p.2.boundary ≤ now))).map Prod.fst).Nodup := (List.filter_sublist.map _).nodup hkeys
    exact Tab.find?_foldl_put_mem hkeys' (List.mem_filter.mpr ⟨hx, by simpa using hdue⟩) _
  · intro y hy
    obtain ⟨hin, hlater⟩ := List.mem_filter.mp hy
    have hsame : y = x := congrArg Prod.snd (List.inj_on_of_nodup_map hkeys hin hx rfl)
    subst hsame
    simp at hlater
    omega

/-- What no image waits to replace stays. -/
theorem RunLib.written_other (h : Tab.find? l.queued k = none) : Tab.find? (l.written now).fns k = Tab.find? l.fns k :=
  Tab.find?_foldl_put_other (fun hin => Tab.not_mem_keys_of_find? h ((List.filter_sublist.map _).subset hin)) _

end

end Sys2Proof.Machine

namespace Sys2Proof.Spec

open Sys2Proof Sys2Proof.Machine

/-- Settles O42: each command is the equation of its case, and an image is written at the least boundary of those that wait. -/
theorem modelAndRunnelCommandsFollowTheirTable : Obligations.ModelAndRunnelCommandsFollowTheirTable := by
  unfold Obligations.ModelAndRunnelCommandsFollowTheirTable
  intro d w f r
  refine ⟨fun img n h hn hstate => ?load,
    fun m h hm hown => ⟨fun hnamed => ?unload, fun hnamed => ?unloadNamed⟩, fun m h hm hown => ?query,
    fun img h hlen hreach => ?install,
    fun k x hquiet hx hkeys hfirst => ?imageWrite, fun x h hx => ⟨fun hnamed => ?remove, fun hnamed => ?removeNamed⟩⟩
  case load =>
    intro m hlen hreach
    have hread := Dev.imageRead_of_reaches hlen hreach
    refine ⟨fun hlimit hfits hfree => ?fit, fun hlimit hfits => ?unfit, ?unsigned⟩
    case fit =>
      obtain ⟨e, k, hload, hplaced⟩ := cmdModelLoad_fit hn hstate hread hlimit hfits hfree
      exact ⟨e, k, h.replies (fun _ => rfl) hload, hplaced⟩
    case unfit => exact ⟨_, h.replies (fun _ => rfl) (cmdModelLoad_unfit hn hstate hread hlimit hfits), Dev.setRsv_models .., Dev.setRsv_basins ..⟩
    case unsigned => exact ⟨_, h.replies (fun _ => rfl) (cmdModelLoad_unsigned hn hstate hread), Dev.setRsv_models .., Dev.setRsv_basins ..⟩
  case unload => exact h.replies (fun _ => rfl) (cmdModelUnload_free hm hown hnamed)
  case unloadNamed => exact h.replies (fun _ => rfl) (cmdModelUnload_named hm hown hnamed)
  case query => exact ⟨_, h.replies (fun _ => rfl) (cmdModelQuery_ok hm hown), rfl, rfl, rfl, rfl⟩
  case install =>
    have hread := Dev.imageRead_of_reaches hlen hreach
    intro t
    refine ⟨fun hplaced hwords hnamed hmeets => ?checked, ?unsigned⟩
    case checked => exact h.replies (fun _ => rfl) (cmdRunnelInstall_ok hread hplaced hwords hnamed hmeets)
    case unsigned => exact ⟨_, h.replies (fun _ => rfl) (cmdRunnelInstall_unsigned hread), Dev.setRsv_lib ..⟩
  case imageWrite =>
    have hgives : Gives .runnelImageWrite d (runnelImageWrite d) := hquiet.gives (fun _ => rfl)
    rw [runnelImageWrite_eq hx hfirst] at hgives
    obtain ⟨hfound, hgone⟩ := RunLib.written_due hkeys hx (d.le_ns_atNs x.boundary)
    refine ⟨_, hgives, rfl, hfound, fun j hj => RunLib.written_other hj, hgone, fun p hp => ?_, rfl⟩
    obtain ⟨q, _, rfl⟩ := List.mem_map.mp hp
    exact ⟨rfl, rfl⟩
  case remove => exact h.replies (fun _ => rfl) (cmdRunnelRemove_free hx hnamed)
  case removeNamed => exact h.replies (fun _ => rfl) (cmdRunnelRemove_named hx hnamed)

end Sys2Proof.Spec
end

section
/-! PROOFS. Micro-ops over the lanes (R191, R192): which value each active lane is given decides what the micro-op gives; the integer
micro-ops and compares, and the obligation they settle. -/

namespace Sys2Proof

/-! ### Fields of 32 bits read as signed -/

theorem signedOf_eq_toInt (n : Nat) : signedOf 32 n = (BitVec.ofNat 32 n).toInt := by
  rw [signedOf, BitVec.toInt_eq_toNat_cond, BitVec.toNat_ofNat]
  split <;> split <;> omega

/-- The pattern of a value read as signed is the value modulo 2^32. -/
theorem patternOf_signedOf (n : Nat) : patternOf 32 (signedOf 32 n) = n % 2 ^ 32 := by
  rw [patternOf, signedOf]
  split <;> omega

theorem patternOf_lt (w : Nat) (i : Int) : patternOf w i < 2 ^ w := by
  have hpos : (0 : Int) < (2 ^ w : Nat) := by positivity
  have hnonneg := Int.emod_nonneg i hpos.ne'
  have hlt := Int.emod_lt_of_pos i hpos
  unfold patternOf
  omega

theorem patternOf_toInt (w : W32) : patternOf 32 w.toInt = w.toNat := by
  have h := patternOf_signedOf w.toNat
  rwa [signedOf_eq_toInt, BitVec.ofNat_toNat, BitVec.setWidth_eq, Nat.mod_eq_of_lt w.isLt] at h

end Sys2Proof

namespace Sys2Proof.Machine

open Sys2Proof

theorem RunnelOp.reg_lt (q : RunnelOp) (l k : Nat) : q.reg l k < 2 ^ 32 := by
  unfold RunnelOp.reg
  split
  · decide
  · exact BitVec.isLt _

theorem isOp_of {m : Mop} {code : Nat} (h : m.op = code) : isOp code m = true := beq_iff_eq.mpr h

theorem isVar_of {m : Mop} {code var : Nat} (hop : m.op = code) (hmod : m.mod = var) : isVar code var m = true := by simp [isVar, hop, hmod]

end Sys2Proof.Machine

namespace Sys2Proof.Spec

open Sys2Proof Sys2Proof.Machine

/-! ### Flags and values of the active lanes -/

/-- The flags of the active lanes depend on theirs alone. -/
theorem laneFlags_congr {q : RunnelOp} {f g : Nat → W32} (h : ∀ l ∈ q.lanes, f l = g l) : laneFlags q f = laneFlags q g :=
  List.foldl_ext _ _ _ (fun x l hl => by rw [h l hl])

/-- Lanes that all raise `c` together raise `c`, where there are lanes. -/
theorem laneFlags_const {q : RunnelOp} (h : q.lanes ≠ []) (c : W32) : laneFlags q (fun _ => c) = c := by
  have habsorb (ls : List Nat) : ls.foldl (fun x _ => x ||| c) c = c := by
    induction ls with
    | nil => rfl
    | cons l ls ih => rwa [List.foldl_cons, BitVec.or_self]
  obtain ⟨l, ls, hlanes⟩ := List.exists_cons_of_ne_nil h
  rw [laneFlags, hlanes, List.foldl_cons, show (0 : W32) ||| c = c from BitVec.zero_or]
  exact habsorb ls

section
variable {c : Instr} {d : Dev} {b r n : Nat} {a : Active} {o : Op} {q : RunnelOp} {m : Mop} {sel : Mop → Bool}
  {f : Dev → RunnelOp → Mop → Nat → Nat → Nat → Nat → Nat → Flagged} {ex : Machine.State → Host.Outcome Machine.State Fault Refusal}

/-- The values count for the active lanes alone, and modulo 2^32. -/
theorem GivesLanes.congr {val val' : Nat → Nat} {fl : W32} (h : GivesLanes c d b r o q m n val fl)
    (hval : ∀ l ∈ q.lanes, val l % 2 ^ 32 = val' l % 2 ^ 32) : GivesLanes c d b r o q m n val' fl := by
  obtain ⟨e, q', hgives, hmoved, hframe, hregs⟩ := h
  refine ⟨e, q', hgives, hmoved, hframe, fun l k hk => ?_⟩
  rw [hregs l k hk]
  split
  next hwritten => exact hval l hwritten.2.2
  next => rfl

/-- A micro-op that a runnel stands at is carried out on its device. -/
theorem AtMicroOp.givesMu (h : AtMicroOp d b r a o q m) (hsel : sel m = true) {k : Dev → Active → Op → RunnelOp → Mop → Dev}
    (hc : exec c = ex) (hex : ∀ s, ex s = onCore (fun d => d.mu b r sel k) s) :
    Gives c d (k d a o q m) := by
  have ⟨hquiet, _⟩ := h
  have hgives : Gives c d (d.mu b r sel k) := hquiet.gives (fun s => by rw [hc, hex])
  rwa [h.mu hsel] at hgives

/-- A micro-op over the lanes, from the values it gives the active lanes. -/
theorem AtMicroOp.givesActive (h : AtMicroOp d b r a o q m) (hsel : sel m = true) (hc : exec c = ex) {stoch : RunnelOp → Mop → Bool}
    {mode : RunnelOp → Mop → W32} (hex : ∀ s, ex s = onCore (fun d => d.muLanes b r sel stoch (f d) mode) s) (val : Nat → Nat) (fl : Nat → W32)
    (hval : ∀ l ∈ q.lanes, let v := f d q m l (q.reg l m.va) (q.reg l m.vb) (q.reg l m.vc) (if stoch q m then a.laneDraw q l else 0)
      v.1 % 2 ^ 32 = val l % 2 ^ 32 ∧ v.2 = fl l) :
    GivesLanes c d b r o q m (if stoch q m then q.lanes.length else 0) val ((if q.lanes = [] then 0 else mode q m) ||| laneFlags q fl) := by
  have hgives := h.givesLanes hsel (fun s => by rw [hc, hex]) rfl _ (fun _ => rfl)
  rw [laneFlags_congr (fun l hl => (hval l hl).2)] at hgives
  exact hgives.congr (fun l hl => (hval l hl).1)

/-- A micro-op that takes no draw and sets no mode flag gives the active lanes' values and raises their flags. -/
theorem AtMicroOp.givesUndrawn (h : AtMicroOp d b r a o q m) (hsel : sel m = true) (hc : exec c = ex)
    (hex : ∀ s, ex s = onCore (fun d => d.muLanes b r sel noDraw (f d) noMode) s) (val : Nat → Nat) (fl : Nat → W32)
    (hval : ∀ l ∈ q.lanes, let v := f d q m l (q.reg l m.va) (q.reg l m.vb) (q.reg l m.vc) 0
      v.1 % 2 ^ 32 = val l % 2 ^ 32 ∧ v.2 = fl l) : GivesLanes c d b r o q m 0 val (laneFlags q fl) := by
  have hgives := h.givesActive hsel hc hex val fl hval
  simpa [noDraw, noMode] using hgives

/-- One that raises nothing either gives the active lanes' values alone. -/
theorem AtMicroOp.givesExact (h : AtMicroOp d b r a o q m) (hsel : sel m = true) (hc : exec c = ex)
    (hex : ∀ s, ex s = onCore (fun d => d.muLanes b r sel noDraw (f d) noMode) s) (val : Nat → Nat)
    (hval : ∀ l ∈ q.lanes, let v := f d q m l (q.reg l m.va) (q.reg l m.vb) (q.reg l m.vc) 0
      v.1 % 2 ^ 32 = val l % 2 ^ 32 ∧ v.2 = 0) : GivesLanes c d b r o q m 0 val 0 := by
  have hgives := h.givesUndrawn hsel hc hex val (fun _ => 0) hval
  have hnone : laneFlags q (fun _ => 0) = 0 := laneFlags_none q
  rwa [hnone] at hgives

/-! ### Integers (R192) -/

/-- A 32-bit integer micro-op gives each active lane its function of va and of vb or IMM. -/
theorem AtMicroOp.givesInt (h : AtMicroOp d b r a o q m) {code : Nat} (hop : m.op = code) {g : W32 → W32 → W32}
    (hc : ∀ s, exec c s = onCore (fun d => d.muInt b r code g) s) (val : Nat → Nat)
    (hval : ∀ l, (g (BitVec.ofNat 32 (q.reg l m.va)) (BitVec.ofNat 32 (intB q m l))).toNat = val l % 2 ^ 32) :
    GivesLanes c d b r o q m 0 val 0 := by
  refine h.givesExact (isOp_of hop) (funext hc) (fun _ => rfl) val (fun l _ => ⟨?_, rfl⟩)
  rw [← hval l]
  exact Nat.mod_eq_of_lt (BitVec.isLt _)

end

/-- The arithmetic shift right of a register, as the pattern of the floored quotient. -/
theorem sshiftRight_toNat (u k : Nat) :
    ((BitVec.ofNat 32 u).sshiftRight k).toNat = patternOf 32 (signedOf 32 u / 2 ^ k) := by
  rw [← patternOf_toInt, BitVec.toInt_sshiftRight, Int.shiftRight_eq_div_pow, signedOf_eq_toInt]
  rfl

/-- The relation that a compare's MOD names between two numbers; 3 names none (R192). -/
abbrev cmpRel (k : Nat) (x y : Int) : Prop := (k = 0 ∧ x = y) ∨ (k = 1 ∧ x < y) ∨ (k = 2 ∧ x ≤ y)

theorem cmpRel_iff (k : Nat) (x y : Int) :
    (if k = 0 then decide (x = y) else if k = 1 then decide (x < y) else if k = 2 then decide (x ≤ y) else false) = true ↔ cmpRel k x y := by
  by_cases h0 : k = 0
  · simp [cmpRel, h0]
  by_cases h1 : k = 1
  · simp [cmpRel, h1]
  by_cases h2 : k = 2 <;> simp [cmpRel, h0, h1, h2]

/-- The integer compare gives all ones where the relation that MOD names holds (R192). -/
theorem muCompare_int {m : Mop} (hint : bitOf m.mod 3 = true) (q : RunnelOp) (l u : Nat) :
    muCompare m u (q.reg l m.vb) = if cmpRel (m.mod % 4) (signedOf 32 u) (signedOf 32 (intB q m l)) then 0xFFFFFFFF else 0 := by
  simp only [← cmpRel_iff, muCompare, hint, if_true, intB]
  rfl

/-- A log value is NaN (R188). -/
abbrev logNan (p : Nat) : Prop := p % 2 ^ 19 = 2 ^ 18

/-- The order key of a log value (R192): its field, negative under the sign. -/
def logKey (p : Nat) : Int := if bitOf p 18 then -((p % 2 ^ 18 : Nat) : Int) else ((p % 2 ^ 18 : Nat) : Int)

/-- The key by which the model compares a log value: none for NaN. -/
def logOrder (p : Nat) : Option Int :=
  if lgOf p = 2 ^ 18 then none else some (if 2 ^ 18 ≤ lgOf p then -((lgOf p - 2 ^ 18 : Nat) : Int) else lgOf p)

theorem logOrder_nan {p : Nat} (h : logNan p) : logOrder p = none := if_pos h

theorem logOrder_key {p : Nat} (h : ¬ logNan p) : logOrder p = some (logKey p) := by
  have hfield : lgOf p = p % 2 ^ 19 := rfl
  have hnan : ¬ lgOf p = 2 ^ 18 := h
  rw [logOrder, if_neg hnan, logKey]
  by_cases hsign : p / 2 ^ 18 % 2 = 1
  · rw [if_pos (show 2 ^ 18 ≤ lgOf p by omega), if_pos (show bitOf p 18 = true from beq_iff_eq.mpr hsign)]
    exact congrArg some (by omega)
  · rw [if_neg (show ¬ 2 ^ 18 ≤ lgOf p by omega), if_neg (show ¬ bitOf p 18 = true from fun h => hsign (beq_iff_eq.mp h))]
    exact congrArg some (by omega)

/-- The relation that MOD names between two log values: it is the unordered one alone where either is NaN (R192). -/
abbrev logRel (k x y : Nat) : Prop := (k = 3 ∧ (logNan x ∨ logNan y)) ∨ (¬ logNan x ∧ ¬ logNan y ∧ cmpRel k (logKey x) (logKey y))

theorem logRel_nan {x y : Nat} (h : logNan x ∨ logNan y) (k : Nat) : logRel k x y ↔ k = 3 := by unfold logRel; tauto

theorem logRel_key {x y : Nat} (hx : ¬ logNan x) (hy : ¬ logNan y) (k : Nat) :
    logRel k x y ↔ cmpRel k (logKey x) (logKey y) := by unfold logRel; tauto

/-- The log compare gives all ones where the relation that MOD names holds. -/
theorem muCompare_log {m : Mop} (hlog : bitOf m.mod 3 = false) (x y : Nat) :
    muCompare m x y = if logRel (m.mod % 4) x y then 0xFFFFFFFF else 0 := by
  have heq : muCompare m x y = match logOrder x, logOrder y with
      | some x, some y =>
        if (if m.mod % 4 = 0 then decide (x = y) else if m.mod % 4 = 1 then decide (x < y)
          else if m.mod % 4 = 2 then decide (x ≤ y) else false) then 0xFFFFFFFF else 0
      | _, _ => if m.mod % 4 == 3 then 0xFFFFFFFF else 0 := by
    simp only [muCompare, hlog]
    rfl
  by_cases hx : logNan x
  · rw [heq, logOrder_nan hx]
    simp only [logRel_nan (.inl hx), beq_iff_eq]
  by_cases hy : logNan y
  · rw [heq, logOrder_nan hy, logOrder_key hx]
    simp only [logRel_nan (.inr hy), beq_iff_eq]
  · rw [heq, logOrder_key hx, logOrder_key hy]
    simp only [logRel_key hx hy, ← cmpRel_iff]

/-- Settles O11: each micro-op is its function of the lane's registers on 32-bit words, and the compares by the relation that MOD names. -/
theorem integerMicroOpsWriteTheirLanes : Obligations.IntegerMicroOpsWriteTheirLanes := by
  unfold Obligations.IntegerMicroOpsWriteTheirLanes
  intro d b r a o q m h u v k
  have hu (l : Nat) : u l < 2 ^ 32 := q.reg_lt l m.va
  have hk (l : Nat) : (BitVec.ofNat 32 (v l)).toNat % 32 = k l := by simp [k]
  refine ⟨fun hop => ?add, fun hop => ?sub, fun hop => ?and, fun hop => ?or, fun hop => ?xor, fun hop => ?shl, fun hop => ?shr,
    fun hop => ?sra, fun hop => ?li, fun hop => ?idx, fun hop => ?sel, fun hop hint => ?intCmp, fun hop hlog => ?logCmp, fun hop => ?nop⟩
  case add => exact h.givesInt hop (fun _ => rfl) _ (fun l => by simp [u, v])
  case sub => exact h.givesInt hop (fun _ => rfl) _ (fun l => by simp [u, v, BitVec.toNat_sub]; omega)
  case and => exact h.givesInt hop (fun _ => rfl) _ (fun l => (Nat.and_mod_two_pow).symm)
  case or => exact h.givesInt hop (fun _ => rfl) _ (fun l => (Nat.or_mod_two_pow).symm)
  case xor => exact h.givesInt hop (fun _ => rfl) _ (fun l => (Nat.xor_mod_two_pow).symm)
  case shl =>
    refine h.givesInt hop (fun _ => rfl) _ (fun l => ?_)
    rw [BitVec.toNat_shiftLeft, Nat.shiftLeft_eq, hk, BitVec.toNat_ofNat, Nat.mod_eq_of_lt (hu l)]
  case shr =>
    refine h.givesInt hop (fun _ => rfl) _ (fun l => ?_)
    have hlt : u l / 2 ^ k l < 2 ^ 32 := lt_of_le_of_lt (Nat.div_le_self _ _) (hu l)
    rw [BitVec.toNat_ushiftRight, Nat.shiftRight_eq_div_pow, hk, BitVec.toNat_ofNat, Nat.mod_eq_of_lt (hu l),
      Nat.mod_eq_of_lt hlt]
  case sra =>
    refine h.givesInt hop (fun _ => rfl) _ (fun l => ?_)
    rw [hk, sshiftRight_toNat, Nat.mod_eq_of_lt (patternOf_lt _ _)]
  case li => exact h.givesExact (ex := execMuLi b r) (isOp_of hop) rfl (fun _ => rfl) _ (fun l _ => by simp)
  case idx => exact h.givesExact (ex := execMuIdx b r) (isOp_of hop) rfl (fun _ => rfl) _ (fun l _ => by simp [RunnelOp.index])
  case sel => exact h.givesExact (ex := execMuSel b r) (isOp_of hop) rfl (fun _ => rfl) _ (fun l _ => ⟨rfl, rfl⟩)
  case intCmp =>
    exact h.givesExact (ex := execMuCmp b r) (isOp_of hop) rfl (fun _ => rfl) _
      (fun l _ => ⟨congrArg (· % 2 ^ 32) (muCompare_int hint q l _), rfl⟩)
  case logCmp =>
    exact h.givesExact (ex := execMuCmp b r) (isOp_of hop) rfl (fun _ => rfl) _
      (fun l _ => ⟨congrArg (· % 2 ^ 32) (muCompare_log hlog _ _), rfl⟩)
  case nop => exact ⟨_, h.givesMu (ex := execMuNop b r) (isOp_of hop) rfl (fun _ => rfl), Dev.putLanes_moved rfl _ _⟩

end Sys2Proof.Spec
end

section
/-! PROOFS. The control of micro-programs (R192, R196): DONE, the branches and the iteration cap, and the obligation they settle. -/

namespace Sys2Proof.Machine

open Sys2Proof

/-! ### Branches (R196) -/

section
variable {d : Dev} {b r : Nat} {o : Op} {q : RunnelOp} {m : Mop}

theorem Dev.muBranch_not_taken : d.muBranch b r o q m false = d.putLanes b r o { q with upc := (q.upc + 1) % 2048 } 0 := rfl

/-- A branch that holds goes to its target, counted where it goes backward, while the cap has room. -/
theorem Dev.muBranch_taken (hmay : q.upc < bitsOf m.imm 10 0 ∨ q.iters < q.icap) :
    d.muBranch b r o q m true = d.putLanes b r o
      { q with upc := bitsOf m.imm 10 0, iters := if bitsOf m.imm 10 0 ≤ q.upc then q.iters + 1 else q.iters } 0 := by
  have hroom : ¬ (decide (bitsOf m.imm 10 0 ≤ q.upc) && decide (q.icap ≤ q.iters)) = true := by simp; omega
  simp [Dev.muBranch, hroom]

/-- A backward branch at the cap goes on with the next micro-op; the first one to reach the cap truncates the operation. -/
theorem Dev.muBranch_capped (hback : bitsOf m.imm 10 0 ≤ q.upc) (hcap : q.icap ≤ q.iters) :
    d.muBranch b r o q m true =
      let e := d.putLanes b r o { q with upc := (q.upc + 1) % 2048, icapr := true } 0
      if q.icapr then e else e.capped b 1 := by
  simp [Dev.muBranch, hback, hcap]

end

/-! ### Caps (R36, R200) -/

/-- A cap marks the run as truncated and counts it; the operations in flight stay. -/
theorem Dev.capped_basin {d : Dev} {b : Nat} {a : Active} (h : (d.basin b).seq.active = some a) (cap : Nat) :
    (d.capped b cap).basin b = { d.basin b with seq := { (d.basin b).seq with active := some { a with trunc := true } },
                                                eng := { (d.basin b).eng with trunccnt := (d.basin b).eng.trunccnt + 1 } } := by
  unfold Dev.capped
  dsimp only
  rw [h]
  dsimp only
  rw [Dev.basin, (Dev.raiseS_eventChange _ _ _ _ _ _ _).basins]
  split
  · exact Dev.basin_putBasin _ _ _
  · exact Dev.basin_putBasin _ _ _

theorem EngineRegs.runStatus_trunccnt (e : EngineRegs) (r : Nat) (q : RunnelOp) : (e.runStatus r q).trunccnt = e.trunccnt := by
  unfold EngineRegs.runStatus
  dsimp only
  split <;> rfl

/-- The basin of an operation put back with its lane state. -/
theorem Dev.basin_putLanes (d : Dev) (b r : Nat) (o : Op) (q : RunnelOp) (n : Nat) :
    (d.putLanes b r o q n).basin b = { (d.basin b).setOp { o with rnl := some q } with
      eng := { (d.basin b).eng.runStatus r q with drawcnt := (d.basin b).eng.drawcnt + BitVec.ofNat 64 n } } :=
  Dev.basin_putBasin _ _ _

/-- An operation that replaces one of its number in flight is in flight. -/
theorem Basin.mem_setOp {x : Basin} {o o' : Op} (h : o ∈ x.seq.ops) (hseq : o'.seq = o.seq) : o' ∈ (x.setOp o').seq.ops :=
  List.mem_map.mpr ⟨o, h, if_pos hseq.symm⟩

end Sys2Proof.Machine

namespace Sys2Proof.Spec

open Sys2Proof Sys2Proof.Machine

/-- Settles O15: DONE puts back the lanes at the entry, and each branch is one of the three ways of a branch. -/
theorem runnelControlMovesTheMicroProgram : Obligations.RunnelControlMovesTheMicroProgram := by
  unfold Obligations.RunnelControlMovesTheMicroProgram
  intro d b r a o q m h t any goes next jump mayJump
  have goesTo {c : Instr} {q' : RunnelOp} (hgives : Gives c d (d.putLanes b r o q' 0)) : goes c q' :=
    ⟨_, hgives, Dev.putLanes_moved rfl _ _⟩
  have hbr (hop : m.op = 0x38) : Gives (.muBr b r) d (d.muBranch b r o q m true) :=
    h.givesMu (ex := execMuBr b r) (isOp_of hop) rfl (fun _ => rfl)
  have hbany (hop : m.op = 0x39) : Gives (.muBany b r) d (d.muBranch b r o q m any) :=
    h.givesMu (ex := execMuBany b r) (isOp_of hop) rfl (fun _ => rfl)
  have hbnone (hop : m.op = 0x3A) : Gives (.muBnone b r) d (d.muBranch b r o q m !any) := by
    have hall : (q.lanes.all (fun l => q.reg l m.vc == 0)) = !any := List.all_eq_not_any_not
    rw [← hall]
    exact h.givesMu (ex := execMuBnone b r) (isOp_of hop) rfl (fun _ => rfl)
  refine ⟨fun hop => ?done, fun hop hmay => ?br, fun hop hany hmay => ?bany, fun hop hany => ?banyOn, fun hop hany hmay => ?bnone,
    fun hop hany => ?bnoneOn, fun hop hback hcap hraised => ?atCap, fun hop hback hcap hraised => ?truncates⟩
  case done => exact goesTo (h.givesMu (ex := execMuDone b r) (isOp_of hop) rfl (fun _ => rfl))
  case br => exact goesTo (Dev.muBranch_taken hmay ▸ hbr hop)
  case bany =>
    have hgives := hbany hop
    rw [hany, Dev.muBranch_taken hmay] at hgives
    exact goesTo hgives
  case banyOn =>
    have hgives := hbany hop
    rw [hany, Dev.muBranch_not_taken] at hgives
    exact goesTo hgives
  case bnone =>
    have hgives := hbnone hop
    rw [hany, Bool.not_false, Dev.muBranch_taken hmay] at hgives
    exact goesTo hgives
  case bnoneOn =>
    have hgives := hbnone hop
    rw [hany, Bool.not_true, Dev.muBranch_not_taken] at hgives
    exact goesTo hgives
  case atCap =>
    have hgives := hbr hop
    simp only [Dev.muBranch_capped hback hcap, hraised, if_true] at hgives
    have hsame : ({ q with upc := (q.upc + 1) % 2048, icapr := true } : RunnelOp) = next := by rw [← hraised]
    rw [hsame] at hgives
    exact goesTo hgives
  case truncates =>
    obtain ⟨-, hactive, -, holdest, -⟩ := h
    have hgives := hbr hop
    simp only [Dev.muBranch_capped hback hcap, hraised, Bool.false_eq_true, if_false] at hgives
    have hbasin := Dev.basin_putLanes d b r o { q with upc := (q.upc + 1) % 2048, icapr := true } 0
    have hrun : ((d.putLanes b r o { q with upc := (q.upc + 1) % 2048, icapr := true } 0).basin b).seq.active = some a := by
      rw [hbasin]; exact hactive
    refine ⟨_, { a with trunc := true }, hgives, ?_⟩
    rw [Dev.capped_basin hrun, hbasin]
    exact ⟨congrArg (· + 1) (EngineRegs.runStatus_trunccnt _ _ _), rfl, rfl,
      Basin.mem_setOp (List.mem_of_find?_eq_some holdest) rfl⟩

end Sys2Proof.Spec
end

section
/-! PROOFS. The log micro-ops (R188, R189, R192): products, quotients, powers of two and signs of finite LG values as sums of fields, and the
obligation they settle. -/

namespace Sys2Proof.Machine

open Sys2Proof

/-! ### LG patterns (R188) -/

/-- The field and the sign of an LG pattern, and the patterns of finite values. -/
abbrev lgField (p : Nat) : Nat := p % 2 ^ 18
abbrev lgMinus (p : Nat) : Nat := p / 2 ^ 18 % 2
abbrev LgFinite (p : Nat) : Prop := 1 ≤ lgField p ∧ lgField p ≤ 262142

theorem lgf_code (b : Bool) (e : Nat) : lgf.code b e = bit01 b * 2 ^ 18 + e := by
  cases b
  · exact (Nat.zero_add e).symm
  · rfl

theorem bit01_eq_one {n : Nat} (h : n < 2) : bit01 (n == 1) = n := by
  obtain rfl | rfl : n = 0 ∨ n = 1 := by omega
  · rfl
  · rfl

/-- Signs multiply as bits add. -/
theorem bit01_bne {m n : Nat} (hm : m < 2) (hn : n < 2) : bit01 ((m == 1) != (n == 1)) = (m + n) % 2 := by
  obtain rfl | rfl : m = 0 ∨ m = 1 := by omega
  · rw [Nat.zero_add, Nat.mod_eq_of_lt hn]
    simpa using bit01_eq_one hn
  · obtain rfl | rfl : n = 0 ∨ n = 1 := by omega
    · rfl
    · rfl

/-- A field in range passes the range check as it is (R65, R189). -/
theorem LogFmt.clip_of_range {f : LogFmt} {e : Int} (hlow : 1 ≤ e) (hhigh : e ≤ f.top) (keep s : Bool) (fl : W32) :
    f.clip keep s e fl = (f.code s e.toNat, fl) := by
  rw [LogFmt.clip, if_neg (by omega), if_neg (by omega)]

theorem LgFinite.ne_sign {p : Nat} (h : LgFinite p) : p ≠ lgf.sign := by
  rintro rfl
  exact absurd h.1 (by decide)

/-- A finite LG value is a signed root of its field (R188). -/
theorem LgFinite.read {p : Nat} (h : LgFinite p) : lgf.read p = .fin (lgMinus p == 1) (.root 1024 ((lgField p : Int) - 130048)) := by
  obtain ⟨hlow, hhigh⟩ := h
  have hzero : ¬ p % lgf.sign = 0 := by show ¬ lgField p = 0; omega
  have hinf : ¬ p % lgf.sign = lgf.top + 1 := by show ¬ lgField p = 262143; omega
  rw [LogFmt.read]
  rw [if_neg hzero, if_neg hinf]
  rfl

/-! ### Products and quotients (R192) -/

section
variable {x y : Nat} (hx : LgFinite x) (hy : LgFinite y) (keep : Bool)
include hx hy

/-- The fields of finite values add. -/
theorem LgFinite.mul (hlow : 130049 ≤ lgField x + lgField y) (hhigh : lgField x + lgField y ≤ 392190) :
    lgf.mul keep x y = ((lgMinus x + lgMinus y) % 2 * 2 ^ 18 + (lgField x + lgField y - 130048), 0) := by
  have hnan : ¬ (x = lgf.sign ∨ y = lgf.sign) := not_or.mpr ⟨hx.ne_sign, hy.ne_sign⟩
  obtain ⟨hxlow, hxhigh⟩ := hx
  obtain ⟨hylow, hyhigh⟩ := hy
  have hinf : ¬ (x % lgf.sign = lgf.top + 1 ∨ y % lgf.sign = lgf.top + 1) := by
    show ¬ (lgField x = 262143 ∨ lgField y = 262143); omega
  have hzero : ¬ (x % lgf.sign = 0 ∨ y % lgf.sign = 0) := by show ¬ (lgField x = 0 ∨ lgField y = 0); omega
  have hfield : ((lgField x : Int) + lgField y - 130048).toNat = lgField x + lgField y - 130048 := by omega
  rw [LogFmt.mul]
  rw [if_neg hnan, if_neg hinf, if_neg hzero]
  refine (LogFmt.clip_of_range (e := (lgField x : Int) + lgField y - 130048) (by omega) ?_ _ _ _).trans ?_
  · show _ ≤ (262142 : Int); omega
  · rw [hfield, lgf_code, ← bit01_bne (Nat.mod_lt _ (by decide)) (Nat.mod_lt _ (by decide))]
    rfl

/-- The fields of finite values subtract. -/
theorem LgFinite.div (hlow : lgField y < lgField x + 130048) (hhigh : lgField x + 130048 ≤ lgField y + 262142) :
    lgf.div keep x y = ((lgMinus x + lgMinus y) % 2 * 2 ^ 18 + (lgField x + 130048 - lgField y), 0) := by
  have hnan : ¬ (x = lgf.sign ∨ y = lgf.sign) := not_or.mpr ⟨hx.ne_sign, hy.ne_sign⟩
  obtain ⟨hxlow, hxhigh⟩ := hx
  obtain ⟨hylow, hyhigh⟩ := hy
  have hboth : ¬ ((x % lgf.sign = 0 ∧ y % lgf.sign = 0) ∨ (x % lgf.sign = lgf.top + 1 ∧ y % lgf.sign = lgf.top + 1)) := by
    show ¬ ((lgField x = 0 ∧ lgField y = 0) ∨ (lgField x = 262143 ∧ lgField y = 262143)); omega
  have hinf : ¬ (x % lgf.sign = lgf.top + 1 ∨ y % lgf.sign = 0) := by show ¬ (lgField x = 262143 ∨ lgField y = 0); omega
  have hzero : ¬ (x % lgf.sign = 0 ∨ y % lgf.sign = lgf.top + 1) := by show ¬ (lgField x = 0 ∨ lgField y = 262143); omega
  have hfield : ((lgField x : Int) - lgField y + 130048).toNat = lgField x + 130048 - lgField y := by omega
  rw [LogFmt.div]
  rw [if_neg hnan, if_neg hboth, if_neg hinf, if_neg hzero]
  refine (LogFmt.clip_of_range (e := (lgField x : Int) - lgField y + 130048) (by omega) ?_ _ _ _).trans ?_
  · show _ ≤ (262142 : Int); omega
  · rw [hfield, lgf_code, ← bit01_bne (Nat.mod_lt _ (by decide)) (Nat.mod_lt _ (by decide))]
    rfl

end

theorem lgf_div_zero_zero (keep : Bool) : lgf.div keep 0 0 = (2 ^ 18, flINV) := rfl

/-! ### Powers of two and signs (R192) -/

/-- LSHF by a power that is no fraction scales the offset of a finite value's field. -/
theorem LgFinite.lshf {x : Nat} (hx : LgFinite x) {k : Nat} (hlow : 1 ≤ 130048 + ((lgField x : Int) - 130048) * 2 ^ k)
    (hhigh : 130048 + ((lgField x : Int) - 130048) * 2 ^ k ≤ 262142) (keep : Bool) (t : Dir) :
    Machine.lshf keep t k x = (lgMinus x * 2 ^ 18 + (130048 + ((lgField x : Int) - 130048) * 2 ^ k).toNat, 0) := by
  have hk : (0 : Int) ≤ k := Int.natCast_nonneg k
  rw [Machine.lshf, hx.read]
  dsimp only
  rw [if_pos hk, Int.toNat_natCast]
  refine (LogFmt.clip_of_range hlow hhigh _ _ _).trans ?_
  rw [lgf_code, bit01_eq_one (Nat.mod_lt _ (by decide))]

theorem signedOf_four {n : Nat} (h : n < 8) : signedOf 4 n = n := by
  have hmod : n % 2 ^ 4 = n := by omega
  rw [signedOf, hmod, if_pos (by omega)]

theorem lgSign_eq (x : Nat) (b : Bool) : lgSign x b = if lgField x = 0 then x else bit01 b * 2 ^ 18 + lgField x := by
  show (if x % 2 ^ 18 = 0 then x else (if b then 2 ^ 18 else 0) + x % 2 ^ 18) = _
  cases b
  · rw [show bit01 false = 0 from rfl, Nat.zero_mul]
    rfl
  · rfl

/-- The sign of an LG pattern inverted; zero and NaN keep theirs (R39). -/
theorem lgf_neg {x : Nat} (h : x < 2 ^ 19) : lgf.neg x = if lgField x = 0 then x else (1 - lgMinus x) * 2 ^ 18 + lgField x := by
  show (if x % 2 ^ 18 = 0 then x else if x / 2 ^ 18 % 2 = 1 then x - 2 ^ 18 else x + 2 ^ 18) = _
  split
  · rfl
  · simp only [lgField, lgMinus]
    split <;> omega

end Sys2Proof.Machine

namespace Sys2Proof.Spec

open Sys2Proof Sys2Proof.Machine

/-- Settles O12: sums are LG's own, and the values of products, quotients, powers and signs are those of the fields. -/
theorem logMicroOpsWriteTheirLanes : Obligations.LogMicroOpsWriteTheirLanes := by
  unfold Obligations.LogMicroOpsWriteTheirLanes
  intro d b r a o q m h u v g s finite
  have hshort (p : Nat) : p % 2 ^ 19 < 2 ^ 19 := Nat.mod_lt _ (by decide)
  refine ⟨fun hop => ?add, fun hop => ?sub, fun hop hin => ?mul, fun hop hin => ?div, fun hop hlanes hzero => ?divZero, fun hop hk hin => ?shf,
    fun hop hmod => ?abs, fun hop hmod => ?negate, fun hop hmod => ?sign⟩
  case add => exact h.givesUndrawn (ex := execMuLadd b r) (isOp_of hop) rfl (fun _ => rfl) _ _ (fun l _ => ⟨rfl, rfl⟩)
  case sub => exact h.givesUndrawn (ex := execMuLsub b r) (isOp_of hop) rfl (fun _ => rfl) _ _ (fun l _ => ⟨rfl, rfl⟩)
  case mul =>
    refine h.givesExact (ex := execMuLmul b r) (isOp_of hop) rfl (fun _ => rfl) _ (fun l hl => ?_)
    obtain ⟨hx, hy, hlow, hhigh⟩ := hin l hl
    have hval : lgf.mul q.subn (u l) (v l) = _ := LgFinite.mul hx hy q.subn hlow hhigh
    exact ⟨congrArg (fun w => w.1 % 2 ^ 32) hval, congrArg Prod.snd hval⟩
  case div =>
    refine h.givesExact (ex := execMuLdiv b r) (isOp_of hop) rfl (fun _ => rfl) _ (fun l hl => ?_)
    obtain ⟨hx, hy, hlow, hhigh⟩ := hin l hl
    have hval : lgf.div q.subn (u l) (v l) = _ := LgFinite.div hx hy q.subn hlow hhigh
    exact ⟨congrArg (fun w => w.1 % 2 ^ 32) hval, congrArg Prod.snd hval⟩
  case divZero =>
    rw [← laneFlags_const hlanes flINV]
    refine h.givesUndrawn (ex := execMuLdiv b r) (isOp_of hop) rfl (fun _ => rfl) _ _ (fun l hl => ?_)
    obtain ⟨hx, hy⟩ := hzero l hl
    have hval : lgf.div q.subn (u l) (v l) = (2 ^ 18, flINV) := by rw [hx, hy, lgf_div_zero_zero]
    exact ⟨congrArg (fun w => w.1 % 2 ^ 32) hval, congrArg Prod.snd hval⟩
  case shf =>
    have hleft : ¬ 8 ≤ m.imm % 16 := by omega
    have hval (l : Nat) (hl : l ∈ q.lanes) (t : Dir) : lshf q.subn t (signedOf 4 (m.imm % 16)) (u l)
        = (s (u l) * 2 ^ 18 + (130048 + ((g (u l) : Int) - 130048) * 2 ^ (m.imm % 16)).toNat, 0) := by
      obtain ⟨hx, hlow, hhigh⟩ := hin l hl
      rw [signedOf_four hk]
      exact LgFinite.lshf hx hlow hhigh q.subn t
    have hgives := h.givesActive (c := .muLshf b r) (ex := execMuLshf b r) (isOp_of hop) rfl (fun _ => rfl) _ (fun _ => 0)
      (fun l hl => ⟨congrArg (fun w => w.1 % 2 ^ 32) (hval l hl _), congrArg Prod.snd (hval l hl _)⟩)
    simpa [hleft, laneFlags_none] using hgives
  case abs =>
    refine h.givesExact (ex := execMuLsgnAbs b r) (isVar_of hop hmod) rfl (fun _ => rfl) _ (fun l _ => ⟨?_, rfl⟩)
    have hval : lgSign (u l) false = _ := lgSign_eq (u l) false
    rw [show bit01 false = 0 from rfl, Nat.zero_mul, Nat.zero_add] at hval
    exact congrArg (· % 2 ^ 32) hval
  case negate =>
    refine h.givesExact (ex := execMuLsgnNegate b r) (isVar_of hop hmod) rfl (fun _ => rfl) _ (fun l _ => ⟨?_, rfl⟩)
    exact congrArg (· % 2 ^ 32) (lgf_neg (hshort _))
  case sign =>
    refine h.givesExact (ex := execMuLsgnSign b r) (isVar_of hop hmod) rfl (fun _ => rfl) _ (fun l _ => ⟨?_, rfl⟩)
    have hsign : bit01 (bitOf (q.reg l m.vb) 18) = s (v l) := by
      rw [bitOf, bit01_eq_one (Nat.mod_lt _ (by decide))]
      simp only [s, v]
      omega
    have hval : lgSign (u l) (bitOf (q.reg l m.vb) 18) = _ := lgSign_eq (u l) _
    rw [hsign] at hval
    exact congrArg (· % 2 ^ 32) hval

end Sys2Proof.Spec
end

section
/-! PROOFS. Conversions, A32 sums and table look-ups (R192 to R194, R272): what CVT makes of the values its rules name, where a lane's draw
enters, and the obligation they settle. -/

namespace Sys2Proof.Machine

open Sys2Proof

/-! ### LG to fixed point (R193) -/

theorem lgf_read_nan : lgf.read (2 ^ 18) = .nan := rfl
theorem lgf_read_one : lgf.read 130048 = .fin false (.root 1024 0) := rfl

/-- 2^(k - 30) times 2^30, scaled by 2^j, is 2^(k + j) exactly. -/
theorem Mag.scaled_powerOfTwo {k : Nat} (hk : k ≤ 30) (j : Nat) : (Mag.rat (2 ^ 30) 1 ((k : Int) - 30)).scaled j = (2 ^ (k + j), false) := by
  rw [Mag.scaled]
  by_cases hs : (0 : Int) ≤ (k : Int) - 30 + j
  · have hexp : ((k : Int) - 30 + j).toNat = k + j - 30 := by omega
    rw [if_pos hs, hexp, ← pow_add, Nat.div_one, Nat.mod_one, Nat.add_sub_of_le (by omega)]
    rfl
  · have hexp : (-((k : Int) - 30 + j)).toNat = 30 - (k + j) := by omega
    rw [if_neg hs, hexp, Nat.one_mul, Nat.pow_div (by omega) (by decide), Nat.mod_eq_zero_of_dvd (Nat.pow_dvd_pow 2 (by omega))]
    rw [show 30 - (30 - (k + j)) = k + j by omega]
    rfl

/-- A multiple of the last place is not moved in any direction. -/
theorem roundAt_of_multiple {x : Mag} {lsb : Int} {n : Nat} (h : x.scaled (-lsb) = (n, false)) (hhalf : x.scaled (1 - lsb) = (2 * n, false))
    (hdraw : x.scaled (24 - lsb) = (n * 2 ^ 24, false)) (neg : Bool) (t : Dir) : roundAt x lsb neg t = (n, false) := by
  cases t <;> simp [roundAt, h, hhalf, hdraw]

/-- 1.0 at scale k under the factor 1.0 is 2^k exactly (R193). -/
theorem fxRound_one {k : Nat} (hk : k ≤ 30) (t : Dir) : fxRound 130048 (2 ^ 30) k t = some (false, 2 ^ k, false) := by
  have hscaled (j : Nat) := Mag.scaled_powerOfTwo hk j
  have hround : roundAt (.rat (2 ^ 30) 1 ((k : Int) - 30)) 0 false t = (2 ^ k, false) :=
    roundAt_of_multiple (hscaled 0) (by rw [← pow_succ']; exact hscaled 1) (by rw [← pow_add]; exact hscaled 24) _ _
  have hmag : fxMag ((130048 % 2 ^ 18 : Nat) - 130048) (2 ^ 30) k = .rat (2 ^ 30) 1 ((k : Int) - 30) := by simp [fxMag]
  rw [fxRound, lgf_read_one]
  dsimp only
  rw [if_neg (by decide), hmag, hround]

theorem cvtLgFx_nan (m : Mop) (v : Nat) (t : Dir) : cvtLgFx m (2 ^ 18) v t = (2 ^ 31, 0) := rfl

theorem cvtLgFx_one {m : Mop} (hfactor : m.vb = 0) (hk : m.imm % 32 < 31) (v : Nat) (t : Dir) :
    cvtLgFx m 130048 v t = (2 ^ (m.imm % 32), 0) := by
  have hrange : ¬ 2 ^ 31 - 1 < 2 ^ (m.imm % 32) := by
    have := Nat.pow_le_pow_right (n := 2) (by decide) (show m.imm % 32 ≤ 30 by omega)
    omega
  rw [cvtLgFx, lgf_read_one, fxFactor, if_pos hfactor]
  dsimp only
  rw [fxRound_one (by omega)]
  dsimp only
  rw [if_neg hrange]
  rfl

/-! ### Fixed point to LG (R193) -/

section
variable {u : Nat} (q : RunnelOp) (m : Mop) (t : Dir)

theorem cvtFxLg_zero : cvtFxLg q m 0 t = (0, 0) := rfl

/-- A number other than 0 and those that stand for NaN and the infinities is rounded once. -/
theorem cvtFxLg_number (hnan : u ≠ fxNan) (htop : u ≠ 2 ^ 31 - 1) (hbottom : u ≠ 2 ^ 31 + 1) (hzero : signedOf 32 u ≠ 0) :
    cvtFxLg q m u t = lgf.round q.subn t
      (.fin (decide (signedOf 32 u < 0)) (.rat (signedOf 32 u).natAbs 1 (-((m.imm % 32 : Nat) : Int)))) := by
  rw [cvtFxLg, if_neg hnan, if_neg htop, if_neg hbottom]
  exact if_neg hzero

end

/-- A number in the range of LG fields' offsets becomes the field (R193). -/
theorem fxField_of_range {u : Nat} (hlow : -130047 ≤ signedOf 32 u) (hhigh : signedOf 32 u ≤ 132094) (keep : Bool) :
    (if u = fxNan then (2 ^ 18, 0) else lgf.clip keep false (130048 + signedOf 32 u) 0) = ((130048 + signedOf 32 u).toNat, 0) := by
  have hnan : u ≠ fxNan := by
    rintro rfl
    exact absurd hlow (by decide)
  rw [if_neg hnan, LogFmt.clip_of_range (by omega) (show _ ≤ (262142 : Int) by omega)]
  rfl

/-! ### Tables (R194) -/

/-- A look-up without interpolation is the 32-bit entry at the clamped index. -/
theorem muLookup_plain {m : Mop} (h : bitOf m.imm 27 = false) (tab : Nat → Byte) (u : Nat) :
    muLookup tab m u =
      let i : Int := max 0 (min ((bitsOf m.imm 26 17 : Int) - 1) (signedOf 32 u / 2 ^ bitsOf m.imm 16 12))
      leNat ((List.range 4).map (fun n => tab (bitsOf m.imm 11 0 + 4 * i.toNat + n))) % 2 ^ 32 := by
  simp only [muLookup, h, Bool.false_eq_true, if_false]
  exact patternOf_signedOf _

end Sys2Proof.Machine

namespace Sys2Proof.Spec

open Sys2Proof Sys2Proof.Machine

section
variable {c : Instr} {d : Dev} {b r : Nat} {a : Active} {o : Op} {q : RunnelOp} {m : Mop} {sel : Mop → Bool}
  {f : Dev → RunnelOp → Mop → Nat → Nat → Nat → Nat → Nat → Flagged} {ex : Machine.State → Host.Outcome Machine.State Fault Refusal}

/-- A micro-op that rounds under RM gives each active lane its value in the lane's own direction. -/
theorem AtMicroOp.givesCvt (h : AtMicroOp d b r a o q m) (hsel : sel m = true) (hc : exec c = ex)
    (hex : ∀ s, ex s = onCore (fun d => d.muLanes b r sel rmDraw (f d) rmMode) s) (val : Dir → Nat → Flagged)
    (hval : ∀ l ∈ q.lanes, ∀ draw,
      f d q m l (q.reg l m.va) (q.reg l m.vb) (q.reg l m.vc) draw = val (rmDir (q.rmOf m) draw) l) :
    GivesCvt c d b r a o q m val := by
  have hgives := h.givesActive hsel hc hex (fun l => (val (laneDir a q (q.rmOf m) l) l).1) (fun l => (val (laneDir a q (q.rmOf m) l) l).2)
    (fun l hl => by rw [hval l hl]; simp [rmDraw, laneDir])
  simpa [rmDraw, rmMode, laneDraws, GivesCvt] using hgives

/-- The direction in which lane `l` rounds under the descriptor's EM. -/
def emLaneDir (a : Active) (q : RunnelOp) (l : Nat) : Dir := if q.em = 2 then .draw (a.laneDraw q l) else .away

/-- A micro-op that rounds under an EM that exists gives each active lane its value in the lane's own direction. -/
theorem AtMicroOp.givesEm (h : AtMicroOp d b r a o q m) (hsel : sel m = true) (hem : q.em ≤ 2) (hc : exec c = ex)
    (hex : ∀ s, ex s = onCore (fun d => d.muLanes b r sel emDraw (f d) emMode) s) (val : Dir → Nat → Flagged)
    (hval : ∀ l draw, f d q m l (q.reg l m.va) (q.reg l m.vb) (q.reg l m.vc) draw = val (emDir q.em draw) l) :
    GivesLanes c d b r o q m (if q.em = 2 then q.lanes.length else 0) (fun l => (val (emLaneDir a q l) l).1)
      (laneFlags q (fun l => (val (emLaneDir a q l) l).2)) := by
  have hdir (l : Nat) : emDir q.em (if emDraw q m then a.laneDraw q l else 0) = emLaneDir a q l := by
    by_cases h2 : q.em = 2 <;> simp [emDir, emDraw, emLaneDir, h2]
  have hmode : emMode q m = 0 := if_neg (by omega)
  have hgives := h.givesActive hsel hc hex (fun l => (val (emLaneDir a q l) l).1) (fun l => (val (emLaneDir a q l) l).2)
    (fun l _ => by rw [hval, hdir]; exact ⟨rfl, rfl⟩)
  simpa [emDraw, hmode] using hgives

end

/-- Settles O13: each conversion's value is the model's in the lane's direction, exact where its clause names the value, and FADD, FSUB
and LUT are A32 addition and the table's entry. -/
theorem conversionsAndTablesWriteTheirLanes : Obligations.ConversionsAndTablesWriteTheirLanes := by
  unfold Obligations.ConversionsAndTablesWriteTheirLanes
  intro d b r a o q m h u v lg k em
  refine ⟨fun hop hmod => ?lgGrid, fun hop hmod => ?lgA32, fun hop hmod => ?a32Lg, fun hop hmod hnan => ?fxNan,
    fun hop hmod hone hfactor hk => ?fxOne, fun hop hmod hzero => ?zeroLg, fun hop hmod hnumber => ?fxLg, fun hop hmod hrange => ?fieldIn, fun hop hmod hfinite => ?fieldOut,
    fun hop hmod => ?wrap, fun hop hem => ?fadd, fun hop hem => ?fsub, fun hop hplain => ?lut⟩
  case lgGrid => exact h.givesCvt (ex := execMuCvtLgToLg b r) (isVar_of hop hmod) rfl (fun _ => rfl) _ (fun l _ t => rfl)
  case lgA32 => exact h.givesCvt (ex := execMuCvtLgToA32 b r) (isVar_of hop hmod) rfl (fun _ => rfl) _ (fun l _ t => rfl)
  case a32Lg => exact h.givesCvt (ex := execMuCvtA32ToLg b r) (isVar_of hop hmod) rfl (fun _ => rfl) _ (fun l _ t => rfl)
  case fxNan =>
    refine h.givesCvt (ex := execMuCvtLgToFx b r) (isVar_of hop hmod) rfl (fun _ => rfl) _ (fun l hl t => ?_)
    have hu : lgOf (u l) = 2 ^ 18 := hnan l hl
    rw [hu]
    exact cvtLgFx_nan m _ _
  case fxOne =>
    refine h.givesCvt (ex := execMuCvtLgToFx b r) (isVar_of hop hmod) rfl (fun _ => rfl) _ (fun l hl t => ?_)
    have hu : lgOf (u l) = 130048 := hone l hl
    rw [hu]
    exact cvtLgFx_one hfactor hk _ _
  case zeroLg =>
    refine h.givesCvt (ex := execMuCvtFxToLg b r) (isVar_of hop hmod) rfl (fun _ => rfl) _ (fun l hl t => ?_)
    rw [show q.reg l m.va = 0 from hzero l hl]
    exact cvtFxLg_zero q m _
  case fxLg =>
    refine h.givesCvt (ex := execMuCvtFxToLg b r) (isVar_of hop hmod) rfl (fun _ => rfl) _ (fun l hl t => ?_)
    obtain ⟨hnan, htop, hbottom, hzero⟩ := hnumber l hl
    exact cvtFxLg_number q m _ hnan htop hbottom hzero
  case fieldIn =>
    refine h.givesExact (ex := execMuCvtFxToLgField b r) (isVar_of hop hmod) rfl (fun _ => rfl) _ (fun l hl => ?_)
    obtain ⟨hlow, hhigh⟩ := hrange l hl
    have hval := fxField_of_range hlow hhigh q.subn
    exact ⟨congrArg (fun w => w.1 % 2 ^ 32) hval, congrArg Prod.snd hval⟩
  case fieldOut =>
    refine h.givesExact (ex := execMuCvtLgFieldToFx b r) (isVar_of hop hmod) rfl (fun _ => rfl) _ (fun l hl => ?_)
    have hfield : lgField (lgOf (u l)) = u l % 2 ^ 18 := Nat.mod_mod_of_dvd _ (by decide)
    have hread : lgf.read (lgOf (q.reg l m.va)) = _ := LgFinite.read (p := lgOf (u l)) (by rw [LgFinite, hfield]; exact hfinite l hl)
    rw [hread]
    exact ⟨congrArg (fun n : Nat => patternOf 32 ((n : Int) - 130048) % 2 ^ 32) hfield, rfl⟩
  case wrap =>
    refine h.givesCvt (ex := execMuCvtLgToFxWrap b r) (isVar_of hop hmod) rfl (fun _ => rfl) _ (fun l _ t => ?_)
    show cvtLgFxWrap m (u l % 2 ^ 19) (v l) _ = _
    simp only [cvtLgFxWrap, lg]
    generalize fxRound (u l % 2 ^ 19) _ _ _ = z
    cases lgf.read (u l % 2 ^ 19) with
    | nan => rfl
    | inf s => rfl
    | zero s => cases z <;> rfl
    | fin s x => cases z <;> rfl
  case fadd =>
    exact h.givesEm (ex := execMuFadd b r) (isOp_of hop) hem rfl (fun _ => rfl)
      (fun t l => f32.add q.subn t (u l) (v l)) (fun l t => rfl)
  case fsub =>
    exact h.givesEm (ex := execMuFsub b r) (isOp_of hop) hem rfl (fun _ => rfl)
      (fun t l => f32.add q.subn t (u l) (neg32 (v l))) (fun l t => rfl)
  case lut =>
    refine h.givesExact (ex := execMuLut b r) (isOp_of hop) rfl (fun _ => rfl) _ (fun l _ => ⟨?_, rfl⟩)
    exact (congrArg (· % 2 ^ 32) (muLookup_plain hplain _ _)).trans (Nat.mod_mod _ _)

end Sys2Proof.Spec
end

section
/-! PROOFS. Groups of basins (R182, R183, R185, R293): partials that arrive at their root, the combination there and the final result, and
the obligation they settle. -/

namespace Sys2Proof

variable {α : Type}

/-! ### Entries of a sorted table -/

theorem Tab.lt_of_mem_of_sortedFrom {t : Tab α} {n k : Nat} {v : α} (h : Tab.sortedFrom (some n) t = true) (hmem : (k, v) ∈ t) : n < k := by
  induction t generalizing n with
  | nil => cases hmem
  | cons p r ih =>
    obtain ⟨i, w⟩ := p
    simp only [Tab.sortedFrom, Bool.and_eq_true, decide_eq_true_eq] at h
    rcases List.mem_cons.mp hmem with heq | hrest
    · cases heq; exact h.1
    · exact h.1.trans (ih h.2 hrest)

/-- A sorted table holds at a key what it lists there. -/
theorem Tab.find?_of_mem {t : Tab α} {lo : Option Nat} (h : Tab.sortedFrom lo t = true) {k : Nat} {v : α} (hmem : (k, v) ∈ t) :
    Tab.find? t k = some v := by
  induction t generalizing lo with
  | nil => cases hmem
  | cons p r ih =>
    obtain ⟨i, w⟩ := p
    simp only [Tab.sortedFrom, Bool.and_eq_true] at h
    rcases List.mem_cons.mp hmem with heq | hrest
    · cases heq; simp [Tab.find?]
    · have hne : i ≠ k := (Tab.lt_of_mem_of_sortedFrom h.2 hrest).ne
      simpa [Tab.find?, hne] using ih h.2 hrest

theorem Tab.mem_of_find? {t : Tab α} {k : Nat} {v : α} (h : Tab.find? t k = some v) : (k, v) ∈ t := by
  induction t with
  | nil => cases h
  | cons p r ih =>
    obtain ⟨i, w⟩ := p
    by_cases hi : i = k
    · simp_all [Tab.find?]
    · exact List.mem_cons_of_mem _ (ih (by simpa [Tab.find?, hi] using h))

end Sys2Proof

namespace Sys2Proof.Machine

open Sys2Proof Sys2Proof.Spec

/-! ### Partials that arrive (R182, R183) -/

/-- The partial held at the basin, or discarded and counted. -/
def Dev.receive (d : Dev) (b : Nat) (v : HeldPartial) : Dev :=
  if d.servesRun b v.handle && decide ((d.basin b).partials.length < 1024) then
    d.putBasin b { d.basin b with partials := (d.basin b).partials ++ [v] }
  else d.putBasin b { d.basin b with eng := { (d.basin b).eng with dropcnt := (d.basin b).eng.dropcnt + 1 } }

section
variable {d : Dev} {b n : Nat} {v : HeldPartial}

theorem Dev.receive_held (hserves : d.servesRun b v.handle = true) (hroom : (d.basin b).partials.length < 1024) :
    d.receive b v = d.putBasin b { d.basin b with partials := (d.basin b).partials ++ [v] } :=
  if_pos (by simp [hserves, hroom])

theorem Dev.receive_discarded (h : d.servesRun b v.handle = false ∨ 1024 ≤ (d.basin b).partials.length) :
    d.receive b v = d.putBasin b { d.basin b with eng := { (d.basin b).eng with dropcnt := (d.basin b).eng.dropcnt + 1 } } :=
  if_neg (by rcases h with h | h <;> simp [h])

/-- Whether basin `b` serves a run does not depend on the other basins. -/
theorem Dev.servesRun_putBasin_other (h : b ≠ n) (y : Basin) (handle : Nat) : (d.putBasin n y).servesRun b handle = d.servesRun b handle := by
  simp only [Dev.servesRun, Dev.basin_putBasin_other d n b y h]
  rfl

/-- The basin may have sent the partial: it is the member, and has an operation of the group. -/
def Basin.sent (v : HeldPartial) (x : Basin) : Bool := x.logical == v.member && (x.groupOp v.handle v.gtag v.seq).isSome

theorem Basin.sent_iff {x : Basin} : x.sent v = true ↔ x.logical = v.member ∧ (x.groupOp v.handle v.gtag v.seq).isSome = true := by
  simp [Basin.sent]

/-- The basin of this device that sent a partial, if any. -/
def Dev.sender (d : Dev) (v : HeldPartial) : Option (Nat × Basin) := List.find? (fun p => p.2.sent v) d.basins

/-- A partial of no basin of this device is received as it comes. -/
theorem partialArrival_unsent (hopen : (d.basin b).cis.weirFenced = false) (hnone : d.sender v = none) :
    partialArrival b v d = d.receive b v := by
  have hfind : List.find? (fun (p : Nat × Basin) => p.2.logical == v.member && (p.2.groupOp v.handle v.gtag v.seq).isSome) d.basins = none := hnone
  simp only [partialArrival, hopen, hfind]
  rfl

/-- A partial that a member in flight formed is received, and counted at the member. -/
theorem partialArrival_sent (hopen : (d.basin b).cis.weirFenced = false) {y : Basin} {o : Op}
    (hfound : d.sender v = some (n, y)) (hop : y.groupOp v.handle v.gtag v.seq = some o)
    (hformed : o.partials[v.row]? = some v.value) :
    partialArrival b v d = (d.putBasin n (y.setOp { o with blocks := o.blocks + 1 })).receive b v := by
  have hfind : List.find? (fun (p : Nat × Basin) => p.2.logical == v.member && (p.2.groupOp v.handle v.gtag v.seq).isSome) d.basins
      = some (n, y) := hfound
  simp only [partialArrival, hopen, hfind, hop, Option.bind_some, hformed]
  simp [Dev.receive]

/-- Where one basin alone may have sent the partial, it is the one found. -/
theorem Dev.sender_of_only (hsorted : Tab.sorted d.basins = true) (hlisted : (Tab.find? d.basins n).isSome = true)
    (honly : ∀ p ∈ d.basins, p.2.sent v = true ↔ p.1 = n) : d.sender v = some (n, d.basin n) := by
  obtain ⟨x, hx⟩ := Option.isSome_iff_exists.mp hlisted
  have hbasin : d.basin n = x := by simp [Dev.basin, Tab.at, hx]
  have hsome : (d.sender v).isSome = true :=
    List.find?_isSome.mpr ⟨(n, x), Tab.mem_of_find? hx, (honly _ (Tab.mem_of_find? hx)).mpr rfl⟩
  obtain ⟨⟨i, y⟩, hfind⟩ := Option.isSome_iff_exists.mp hsome
  have hmem := List.mem_of_find?_eq_some hfind
  obtain rfl : i = n := (honly _ hmem).mp (List.find?_some (p := fun (p : Nat × Basin) => p.2.sent v) hfind)
  have hy : some y = some x := (Tab.find?_of_mem hsorted hmem).symm.trans hx
  rw [hfind, hbasin, Option.some.inj hy]

end

/-! ### The final result (R185) -/

/-- The final result at a basin replaces its operation by one that holds it and may retire; beside the operations only engine registers change. -/
theorem Basin.cscFinish_frame (x : Basin) (a : Active) (o : Op) (c : Csc) (vs : List Partial) (rs : List CscRec) (acc : CscAcc) :
    ∃ o' en, x.cscFinish a o c vs rs acc = { x.setOp o' with eng := en } ∧ o'.seq = o.seq ∧ o'.partials = vs ∧ o'.phase = .granted :=
  ⟨_, _, rfl, rfl, rfl, rfl⟩

/-- The final result changes basins alone; the root's own is finished with it. -/
theorem Dev.groupFinal_root {d : Dev} {b : Nat} (h : (Tab.find? d.basins b).isSome = true) (a : Active) (o : Op) (vs : List Partial) :
    ∃ o' en, (d.groupFinal b a o vs).basin b = { (d.basin b).setOp o' with eng := en } ∧ o'.seq = o.seq ∧ o'.partials = vs
      ∧ o'.phase = .granted := by
  let k := (a.env (cscOf o.bytes)).records 0 vs (o.flags, 0)
  obtain ⟨o', en, hfinish, hframe⟩ := (d.basin b).cscFinish_frame a o (cscOf o.bytes) vs k.1 k.2
  refine ⟨o', en, ?_, hframe⟩
  rw [← hfinish, Dev.groupFinal, Dev.basin, Dev.setBasins_basins, Tab.at_mapv_listed h, if_pos rfl]
  rfl

/-! ### Late results (R293) -/

theorem EventChange.trains {d e : Dev} (h : EventChange d e) : e.trains = d.trains := by obtain ⟨_, _, _, _, _, _, rfl⟩ := h; rfl

theorem Dev.lateResult_basins (d : Dev) (b : Nat) (a : Active) : (d.lateResult b a).basins = d.basins := by
  unfold Dev.lateResult
  split
  · exact (Dev.raiseS_eventChange _ _ _ _ _ _ _).basins
  · rfl

/-- A late result is counted in the training context of its stream. -/
theorem Dev.lateResult_train {d : Dev} {a : Active} {t : Train} (h : d.train (runIndex a.run) = some t) (b : Nat) :
    (d.lateResult b a).train (runIndex a.run) = some { t with nlate := t.nlate + 1 } := by
  unfold Dev.lateResult
  rw [h]
  dsimp only
  rw [Dev.train, (Dev.raiseS_eventChange _ _ _ _ _ _ _).trains]
  exact Tab.find?_put_same _ _ _

/-! ### The combination at the root (R185) -/

/-- A partial of the group of operation `o`. -/
def Op.isPartial (o : Op) (a : Active) (p : HeldPartial) : Bool :=
  p.handle == a.run.handle && p.gtag == (cscOf o.bytes).gtag && p.seq == o.gseq

/-- The rows of the group of operation `o` combined from the partials held at the basin, with flags and draws. -/
def Basin.combineGroup (x : Basin) (a : Active) (o : Op) : List Partial × CscAcc :=
  (a.env (cscOf o.bytes)).combineRows (x.partials.filter (o.isPartial a)) a.run.det 0 (cscOf o.bytes).rows (o.flags, 0)

/-- The root's operation once its group is combined: under SCOPE 0b10 it waits for the ring's result. -/
def Op.combinedTo (o : Op) (r : List Partial × CscAcc) : Op :=
  { o with flags := r.2.1, partials := r.1, phase := if (cscOf o.bytes).scope = 2 then .started else .waiting }

/-- The root once it has combined the group: it holds the group's partials no longer. -/
def Basin.tookGroup (x : Basin) (a : Active) (o : Op) : Basin :=
  { x.setOp (o.combinedTo (x.combineGroup a o)) with
    partials := x.partials.filter (fun p => !o.isPartial a p),
    eng := { x.eng with drawcnt := x.eng.drawcnt + BitVec.ofNat 64 (x.combineGroup a o).2.2 } }

/-- A device result handed over now is late: its plan step states a send time that has passed (R293). -/
def Dev.isLate (d : Dev) (a : Active) (o : Op) : Bool := (d.sendTime a (cscOf o.bytes).gtag o.gseq).any (fun t => decide (t < d.ns))

theorem Dev.isLate_iff {d : Dev} {a : Active} {o : Op} :
    d.isLate a o = true ↔ ∃ t, d.sendTime a (cscOf o.bytes).gtag o.gseq = some t ∧ t < d.ns := by
  simp [Dev.isLate, Option.any_eq_true]

section
variable {d : Dev} {b : Nat} {a : Active} {o : Op}

/-- Every member's partial of every row is held. -/
theorem whole_all (h : Whole d b a o) :
    (List.range (cscOf o.bytes).rows).all (fun r => (List.range (cscOf o.bytes).gcount).all (fun m =>
      ((d.basin b).partials.filter (o.isPartial a)).any (fun p => p.row == r && p.member == (cscOf o.bytes).gfirst + m))) = true := by
  simp only [List.all_eq_true, List.mem_range]
  intro r hr m hm
  obtain ⟨p, hp, hhandle, htag, hseq, hrow, hmember⟩ := h r m hr hm
  refine List.any_eq_true.mpr ⟨p, List.mem_filter.mpr ⟨hp, ?_⟩, ?_⟩
  · simp [Op.isPartial, hhandle, htag, hseq]
  · simp [hrow, hmember]

/-- A root that waits and has all partials combines them, and hands over its device result or forms the final one. -/
theorem groupCombine_eq (h : GroupRoot d b a o) (hphase : o.phase = .waiting) (hwhole : Whole d b a o) :
    let w := d.putBasin b ((d.basin b).tookGroup a o)
    groupCombine b o.seq d =
      if (cscOf o.bytes).scope ≠ 2 then w.groupFinal b a (o.combinedTo ((d.basin b).combineGroup a o)) ((d.basin b).combineGroup a o).1
      else if d.isLate a o then w.lateResult b a else w := by
  intro w
  obtain ⟨⟨_, hactive, hop⟩, hengine, hfirst, _⟩ := h
  have hgo : ¬ (o.engine ≠ .cascade ∨ o.phase ≠ .waiting ∨ (cscOf o.bytes).gfirst ≠ (d.basin b).logical) := by simp [hengine, hphase, hfirst]
  have hall := whole_all hwhole
  unfold groupCombine
  dsimp only
  rw [hactive, hop]
  dsimp only
  rw [if_neg hgo]
  refine (if_neg (Bool.eq_false_iff.mp (congrArg not hall))).trans ?_
  refine if_congr Iff.rfl rfl ?_
  generalize htime : Dev.sendTime _ a _ _ = time
  have hplan : d.sendTime a (cscOf o.bytes).gtag o.gseq = time := htime
  rw [Dev.isLate, hplan]
  cases time with
  | none => rfl
  | some t => exact if_congr decide_eq_true_iff.symm rfl rfl

end

end Sys2Proof.Machine

namespace Sys2Proof.Spec

open Sys2Proof Sys2Proof.Machine

section
variable {d : Dev} {b : Nat} {a : Active} {o : Op}

/-- The combined operation of a root is in flight there. -/
theorem GroupRoot.mem_tookGroup (h : GroupRoot d b a o) :
    o.combinedTo ((d.basin b).combineGroup a o) ∈ ((d.basin b).tookGroup a o).seq.ops := by
  obtain ⟨⟨_, _, hop⟩, _⟩ := h
  exact Basin.mem_setOp (List.mem_of_find?_eq_some hop) rfl

/-- A root whose group is whole combines it: under SCOPE 0b10 its operation waits for the ring with the combined rows, else it may retire. -/
theorem GroupRoot.combines (h : GroupRoot d b a o) (hphase : o.phase = .waiting) (hwhole : Whole d b a o) :
    let scope := (cscOf o.bytes).scope
    ∃ o', o' ∈ ((groupCombine b o.seq d).basin b).seq.ops ∧ o'.seq = o.seq ∧ o'.partials = combined d b a o
      ∧ o'.phase = (if scope = 2 then .started else .granted)
      ∧ (¬ (scope = 2 ∧ d.isLate a o = true) → ∃ bs, groupCombine b o.seq d = d.setBasins bs)
      ∧ (scope = 2 → d.isLate a o = true → ∀ t, d.train (runIndex a.run) = some t →
          (groupCombine b o.seq d).train (runIndex a.run) = some { t with nlate := t.nlate + 1 })
      ∧ ((groupCombine b o.seq d).basin b).store = (d.basin b).store
      ∧ ((groupCombine b o.seq d).basin b).partials = (d.basin b).partials.filter (fun p => !o.isPartial a p) := by
  intro scope
  have hmem := h.mem_tookGroup
  rw [groupCombine_eq h hphase hwhole]
  by_cases hscope : scope = 2
  · have hstarted : (o.combinedTo ((d.basin b).combineGroup a o)).phase = if scope = 2 then .started else .granted := by
      rw [if_pos hscope]
      exact if_pos hscope
    rw [if_neg (not_not.mpr hscope)]
    by_cases hlate : d.isLate a o = true
    · have hbasin : ((d.putBasin b ((d.basin b).tookGroup a o)).lateResult b a).basin b = (d.basin b).tookGroup a o := by
        rw [Dev.basin, Dev.lateResult_basins]
        exact Dev.basin_putBasin _ _ _
      rw [if_pos hlate, hbasin]
      exact ⟨_, hmem, rfl, rfl, hstarted, fun hnot => absurd ⟨hscope, hlate⟩ hnot,
        fun _ _ t ht => Dev.lateResult_train (d := d.putBasin b _) ht b, rfl, rfl⟩
    · rw [if_neg hlate, Dev.basin_putBasin]
      exact ⟨_, hmem, rfl, rfl, hstarted, fun _ => ⟨_, rfl⟩, fun _ h2 => absurd h2 hlate, rfl, rfl⟩
  · have hlisted : (Tab.find? (d.putBasin b ((d.basin b).tookGroup a o)).basins b).isSome = true := by
      simp [Dev.putBasin, Tab.find?_put_same]
    obtain ⟨o', en, hbasin, hseq, hpartials, hgranted⟩ := Dev.groupFinal_root hlisted a
      (o.combinedTo ((d.basin b).combineGroup a o)) ((d.basin b).combineGroup a o).1
    rw [if_pos hscope, hbasin, Dev.basin_putBasin]
    exact ⟨o', Basin.mem_setOp hmem hseq, hseq, hpartials, by rw [hgranted, if_neg hscope], fun _ => ⟨_, rfl⟩, fun h2 => absurd h2 hscope, rfl, rfl⟩

/-- The ring's result completes the operation of a root that has not completed it; one that has handed nothing over by then is late. -/
theorem GroupRoot.completes (h : GroupRoot d b a o) (hscope : (cscOf o.bytes).scope = 2) (hphase : o.phase ≠ .granted) (vals : List Partial) :
    ∃ o', o' ∈ ((collectiveResult b o.seq vals d).basin b).seq.ops ∧ o'.seq = o.seq ∧ o'.partials = vals ∧ o'.phase = .granted
      ∧ (o.phase = .started → ∃ bs, collectiveResult b o.seq vals d = d.setBasins bs)
      ∧ ((collectiveResult b o.seq vals d).basin b).store = (d.basin b).store := by
  obtain ⟨⟨_, hactive, hop⟩, hengine, hfirst, _, _, hlisted⟩ := h
  generalize hw : (if o.phase = .waiting then d.lateResult b a else d) = w
  have hbasins : w.basins = d.basins := by
    rw [← hw]
    split
    · exact d.lateResult_basins b a
    · rfl
  have hgo : ¬ (o.engine ≠ .cascade ∨ (cscOf o.bytes).scope ≠ 2 ∨ (cscOf o.bytes).gfirst ≠ (d.basin b).logical ∨ o.phase = .granted) := by
    simp [hengine, hscope, hfirst, hphase]
  have heq : collectiveResult b o.seq vals d = w.groupFinal b a o vals := by
    unfold collectiveResult
    dsimp only
    rw [hactive, hop]
    dsimp only
    rw [if_neg hgo, hw]
  have hbasin : w.basin b = d.basin b := by rw [Dev.basin, hbasins, Dev.basin]
  obtain ⟨o', en, hroot, hseq, hpartials, hgranted⟩ := Dev.groupFinal_root (by rw [hbasins]; exact hlisted) a o vals
  rw [heq, hroot, hbasin]
  refine ⟨o', Basin.mem_setOp (List.mem_of_find?_eq_some hop) hseq, hseq, hpartials, hgranted, fun hstarted => ?_, rfl⟩
  have hd : w = d := by rw [← hw, hstarted]; rfl
  rw [hd]
  exact ⟨_, rfl⟩

end

/-- Settles O10: an arrival is received at the root, a whole group combined there, and the ring's result ends what waits for it. -/
theorem groupsCombineAtTheirRoot : Obligations.GroupsCombineAtTheirRoot := by
  unfold Obligations.GroupsCombineAtTheirRoot
  refine ⟨fun d b v hquiet hopen hnone => ?unsent, fun d b n v o hquiet hopen hne hsorted honly hlisted hop hformed hserves hroom => ?sent,
    fun d b a o hroot => ⟨fun hphase hwhole => ?combine, fun vals hscope hphase => ?complete⟩⟩
  case unsent =>
    have hsender : d.sender v = none := List.find?_eq_none.mpr (fun p hp hsent => by
      obtain ⟨hlogical, hsome⟩ := Basin.sent_iff.mp hsent
      rw [hnone p hp hlogical] at hsome
      cases hsome)
    have hgives : Gives (.partialArrival b v) d (partialArrival b v d) := hquiet.gives (fun _ => rfl)
    rw [partialArrival_unsent hopen hsender] at hgives
    refine ⟨fun hserves hroom => ?_, fun hfull => ?_⟩
    · rwa [Dev.receive_held hserves hroom] at hgives
    · rwa [Dev.receive_discarded hfull] at hgives
  case sent =>
    have hsender := Dev.sender_of_only (v := v) hsorted hlisted (fun p hp => Basin.sent_iff.trans (honly p hp))
    have hgives : Gives (.partialArrival b v) d (partialArrival b v d) := hquiet.gives (fun _ => rfl)
    have hb := Dev.basin_putBasin_other d n b ((d.basin n).setOp { o with blocks := o.blocks + 1 }) hne.symm
    rw [partialArrival_sent hopen hsender hop hformed,
      Dev.receive_held (by rw [Dev.servesRun_putBasin_other hne.symm]; exact hserves) (by rw [hb]; exact hroom), hb] at hgives
    refine ⟨_, hgives, rfl, Dev.basin_putBasin _ _ _, ?_, fun m hmb hmn => ?_⟩
    · rw [Dev.basin_putBasin_other _ _ _ _ hne, Dev.basin_putBasin]
    · rw [Dev.basin_putBasin_other _ _ _ _ hmb, Dev.basin_putBasin_other _ _ _ _ hmn]
  case combine =>
    intro late
    have ⟨⟨hquiet, _⟩, _⟩ := hroot
    have hlate : late ↔ (cscOf o.bytes).scope = 2 ∧ d.isLate a o = true := by rw [Dev.isLate_iff]
    obtain ⟨o', hmem, hseq, hpartials, hphase', hkept, htrain, hstore, hheld⟩ := hroot.combines hphase hwhole
    refine ⟨_, o', hquiet.gives (fun _ => rfl), hmem, hseq, fun hnot => ?_, fun hl => ?_, fun h2 => ⟨hpartials, ?_⟩, fun h1 => ⟨hpartials, ?_⟩,
      hstore, hheld⟩
    · obtain ⟨bs, hbs⟩ := hkept (fun hl => hnot (hlate.mpr hl))
      rw [hbs]
      rfl
    · obtain ⟨h2, hpast⟩ := hlate.mp hl
      exact htrain h2 hpast
    · rw [hphase', if_pos h2]
    · rw [hphase', if_neg (by rw [h1]; decide)]
  case complete =>
    have ⟨⟨hquiet, _⟩, _⟩ := hroot
    obtain ⟨o', hmem, hseq, hpartials, hgranted, hkept, hstore⟩ := hroot.completes hscope hphase vals
    refine ⟨_, o', hquiet.gives (fun _ => rfl), hmem, hseq, hpartials, hgranted, fun hstarted => ?_, hstore⟩
    obtain ⟨bs, hbs⟩ := hkept hstarted
    rw [hbs]
    rfl

end Sys2Proof.Spec
end

section
/-! PROOFS. Reads and writes at the reservoir controllers (R203, R222 to R225): writes that take in foreign pages, and the obligation they
settle. -/

namespace Sys2Proof.Machine

open Sys2Proof Sys2Proof.Spec

/-! ### Parts of a write -/

/-- From `r` to `s` the reservoir has the same owners, has denied the same, and no unit has come to hold an error. -/
structure Rsv.SameOwners (r s : Rsv) : Prop where
  pages : s.pages = r.pages
  ctrls : s.ctrls.length = r.ctrls.length
  denied : ∀ k, (s.ctrls.getD k {}).denycnt = (r.ctrls.getD k {}).denycnt
  errors : ∀ u ∈ s.poison ++ s.soft, u ∈ r.poison ++ r.soft

theorem Rsv.SameOwners.refl (r : Rsv) : r.SameOwners r := ⟨rfl, rfl, fun _ => rfl, fun _ h => h⟩

theorem Rsv.SameOwners.trans {r s t : Rsv} (h : r.SameOwners s) (k : s.SameOwners t) : r.SameOwners t :=
  ⟨k.pages.trans h.pages, k.ctrls.trans h.ctrls, fun n => (k.denied n).trans (h.denied n), fun u hu => h.errors u (k.errors u hu)⟩

/-- One part of a write for a domain: counted against its budget, then stored. -/
def Rsv.storePart (dom a : Nat) (bs : List Byte) (r : Rsv) (p : Nat × Nat) : Rsv :=
  (r.charge dom p.1 p.2).write p.1 ((bs.drop (p.1 - a)).take p.2)

theorem Rsv.charge_write_sameOwners (r : Rsv) (dom a n c : Nat) (bs : List Byte) : r.SameOwners ((r.charge dom a n).write c bs) := by
  have hcharge := r.charge_sameData dom a n
  refine ⟨hcharge.pages, hcharge.ctrls, hcharge.denied, fun u hu => ?_⟩
  rw [← hcharge.poison, ← r.charge_soft dom a n]
  simp only [Rsv.write, List.mem_append, List.mem_filter] at hu ⊢
  exact hu.imp And.left And.left

theorem Rsv.charge_write_mem (r : Rsv) (dom a n c : Nat) (bs : List Byte) :
    ((r.charge dom a n).write c bs).mem = Mem.writeBytes r.mem c bs := by
  rw [← (r.charge_sameData dom a n).mem]
  rfl

theorem Rsv.foldl_storePart_sameOwners (dom a : Nat) (bs : List Byte) (ps : List (Nat × Nat)) (r : Rsv) :
    r.SameOwners (ps.foldl (Rsv.storePart dom a bs) r) := by
  induction ps generalizing r with
  | nil => exact .refl r
  | cons p ps ih => exact (r.charge_write_sameOwners dom p.1 p.2 p.1 _).trans (ih _)

theorem Rsv.storePart_read (dom a : Nat) (bs : List Byte) (r : Rsv) {p : Nat × Nat} (hp : a ≤ p.1 ∧ p.1 + p.2 ≤ a + bs.length) (x : Nat) :
    Mem.read (r.storePart dom a bs p).mem x = if p.1 ≤ x ∧ x < p.1 + p.2 then bs.getD (x - a) 0 else Mem.read r.mem x := by
  have hlen : ((bs.drop (p.1 - a)).take p.2).length = p.2 := by simp; omega
  rw [Rsv.storePart, Rsv.charge_write_mem, Mem.read_writeBytes, hlen]
  by_cases h : p.1 ≤ x ∧ x < p.1 + p.2
  · have hoff : p.1 - a + (x - p.1) = x - a := by omega
    have hlt : x - p.1 < p.2 := by omega
    simp [h, List.getD_eq_getElem?_getD, hlt, hoff]
  · rw [if_neg h, if_neg h]

/-- The parts of a write each bring the bytes that the whole write has for them. -/
theorem Rsv.foldl_storePart_read (dom a : Nat) (bs : List Byte) (ps : List (Nat × Nat)) (r : Rsv)
    (hps : ∀ p ∈ ps, a ≤ p.1 ∧ p.1 + p.2 ≤ a + bs.length) (x : Nat) :
    ((∃ p ∈ ps, p.1 ≤ x ∧ x < p.1 + p.2) → Mem.read (ps.foldl (Rsv.storePart dom a bs) r).mem x = bs.getD (x - a) 0)
    ∧ ((∀ p ∈ ps, ¬ (p.1 ≤ x ∧ x < p.1 + p.2)) → Mem.read (ps.foldl (Rsv.storePart dom a bs) r).mem x = Mem.read r.mem x) := by
  induction ps generalizing r with
  | nil => simp
  | cons p ps ih =>
    obtain ⟨hin, hout⟩ := ih (r.storePart dom a bs p) (fun q hq => hps q (by simp [hq]))
    have hone := r.storePart_read dom a bs (hps p (by simp)) x
    rw [List.foldl_cons]
    refine ⟨fun ⟨q, hq, hx⟩ => ?_, fun h => ?_⟩
    · by_cases hrest : ∃ q ∈ ps, q.1 ≤ x ∧ x < q.1 + q.2
      · exact hin hrest
      · obtain rfl : q = p := (List.mem_cons.mp hq).resolve_right (fun h => hrest ⟨q, h, hx⟩)
        rw [hout (fun q hq h => hrest ⟨q, hq, h⟩), hone, if_pos hx]
    · rw [hout (fun q hq => h q (by simp [hq])), hone, if_neg (h p (by simp))]

/-- A data unit that a part of a range covers in part is one that the range covers in part: pages begin on data units. -/
theorem partUnits_pageParts {a n u : Nat} {p : Nat × Nat} (hp : p ∈ pageParts a n) (hu : u ∈ partUnits p.1 p.2) : u ∈ partUnits a n := by
  have mem_partUnits (b m : Nat) : u ∈ partUnits b m ↔ m ≠ 0 ∧ ((b % 64 ≠ 0 ∧ u = b / 64) ∨ ((b + m) % 64 ≠ 0 ∧ u = (b + m) / 64)) := by
    unfold partUnits
    by_cases hm : m = 0 <;> by_cases h1 : b % 64 = 0 <;> by_cases h2 : (b + m) % 64 = 0 <;> simp [hm, h1, h2]
  rw [mem_partUnits] at hu ⊢
  rw [pageParts_eq] at hp
  obtain ⟨k, -, rfl⟩ := List.mem_map.mp hp
  simp only [partStart] at hu
  omega

/-- The part of a write in one page meets no error in the data units it covers in part. -/
theorem whole64_part {d : Dev} {a n : Nat} (h : Whole64 d a n) {r : Rsv} (hr : d.rsv.SameOwners r) {p : Nat × Nat} (hp : p ∈ pageParts a n) :
    Whole64 (d.setRsv r) p.1 p.2 :=
  fun u hu hpart => h u (hr.errors u hu) (partUnits_pageParts hp hpart)

/-- A write part by part that meets no error stores every part. -/
theorem Dev.foldl_rsvStore {d : Dev} {dom a : Nat} {bs : List Byte} (h : Whole64 d a bs.length) (ps : List (Nat × Nat))
    (hps : ∀ p ∈ ps, p ∈ pageParts a bs.length) {r : Rsv} (hr : d.rsv.SameOwners r) :
    ps.foldl (fun (e : Dev × Bool) p =>
        let s := (e.1.setRsv (e.1.rsv.charge dom p.1 p.2)).rsvStore p.1 ((bs.drop (p.1 - a)).take p.2)
        (s.1, e.2 || s.2)) (d.setRsv r, false)
      = (d.setRsv (ps.foldl (Rsv.storePart dom a bs) r), false) := by
  induction ps generalizing r with
  | nil => rfl
  | cons p ps ih =>
    have hp := hps p (by simp)
    obtain ⟨hlo, hhi, -⟩ := pageParts_bounds a bs.length p hp
    have hlen : ((bs.drop (p.1 - a)).take p.2).length = p.2 := by simp; omega
    have hcharge : d.rsv.SameOwners (r.charge dom p.1 p.2) := by
      have k := r.charge_sameData dom p.1 p.2
      exact hr.trans ⟨k.pages, k.ctrls, k.denied, fun u hu => by rwa [k.poison, r.charge_soft] at hu⟩
    have hstore := Dev.rsvStore_of_whole (d.setRsv (r.charge dom p.1 p.2)) p.1 ((bs.drop (p.1 - a)).take p.2)
      (by rw [hlen]; exact whole64_part h hcharge hp)
    simp only [List.foldl_cons, Dev.setRsv_rsv, Dev.setRsv_setRsv, hstore, Bool.or_false]
    exact ih (fun q hq => hps q (by simp [hq])) (hr.trans (r.charge_write_sameOwners dom p.1 p.2 p.1 _))

/-- A write that takes in foreign pages stores its parts in the domain's own and denies the rest. -/
theorem Dev.rsvWrite_of_foreign (d : Dev) (dom a : Nat) (bs : List Byte) (hin : a + bs.length ≤ 0x6000000000)
    (hown : d.rsv.owned dom a bs.length = false) (hwhole : Whole64 d a bs.length) :
    d.rsvWrite dom a bs
      = ((d.setRsv ((d.rsv.reach dom a bs.length).foldl (Rsv.storePart dom a bs) d.rsv)).deny dom a bs.length 1, .denied []) := by
  have hreach : ∀ p ∈ d.rsv.reach dom a bs.length, p ∈ pageParts a bs.length := fun p hp => by
    simp only [Rsv.reach, hown, Bool.false_eq_true, if_false] at hp
    exact (List.mem_filter.mp hp).1
  have hfold := Dev.foldl_rsvStore (dom := dom) hwhole (d.rsv.reach dom a bs.length) hreach (.refl d.rsv)
  have hsame : d.setRsv d.rsv = d := rfl
  simp only [hsame] at hfold
  simp only [Dev.rsvWrite, rsvPopulated, hin, decide_true, Bool.not_true, Bool.false_eq_true, if_false, hown, Bool.not_false, if_true, hfold]

theorem Rsv.reach_bounds (r : Rsv) {dom a n : Nat} {p : Nat × Nat} (hp : p ∈ r.reach dom a n) : a ≤ p.1 ∧ p.1 + p.2 ≤ a + n := by
  unfold Rsv.reach at hp
  split at hp
  case isTrue => simp_all
  case isFalse =>
    obtain ⟨hlo, hhi, -⟩ := pageParts_bounds a n p (List.mem_filter.mp hp).1
    exact ⟨hlo, hhi⟩

/-- A byte of a range lies in a part that the domain may reach exactly where it owns the byte's page. -/
theorem Rsv.mem_reach {r : Rsv} {dom a n x : Nat} (hown : r.owned dom a n = false) :
    (∃ p ∈ r.reach dom a n, p.1 ≤ x ∧ x < p.1 + p.2) ↔ (a ≤ x ∧ x < a + n) ∧ r.ownedPage dom (x / 0x200000) = true := by
  simp only [Rsv.reach, hown, Bool.false_eq_true, if_false, List.mem_filter]
  refine ⟨fun ⟨p, ⟨hp, hpage⟩, hx⟩ => ?_, fun ⟨hx, hpage⟩ => ?_⟩
  · obtain ⟨hlo, hhi, hsame⟩ := pageParts_bounds a n p hp
    exact ⟨by omega, by rw [hsame x hx.1 hx.2]; exact hpage⟩
  · have hmem : x ∈ (pageParts a n).flatMap (fun p => (List.range' p.1 p.2).map id) := by
      rw [pageParts_flatMap]
      simpa [List.mem_range'_1] using hx
    obtain ⟨p, hp, hxp⟩ := List.mem_flatMap.mp hmem
    rw [List.map_id, List.mem_range'_1] at hxp
    obtain ⟨-, -, hsame⟩ := pageParts_bounds a n p hp
    exact ⟨p, ⟨hp, by rw [← hsame x hxp.1 hxp.2]; exact hpage⟩, hxp⟩

/-- Counting denials changes the controllers alone. -/
theorem Rsv.foldl_countDenied_frame (gs : List Nat) (r : Rsv) : ∃ cs, gs.foldl Rsv.countDenied r = { r with ctrls := cs } := by
  induction gs generalizing r with
  | nil => exact ⟨_, rfl⟩
  | cons g gs ih =>
    obtain ⟨cs, hcs⟩ := ih (r.countDenied g)
    exact ⟨cs, hcs⟩

/-- A denial leaves the reservoir's bytes and owners and every basin as they are. -/
theorem Dev.deny_frame (d : Dev) (dom a n kind : Nat) :
    (d.deny dom a n kind).rsv.mem = d.rsv.mem ∧ (d.deny dom a n kind).rsv.pages = d.rsv.pages ∧ (d.deny dom a n kind).basins = d.basins := by
  have h := d.deny_eventChange dom a n kind
  obtain ⟨cs, hcs⟩ := Rsv.foldl_countDenied_frame (d.rsv.foreign dom a n) d.rsv
  refine ⟨?_, ?_, h.basins⟩ <;> rw [h.rsv, hcs] <;> rfl

/-- A denial after a write is counted by every controller whose granules were foreign. -/
theorem Dev.deny_denialsCounted_of_sameOwners {d : Dev} {r : Rsv} (h : d.rsv.SameOwners r) (dom a n kind : Nat) :
    DenialsCounted d ((d.setRsv r).deny dom a n kind) dom a n := by
  have hsame : ({ r with ctrls := d.rsv.ctrls } : Rsv).SameData r := ⟨rfl, rfl, rfl, h.ctrls, h.denied⟩
  have hcount := Dev.deny_denialsCounted (d.setRsv { r with ctrls := d.rsv.ctrls }) r hsame dom a n kind
  simpa only [DenialsCounted, Rsv.foreign, Rsv.ownedPage, Dev.setRsv_rsv, Dev.setRsv_setRsv, h.pages, Dev.ctrl] using hcount

end Sys2Proof.Machine

namespace Sys2Proof.Spec

open Sys2Proof Sys2Proof.Machine

/-! ### Requests (R223) -/

/-- A read whose epoch matches is answered as its controllers read. -/
theorem gives_reservoirRead {d : Dev} (hq : Quiet d) {src : Nat} {ep : W32} (hep : d.epochOk src ep = true) (dom h addr n : Nat) :
    Gives (.reservoirRead src ep dom h addr n) d ((d.rsvRead dom addr n).1.replyRsv addr (d.rsvRead dom addr n).2) := by
  have hgives := hq.gives (c := .reservoirRead src ep dom h addr n) (fun _ => rfl)
  rwa [reservoirRead, hep] at hgives

/-- A write whose epoch matches is answered as its controllers write. -/
theorem gives_reservoirWrite {d : Dev} (hq : Quiet d) {src : Nat} {ep : W32} (hep : d.epochOk src ep = true) (dom h addr : Nat)
    (bs : List Byte) :
    Gives (.reservoirWrite src ep dom h addr bs) d ((d.rsvWrite dom addr bs).1.replyRsv addr (d.rsvWrite dom addr bs).2) := by
  have hgives := hq.gives (c := .reservoirWrite src ep dom h addr bs) (fun _ => rfl)
  rwa [reservoirWrite, hep] at hgives

theorem replyRsv_rsv (d : Dev) (a : Nat) (r : RsvAns) : (d.replyRsv a r).rsv = d.rsv := by cases r <;> rfl
theorem replyRsv_basins (d : Dev) (a : Nat) (r : RsvAns) : (d.replyRsv a r).basins = d.basins := by cases r <;> rfl

/-- Settles O16: each clause is one answer of the controllers to a request whose epoch matches. -/
theorem reservoirAccessesReachOwnedPages : Obligations.ReservoirAccessesReachOwnedPages := by
  unfold Obligations.ReservoirAccessesReachOwnedPages
  intro d src dom h addr n ep bs hq hep
  have reads := gives_reservoirRead hq hep dom h addr n
  have writes := gives_reservoirWrite hq hep dom h addr bs
  refine ⟨?read, ?write, ?deniedRead, ?deniedWrite⟩
  case read =>
    intro hreach
    rwa [d.rsvRead_of_reaches dom addr n hreach] at reads
  case write =>
    intro hin hown hwhole
    rw [d.rsvWrite_of_owned dom addr bs hin hown hwhole] at writes
    have hmem := d.rsv.charge_write_mem dom addr bs.length addr bs
    refine ⟨_, writes, rfl, fun i hi => ?_, fun p hp => ?_, (d.rsv.charge_sameData dom addr bs.length).pages, rfl⟩
    · exact Mem.read_writeBytes_within _ addr bs i hi
    · exact (congrArg (Mem.read · p) hmem).trans (Mem.read_writeBytes_outside _ addr bs p hp)
  case deniedRead =>
    intro hin hown hpoison
    obtain ⟨r, hr, hread⟩ := d.rsvRead_of_foreign dom addr n hin hown hpoison
    rw [hread] at reads
    obtain ⟨hmem, -, hbasins⟩ := (d.setRsv r).deny_frame dom addr n 0
    refine ⟨_, (List.range' addr n).map (d.rsv.visible dom), reads, hmem.trans hr.mem, hbasins, by simp [Dev.replyRsv, Dev.emit], by simp,
      fun i hi => ?_, d.deny_denialsCounted r hr dom addr n 0⟩
    have hbyte : ((List.range' addr n).map (d.rsv.visible dom))[i]? = some (d.rsv.visible dom (addr + i)) := by simp [hi]
    exact ⟨fun h => by rw [← visible_of_ownsByte h]; exact hbyte, fun h => by rw [← visible_of_not_ownsByte h]; exact hbyte⟩
  case deniedWrite =>
    intro hin hown hwhole
    rw [d.rsvWrite_of_foreign dom addr bs hin hown hwhole] at writes
    have hsame := Rsv.foldl_storePart_sameOwners dom addr bs (d.rsv.reach dom addr bs.length) d.rsv
    have hread := Rsv.foldl_storePart_read dom addr bs (d.rsv.reach dom addr bs.length) d.rsv (fun _ hp => d.rsv.reach_bounds hp)
    obtain ⟨hmem, hpages, hbasins⟩ :=
      (d.setRsv ((d.rsv.reach dom addr bs.length).foldl (Rsv.storePart dom addr bs) d.rsv)).deny_frame dom addr bs.length 1
    have hcount := Dev.deny_denialsCounted_of_sameOwners hsame dom addr bs.length 1
    refine ⟨_, writes, by rw [replyRsv_basins, hbasins, Dev.setRsv_basins], ?_, fun p hp => ?_, fun i hi howns => ?_, ?_⟩
    · rw [replyRsv_rsv, hpages, Dev.setRsv_rsv, hsame.pages]
    · rw [replyRsv_rsv, hmem]
      refine (hread p).2 (fun q hq hx => ?_)
      obtain ⟨hrange, hpage⟩ := (Rsv.mem_reach hown).mp ⟨q, hq, hx⟩
      exact hp.elim (by omega) (fun h => h.elim (by omega) (fun h => h hpage))
    · have hpart := (Rsv.mem_reach (x := addr + i) hown).mpr ⟨by omega, howns⟩
      rw [replyRsv_rsv, hmem, Dev.setRsv_rsv, (hread _).1 hpart]
      simp [List.getD_eq_getElem?_getD, hi]
    · simpa only [DenialsCounted, Dev.ctrl, replyRsv_rsv] using hcount

end Sys2Proof.Spec
end

section
/-! PROOFS. Atomics at a reservoir controller (R227): what an atomic on an owned word makes of the reservoir and answers, and the obligation
they settle. -/

namespace Sys2Proof.Machine

open Sys2Proof Sys2Proof.Spec

theorem Rsv.charge_sameOwners (r : Rsv) (dom a n : Nat) : r.SameOwners (r.charge dom a n) := by
  have h := r.charge_sameData dom a n
  exact ⟨h.pages, h.ctrls, h.denied, fun u hu => by rwa [h.poison, r.charge_soft] at hu⟩

/-- Counting an access against a budget leaves the counts of leases taken over. -/
theorem Rsv.charge_leasecnt (r : Rsv) (dom a n k : Nat) : ((r.charge dom a n).ctrls.getD k {}).leasecnt = (r.ctrls.getD k {}).leasecnt := by
  have set (s : Rsv) (j : Nat) (c : Ctrl) (h : c.leasecnt = (s.ctrls.getD j {}).leasecnt) :
      ((s.ctrls.set j c).getD k {}).leasecnt = (s.ctrls.getD k {}).leasecnt := by
    by_cases hj : j = k
    · subst hj
      by_cases hlt : j < s.ctrls.length
      · simpa [List.getD_eq_getElem?_getD, hlt] using h
      · simp [List.getD_eq_getElem?_getD, hlt]
    · simp [List.getD_eq_getElem?_getD, hj]
  unfold Rsv.charge
  refine List.foldlRecOn (motive := fun s : Rsv => (s.ctrls.getD k {}).leasecnt = (r.ctrls.getD k {}).leasecnt) _ _ rfl (fun s hs g _ => ?_)
  refine .trans (set s (ctrlOf g) _ ?_) hs
  rfl

/-- The reservoir after an atomic has read its word, and stored a new one where it has one: both counted against the budget (R225). -/
def Rsv.afterAtomic (r : Rsv) (dom a : Nat) (new : Option Nat) : Rsv :=
  match new with
  | some v => ((r.charge dom a 8).charge dom a 8).write a (leBytes 8 v)
  | none => r.charge dom a 8

theorem Rsv.afterAtomic_mem (r : Rsv) (dom a : Nat) (new : Option Nat) :
    (r.afterAtomic dom a new).mem = new.elim r.mem (Mem.writeLe r.mem a 8) := by
  cases new with
  | some v => rw [Rsv.afterAtomic, Rsv.charge_write_mem, (r.charge_sameData dom a 8).mem]; rfl
  | none => exact (r.charge_sameData dom a 8).mem

theorem Rsv.afterAtomic_length (r : Rsv) (dom a : Nat) (new : Option Nat) : (r.afterAtomic dom a new).ctrls.length = r.ctrls.length := by
  cases new with
  | some v => exact ((r.charge dom a 8).charge_sameData dom a 8).ctrls.trans (r.charge_sameData dom a 8).ctrls
  | none => exact (r.charge_sameData dom a 8).ctrls

theorem Rsv.afterAtomic_leasecnt (r : Rsv) (dom a : Nat) (new : Option Nat) (k : Nat) :
    ((r.afterAtomic dom a new).ctrls.getD k {}).leasecnt = (r.ctrls.getD k {}).leasecnt := by
  cases new with
  | some v => exact ((r.charge dom a 8).charge_leasecnt dom a 8 k).trans (r.charge_leasecnt dom a 8 k)
  | none => exact r.charge_leasecnt dom a 8 k

/-- A controller counts a lease that was taken over (R227). -/
def Rsv.countLease (r : Rsv) (a : Nat) : Rsv :=
  { r with ctrls := r.ctrls.set (ctrlOf a) { r.ctrls.getD (ctrlOf a) {} with leasecnt := (r.ctrls.getD (ctrlOf a) {}).leasecnt + 1 } }

theorem Rsv.countLease_leasecnt (r : Rsv) (a : Nat) (h : r.ctrls.length = 8) :
    ((r.countLease a).ctrls.getD (ctrlOf a) {}).leasecnt = (r.ctrls.getD (ctrlOf a) {}).leasecnt + 1 := by
  have hlt : ctrlOf a < r.ctrls.length := h ▸ ctrlOf_lt a
  simp [Rsv.countLease, List.getD_eq_getElem?_getD, hlt]

/-- The store of an atomic's new word meets no error where its data unit holds none. -/
theorem Dev.rsvStore_atomic {d : Dev} {addr : Nat} (hwhole : Whole64 d addr 8) (dom v : Nat) :
    (d.setRsv ((d.rsv.charge dom addr 8).charge dom addr 8)).rsvStore addr (leBytes 8 v)
      = (d.setRsv (d.rsv.afterAtomic dom addr (some v)), false) := by
  have hsame := (d.rsv.charge_sameOwners dom addr 8).trans ((d.rsv.charge dom addr 8).charge_sameOwners dom addr 8)
  rw [Dev.rsvStore_of_whole _ addr (leBytes 8 v) (by rw [leBytes_length]; exact fun u hu => hwhole u (hsame.errors u hu))]
  rfl

/-- The rows of the table of R227. -/
theorem Atomic.on_cas_equal {w c : Nat} (h : w = c) (v stream : Nat) : (Atomic.cas c v).on stream w = (some v, leBytes 8 w, false) := by
  rw [Atomic.on, if_pos h]
theorem Atomic.on_cas_different {w c : Nat} (h : w ≠ c) (v stream : Nat) : (Atomic.cas c v).on stream w = (none, leBytes 8 w, false) := by
  rw [Atomic.on, if_neg h]
theorem Atomic.on_semAcq_free {w start : Nat} (h : w = 0 ∨ w % 2 ^ 48 ≤ start) (fin stream : Nat) :
    (Atomic.semAcq start fin).on stream w = (some (stream * 2 ^ 48 + fin), leBytes 8 w ++ [1], decide (w ≠ 0)) := by
  rw [Atomic.on, if_pos h]
theorem Atomic.on_semAcq_held {w start : Nat} (h : ¬ (w = 0 ∨ w % 2 ^ 48 ≤ start)) (fin stream : Nat) :
    (Atomic.semAcq start fin).on stream w = (none, leBytes 8 w ++ [0], false) := by
  rw [Atomic.on, if_neg h]
theorem Atomic.on_semRel_owner {w stream : Nat} (h : w / 2 ^ 48 = stream) : Atomic.semRel.on stream w = (some 0, [1], false) := by
  rw [Atomic.on, if_pos h]
theorem Atomic.on_semRel_other {w stream : Nat} (h : w / 2 ^ 48 ≠ stream) : Atomic.semRel.on stream w = (none, [0], false) := by
  rw [Atomic.on, if_neg h]

/-- What an atomic on an owned word without errors answers, and what it makes of the reservoir. -/
theorem Dev.atomic_of_reaches {d : Dev} {dom addr : Nat} (halign : addr % 8 = 0) (hreach : Reaches d dom addr 8) (hwhole : Whole64 d addr 8)
    (handle : Nat) (k : Atomic) {new : Option Nat} {ans : List Byte} {taken : Bool}
    (hk : k.on (handle / 65536) (Mem.readLe d.rsv.mem addr 8) = (new, ans, taken)) :
    d.atomic dom handle addr k
      = (d.setRsv (if taken then (d.rsv.afterAtomic dom addr new).countLease addr else d.rsv.afterAtomic dom addr new)).emit
          (.reply (ctrlUnit addr) ans false false false) := by
  obtain ⟨hin, hown, hpoison, hsoft⟩ := hreach
  have hunits : unitsIn d.rsv.poison addr 8 = [] := by simpa [Rsv.poisoned] using hpoison
  have hguard : ¬ (addr % 8 ≠ 0 ∨ (!rsvPopulated addr 8) = true) := by simp [halign, rsvPopulated, hin]
  simp only [Dev.atomic, if_neg hguard, hown, Bool.not_true, Bool.false_eq_true, if_false, hpoison, hk,
    d.rsvTouch_clean dom addr 8 hunits hsoft, Dev.setRsv_rsv, Dev.setRsv_setRsv, Dev.rsvStore_atomic hwhole]
  cases new with
  | none =>
    have hread : d.rsv.charge dom addr 8 = d.rsv.afterAtomic dom addr none := rfl
    rw [hread]
    generalize d.rsv.afterAtomic dom addr none = r
    cases taken <;> rfl
  | some v =>
    dsimp only
    generalize d.rsv.afterAtomic dom addr (some v) = r
    cases taken <;> rfl

end Sys2Proof.Machine

namespace Sys2Proof.Spec

open Sys2Proof Sys2Proof.Machine

/-- An atomic whose epoch matches is carried out by its controller. -/
theorem gives_atomic {d : Dev} (hq : Quiet d) {src : Nat} {ep : W32} (hep : d.epochOk src ep = true) {c : Instr} {dom h addr : Nat}
    (k : Dev → Atomic) (hc : ∀ s, exec c s = onCore (atomicOp src ep dom h addr k) s) : Gives c d (d.atomic dom h addr (k d)) := by
  have hgives := hq.gives hc
  simpa only [atomicOp, hep, Bool.not_true, Bool.false_eq_true, if_false] using hgives

/-- An atomic at an address that is not aligned is answered with an error. -/
theorem atomic_misaligned {addr : Nat} (h : addr % 8 ≠ 0) (d : Dev) (dom handle : Nat) (k : Atomic) :
    d.atomic dom handle addr k = d.emit (.reply (ctrlUnit addr) [] false false true) := by
  simp [Dev.atomic, h, Dev.replyRsv]

/-- What an atomic leaves: its word, its answer and the count of its controller, and nothing else changed. -/
def AtomicDone (c : Instr) (d : Dev) (addr new : Nat) (ans : List Byte) (taken : Bool) : Prop :=
  ∃ e, Gives c d e ∧ e = { d with rsv := e.rsv, out := e.out } ∧ Mem.readLe e.rsv.mem addr 8 = new
    ∧ (∀ p, (p < addr ∨ addr + 8 ≤ p) → Mem.read e.rsv.mem p = Mem.read d.rsv.mem p)
    ∧ e.out = d.out ++ [.reply (ctrlUnit addr) ans false false false]
    ∧ (d.rsv.ctrls.length = 8 → (e.ctrl (ctrlOf addr)).leasecnt = (d.ctrl (ctrlOf addr)).leasecnt + (if taken then 1 else 0))

theorem atomicDone_of_on {d : Dev} {c : Instr} {dom h addr : Nat} {k : Atomic} (hgives : Gives c d (d.atomic dom h addr k))
    (halign : addr % 8 = 0) (hreach : Reaches d dom addr 8) (hwhole : Whole64 d addr 8) {new : Option Nat} {ans : List Byte} {taken : Bool}
    (hk : k.on (h / 65536) (Mem.readLe d.rsv.mem addr 8) = (new, ans, taken)) (hnew : ∀ v, new = some v → v < 2 ^ 64) :
    AtomicDone c d addr (new.getD (Mem.readLe d.rsv.mem addr 8)) ans taken := by
  rw [Dev.atomic_of_reaches halign hreach hwhole h k hk] at hgives
  let r := d.rsv.afterAtomic dom addr new
  have hmem : (if taken then r.countLease addr else r).mem = new.elim d.rsv.mem (Mem.writeLe d.rsv.mem addr 8) := by
    rw [← d.rsv.afterAtomic_mem dom addr new]
    cases taken <;> rfl
  refine ⟨_, hgives, rfl, (congrArg (Mem.readLe · addr 8) hmem).trans ?_, fun p hp => (congrArg (Mem.read · p) hmem).trans ?_, rfl,
    fun hlen => ?_⟩
  · cases new with
    | none => rfl
    | some v => exact (Mem.readLe_writeLe _ addr 8 v).trans (Nat.mod_eq_of_lt (hnew v rfl))
  · cases new with
    | none => rfl
    | some v => exact Mem.read_writeBytes_outside _ addr (leBytes 8 v) p (by rwa [leBytes_length])
  · have hlease := d.rsv.afterAtomic_leasecnt dom addr new (ctrlOf addr)
    cases taken with
    | false => exact hlease.trans (BitVec.add_zero _).symm
    | true =>
      refine (Rsv.countLease_leasecnt r addr ((d.rsv.afterAtomic_length dom addr new).trans hlen)).trans ?_
      exact congrArg (· + 1) hlease

/-- Settles O17: each clause is one row of the table of R227. -/
theorem reservoirAtomicsUpdateTheirWord : Obligations.ReservoirAtomicsUpdateTheirWord := by
  unfold Obligations.ReservoirAtomicsUpdateTheirWord
  intro d src dom h addr ep hq hep
  have gives {c : Instr} (k : Dev → Atomic) (hc : ∀ s, exec c s = onCore (atomicOp src ep dom h addr k) s) := gives_atomic hq hep k hc
  refine ⟨fun halign hreach hwhole hstream => ?_, fun halign => ?_⟩
  case refine_2 =>
    have refused {c : Instr} (k : Dev → Atomic) (hc : ∀ s, exec c s = onCore (atomicOp src ep dom h addr k) s) :
        Gives c d (d.emit (.reply (ctrlUnit addr) [] false false true)) := by
      rw [← atomic_misaligned halign d dom h (k d)]
      exact gives k hc
    exact ⟨fun v => refused (fun _ => .fadd v.toNat) (fun _ => rfl), fun c v => refused (fun _ => .cas c.toNat v.toNat) (fun _ => rfl),
      refused Dev.semAcq (fun _ => rfl), refused (fun _ => .semRel) (fun _ => rfl)⟩
  intro w start lease goal
  have done {c : Instr} (k : Dev → Atomic) (hc : ∀ s, exec c s = onCore (atomicOp src ep dom h addr k) s) {new : Option Nat}
      {ans : List Byte} {taken : Bool} (hk : (k d).on (h / 65536) w = (new, ans, taken)) (hnew : ∀ v, new = some v → v < 2 ^ 64) :
      goal c (new.getD w) ans taken := atomicDone_of_on (gives k hc) halign hreach hwhole hk hnew
  have hstart : start < 2 ^ 48 := Nat.mod_lt _ (by decide)
  refine ⟨fun v => ?fadd, fun c v => ?cas, fun hfree => ?acquired, fun h0 hheld => ?heldElsewhere, fun hown => ?released, fun hown => ?kept⟩
  case fadd => exact done (fun _ => .fadd v.toNat) (fun _ => rfl) rfl (fun x hx => by cases hx; exact Nat.mod_lt _ (by decide))
  case cas =>
    split
    case isTrue hc => exact done (fun _ => .cas c.toNat v.toNat) (fun _ => rfl) (Atomic.on_cas_equal hc _ _) (fun x hx => by cases hx; exact v.isLt)
    case isFalse hc => exact done (fun _ => .cas c.toNat v.toNat) (fun _ => rfl) (new := none) (Atomic.on_cas_different hc _ _) (fun x hx => by cases hx)
  case acquired =>
    refine done Dev.semAcq (fun _ => rfl) (Atomic.on_semAcq_free hfree _ _) (fun x hx => ?_)
    cases hx
    have hfin : (d.slotStart + d.slen) / 1000 % 2 ^ 48 < 2 ^ 48 := Nat.mod_lt _ (by decide)
    omega
  case heldElsewhere =>
    have hno : ¬ (w = 0 ∨ w % 2 ^ 48 ≤ start) := fun h => h.elim h0 (Nat.not_le.mpr hheld)
    exact done Dev.semAcq (fun _ => rfl) (new := none) (Atomic.on_semAcq_held hno _ _) (fun x hx => by cases hx)
  case released => exact done (fun _ => .semRel) (fun _ => rfl) (Atomic.on_semRel_owner hown) (fun x hx => by cases hx; decide)
  case kept => exact done (fun _ => .semRel) (fun _ => rfl) (new := none) (Atomic.on_semRel_other hown) (fun x hx => by cases hx)

end Sys2Proof.Spec
end

section
/-! PROOFS. Requests at a basin's router and patrol scrubbing (R205, R206, R212, R216, R224), and the obligations they settle. -/

namespace Sys2Proof.Machine

open Sys2Proof Sys2Proof.Spec

/-! ### The weir at a basin (R206, R212, R216) -/

/-- No operation in flight claims the range for writing where every claimed segment lies beside it. -/
theorem Basin.writeClaimed_of_beside {x : Basin} {a n : Nat}
    (h : ∀ o ∈ x.seq.ops, ∀ k ∈ o.writeSegs, a + n ≤ k * 65536 ∨ k * 65536 + 65536 ≤ a) : x.writeClaimed a n = false := by
  simp only [Basin.writeClaimed, List.any_eq_false, Bool.and_eq_true, decide_eq_true_eq, Bool.not_eq_true]
  intro o ho k hk
  have := h o ho k hk
  omega

/-- A read of open segments without errors that nothing claims for writing answers their bytes. -/
theorem Dev.remoteRead_of_open {d : Dev} {b dom a n : Nat} (hclean : Clean d b) (hin : a + n ≤ 0x400000)
    (hopen : (d.basin b).openTo dom a n = true) (hclaim : (d.basin b).writeClaimed a n = false) :
    d.remoteRead b dom a n = d.emit (.reply b (Mem.readBytes (d.basin b).store a n) false false false) := by
  obtain ⟨hbad, hsoft⟩ := hclean
  have hnone : (d.basin b).badIn a n = none := by simp [Basin.badIn, hbad]
  have hno : (d.basin b).softIn a n = [] := by simp [Basin.softIn, hsoft]
  simp only [Dev.remoteRead, if_neg (Nat.not_lt.mpr hin), hopen, hclaim, hnone, hno, Bool.not_true, Bool.false_eq_true, if_false]
  rfl

/-- A read of a segment that is not open to the domain is answered with an error. -/
theorem Dev.remoteRead_of_closed {d : Dev} {b dom a n : Nat} (hopen : (d.basin b).openTo dom a n = false) :
    d.remoteRead b dom a n = d.emit (.reply b [] false false true) := by
  simp [Dev.remoteRead, hopen]

/-! ### Patrol scrubbing of a basin (R205) -/

theorem mem_with {w : Nat} {ws : List Nat} : w ∈ (if w ∈ ws then ws else w :: ws) := by split <;> simp_all

theorem Dev.eccEvent_basins (d : Dev) (source a unc : Nat) (scrub : Bool) : (d.eccEvent source a unc scrub).basins = d.basins :=
  (d.raiseO_eventChange _ _ _ _ _).basins

/-- A corrected error leaves its basin's store and sequencer, is counted, and is gone. -/
theorem Dev.eccSoft_basin (d : Dev) (b w : Nat) (scrub : Bool) : ∃ c : CisRegs,
    (d.eccSoft b w scrub).basin b = { d.basin b with cis := c } ∧ c.cecnt = (d.basin b).cis.cecnt + 1 ∧ w ∉ c.softWords := by
  let times := (d.ns :: (d.basin b).cis.ceTimes).filter (fun t => decide (d.ns < t + secNs))
  let c : CisRegs := { (d.basin b).cis.log false scrub w with
    cecnt := (d.basin b).cis.cecnt + 1, softWords := (d.basin b).cis.softWords.filter (· ≠ w), ceTimes := times.take 1025 }
  let e := d.putBasin b { d.basin b with cis := c }
  have hbasins : (d.eccSoft b w scrub).basins = e.basins := by
    simp only [Dev.eccSoft, apply_ite Dev.basins, Dev.setFlt_basins, Dev.eccEvent_basins, ite_self]
    rfl
  refine ⟨c, ?_, rfl, by simp [c]⟩
  rw [Dev.basin, hbasins]
  exact d.basin_putBasin b _

/-- An uncorrectable error that is new to its basin is recorded as its last, the log holding one; its basin's words, store and sequencer, and
every other basin, stay. -/
theorem Dev.eccHard_new {d : Dev} {b w : Nat} (hnew : (d.basin b).cis.lastUe ≠ some w) (scrub : Bool) : ∃ c : CisRegs,
    (d.eccHard b w scrub).basins = (d.putBasin b { d.basin b with cis := c }).basins ∧ c.badWords = (d.basin b).cis.badWords
      ∧ c.lastUe = some w ∧ c.eccValid = true ∧ c.ueTimes.length ≤ (d.basin b).cis.ueTimes.length + 1 := by
  let times := (d.ns :: (d.basin b).cis.ueTimes).filter (fun t => decide (d.ns < t + dayNs))
  let c : CisRegs := { (d.basin b).cis.log true scrub w with lastUe := some w, ueTimes := times.take 2 }
  have hagain : ((d.basin b).cis.lastUe == some w) = false := beq_eq_false_iff_ne.mpr hnew
  have hlog : ((d.basin b).cis.log true scrub w).badWords = (d.basin b).cis.badWords ∧ ((d.basin b).cis.log true scrub w).eccValid = true := by
    unfold CisRegs.log
    split
    case isTrue h => exact ⟨rfl, h⟩
    case isFalse => exact ⟨rfl, rfl⟩
  refine ⟨c, ?_, hlog.1, rfl, hlog.2, ?_⟩
  · simp only [Dev.eccHard, hagain, Bool.false_and, Bool.false_eq_true, if_false]
    exact Dev.eccEvent_basins _ _ _ _ _
  · have := List.length_filter_le (fun t => decide (d.ns < t + dayNs)) (d.ns :: (d.basin b).cis.ueTimes)
    simp only [c, times, List.length_take]
    simp only [List.length_cons] at this
    omega

/-- What the patrol does with an uncorrectable word: it is reported, and a second one within a day fences (R205, R343). -/
def Dev.scrubFound (d : Dev) (b w : Nat) : Dev := if (d.eccHard b w true).secondUe b then (d.eccHard b w true).fence b 2 else d.eccHard b w true

/-- Basin `b` with an uncorrectable error, or a correctable one, in word `w`. -/
def Dev.withBadWord (d : Dev) (b w : Nat) : Dev :=
  d.putBasin b { d.basin b with cis := { (d.basin b).cis with
    badWords := if w ∈ (d.basin b).cis.badWords then (d.basin b).cis.badWords else w :: (d.basin b).cis.badWords } }
theorem Dev.withBadWord_basin (d : Dev) (b w : Nat) : ∃ l, w ∈ l ∧
    (d.withBadWord b w).basin b = { d.basin b with cis := { (d.basin b).cis with badWords := l } } := ⟨_, mem_with, d.basin_putBasin b _⟩
def Dev.withSoftWord (d : Dev) (b w : Nat) : Dev :=
  d.putBasin b { d.basin b with cis := { (d.basin b).cis with
    softWords := if w ∈ (d.basin b).cis.softWords then (d.basin b).cis.softWords else w :: (d.basin b).cis.softWords } }

/-- The ECC word at a basin-local address. -/
def eccWord (addr : Nat) : Nat := addr / eccWidth addr * eccWidth addr

/-- The patrol of a word of a basin, by what it finds. -/
theorem cisternScrub_eq {b addr : Nat} (hb : b < 272) (haddr : addr < 0x440000) (finding : Nat) (d : Dev) :
    cisternScrub b addr finding d =
      if finding = 1 then d.eccSoft b (eccWord addr) true
      else if finding = 2 then (d.withBadWord b (eccWord addr)).scrubFound b (eccWord addr)
      else if finding = 3 then d.withSoftWord b (eccWord addr)
      else if finding = 4 then d.withBadWord b (eccWord addr)
      else if eccWord addr ∈ (d.basin b).cis.badWords then d.scrubFound b (eccWord addr)
      else if eccWord addr ∈ (d.basin b).cis.softWords then d.eccSoft b (eccWord addr) true
      else d := by
  have hguard : ¬ (¬ b < 272 ∨ 0x440000 ≤ addr) := by omega
  unfold cisternScrub
  rw [if_neg hguard]
  rfl

/-- The first uncorrectable error that is new is recorded and reported, and fences nothing. -/
theorem Dev.scrubFound_first {d : Dev} {b w : Nat} (hnew : (d.basin b).cis.lastUe ≠ some w) (hfirst : (d.basin b).cis.ueTimes = []) :
    ∃ c : CisRegs, (d.scrubFound b w).basins = (d.putBasin b { d.basin b with cis := c }).basins ∧ c.badWords = (d.basin b).cis.badWords
      ∧ c.lastUe = some w ∧ c.eccValid = true := by
  obtain ⟨c, hbasins, hbad, hlast, hvalid, hlen⟩ := Dev.eccHard_new hnew true
  have hb : (d.eccHard b w true).basin b = { d.basin b with cis := c } := by
    rw [Dev.basin, hbasins]
    exact d.basin_putBasin b _
  have hone : ¬ 2 ≤ c.ueTimes.length := by
    rw [hfirst] at hlen
    exact Nat.not_le.mpr (Nat.lt_succ_of_le hlen)
  refine ⟨c, ?_, hbad, hlast, hvalid⟩
  rw [Dev.scrubFound, if_neg (by simp [Dev.secondUe, hb, hone]), hbasins]

/-- From a device that differs in the ECC registers of basin `b` alone, a word with a first uncorrectable error is reported and left. -/
theorem Dev.scrubFound_reports {d v : Dev} {b w : Nat} {y : CisRegs} (hv : v.basin b = { d.basin b with cis := y })
    (hothers : ∀ n, n ≠ b → v.basin n = d.basin n) (hbad : w ∈ y.badWords) (hnew : y.lastUe ≠ some w) (hfirst : y.ueTimes = []) :
    let e := v.scrubFound b w
    w ∈ (e.basin b).cis.badWords ∧ (e.basin b).cis.lastUe = some w ∧ (e.basin b).cis.eccValid = true
      ∧ (e.basin b).store = (d.basin b).store ∧ (e.basin b).seq = (d.basin b).seq ∧ ∀ n, n ≠ b → e.basin n = d.basin n := by
  obtain ⟨c, hbasins, hwords, hlast, hvalid⟩ := Dev.scrubFound_first (d := v) (b := b) (w := w) (by rw [hv]; exact hnew) (by rw [hv]; exact hfirst)
  intro e
  have hb : e.basin b = { d.basin b with cis := c } := by
    rw [Dev.basin, hbasins, ← Dev.basin, Dev.basin_putBasin, hv]
  rw [hv] at hwords
  rw [hb]
  refine ⟨by rw [hwords]; exact hbad, hlast, hvalid, rfl, rfl, fun n hn => ?_⟩
  rw [Dev.basin, hbasins, ← Dev.basin, Dev.basin_putBasin_other _ _ _ _ hn, hothers n hn]

/-! ### Patrol scrubbing of the reservoir (R224) -/

/-- A unit lies in the controller of every address in it. -/
theorem ctrlOf_unit (addr : Nat) : ctrlOf (addr / 32 * 32) = ctrlOf addr := by
  have h1 : addr / 32 * 32 / 2 ^ 9 = addr / 2 ^ 9 := by omega
  have h2 : addr / 32 * 32 / 2 ^ 21 = addr / 2 ^ 21 := by omega
  simp only [ctrlOf, bitsOf, h1, h2]

/-- The reservoir with an uncorrectable error, or a correctable one, in unit `u`. -/
def Dev.withPoison (d : Dev) (u : Nat) : Dev :=
  d.setRsv { d.rsv with poison := if u ∈ d.rsv.poison then d.rsv.poison else u :: d.rsv.poison }
def Dev.withSoft (d : Dev) (u : Nat) : Dev := d.setRsv { d.rsv with soft := if u ∈ d.rsv.soft then d.rsv.soft else u :: d.rsv.soft }

/-- The patrol of a unit of the reservoir, by what it finds. -/
theorem reservoirScrub_eq {addr : Nat} (h : addr < 0x6000000000) (finding : Nat) (d : Dev) :
    reservoirScrub addr finding d =
      if finding = 1 then d.rsvSoft [addr / 32]
      else if finding = 2 then (d.withPoison (addr / 32)).rsvUe (addr / 32 * 32) true
      else if finding = 3 then d.withSoft (addr / 32)
      else if finding = 4 then d.withPoison (addr / 32)
      else if addr / 32 ∈ d.rsv.poison then d.rsvUe (addr / 32 * 32) true
      else if addr / 32 ∈ d.rsv.soft then d.rsvSoft [addr / 32]
      else d := by
  have hin : rsvPopulated addr 1 = true := decide_eq_true h
  unfold reservoirScrub
  rw [hin]
  rfl

/-- A corrected unit is counted by its controller and gone; bytes and poison stay. -/
theorem Dev.rsvSoft_unit (d : Dev) (addr : Nat) (hlen : d.rsv.ctrls.length = 8) : ∃ r : Rsv,
    d.rsvSoft [addr / 32] = d.setRsv r ∧ addr / 32 ∉ r.soft ∧ r.mem = d.rsv.mem ∧ r.poison = d.rsv.poison
      ∧ (r.ctrls.getD (ctrlOf addr) {}).cecnt = (d.ctrl (ctrlOf addr)).cecnt + 1 := by
  have hlt : ctrlOf addr < d.rsv.ctrls.length := hlen ▸ ctrlOf_lt addr
  refine ⟨_, rfl, by simp, rfl, rfl, ?_⟩
  simp [Dev.putCtrl, Dev.ctrl, ctrlOf_unit, List.getD_eq_getElem?_getD, hlt]

/-- The first uncorrectable error within a second is counted and logged by its controller and reported; bytes and poison stay. -/
theorem Dev.rsvUe_first {d : Dev} {addr : Nat} (hfirst : (d.ctrl (ctrlOf addr)).ueTimes = []) (scrub : Bool) : ∃ c : Ctrl,
    (d.rsvUe (addr / 32 * 32) scrub).rsv = { d.rsv with ctrls := d.rsv.ctrls.set (ctrlOf addr) c }
      ∧ c.uecnt = (d.ctrl (ctrlOf addr)).uecnt + 1 ∧ c.eccValid = true := by
  have hfew : ¬ 16 < ((d.ns :: (d.ctrl (ctrlOf addr)).ueTimes).filter (fun t => decide (d.ns < t + secNs))).length := by
    have := List.length_filter_le (fun t => decide (d.ns < t + secNs)) (d.ns :: (d.ctrl (ctrlOf addr)).ueTimes)
    rw [hfirst] at this ⊢
    simp only [List.length_cons, List.length_nil] at this
    omega
  let times := (d.ns :: (d.ctrl (ctrlOf addr)).ueTimes).filter (fun t => decide (d.ns < t + secNs))
  let c : Ctrl := { d.ctrl (ctrlOf addr) with
    uecnt := (d.ctrl (ctrlOf addr)).uecnt + 1, ueTimes := times.take 17, eccValid := true,
    eccAddr := if (d.ctrl (ctrlOf addr)).eccValid then (d.ctrl (ctrlOf addr)).eccAddr else addr / 32 * 32 }
  refine ⟨c, ?_, rfl, rfl⟩
  simp only [Dev.rsvUe, ctrlOf_unit, if_neg hfew]
  exact (Dev.raiseO_eventChange _ _ _ _ _ _).rsv

/-- A controller that is replaced reads as what it was replaced by. -/
theorem getD_set_ctrl {cs : List Ctrl} (hlen : cs.length = 8) (addr : Nat) (c : Ctrl) : (cs.set (ctrlOf addr) c).getD (ctrlOf addr) {} = c := by
  have hlt : ctrlOf addr < cs.length := hlen ▸ ctrlOf_lt addr
  simp [List.getD_eq_getElem?_getD, hlt]

end Sys2Proof.Machine

namespace Sys2Proof.Spec

open Sys2Proof Sys2Proof.Machine

/-- Settles O19: a fenced basin's router sinks what comes, and an open segment is read. -/
theorem weirRequestsAtABasin : Obligations.WeirRequestsAtABasin := by
  unfold Obligations.WeirRequestsAtABasin
  intro d b src dom h addr n ep read hq hb x sunk
  have sink := hq.gives (c := .routerSinkPacket b read) (fun _ => rfl)
  have remote := hq.gives (c := .remoteCisternRead b src ep dom h addr n) (fun _ => rfl)
  refine ⟨fun hfenced => ?_, fun hfenced => ?_, fun hopen hep hclean hin hseg hclaims => ?_, fun hopen hep hin hseg => ?_⟩
  · rwa [routerSinkPacket, if_pos ⟨hb, hfenced⟩] at sink
  · rwa [remoteCisternRead, if_neg (not_not_intro hb), if_pos hfenced] at remote
  all_goals
    simp only [remoteCisternRead, if_neg (not_not_intro hb), show (d.basin b).cis.weirFenced = false from hopen, hep, Bool.not_true,
      Bool.false_eq_true, if_false] at remote
  · rwa [Dev.remoteRead_of_open hclean hin hseg (Basin.writeClaimed_of_beside hclaims)] at remote
  · rwa [Dev.remoteRead_of_closed hseg] at remote

/-- Settles O20: each clause is one finding of a patrol. -/
theorem scrubbersReportTheirFindings : Obligations.ScrubbersReportTheirFindings := by
  unfold Obligations.ScrubbersReportTheirFindings
  intro d b addr hq
  refine ⟨fun hb haddr => ?cistern, fun haddr hlen hfirst => ?reservoir⟩
  case cistern =>
    intro w x
    have hw : w = eccWord addr := rfl
    have gives {f : Nat} {e : Dev} (h : cisternScrub b addr f d = e) : Gives (.cisternScrub b addr f) d e := h ▸ hq.gives (fun _ => rfl)
    have corrected {f : Nat} (h : cisternScrub b addr f d = d.eccSoft b w true) : ∃ e, Gives (.cisternScrub b addr f) d e
        ∧ (e.basin b).cis.cecnt = x.cis.cecnt + 1 ∧ w ∉ (e.basin b).cis.softWords ∧ (e.basin b).store = x.store ∧ (e.basin b).seq = x.seq := by
      obtain ⟨c, hbasin, hcount, hgone⟩ := d.eccSoft_basin b w true
      refine ⟨_, gives h, ?_⟩
      rw [hbasin]
      exact ⟨hcount, hgone, rfl, rfl⟩
    obtain ⟨bad, hmem, hbroken⟩ := d.withBadWord_basin b w
    refine ⟨fun hbad hsoft => gives ?clean, ⟨corrected ?one, fun hbad hsoft => corrected ?softened⟩,
      fun hnew _ hfirst => ⟨?broken, fun hbad => ?bad⟩, ⟨d.withSoftWord b w, gives ?three, ?_, rfl⟩,
      ⟨d.withBadWord b w, gives ?four, ?_, rfl⟩⟩
    case one => simp [cisternScrub_eq hb haddr, ← hw]
    case three => simp [cisternScrub_eq hb haddr, ← hw]
    case four => simp [cisternScrub_eq hb haddr, ← hw]
    case clean => simp [cisternScrub_eq hb haddr, ← hw, hbad, hsoft, x]
    case softened => simp [cisternScrub_eq hb haddr, ← hw, hbad, hsoft, x]
    case broken =>
      exact ⟨_, gives (e := (d.withBadWord b w).scrubFound b w) (by simp [cisternScrub_eq hb haddr, ← hw]),
        Dev.scrubFound_reports hbroken (fun n hn => d.basin_putBasin_other b n _ hn) hmem hnew hfirst⟩
    case bad =>
      exact ⟨_, gives (e := d.scrubFound b w) (by simp [cisternScrub_eq hb haddr, ← hw, hbad, x]),
        Dev.scrubFound_reports (d := d) rfl (fun _ _ => rfl) hbad hnew hfirst⟩
    · simp [Dev.withSoftWord, mem_with]
    · rw [hbroken]
      exact hmem
  case reservoir =>
    intro c u
    have gives {f : Nat} {e : Dev} (h : reservoirScrub addr f d = e) : Gives (.reservoirScrub addr f) d e := h ▸ hq.gives (fun _ => rfl)
    have corrected {f : Nat} (h : reservoirScrub addr f d = d.rsvSoft [u]) : ∃ e, Gives (.reservoirScrub addr f) d e ∧ e = { d with rsv := e.rsv }
        ∧ u ∉ e.rsv.soft ∧ (e.ctrl (ctrlOf addr)).cecnt = c.cecnt + 1 ∧ e.rsv.mem = d.rsv.mem ∧ e.rsv.poison = d.rsv.poison := by
      obtain ⟨r, hr, hsoft, hmem, hpoison, hcount⟩ := d.rsvSoft_unit addr hlen
      exact ⟨d.setRsv r, gives (h.trans hr), rfl, hsoft, hcount, hmem, hpoison⟩
    have reported {f : Nat} {v : Dev} (h : reservoirScrub addr f d = v.rsvUe (u * 32) true) (hmem : v.rsv.mem = d.rsv.mem)
        (hctrls : v.rsv.ctrls = d.rsv.ctrls) (hpoison : u ∈ v.rsv.poison) : ∃ e, Gives (.reservoirScrub addr f) d e ∧ u ∈ e.rsv.poison
        ∧ e.rsv.mem = d.rsv.mem ∧ (e.ctrl (ctrlOf addr)).uecnt = c.uecnt + 1 ∧ (e.ctrl (ctrlOf addr)).eccValid = true := by
      have hctrl : v.ctrl (ctrlOf addr) = c := by rw [Dev.ctrl, hctrls]; rfl
      obtain ⟨k, hrsv, hcount, hvalid⟩ := Dev.rsvUe_first (d := v) (by rw [hctrl]; exact hfirst) true
      refine ⟨_, gives h, ?_⟩
      rw [Dev.ctrl, hrsv, getD_set_ctrl (by rw [hctrls]; exact hlen), ← hctrl]
      exact ⟨hpoison, hmem, hcount, hvalid⟩
    refine ⟨fun hpoison hsoft => gives ?clean, ⟨corrected ?one, fun hpoison hsoft => corrected ?softened⟩,
      ⟨reported (v := d.withPoison u) ?two rfl rfl mem_with, fun hpoison => reported (v := d) ?bad rfl rfl hpoison⟩,
      ⟨d.withSoft u, gives ?three, rfl, mem_with⟩, ⟨d.withPoison u, gives ?four, rfl, mem_with⟩⟩
    case clean => simp [reservoirScrub_eq haddr, hpoison, hsoft, u]
    case softened => simp [reservoirScrub_eq haddr, hpoison, hsoft, u]
    case bad => simp [reservoirScrub_eq haddr, hpoison, u]
    case one => simp [reservoirScrub_eq haddr, u]
    case two => simp [reservoirScrub_eq haddr, u]
    case three => simp [reservoirScrub_eq haddr, u]
    case four => simp [reservoirScrub_eq haddr, u]

end Sys2Proof.Spec
end

section
/-! PROOFS. Reset (R6, R208, R222, R267, R322, R401, R427, R431, R435, R444): what its registers and stores read, and the obligation it
settles. -/

namespace Sys2Proof.Spec

open Sys2Proof Sys2Proof.Machine

/-- Every basin is as after reset: no table of the reset state lists anything. -/
theorem reset_basin (b : Nat) : Machine.State.reset.dev.basin b = Basin.reset := rfl

/-- Settles O58: the registers are read one by one; everything else is a look-up in a table that lists nothing. -/
theorem resetLeavesTheGivenValues : Obligations.ResetLeavesTheGivenValues := by
  unfold Obligations.ResetLeavesTheGivenValues
  refine ⟨rfl, ?registers, fun b => ?basin, fun _ => rfl, fun _ => rfl, rfl, fun _ => ⟨rfl, rfl⟩, rfl, fun _ => rfl, fun _ => rfl, rfl, rfl⟩
  case registers => decide +kernel
  case basin =>
    simp only [sreg, reset_basin]
    refine ⟨fun k h => ?segment, fun _ => rfl, rfl, rfl, fun k => ?scalar⟩
    case segment => cases h
    case scalar => exact ite_self _

end Sys2Proof.Spec
end

section
/-! PROOFS. Slot strobes (R20, R29, R225, R239, R240, R399): what of a strobe leaves the delivery of runs alone, what is delivered, and the
obligation they settle. -/

namespace Sys2Proof.Machine

open Sys2Proof Sys2Proof.Spec

/-! ### What leaves the delivery of runs alone -/

/-- From `d` to `e` nothing that a strobe delivers or is delivered by has changed: the basins, the cadence unit, the controllers and where
each logical basin stands. -/
structure Dev.SameSlot (d e : Dev) : Prop where
  basins : e.basins = d.basins
  cad : e.cad = d.cad
  ctrls : e.rsv.ctrls = d.rsv.ctrls
  phys : ∀ l, e.physOf l = d.physOf l

theorem Dev.SameSlot.refl (d : Dev) : d.SameSlot d := ⟨rfl, rfl, rfl, fun _ => rfl⟩

theorem Dev.SameSlot.trans {a b c : Dev} (hab : a.SameSlot b) (hbc : b.SameSlot c) : a.SameSlot c :=
  ⟨hbc.basins.trans hab.basins, hbc.cad.trans hab.cad, hbc.ctrls.trans hab.ctrls, fun l => (hbc.phys l).trans (hab.phys l)⟩

theorem Dev.SameSlot.ite {d x y : Dev} {c : Prop} [Decidable c] (hx : d.SameSlot x) (hy : d.SameSlot y) : d.SameSlot (if c then x else y) := by
  split
  · exact hx
  · exact hy

theorem Dev.SameSlot.foldl {α : Type} {f : Dev → α → Dev} (hf : ∀ d x, Dev.SameSlot d (f d x)) (l : List α) (d : Dev) :
    d.SameSlot (l.foldl f d) := by
  induction l generalizing d with
  | nil => exact .refl d
  | cons x l ih => exact (hf d x).trans (ih (f d x))

theorem LinkChange.sameSlot {d e : Dev} (h : LinkChange d e) : d.SameSlot e := by
  obtain ⟨_, _, _, _, _, _, _, rfl⟩ := h
  exact ⟨rfl, rfl, rfl, fun _ => rfl⟩
theorem EventChange.sameSlot {d e : Dev} (h : EventChange d e) : d.SameSlot e := h.linkChange.sameSlot

theorem Dev.setStreams_sameSlot (d : Dev) (ss : Tab Stream) : d.SameSlot (d.setStreams ss) := ⟨rfl, rfl, rfl, fun _ => rfl⟩
theorem Dev.setTrains_sameSlot (d : Dev) (ts : Tab Train) : d.SameSlot (d.setTrains ts) := ⟨rfl, rfl, rfl, fun _ => rfl⟩
theorem Dev.setPow_sameSlot (d : Dev) (p : Power) : d.SameSlot (d.setPow p) := ⟨rfl, rfl, rfl, fun _ => rfl⟩
theorem Dev.setMd_sameSlot (d : Dev) (m : Mod) : d.SameSlot (d.setMd m) := ⟨rfl, rfl, rfl, fun _ => rfl⟩
theorem Dev.setPair_sameSlot (d : Dev) (p : Pair) : d.SameSlot (d.setPair p) := ⟨rfl, rfl, rfl, fun _ => rfl⟩

/-! ### Runs that a slot's end finds unstarted (R23, R347) -/

theorem Dev.closePeriod_sameSlot (d : Dev) (i : Nat) : d.SameSlot (d.closePeriod i) := by
  obtain ⟨ts, ss, h⟩ := d.closePeriod_frame i
  rw [h]
  exact ⟨rfl, rfl, rfl, fun _ => rfl⟩

theorem Dev.missed_sameSlot (d : Dev) (i : Nat) (s : Stream) (p : Period) (held : Bool) : d.SameSlot (d.missed i s p held) := by
  unfold Dev.missed
  split
  · exact (d.setStreams_sameSlot _).trans (Dev.raiseS_eventChange _ _ _ _ _ _ _).sameSlot
  · exact d.setStreams_sameSlot _

theorem Dev.take_sameSlot (d : Dev) (r : Run) : d.SameSlot (d.take r) := by
  have hclosed : d.SameSlot (if (d.stream (runIndex r)).period.isSome then d.closePeriod (runIndex r) else d) :=
    .ite (d.closePeriod_sameSlot _) (.refl d)
  unfold Dev.take
  dsimp only
  generalize (if (d.stream (runIndex r)).period.isSome then d.closePeriod (runIndex r) else d) = w at hclosed ⊢
  split
  · exact .ite (hclosed.trans (w.setStreams_sameSlot _)) (hclosed.trans (w.missed_sameSlot _ _ _ _))
  · exact hclosed.trans (w.missed_sameSlot _ _ _ _)

theorem Dev.trainBegin_sameSlot (d : Dev) (i : Nat) : d.SameSlot (d.trainBegin i) := by
  unfold Dev.trainBegin
  split
  · exact d.setTrains_sameSlot _
  · exact .refl d

theorem Dev.takeFor_sameSlot (d : Dev) (r : Run) : d.SameSlot (d.takeFor r) := by
  unfold Dev.takeFor
  dsimp only
  exact .ite (.refl d) ((d.take_sameSlot r).trans (Dev.trainBegin_sameSlot _ _))

theorem Dev.failRun_sameSlot (d : Dev) (r : Run) (code : Nat) : d.SameSlot (d.failRun r code) := by
  obtain ⟨ss, h⟩ := d.failRun_frame r code
  rw [h]
  exact ⟨rfl, rfl, rfl, fun _ => rfl⟩

theorem Dev.postEnds_sameSlot (d : Dev) (r : Run) (fin : Nat) : d.SameSlot (d.postEnds r fin) := by
  obtain ⟨ts, ss, h⟩ := d.postEnds_frame r fin
  rw [h]
  exact ⟨rfl, rfl, rfl, fun _ => rfl⟩

theorem Dev.slotOver_sameSlot (d : Dev) : d.SameSlot d.slotOver :=
  (Dev.SameSlot.foldl (fun d r => ((d.takeFor_sameSlot r).trans (Dev.failRun_sameSlot _ r _)).trans (Dev.postEnds_sameSlot _ r _)) _ d).trans
    (Dev.SameSlot.foldl (fun d (r : Nat × Run) => (d.failRun_sameSlot r.2 _).trans (Dev.postEnds_sameSlot _ r.2 _)) _ _)

/-! ### The governor (R29, R399, R400) -/

theorem Dev.trimSwitch_sameSlot (d : Dev) : d.SameSlot d.trimSwitch := by
  unfold Dev.trimSwitch
  split
  · split
    · exact (d.setPow_sameSlot _).trans (Dev.raiseO_eventChange _ _ _ _ _ _).sameSlot
    · exact .refl d
  · exact .refl d

/-- A new basin clock moves the end of a restore and no basin. -/
theorem Dev.setClock_sameSlot (d : Dev) (p : Power) : d.SameSlot (d.setClock p) := by
  refine ⟨rfl, rfl, rfl, fun l => ?_⟩
  have hrow : ∀ r : SpareRow, (r.reclock d.ns d.pow.bclk p.bclk).fcol = r.fcol ∧ (r.reclock d.ns d.pow.bclk p.bclk).spstate = r.spstate
      ∧ (r.reclock d.ns d.pow.bclk p.bclk).fenced = r.fenced := by
    intro r
    unfold SpareRow.reclock
    split
    · dsimp only
      split <;> exact ⟨rfl, rfl, rfl⟩
    · exact ⟨rfl, rfl, rfl⟩
  obtain ⟨hcol, hstate, hfenced⟩ := Tab.at_mapv_rel (t := d.flt.rows) (f := fun _ r => r.reclock d.ns d.pow.bclk p.bclk) (d := {}) (k := l / 16)
    (R := fun (x y : SpareRow) => y.fcol = x.fcol ∧ y.spstate = x.spstate ∧ y.fenced = x.fenced) ⟨rfl, rfl, rfl⟩ hrow
  simp only [Dev.physOf, Dev.setClock, Dev.setFlt_flt, hcol, hstate, hfenced]

theorem Dev.governor_sameSlot (d : Dev) (m : Readings) (traffic slen : Nat) : d.SameSlot (d.governor m traffic slen) := by
  unfold Dev.governor
  dsimp only
  exact .ite ((d.setClock_sameSlot _).trans ((Dev.setPow_sameSlot _ _).trans (Dev.raiseO_eventChange _ _ _ _ _ _).sameSlot)) (d.setClock_sameSlot _)

theorem Dev.monitor_sameSlot (d : Dev) (m : Readings) : d.SameSlot (d.monitor m) := ⟨rfl, rfl, rfl, fun _ => rfl⟩
theorem Dev.setTherm_sameSlot (d : Dev) : d.SameSlot d.setTherm := ⟨rfl, rfl, rfl, fun _ => rfl⟩

/-! ### Resynchronisation and the heartbeat (R330, R333, R341) -/

theorem Dev.sendBytes_linkChange (d : Dev) (p cls rtag bucket plo : Nat) (bs : List Byte) : LinkChange d (d.sendBytes p cls rtag bucket plo bs) := by
  unfold Dev.sendBytes
  generalize (blocks (bs.length + 1) 4096 bs).zipIdx = cs
  induction cs generalizing d with
  | nil => exact .refl d
  | cons c cs ih => exact ((d.putPort_linkChange p _).trans (Dev.egress_linkChange _ _ _)).trans (ih _)

theorem Dev.sendOwed_linkChange (d : Dev) : LinkChange d d.sendOwed := by
  have hall (os : List (Nat × Nat × List Byte)) (e : Dev) : LinkChange e (os.foldl (fun d o =>
      let d := d.sendMsg o.2.1 o.1 o.2.2
      if o.2.1 = 3 then d.setPair { d.pair with posts := d.pair.posts + 1 } else d) e) := by
    induction os generalizing e with
    | nil => exact .refl e
    | cons o os ih =>
      refine LinkChange.trans ?_ (ih _)
      exact (e.sendMsg_linkChange _ _ _).trans (.ite (Dev.setPair_linkChange _ _) (.refl _))
  exact ((d.setPair_linkChange _).trans (Dev.setPair_linkChange _ _)).trans (hall _ _)

theorem Dev.resync_sameSlot (d : Dev) (i boundary : Nat) : d.SameSlot (d.resync i boundary) := by
  unfold Dev.resync
  dsimp only
  refine .ite (.refl d) (.ite ?_ (d.setStreams_sameSlot _))
  have hmoved (e : Dev) (n : Nat) : e.SameSlot (e.setRsv (e.rsv.moved n)) := ⟨rfl, rfl, rfl, fun _ => rfl⟩
  exact ((d.setStreams_sameSlot _).trans (hmoved _ _)).trans
    ((((Dev.sendMsg_linkChange _ _ _ _).trans (Dev.sendBytes_linkChange _ _ _ _ _ _ _)).trans (Dev.setPair_linkChange _ _)).trans
      (Dev.sendOwed_linkChange _)).sameSlot

theorem Dev.startResyncs_sameSlot (d : Dev) (now : Nat) : d.SameSlot (d.startResyncs now) :=
  (d.setPair_sameSlot _).trans (Dev.SameSlot.foldl (fun d _ =>
    (Dev.SameSlot.ite (d.setStreams_sameSlot _) (.refl d)).trans (Dev.resync_sameSlot _ _ _)) _ _)

theorem Dev.hbSend_linkChange (d : Dev) : LinkChange d d.hbSend := by
  have hjoin : LinkChange d d.joinAgain := (LinkChange.ite (d.setPairState_linkChange 1) (.refl d)).trans (Dev.sendJoin_linkChange _)
  unfold Dev.hbSend
  dsimp only
  exact .ite (.refl d) ((LinkChange.ite hjoin (.refl d)).trans ((Dev.sendMsg_linkChange _ _ _ _).trans (Dev.setPair_linkChange _ _)))

/-! ### Delivery (R20, R240) -/

/-- From `d` to `e` runs have been delivered for a slot to come, and nothing else has changed: what basins start from, the controllers, the
spare map, and the cadence unit but for the runs of absent basins and for what has been delivered. -/
structure Dev.Delivers (d e : Dev) : Prop where
  flt : e.flt = d.flt
  rsv : e.rsv = d.rsv
  cad : e.cad = { d.cad with absentNext := e.cad.absentNext, ahead := e.cad.ahead }
  delivered : ∀ n, (e.basin n).delivered = (d.basin n).delivered

theorem Dev.Delivers.refl (d : Dev) : d.Delivers d := ⟨rfl, rfl, rfl, fun _ => rfl⟩

theorem Dev.Delivers.trans {a b c : Dev} (hab : a.Delivers b) (hbc : b.Delivers c) : a.Delivers c := by
  refine ⟨hbc.flt.trans hab.flt, hbc.rsv.trans hab.rsv, ?_, fun n => (hbc.delivered n).trans (hab.delivered n)⟩
  rw [hbc.cad, hab.cad]

theorem Dev.Delivers.phys {d e : Dev} (h : d.Delivers e) (l : Nat) : e.physOf l = d.physOf l := by rw [Dev.physOf, h.flt]; rfl

theorem mem_insertRun {r x : Run} {l : List Run} : x ∈ insertRun r l ↔ x = r ∨ x ∈ l := by
  induction l with
  | nil => simp [insertRun]
  | cons y ys ih =>
    rw [insertRun]
    split
    · simp
    · simp only [List.mem_cons, ih]
      tauto

theorem Dev.deliverRun_delivers (d : Dev) (r : Run) : d.Delivers (d.deliverRun r) := by
  unfold Dev.deliverRun
  split
  case h_1 b _ =>
    refine ⟨rfl, rfl, rfl, fun n => ?_⟩
    by_cases h : n = b
    · subst h
      rw [Dev.basin_putBasin]
    · rw [Dev.basin_putBasin_other _ _ _ _ h]
  case h_2 => exact ⟨rfl, rfl, rfl, fun _ => rfl⟩

/-- A run that a basin, or the list of absent basins, is to have is kept through the delivery of others. -/
theorem Dev.deliverRun_keeps (d : Dev) (q r : Run) :
    (∀ b, r ∈ (d.basin b).coming → r ∈ ((d.deliverRun q).basin b).coming) ∧ (r ∈ d.cad.absentNext → r ∈ (d.deliverRun q).cad.absentNext) := by
  unfold Dev.deliverRun
  split
  case h_1 c _ =>
    refine ⟨fun b h => ?_, id⟩
    by_cases hb : b = c
    · subst hb
      rw [Dev.basin_putBasin]
      exact mem_insertRun.mpr (Or.inr h)
    · rwa [Dev.basin_putBasin_other _ _ _ _ hb]
  case h_2 => exact ⟨fun b h => h, fun h => mem_insertRun.mpr (Or.inr h)⟩

/-- Where a run of a logical basin is delivered: to the basin that carries its number, or to the list of absent basins. -/
def Dev.Placed (d e : Dev) (r : Run) : Prop :=
  (∀ b, d.physOf r.lbasin = some b → r ∈ (e.basin b).coming) ∧ (d.physOf r.lbasin = none → r ∈ e.cad.absentNext)

theorem Dev.deliverRun_placed (d : Dev) (r : Run) : d.Placed (d.deliverRun r) r := by
  refine ⟨fun b h => ?_, fun h => ?_⟩
  · simp [Dev.deliverRun, h, mem_insertRun]
  · simp [Dev.deliverRun, h, mem_insertRun]

theorem Dev.Placed.deliverRun {d e : Dev} {r : Run} (h : d.Placed e r) (q : Run) : d.Placed (e.deliverRun q) r :=
  ⟨fun b hb => (e.deliverRun_keeps q r).1 b (h.1 b hb), fun hn => (e.deliverRun_keeps q r).2 (h.2 hn)⟩

theorem Dev.Placed.of_phys {d w e : Dev} {r : Run} (h : w.Placed e r) (hphys : ∀ l, w.physOf l = d.physOf l) : d.Placed e r := by
  rwa [Dev.Placed, hphys] at h

theorem Dev.Placed.foldl_deliverRun {d e : Dev} {r : Run} (h : d.Placed e r) (l : List Run) : d.Placed (l.foldl Dev.deliverRun e) r := by
  induction l generalizing e with
  | nil => exact h
  | cons q l ih => exact ih (h.deliverRun q)

/-- All the runs of a slot are delivered, each to its basin. -/
theorem Dev.foldl_deliverRun (l : List Run) (d : Dev) :
    d.Delivers (l.foldl Dev.deliverRun d) ∧ ∀ r ∈ l, d.Placed (l.foldl Dev.deliverRun d) r := by
  induction l generalizing d with
  | nil => exact ⟨.refl d, fun r hr => by cases hr⟩
  | cons q l ih =>
    obtain ⟨hrest, hplaced⟩ := ih (d.deliverRun q)
    refine ⟨(d.deliverRun_delivers q).trans hrest, fun r hr => ?_⟩
    obtain rfl | hr := List.mem_cons.mp hr
    · exact (d.deliverRun_placed r).foldl_deliverRun l
    · exact (hplaced r hr).of_phys (d.deliverRun_delivers q).phys

/-- The runs of a slot are delivered afresh, unless a release holds them back (R438). -/
theorem Dev.deliverSlot_spec {d : Dev} {copy : Nat} {t : Table} (htable : d.cad.table copy = some t) (a start : Nat) :
    d.Delivers (d.deliverSlot copy a start)
      ∧ (d.cad.holdUntil ≤ start → 0 < t.nslot → ∀ r ∈ Tab.at t.runs [] (a % t.nslot), d.Placed (d.deliverSlot copy a start) r) := by
  let v := (d.setCad { d.cad with ahead := some (copy, a), absentNext := [] }).setBasins (Tab.mapv d.basins (fun _ x => { x with coming := [] }))
  have hv : d.Delivers v := by
    refine ⟨rfl, rfl, rfl, fun n => ?_⟩
    exact Tab.at_mapv_rel (t := d.basins) (d := Basin.reset) (f := fun _ x => { x with coming := [] })
      (R := fun (x y : Basin) => y.delivered = x.delivered) rfl (fun _ => rfl)
  obtain ⟨hdelivers, hplaced⟩ := v.foldl_deliverRun (Tab.at t.runs [] (a % t.nslot))
  have heq : d.deliverSlot copy a start
      = if start < d.cad.holdUntil ∨ t.nslot = 0 then v else (Tab.at t.runs [] (a % t.nslot)).foldl Dev.deliverRun v := by
    unfold Dev.deliverSlot
    rw [htable]
    rfl
  rw [heq]
  refine ⟨?_, fun hhold hslots r hr => ?_⟩
  · split
    · exact hv
    · exact hv.trans hdelivers
  · rw [if_neg (by omega)]
    exact (hplaced r hr).of_phys hv.phys

/-- What was delivered for a slot becomes what its basins start from. -/
theorem Dev.takeDelivered_delivered (d : Dev) (n : Nat) : (d.takeDelivered.basin n).delivered = (d.basin n).coming :=
  Tab.at_mapv_rel (t := d.basins) (d := Basin.reset) (f := fun _ x => { x with delivered := x.coming, coming := [] })
    (R := fun (x y : Basin) => y.delivered = x.coming) rfl (fun _ => rfl)

/-! ### The strobe -/

theorem Cad.table_of_activeTable {c : Cad} {t : Table} (h : c.activeTable = some t) : c.table c.copy = some t := by
  rwa [Cad.activeTable, if_pos (Cad.active_of_activeTable h)] at h

/-- From `c` to `e` the cadence unit has moved to slot `a` of table `t`, at its start or later. -/
def Cad.MovedTo (c e : Cad) (t : Table) (a : Nat) : Prop :=
  max c.ct ((t.fstart + a * t.slen) * 65536) ≤ e.ct ∧ e = { c with
    ct := e.ct, slew := e.slew, ptmErr := e.ptmErr, slot := a % t.nslot, frameInTable := a / t.nslot, strobed := true, slots := e.slots, frame := e.frame }

/-- A strobe as far as the delivery of runs: the device stands at the start of slot `a` of table `t`, with the slot's budgets loaded; what was
delivered during the slot before is as it was. -/
structure Dev.SlotBegun (d : Dev) (t : Table) (a : Nat) (v : Dev) : Prop where
  cad : d.cad.MovedTo v.cad t a
  coming : ∀ n, (v.basin n).coming = (d.basin n).coming
  used : ∀ n, n < d.rsv.ctrls.length → (v.ctrl n).used = []
  phys : ∀ l, v.physOf l = d.physOf l

theorem Dev.loadBudgets_used (d : Dev) (l : List (Nat × Nat)) (n : Nat) : ((d.loadBudgets l).ctrl n).used = [] := by
  simp only [Dev.loadBudgets, Dev.ctrl, Dev.setRsv_rsv, List.getD_eq_getElem?_getD, List.getElem?_map]
  cases d.rsv.ctrls[n]? <;> rfl

theorem Dev.SlotBegun.sameSlot {d v w : Dev} {t : Table} {a : Nat} (h : d.SlotBegun t a v) (hw : v.SameSlot w) : d.SlotBegun t a w := by
  refine ⟨by rw [hw.cad]; exact h.cad, fun n => ?_, fun n hn => ?_, fun l => (hw.phys l).trans (h.phys l)⟩
  · rw [Dev.basin, hw.basins]
    exact h.coming n
  · rw [Dev.ctrl, hw.ctrls]
    exact h.used n hn

/-- The delivery of a strobe: the slot's own runs where they were not delivered before, then those of the next slot. -/
def Dev.strobeDelivery (v : Dev) (t : Table) (a : Nat) : Dev :=
  (if v.cad.ahead = some (v.cad.copy, a) then v else v.deliverSlot v.cad.copy a (t.fstart + a * t.slen)).takeDelivered.deliverNext t (a + 1)

/-- The slots counted when slot `a` begins: those whose strobe was not driven are passed over. -/
def Dev.slotCount (d : Dev) (t : Table) (a : Nat) : Nat :=
  let cur := d.cad.frameInTable * t.nslot + d.cad.slot
  if d.cad.strobed then d.cad.slots + (a - cur - 1) else d.cad.slots + (a - cur)

/-- A strobe's device `w` at the start of slot `a`, which CT had not reached in `d`: what the slot before left unstarted has failed, and the
cadence unit shows the new slot. -/
def Dev.slotEntered (d w : Dev) (t : Table) (a : Nat) : Dev :=
  w.slotOver.setCad { w.slotOver.cad with
    slot := a % t.nslot, frameInTable := a / t.nslot, strobed := true, slots := d.slotCount t a + 1,
    frame := d.cad.frame + BitVec.ofNat 64 (a / t.nslot - d.cad.frameInTable) }

/-- The governor's part of a strobe (R384, R399, R400). -/
def Dev.slotGoverned (w : Dev) (m : Readings) (t : Table) : Dev := (w.trimSwitch.governor m w.rsv.slotBytes t.slen).setTherm

/-- Budgets, generators and the bookkeeping of faults as a slot begins (R225, R276, R347, R352). -/
def Dev.slotOpened (w : Dev) (t : Table) (k n : Nat) : Dev :=
  let w := (w.setRsv { w.rsv with slotBytes := 0 }).loadBudgets (Tab.at t.budgets [] k)
  let w := w.setBasins (Tab.mapv w.basins (fun _ x => x.slotReseed w.boot.devseed n))
  w.setFlt { w.flt with changed := [], replays := [], replayAt := [], reissue := [], reissueDue := w.flt.reissueDue ++ w.flt.reissue }

theorem Dev.slotEntered_spec (d : Dev) (m : Readings) (t : Table) (a : Nat) :
    let e := d.slotEntered ((d.atNs (t.fstart + a * t.slen)).monitor m) t a
    d.cad.MovedTo e.cad t a ∧ e.basins = d.basins ∧ ∀ l, e.physOf l = d.physOf l := by
  have h := ((d.atNs (t.fstart + a * t.slen)).monitor m).slotOver_sameSlot
  refine ⟨?_, h.basins, h.phys⟩
  simp only [Cad.MovedTo, Dev.slotEntered, Dev.setCad_cad, h.cad]
  exact ⟨Nat.le_refl _, rfl⟩

theorem Dev.slotGoverned_sameSlot (w : Dev) (m : Readings) (t : Table) : w.SameSlot (w.slotGoverned m t) :=
  (w.trimSwitch_sameSlot.trans (Dev.governor_sameSlot _ _ _ _)).trans (Dev.setTherm_sameSlot _)

theorem Dev.slotOpened_coming (w : Dev) (t : Table) (k n b : Nat) : ((w.slotOpened t k n).basin b).coming = (w.basin b).coming :=
  Tab.at_mapv_rel (t := w.basins) (d := Basin.reset) (f := fun _ x => x.slotReseed w.boot.devseed n)
    (R := fun (x y : Basin) => y.coming = x.coming) rfl (fun _ => rfl)

/-- The device of a strobe, before anything is delivered, from the device `w` at the slot's start. -/
def Dev.slotStarted (d w : Dev) (m : Readings) (t : Table) (a : Nat) : Dev :=
  let v := ((d.slotEntered w t a).slotGoverned m t).slotOpened t (a % t.nslot) (d.slotCount t a)
  if a % t.nslot = 0 then v.startResyncs (t.fstart + a * t.slen) else v

theorem Dev.slotStarted_slotBegun (d : Dev) (m : Readings) (t : Table) (a : Nat) :
    d.SlotBegun t a (d.slotStarted ((d.atNs (t.fstart + a * t.slen)).monitor m) m t a) := by
  obtain ⟨hcad, hbasins, hphys⟩ := d.slotEntered_spec m t a
  let w := d.slotEntered ((d.atNs (t.fstart + a * t.slen)).monitor m) t a
  have hgov := w.slotGoverned_sameSlot m t
  have hopened : d.SlotBegun t a ((w.slotGoverned m t).slotOpened t (a % t.nslot) (d.slotCount t a)) := by
    refine ⟨hgov.cad.symm ▸ hcad, fun b => ?_, fun k _ => ?_, fun l => ?_⟩
    · rw [Dev.slotOpened_coming, Dev.basin, hgov.basins, hbasins]
      rfl
    · exact Dev.loadBudgets_used _ _ k
    · exact (hgov.phys l).trans (hphys l)
  exact hopened.sameSlot (.ite (Dev.startResyncs_sameSlot _ _) (.refl _))

/-- The end of a strobe: the pair's posts of the slot are put by, and the heartbeat is sent (R333). -/
def Dev.strobeEnd (d : Dev) : Dev := (d.setPair { d.pair with prevPosts := d.pair.posts, posts := 0, hbDone := false }).hbSend

/-- The stages of a strobe under an active table. -/
theorem slotStrobe_stages {d : Dev} {t : Table} (htable : d.cad.activeTable = some t) (m : Readings) :
    slotStrobe m d =
      if t.slen = 0 ∨ t.nslot = 0 then d
      else if (d.cad.swapAt.any (fun w => decide (w ≤ t.fstart + d.nextSlot t * t.slen))
          || (d.cad.stepPend.isSome && decide (d.cad.frameInTable < d.nextSlot t / t.nslot))) = true then d
      else if 3 ≤ ((d.atNs (t.fstart + d.nextSlot t * t.slen)).due.monitor m).pow.avsFails then
        ((d.atNs (t.fstart + d.nextSlot t * t.slen)).due.monitor m).moduleFatal
      else ((d.slotStarted ((d.atNs (t.fstart + d.nextSlot t * t.slen)).due.monitor m) m t (d.nextSlot t)).strobeDelivery t (d.nextSlot t)).strobeEnd := by
  unfold slotStrobe
  rw [htable]
  rfl

/-- What a strobe's delivery makes of the device: what came before is handed over, or else the slot's own runs, and the next slot's runs come. -/
theorem Dev.strobeDelivery_spec {v : Dev} {t : Table} (hswap : v.cad.swapAt = none) (htable : v.cad.table v.cad.copy = some t) (a : Nat) :
    let e := v.strobeDelivery t a
    e.rsv = v.rsv ∧ e.cad = { v.cad with absent := e.cad.absent, absentNext := e.cad.absentNext, ahead := e.cad.ahead }
      ∧ (v.cad.ahead = some (v.cad.copy, a) → (∀ n, (e.basin n).delivered = (v.basin n).coming) ∧ e.cad.absent = v.cad.absentNext)
      ∧ (v.cad.ahead ≠ some (v.cad.copy, a) → v.cad.holdUntil ≤ t.fstart + a * t.slen → 0 < t.nslot →
          ∀ r ∈ Tab.at t.runs [] (a % t.nslot),
            (∀ b, v.physOf r.lbasin = some b → r ∈ (e.basin b).delivered) ∧ (v.physOf r.lbasin = none → r ∈ e.cad.absent))
      ∧ (v.cad.holdUntil ≤ t.fstart + (a + 1) * t.slen → 0 < t.nslot →
          ∀ r ∈ Tab.at t.runs [] ((a + 1) % t.nslot), v.Placed e r) := by
  let w := if v.cad.ahead = some (v.cad.copy, a) then v else v.deliverSlot v.cad.copy a (t.fstart + a * t.slen)
  obtain ⟨hdelivers, hplaced⟩ := Dev.deliverSlot_spec htable a (t.fstart + a * t.slen)
  have hw : v.Delivers w := by
    unfold w
    split
    · exact .refl v
    · exact hdelivers
  have hwcad : w.takeDelivered.cad = { v.cad with absent := w.cad.absentNext, absentNext := [], ahead := none } := by
    rw [Dev.takeDelivered, Dev.setCad_cad, hw.cad]
  have htable' : w.takeDelivered.cad.table w.takeDelivered.cad.copy = some t := by rw [hwcad]; exact htable
  have hnext : w.takeDelivered.deliverNext t (a + 1)
      = w.takeDelivered.deliverSlot w.takeDelivered.cad.copy (a + 1) (t.fstart + (a + 1) * t.slen) := by
    unfold Dev.deliverNext
    dsimp only
    rw [if_neg (by rw [hwcad]; simp [hswap])]
  obtain ⟨hdelivers', hplaced'⟩ := Dev.deliverSlot_spec htable' (a + 1) (t.fstart + (a + 1) * t.slen)
  intro e
  have he : e = w.takeDelivered.deliverSlot w.takeDelivered.cad.copy (a + 1) (t.fstart + (a + 1) * t.slen) := hnext
  rw [← he] at hdelivers' hplaced'
  have habsent : e.cad.absent = w.cad.absentNext := by rw [hdelivers'.cad, hwcad]
  have hdelivered (n : Nat) : (e.basin n).delivered = (w.basin n).coming := (hdelivers'.delivered n).trans (w.takeDelivered_delivered n)
  have hphys (l : Nat) : w.takeDelivered.physOf l = v.physOf l := hw.phys l
  refine ⟨hdelivers'.rsv.trans hw.rsv, ?_, fun hahead => ?_, fun hnot hhold hslots r hr => ?_, fun hhold hslots r hr => ?_⟩
  · rw [hdelivers'.cad, hwcad]
  · have hsame : w = v := if_pos hahead
    rw [habsent, ← hsame]
    exact ⟨hdelivered, rfl⟩
  · have hsame : w = v.deliverSlot v.cad.copy a (t.fstart + a * t.slen) := if_neg hnot
    obtain ⟨hhere, hnone⟩ := hplaced hhold hslots r hr
    rw [← hsame] at hhere hnone
    exact ⟨fun b hb => by rw [hdelivered]; exact hhere b hb, fun hn => by rw [habsent]; exact hnone hn⟩
  · refine (hplaced' ?_ hslots r hr).of_phys hphys
    rw [hwcad]
    exact hhold

/-- A strobe that is due begins its slot and then delivers. -/
theorem slotStrobe_eq {d : Dev} {m : Readings} {t : Table} {a : Nat} (h : StrobeDue d m t a) :
    ∃ v, d.SlotBegun t a v ∧ (v.strobeDelivery t a).SameSlot (slotStrobe m d) := by
  obtain ⟨hon, hfencing, htable, hslen, hnslot, rfl, hswap, hstep, havs⟩ := h
  have hguard : ¬ (t.slen = 0 ∨ t.nslot = 0) := by omega
  have hwaits : ¬ (d.cad.swapAt.any (fun w => decide (w ≤ t.fstart + d.nextSlot t * t.slen))
      || (d.cad.stepPend.isSome && decide (d.cad.frameInTable < d.nextSlot t / t.nslot))) = true := by simp [hswap, hstep]
  have hgood : ¬ 3 ≤ ((d.atNs (t.fstart + d.nextSlot t * t.slen)).monitor m).pow.avsFails := by simp [Dev.monitor, havs]
  rw [slotStrobe_stages htable, if_neg hguard, if_neg hwaits, Dev.due_of_no_fence (d.atNs _) hfencing, if_neg hgood]
  exact ⟨_, d.slotStarted_slotBegun m t _, (Dev.setPair_sameSlot _ _).trans (Dev.hbSend_linkChange _).sameSlot⟩

end Sys2Proof.Machine

namespace Sys2Proof.Spec

open Sys2Proof Sys2Proof.Machine

/-- Settles O23: what begins the slot leaves the delivery alone, and the delivery hands over what came before and brings what comes next. -/
theorem slotStrobesDeliverTheSlot : Obligations.SlotStrobesDeliverTheSlot := by
  unfold Obligations.SlotStrobesDeliverTheSlot
  intro d m t a hstrobe k start
  obtain ⟨v, hbegun, hsame⟩ := slotStrobe_eq hstrobe
  obtain ⟨hon, hfencing, htable, -, hnslot, -, hswap, -, -⟩ := hstrobe
  obtain ⟨hct, hcad⟩ := hbegun.cad
  have hv : v.cad.table v.cad.copy = some t := by
    rw [hcad]
    exact Cad.table_of_activeTable htable
  obtain ⟨hrsv, hkept, hahead, hnow, hnext⟩ := v.strobeDelivery_spec (by rw [hcad]; exact hswap) hv a
  have hhold : v.cad.holdUntil = d.cad.holdUntil := by rw [hcad]
  have hmark : v.cad.ahead = some (v.cad.copy, a) ↔ d.cad.ahead = some (d.cad.copy, a) := by rw [hcad]
  have hstart : start + t.slen = t.fstart + (a + 1) * t.slen := by simp only [start]; ring
  have hbasin (n : Nat) : (slotStrobe m d).basin n = (v.strobeDelivery t a).basin n := by rw [Dev.basin, hsame.basins]; rfl
  refine ⟨slotStrobe m d, fun q => onCore_next_idle (slotStrobe m) _ hon hfencing, ?_⟩
  simp only [hbasin, hsame.cad]
  refine ⟨?ct, ?slot, ?frame, ?strobed, fun n hn => ?used, fun h => ?ahead, fun h hfree => ?now, fun hfree => ?next⟩
  case ct =>
    rw [hkept]
    exact hct
  case slot => rw [hkept, hcad]
  case frame => rw [hkept, hcad]
  case strobed => rw [hkept, hcad]
  case used =>
    rw [Dev.ctrl, hsame.ctrls, hrsv]
    exact hbegun.used n hn
  case ahead =>
    obtain ⟨hdelivered, habsent⟩ := hahead (hmark.mpr h)
    exact ⟨fun n _ => (hdelivered n).trans (hbegun.coming n), habsent.trans (by rw [hcad])⟩
  case now =>
    have hplaced := hnow (mt hmark.mp h) (hhold ▸ hfree) hnslot
    simp only [hbegun.phys] at hplaced
    exact ⟨fun r hr => (hplaced r hr).1, fun r hr => (hplaced r hr).2⟩
  case next =>
    have hplaced := hnext (by rw [hhold, ← hstart]; exact hfree) hnslot
    simp only [Dev.Placed, hbegun.phys] at hplaced
    exact ⟨fun r hr => (hplaced r hr).1, fun r hr => (hplaced r hr).2⟩

end Sys2Proof.Spec
end

section
/-! PROOFS. The DOMAIN commands (R222, R260, R264, R374): what each answers, what pages assigned and released leave, and the obligation they
settle. -/

namespace Sys2Proof.Machine

open Sys2Proof Sys2Proof.Spec

/-! ### Pages assigned and released (R222, R224) -/

theorem Rsv.assign_page_same (r : Rsv) (p n : Nat) : Tab.at (r.assign p n).pages {} p = { valid := true, scrub := false, owner := n } :=
  Tab.at_put_same _ _ _ _
theorem Rsv.assign_page_other (r : Rsv) (p n : Nat) {q : Nat} (h : q ≠ p) : Tab.at (r.assign p n).pages {} q = Tab.at r.pages {} q :=
  Tab.at_put_other _ _ _ _ _ h

/-- A byte of a page that is assigned reads zero; others stay. -/
theorem Rsv.assign_read (r : Rsv) (p n a : Nat) : Mem.read (r.assign p n).mem a = if a / 0x200000 = p then 0 else Mem.read r.mem a := by
  have hpage : (p * 0x200000 ≤ a ∧ a < p * 0x200000 + 0x200000) ↔ a / 0x200000 = p := by omega
  simp only [Rsv.assign, Mem.read_zero, hpage]
  rfl

theorem Rsv.mem_errors_assign {r : Rsv} {p n u : Nat} : u ∈ (r.assign p n).poison ++ (r.assign p n).soft ↔ u ∈ r.poison ++ r.soft ∧ u / 65536 ≠ p := by
  simp only [Rsv.assign, Rsv.moved, List.mem_append, List.mem_filter, decide_eq_true_eq]
  tauto

/-- From `r` to `s` the pages listed are assigned to domain `n`, zero and free of errors; no other page or byte has changed. -/
structure Rsv.AssignedTo (r s : Rsv) (n : Nat) (ps : List Nat) : Prop where
  page : ∀ p ∈ ps, Tab.at s.pages {} p = { valid := true, scrub := false, owner := n }
  other : ∀ p, p ∉ ps → Tab.at s.pages {} p = Tab.at r.pages {} p
  zero : ∀ a, a / 0x200000 ∈ ps → Mem.read s.mem a = 0
  kept : ∀ a, a / 0x200000 ∉ ps → Mem.read s.mem a = Mem.read r.mem a
  errors : ∀ u ∈ s.poison ++ s.soft, u ∈ r.poison ++ r.soft ∧ u / 65536 ∉ ps
  moved : s.slotBytes = r.slotBytes + 0x200000 * ps.length
  keys : s.keys = r.keys
  ctrls : s.ctrls = r.ctrls

theorem Rsv.foldl_assign (n : Nat) (ps : List Nat) (r : Rsv) : r.AssignedTo (ps.foldl (fun q p => q.assign p n) r) n ps := by
  induction ps generalizing r with
  | nil => exact ⟨by simp, fun _ _ => rfl, by simp, fun _ _ => rfl, fun u hu => ⟨hu, by simp⟩, rfl, rfl, rfl⟩
  | cons p ps ih =>
    obtain ⟨hpage, hother, hzero, hkept, herrors, hmoved, hkeys, hctrls⟩ := ih (r.assign p n)
    refine ⟨fun q hq => ?_, fun q hq => ?_, fun a ha => ?_, fun a ha => ?_, fun u hu => ?_, ?_, hkeys, hctrls⟩
    · by_cases h : q ∈ ps
      · exact hpage q h
      · obtain rfl : q = p := (List.mem_cons.mp hq).resolve_right h
        exact (hother q h).trans (r.assign_page_same q n)
    · obtain ⟨hp, hps⟩ := not_or.mp (mt List.mem_cons.mpr hq)
      exact (hother q hps).trans (r.assign_page_other p n hp)
    · by_cases h : a / 0x200000 ∈ ps
      · exact hzero a h
      · rw [List.foldl_cons, hkept a h, r.assign_read, if_pos ((List.mem_cons.mp ha).resolve_right h)]
    · obtain ⟨hp, hps⟩ := not_or.mp (mt List.mem_cons.mpr ha)
      rw [List.foldl_cons, hkept a hps, r.assign_read, if_neg hp]
    · obtain ⟨hin, hps⟩ := herrors u hu
      obtain ⟨hr, hp⟩ := Rsv.mem_errors_assign.mp hin
      exact ⟨hr, by simp [hp, hps]⟩
    · rw [List.foldl_cons, hmoved]
      simp only [Rsv.assign, Rsv.moved, List.length_cons]
      omega

/-- Pages released are no longer valid; the others stay. -/
theorem foldl_release_at (ps : List Nat) (t : Tab Page) (q : Nat) :
    Tab.at (ps.foldl (fun t p => Tab.put t p { Tab.at t {} p with valid := false }) t) {} q
      = if q ∈ ps then { Tab.at t {} q with valid := false } else Tab.at t {} q := by
  induction ps generalizing t with
  | nil => simp
  | cons p ps ih =>
    rw [List.foldl_cons, ih]
    by_cases hq : q = p
    · subst hq
      simp [Tab.at_put_same]
    · simp [Tab.at_put_other _ _ _ _ _ hq, hq]

/-! ### Free pages -/

/-- Free pages, counted round from any of them, are as many as are asked for, different and free. -/
theorem Dev.freePages_spec (d : Dev) {k : Nat} (skip : Nat) (h : k ≤ ((List.range 195584).filter (fun p => d.pageFree p)).length) :
    (d.freePages k skip).length = k ∧ (d.freePages k skip).Nodup ∧ ∀ p ∈ d.freePages k skip, d.pageFree p = true := by
  have hnodup : ((List.range 195584).filter (fun p => d.pageFree p)).Nodup := List.nodup_range.filter _
  have hfree : ∀ p ∈ (List.range 195584).filter (fun p => d.pageFree p), d.pageFree p = true := fun p hp => (List.mem_filter.mp hp).2
  unfold Dev.freePages
  generalize (List.range 195584).filter (fun p => d.pageFree p) = l at h hnodup hfree ⊢
  dsimp only
  have hs : skip % (l.length + 1) ≤ l.length := Nat.le_of_lt_succ (Nat.mod_lt _ (Nat.succ_pos _))
  generalize skip % (l.length + 1) = s at hs ⊢
  refine ⟨by simp; omega, ?_, fun p hp => ?_⟩
  · rw [List.take_append]
    have hfront : (l.take (k - (l.drop s).length)).Sublist (l.take s) := by
      refine (List.take_prefix_take_left ?_).sublist
      simp only [List.length_drop]
      omega
    have hsplit : (l.take s ++ l.drop s).Nodup := by rwa [List.take_append_drop]
    exact ((List.Sublist.append hfront (List.take_sublist k (l.drop s))).nodup hsplit).perm List.perm_append_comm
  · rcases List.mem_append.mp (List.mem_of_mem_take hp) with h | h
    · exact hfree p (List.mem_of_mem_drop h)
    · exact hfree p h

/-! ### The commands (R222, R260, R264, R374) -/

section
variable {w : Dev} {r : Req}

theorem limitsOf_of_ok (h : LimitsOk r) : limitsOf r = (0, limitsIn r) := by
  obtain ⟨hstreams, hpages, hmodels, hbudget⟩ := h
  have hbits : bitsOf (r.arg 4) 9 0 = r.arg 4 % 1024 := by simp [bitsOf]
  simp only [limitsOf, hbits, if_neg (Nat.not_lt.mpr hstreams), if_neg (Nat.not_lt.mpr hpages), if_neg (Nat.not_lt.mpr hmodels),
    if_neg (Nat.not_lt.mpr hbudget)]
  rfl

theorem cmdDomainCreate_ok (hpos : 1 ≤ r.arg 0) (hmax : r.arg 0 ≤ 1023) (hlimits : LimitsOk r) (hstate : (w.domain (r.arg 0)).state = 0) :
    cmdDomainCreate r w = ((w.drawKeys.2.putDomain (r.arg 0) { limitsIn r with state := 1 }).setRsv
      { w.rsv with keys := Tab.put w.rsv.keys (r.arg 0) w.drawKeys.1 }, {}) := by
  have hrange : ¬ (r.arg 0 = 0 ∨ 1023 < r.arg 0) := by omega
  have hrsv : w.drawKeys.2.rsv = w.rsv := by rw [w.drawKeys_snd]; rfl
  simp only [cmdDomainCreate, if_neg hrange, limitsOf_of_ok hlimits, hstate, ne_eq, not_true_eq_false, if_false, ← hrsv]
  rfl

theorem cmdDomainCreate_range (h : r.arg 0 = 0 ∨ 1023 < r.arg 0) : cmdDomainCreate r w = (w, { status := 0x201 }) := if_pos h

theorem cmdDomainDestroy_ok (hpos : 1 ≤ r.arg 0) (hmax : r.arg 0 ≤ 1023) (hstate : (w.domain (r.arg 0)).state = 1)
    (hstreams : w.streamsOf (r.arg 0) = 0) (hmodels : w.modelsOf (r.arg 0) = 0) :
    cmdDomainDestroy r w = (w.putDomain (r.arg 0) { w.domain (r.arg 0) with state := 2, scrubGen := none }, {}) := by
  have h0 : r.arg 0 ≠ 0 := by omega
  simp [cmdDomainDestroy, Nat.not_lt.mpr hmax, hstate, h0, hstreams, hmodels, Dev.yes]

theorem cmdDomainDestroy_refused (hmax : r.arg 0 ≤ 1023) (hstate : (w.domain (r.arg 0)).state ≠ 0)
    (h : r.arg 0 = 0 ∨ 0 < w.streamsOf (r.arg 0) ∨ 0 < w.modelsOf (r.arg 0)) : cmdDomainDestroy r w = (w, { status := 0x303 }) := by
  have hwrong : r.arg 0 = 0 ∨ (w.domain (r.arg 0)).state = 2 ∨ 0 < w.streamsOf (r.arg 0) ∨ 0 < w.modelsOf (r.arg 0) := by tauto
  simp only [cmdDomainDestroy, if_neg (Nat.not_lt.mpr hmax), if_neg hstate, if_pos hwrong]
  rfl

theorem cmdDomainQuery_ok (hmax : r.arg 0 ≤ 1023) (hstate : (w.domain (r.arg 0)).state ≠ 0) (hown : r.domain = 0 ∨ r.domain = r.arg 0) :
    cmdDomainQuery r w =
      let x := w.domain (r.arg 0)
      w.yes [x.maxStreams, x.maxPages, x.maxModels, x.maxBudget + bit01 x.isol * 65536, w.streamsOf (r.arg 0), (w.ownPages (r.arg 0)).length,
             w.modelsOf (r.arg 0), x.state, (x.bind.map (fun p => 4 * p.1 + p.2)).getD 0xFFFFFFFF] := by
  simp [cmdDomainQuery, Nat.not_lt.mpr hmax, Req.may_of_own hown, hstate]

theorem cmdDomainQuery_foreign (hmax : r.arg 0 ≤ 1023) (h0 : r.domain ≠ 0) (hother : r.domain ≠ r.arg 0) :
    cmdDomainQuery r w = (w, { status := 0x302 }) := by
  simp [cmdDomainQuery, Nat.not_lt.mpr hmax, Req.may, h0, hother, Dev.no, stNOT_FOUND]

/-- Limits in range of a domain that lives are set, unless one falls below what is in use. -/
theorem cmdDomainLimits_eq (hmax : r.arg 0 ≤ 1023) (hlimits : LimitsOk r) (hstate : (w.domain (r.arg 0)).state = 1) :
    cmdDomainLimits r w =
      if r.arg 1 < w.streamsOf (r.arg 0) ∨ r.arg 2 < (w.ownPages (r.arg 0)).length ∨ r.arg 3 < w.modelsOf (r.arg 0)
      then (w, { status := 0x400 })
      else (w.putDomain (r.arg 0)
        { limitsIn r with state := 1, bind := (w.domain (r.arg 0)).bind, wbase := (w.domain (r.arg 0)).wbase }, {}) := by
  simp only [cmdDomainLimits, if_neg (Nat.not_lt.mpr hmax), limitsOf_of_ok hlimits, hstate, ne_eq, not_true_eq_false, if_false, one_ne_zero]
  rfl

/-- What PAGE_ASSIGN answers when it gives pages to a domain. -/
def Dev.givePages (d : Dev) (n : Nat) (ps : List Nat) : Dev × Resp :=
  let d := d.setRsv (ps.foldl (fun (q : Rsv) p => q.assign p n) d.rsv)
  (d.raiseO 0x16 0x1F2 n ps.length 0).yes [] (ps.flatMap (fun p => leBytes 4 p))

theorem Dev.givePages_snd (d : Dev) (n : Nat) (ps : List Nat) : (d.givePages n ps).2 = { payload := ps.flatMap (fun p => leBytes 4 p) } := rfl

/-- Pages that are given are assigned, and nothing else has changed but what the event writes. -/
theorem Dev.givePages_assigned {d : Dev} (hd : d = w ∨ d = w.openValue.2) (n : Nat) (ps : List Nat) :
    Assigned w (d.givePages n ps).1 n ps := by
  have hrsv : d.rsv = w.rsv := by rcases hd with rfl | rfl <;> rfl
  have hframe : d = { w with free := d.free } := by rcases hd with rfl | rfl <;> rfl
  obtain ⟨fs, lost, buf, bufLost, hm, o, hevent⟩ :=
    (d.setRsv (ps.foldl (fun (q : Rsv) p => q.assign p n) d.rsv)).raiseO_eventChange 0x16 0x1F2 n ps.length 0
  obtain ⟨hpage, hother, hzero, hkept, herrors, hmoved, hkeys, hctrls⟩ := Rsv.foldl_assign n ps w.rsv
  have he : (d.givePages n ps).1 = { w with
      rsv := ps.foldl (fun (q : Rsv) p => q.assign p n) w.rsv, free := d.free, funcs := fs,
      fh := { w.fh with evlost := lost, supBuf := buf, supLost := bufLost }, hostMem := hm, out := o } := by
    rw [Dev.givePages, Dev.yes, hevent, hrsv, hframe]
    rfl
  rw [he]
  exact ⟨hpage, hother, hzero, hkept, fun u hu => (herrors u hu).2, hmoved, hkeys, hctrls, rfl⟩

/-- PAGE_ASSIGN for a domain that may have the pages: those that its payload lists, or free ones. -/
theorem cmdPageAssign_eq (hmax : r.arg 0 ≤ 1023) (hpos : 1 ≤ r.arg 1) (hcount : r.arg 1 ≤ 1024) (hown : r.domain = 0 ∨ r.domain = r.arg 0)
    (hstate : (w.domain (r.arg 0)).state = 1) (hlimit : (w.ownPages (r.arg 0)).length + r.arg 1 ≤ (w.domain (r.arg 0)).maxPages) :
    cmdPageAssign r w =
      if r.payload ≠ [] then
        if r.payload.length < 4 * r.arg 1 ∨ (pageList r (r.arg 1)).any (fun p => decide (195584 ≤ p)) then w.no stINVALID 1
        else if !(pageList r (r.arg 1)).all (fun p => w.pageFree p) ∨ ¬ (pageList r (r.arg 1)).Nodup then w.no stNO_SPACE
        else w.givePages (r.arg 0) (pageList r (r.arg 1))
      else if (w.freePages (r.arg 1) w.openValue.1.toNat).length < r.arg 1 ∨ ¬ (w.freePages (r.arg 1) w.openValue.1.toNat).Nodup then w.no stNO_SPACE
      else w.openValue.2.givePages (r.arg 0) (w.freePages (r.arg 1) w.openValue.1.toNat) := by
  have hrange : ¬ (r.arg 1 = 0 ∨ 1024 < r.arg 1) := by omega
  have hfound : ¬ ((!r.may (r.arg 0)) = true ∨ (w.domain (r.arg 0)).state = 0) := by simp [Req.may_of_own hown, hstate]
  have hlive : ¬ (w.domain (r.arg 0)).state ≠ 1 := not_not_intro hstate
  unfold cmdPageAssign
  rw [if_neg (Nat.not_lt.mpr hmax), if_neg hrange, if_neg hfound, if_neg hlive, if_neg (Nat.not_lt.mpr hlimit)]
  rfl

theorem pageList_of_named {k : Nat} {ps : List Nat} (h : pagesNamed r k ps) : pageList r k = ps := by
  obtain ⟨hlen, -, hpage⟩ := h
  refine List.ext_getElem? (fun i => ?_)
  by_cases hi : i < k
  · simp [pageList, hi, hpage i hi]
  · simp [pageList, hi, hlen]

/-- Pages that a payload lists, all free, are given. -/
theorem cmdPageAssign_listed (hmax : r.arg 0 ≤ 1023) (hpos : 1 ≤ r.arg 1) (hcount : r.arg 1 ≤ 1024) (hown : r.domain = 0 ∨ r.domain = r.arg 0)
    (hstate : (w.domain (r.arg 0)).state = 1) (hlimit : (w.ownPages (r.arg 0)).length + r.arg 1 ≤ (w.domain (r.arg 0)).maxPages)
    {ps : List Nat} (hnamed : pagesNamed r (r.arg 1) ps) (hnodup : ps.Nodup) (hfree : ∀ p ∈ ps, w.pageFree p = true) :
    cmdPageAssign r w = w.givePages (r.arg 0) ps := by
  have hpayload : r.payload ≠ [] := by
    intro h
    have := hnamed.2.1
    simp only [h, List.length_nil] at this
    omega
  have hin : ¬ (r.payload.length < 4 * r.arg 1 ∨ ps.any (fun p => decide (195584 ≤ p)) = true) := by
    simp only [List.any_eq_true, decide_eq_true_eq, not_or, Nat.not_lt, not_exists, not_and, Nat.not_le]
    refine ⟨hnamed.2.1, fun p hp => ?_⟩
    have := hfree p hp
    simp only [Dev.pageFree, Bool.and_eq_true, decide_eq_true_eq] at this
    exact this.1.1
  have hgood : ¬ ((!ps.all (fun p => w.pageFree p)) = true ∨ ¬ ps.Nodup) := by simpa [hnodup] using hfree
  rw [cmdPageAssign_eq hmax hpos hcount hown hstate hlimit, if_pos hpayload, pageList_of_named hnamed, if_neg hin, if_neg hgood]

/-- Without a list free pages are given. -/
theorem cmdPageAssign_any (hmax : r.arg 0 ≤ 1023) (hpos : 1 ≤ r.arg 1) (hcount : r.arg 1 ≤ 1024) (hown : r.domain = 0 ∨ r.domain = r.arg 0)
    (hstate : (w.domain (r.arg 0)).state = 1) (hlimit : (w.ownPages (r.arg 0)).length + r.arg 1 ≤ (w.domain (r.arg 0)).maxPages)
    (hnone : r.payload = []) (hfree : r.arg 1 ≤ ((List.range 195584).filter (fun p => w.pageFree p)).length) :
    cmdPageAssign r w = w.openValue.2.givePages (r.arg 0) (w.freePages (r.arg 1) w.openValue.1.toNat) := by
  obtain ⟨hlen, hnodup, -⟩ := w.freePages_spec w.openValue.1.toNat hfree
  have hgood : ¬ ((w.freePages (r.arg 1) w.openValue.1.toNat).length < r.arg 1 ∨ ¬ (w.freePages (r.arg 1) w.openValue.1.toNat).Nodup) := by
    rw [hlen]
    simp [hnodup]
  rw [cmdPageAssign_eq hmax hpos hcount hown hstate hlimit, if_neg (not_not_intro hnone), if_neg hgood]

/-- PAGE_RELEASE of a domain's own pages clears their VALID, unless one is in use. -/
theorem cmdPageRelease_eq (hmax : r.arg 0 ≤ 1023) (hcount : r.arg 1 ≤ 1024) {ps : List Nat} (hnamed : pagesNamed r (r.arg 1) ps)
    (hown : r.domain = 0 ∨ r.domain = r.arg 0) (hstate : (w.domain (r.arg 0)).state ≠ 0)
    (hvalid : ∀ p ∈ ps, (pageAt w p).valid = true ∧ (pageAt w p).owner = r.arg 0) :
    cmdPageRelease r w =
      if ps.any (fun p => decide (p ∈ w.pagesInUse)) then (w, { status := 0x304 })
      else (w.setRsv { w.rsv with pages := ps.foldl (fun t p => Tab.put t p { Tab.at t {} p with valid := false }) w.rsv.pages }, {}) := by
  have hlen : ¬ (1024 < r.arg 1 ∨ r.payload.length < 4 * r.arg 1) := by
    have := hnamed.2.1
    omega
  have hfound : ¬ ((!r.may (r.arg 0)) = true ∨ (w.domain (r.arg 0)).state = 0) := by simp [Req.may_of_own hown, hstate]
  have hall : (ps.all (fun p => let e := Tab.at w.rsv.pages {} p; e.valid && e.owner == r.arg 0)) = true := by
    simp only [List.all_eq_true, Bool.and_eq_true, beq_iff_eq]
    exact hvalid
  simp only [cmdPageRelease, if_neg (Nat.not_lt.mpr hmax), if_neg hlen, if_neg hfound, pageList_of_named hnamed, hall, Bool.not_true,
    Bool.false_eq_true, if_false]
  rfl

end

section
variable {d : Dev} {n : Nat}

/-- The release of a domain, but for the event (R264). -/
def Dev.domainReleased (d : Dev) (n : Nat) : Dev :=
  { d with
    rsv := { d.rsv with pages := Tab.mapv d.rsv.pages (fun _ p => if p.valid && p.owner == n then { p with valid := false } else p),
                        keys := Tab.del d.rsv.keys n },
    hw := { d.hw with funcmap := match (d.domain n).bind with
      | some (f, k) => Tab.del d.hw.funcmap (4 * f + k)
      | none => d.hw.funcmap },
    domains := Tab.put d.domains n {}, plans := d.plans.filter (fun p => p.domain ≠ n) }

theorem domainDestroyRelease_eventChange (hstate : (d.domain n).state = 2) (hscrubbed : d.scrubbed n = true) :
    EventChange (d.domainReleased n) (domainDestroyRelease n d) := by
  have hguard : ¬ ((d.domain n).state ≠ 2 ∨ (!d.scrubbed n) = true) := by simp [hstate, hscrubbed]
  unfold domainDestroyRelease
  dsimp only
  rw [if_neg hguard]
  unfold Dev.domainReleased
  cases (d.domain n).bind <;> exact Dev.raiseO_eventChange _ _ _ _ _ _

theorem Dev.domainReleased_page (d : Dev) (n p : Nat) :
    pageAt (d.domainReleased n) p = if (pageAt d p).valid = true ∧ (pageAt d p).owner = n then { pageAt d p with valid := false } else pageAt d p := by
  have h := Tab.at_mapv_rel (t := d.rsv.pages) (f := fun _ p => if p.valid && p.owner == n then { p with valid := false } else p) (d := {}) (k := p)
    (R := fun (x y : Page) => y = if x.valid = true ∧ x.owner = n then { x with valid := false } else x) (by simp) (fun v => by simp)
  exact h

end

end Sys2Proof.Machine

namespace Sys2Proof.Spec

open Sys2Proof Sys2Proof.Machine

/-- Settles O41: each command is the equation of its case; pages given are assigned one by one. -/
theorem domainCommandsFollowTheirTable : Obligations.DomainCommandsFollowTheirTable := by
  unfold Obligations.DomainCommandsFollowTheirTable
  intro d w f r n x
  refine ⟨fun h hpos hmax hlimits hstate => ?create, fun h hrange => ?createRange, fun h hpos hmax hstate => ⟨fun hs hm => ?destroy, fun hin => ?inUse⟩,
    fun h h0 hstate => ?operator, fun k hon hstate hscrubbed => ?release, fun h hmax hstate hown => ?query, fun h hmax h0 hother => ?foreign,
    fun h hmax hlimits hstate => ⟨fun hs hp hm => ?limits, fun hbelow => ?below⟩,
    fun ps h hmax hpos hcount hown hstate hroom => ⟨fun hnamed hnodup hfree => ?listed, fun hnone hfree => ?any⟩,
    fun ps h hmax hcount hnamed hown hstate hvalid => ⟨fun hunused => ?pages, fun hused => ?pagesInUse⟩⟩
  case create => exact h.replies (fun _ => rfl) (cmdDomainCreate_ok hpos hmax hlimits hstate)
  case createRange => exact h.replies (fun _ => rfl) (cmdDomainCreate_range hrange)
  case destroy => exact h.replies (fun _ => rfl) (cmdDomainDestroy_ok hpos hmax hstate hs hm)
  case inUse => exact h.replies (fun _ => rfl) (cmdDomainDestroy_refused hmax (by rw [hstate]; decide) (.inr hin))
  case operator => exact h.replies (fun _ => rfl) (cmdDomainDestroy_refused (by omega) hstate (.inl h0))
  case release =>
    obtain ⟨_, _, _, _, _, _, he⟩ := domainDestroyRelease_eventChange hstate hscrubbed
    refine ⟨domainDestroyRelease k d, gives_of_onlyIf hon (fun _ => rfl), ?_⟩
    rw [he]
    exact ⟨Tab.at_put_same _ _ _ _, fun p => d.domainReleased_page k p, rfl, Tab.find?_del_same _ _,
      fun p hp => by simpa using (List.mem_filter.mp hp).2, fun m hm => Tab.at_put_other _ _ _ _ _ hm, rfl⟩
  case query => exact h.replies (fun _ => rfl) (cmdDomainQuery_ok hmax hstate hown)
  case foreign => exact h.replies (fun _ => rfl) (cmdDomainQuery_foreign hmax h0 hother)
  case limits =>
    have hroom : ¬ (r.arg 1 < w.streamsOf n ∨ r.arg 2 < (w.ownPages n).length ∨ r.arg 3 < w.modelsOf n) := by omega
    exact h.replies (fun _ => rfl) ((cmdDomainLimits_eq hmax hlimits hstate).trans (if_neg hroom))
  case below => exact h.replies (fun _ => rfl) ((cmdDomainLimits_eq hmax hlimits hstate).trans (if_pos hbelow))
  case listed =>
    exact ⟨_, h.replies (fun _ => rfl) (cmdPageAssign_listed hmax hpos hcount hown hstate hroom hnamed hnodup hfree),
      Dev.givePages_assigned (.inl rfl) n ps⟩
  case any =>
    obtain ⟨hlen, hnodup, hall⟩ := w.freePages_spec w.openValue.1.toNat hfree
    exact ⟨_, _, h.replies (fun _ => rfl) (cmdPageAssign_any hmax hpos hcount hown hstate hroom hnone hfree),
      Dev.givePages_assigned (.inr rfl) n _, hlen, hnodup, hall⟩
  case pages =>
    have hnot : ¬ ps.any (fun p => decide (p ∈ w.pagesInUse)) = true := by simpa using hunused
    exact ⟨_, h.replies (fun _ => rfl) ((cmdPageRelease_eq hmax hcount hnamed hown hstate hvalid).trans (if_neg hnot)), rfl,
      fun p => foldl_release_at ps w.rsv.pages p⟩
  case pagesInUse =>
    have hany : ps.any (fun p => decide (p ∈ w.pagesInUse)) = true := by simpa using hused
    exact h.replies (fun _ => rfl) ((cmdPageRelease_eq hmax hcount hnamed hown hstate hvalid).trans (if_pos hany))

end Sys2Proof.Spec
end

section
/-! PROOFS. The SLOT commands (R225, R243, R245, R247, R264, R465): the shadow that SLOT_LOAD builds, the boundary of a swap, what each command
answers, and the obligation they settle. -/

namespace Sys2Proof

variable {α β : Type}

/-! ### Tables whose values pass through a function -/

/-- A default that the function keeps stays the default. -/
theorem Tab.at_map (t : Tab α) (g : α → β) (d : α) (k : Nat) :
    Tab.at (List.map (fun p => (p.1, g p.2)) t : Tab β) (g d) k = g (Tab.at t d k) := by
  induction t with
  | nil => rfl
  | cons p t ih =>
    by_cases h : p.1 = k
    · simp [Tab.at, Tab.find?, h]
    · simpa [Tab.at, Tab.find?, h] using ih

theorem Tab.sortedFrom_mapv {t : Tab α} {lo : Option Nat} (f : Nat → α → α) (h : Tab.sortedFrom lo t = true) :
    Tab.sortedFrom lo (Tab.mapv t f) = true := by
  induction t generalizing lo with
  | nil => rfl
  | cons p t ih =>
    simp only [Tab.sortedFrom, Bool.and_eq_true] at h
    simp only [Tab.mapv, List.map_cons, Tab.sortedFrom, Bool.and_eq_true]
    exact ⟨h.1, ih h.2⟩

/-- Entries of 0 taken out of a sorted table of numbers are still read as 0. -/
theorem Tab.at_filter_pos {t : Tab Nat} (h : Tab.sorted t = true) (k : Nat) :
    Tab.at (List.filter (fun p => decide (0 < p.2)) t : Tab Nat) 0 k = Tab.at t 0 k := by
  have hsorted := Tab.sortedFrom_filter t (fun p => decide (0 < p.2)) none h
  have hfrom {v : Nat} (hv : Tab.find? (List.filter (fun p => decide (0 < p.2)) t : Tab Nat) k = some v) :
      Tab.find? t k = some v ∧ 0 < v := by
    obtain ⟨hmem, hpos⟩ := List.mem_filter.mp (Tab.mem_of_find? hv)
    exact ⟨Tab.find?_of_mem h hmem, of_decide_eq_true hpos⟩
  unfold Tab.at
  cases hf : Tab.find? (List.filter (fun p => decide (0 < p.2)) t : Tab Nat) k with
  | some v => rw [(hfrom hf).1]
  | none =>
    cases ht : Tab.find? t k with
    | none => rfl
    | some v =>
      by_cases hpos : 0 < v
      · have hin := Tab.find?_of_mem hsorted (List.mem_filter.mpr ⟨Tab.mem_of_find? ht, decide_eq_true hpos⟩)
        rw [hf] at hin
        cases hin
      · exact (Nat.eq_zero_of_not_pos hpos).symm

theorem cdiv_mul_bounds (a : Nat) {b : Nat} (hb : 0 < b) : a ≤ cdiv a b * b ∧ cdiv a b * b < a + b := by
  have hle := Nat.div_mul_le_self (a + b - 1) b
  have hlt := Nat.lt_div_mul_add (a := a + b - 1) hb
  unfold cdiv
  omega

end Sys2Proof

namespace Sys2Proof.Machine

open Sys2Proof Sys2Proof.Spec

/-! ### Run lists in order (R243) -/

/-- The order of a run list. -/
def RunLe (a b : Run) : Prop := a.lbasin < b.lbasin ∨ (a.lbasin = b.lbasin ∧ a.tstart ≤ b.tstart)

theorem RunLe.trans {a b c : Run} (h : RunLe a b) (k : RunLe b c) : RunLe a c := by
  unfold RunLe at *
  omega

theorem placeRun_perm (r : Run) (l : List Run) : (placeRun r l).Perm (r :: l) := by
  induction l with
  | nil => exact .refl _
  | cons x xs ih =>
    unfold placeRun
    split
    · exact .refl _
    · exact (ih.cons x).trans (.swap r x xs)

theorem placeRun_pairwise (r : Run) {l : List Run} (h : l.Pairwise RunLe) : (placeRun r l).Pairwise RunLe := by
  induction l with
  | nil => exact List.pairwise_singleton _ _
  | cons x xs ih =>
    obtain ⟨hx, hxs⟩ := List.pairwise_cons.mp h
    unfold placeRun
    split
    next hlt =>
      have hrx : RunLe r x := by unfold RunLe; omega
      refine List.pairwise_cons.mpr ⟨fun y hy => ?_, h⟩
      rcases List.mem_cons.mp hy with rfl | hy
      · exact hrx
      · exact hrx.trans (hx y hy)
    next hge =>
      refine List.pairwise_cons.mpr ⟨fun y hy => ?_, ih hxs⟩
      rcases List.mem_cons.mp ((placeRun_perm r xs).mem_iff.mp hy) with rfl | hy
      · unfold RunLe; omega
      · exact hx y hy

/-- A slot's runs as the shadow lists them. -/
def inOrder (rs : List Run) : List Run := rs.foldl (fun l r => placeRun r l) []

theorem foldl_placeRun_perm (rs l : List Run) : (rs.foldl (fun l r => placeRun r l) l).Perm (rs ++ l) := by
  induction rs generalizing l with
  | nil => exact .refl _
  | cons r rs ih => exact (ih (placeRun r l)).trans (((placeRun_perm r l).append_left rs).trans List.perm_middle)

theorem inOrder_perm (rs : List Run) : (inOrder rs).Perm rs := by simpa [inOrder] using foldl_placeRun_perm rs []

theorem inOrder_pairwise (rs : List Run) : (inOrder rs).Pairwise RunLe := by
  have hgen : ∀ l : List Run, l.Pairwise RunLe → (rs.foldl (fun l r => placeRun r l) l).Pairwise RunLe := by
    induction rs with
    | nil => exact fun _ h => h
    | cons r rs ih => exact fun l h => ih _ (placeRun_pairwise r h)
  exact hgen [] .nil

/-! ### Budgets (R225) -/

/-- SHARE × time of a domain over the runs of a slot. -/
def shareOf (rs : List Run) (dom : Nat) : Nat := ((rs.filter (fun x => x.domain == dom)).map (fun x => x.share * (x.tend - x.tstart))).sum

theorem shareOf_perm {rs qs : List Run} (h : rs.Perm qs) (dom : Nat) : shareOf rs dom = shareOf qs dom :=
  ((h.filter _).map _).sum_eq

theorem slotShares_at (rs : List Run) (dom : Nat) : Tab.at (slotShares rs) 0 dom = shareOf rs dom := by
  have hgen : ∀ q : Tab Nat, Tab.at (rs.foldl (fun q r => Tab.put q r.domain (Tab.at q 0 r.domain + r.share * (r.tend - r.tstart))) q) 0 dom
      = Tab.at q 0 dom + shareOf rs dom := by
    induction rs with
    | nil => exact fun _ => rfl
    | cons r rs ih =>
      intro q
      rw [List.foldl_cons, ih]
      by_cases h : r.domain = dom
      · simp [shareOf, h, Tab.at_put_same, Nat.add_assoc]
      · simp [shareOf, h, Tab.at_put_other _ _ _ _ _ (Ne.symm h)]
  simpa [slotShares, Tab.at, Tab.find?] using hgen []

theorem slotShares_sorted (rs : List Run) : Tab.sorted (slotShares rs) = true := by
  have hgen : ∀ q : Tab Nat, Tab.sorted q = true →
      Tab.sorted (rs.foldl (fun q r => Tab.put q r.domain (Tab.at q 0 r.domain + r.share * (r.tend - r.tstart))) q) = true := by
    induction rs with
    | nil => exact fun _ h => h
    | cons r rs ih => exact fun q h => ih _ (Tab.sorted_put q _ _ h)
  exact hgen [] rfl

/-- A slot's budget list gives each domain its share, in units rounded up; a domain that it does not list has none. -/
theorem slotBudgets_at (rs : List Run) (dom : Nat) : Tab.at (slotBudgets rs : Tab Nat) 0 dom = cdiv (shareOf rs dom) 512000 := by
  have hzero : (0 : Nat) = budgetUnits 0 := by decide
  have hsorted : Tab.sorted (Tab.mapv (slotShares rs) (fun _ n => budgetUnits n)) = true := Tab.sortedFrom_mapv _ (slotShares_sorted rs)
  calc Tab.at (slotBudgets rs : Tab Nat) 0 dom
      = Tab.at (Tab.mapv (slotShares rs) (fun _ n => budgetUnits n)) 0 dom := Tab.at_filter_pos hsorted dom
    _ = Tab.at (Tab.mapv (slotShares rs) (fun _ n => budgetUnits n)) (budgetUnits 0) dom := by rw [← hzero]
    _ = budgetUnits (Tab.at (slotShares rs) 0 dom) := Tab.at_map (slotShares rs) budgetUnits 0 dom
    _ = cdiv (shareOf rs dom) 512000 := by rw [slotShares_at, budgetUnits]

/-! ### The shadow that SLOT_LOAD builds (R225, R243, R264) -/

theorem Table.built_runs_at (t : Table) (k : Nat) : Tab.at t.built.runs [] k = inOrder (Tab.at t.runs [] k) :=
  Tab.at_map t.runs inOrder [] k

theorem Table.built_budgets_at (t : Table) (k : Nat) : Tab.at t.built.budgets [] k = slotBudgets (Tab.at t.built.runs [] k) :=
  Tab.at_map t.built.runs slotBudgets [] k

theorem Table.built_builtFrom (t : Table) : BuiltFrom t t.built := by
  refine ⟨rfl, fun k => ⟨?_, ?_, fun dom => ?_⟩⟩
  · rw [t.built_runs_at]
    exact inOrder_perm _
  · rw [t.built_runs_at]
    exact inOrder_pairwise _
  · rw [t.built_budgets_at, slotBudgets_at, t.built_runs_at, shareOf_perm (inOrder_perm _)]
    rfl

/-- A program run of the image has its handle in the shadow. -/
theorem Table.built_handles {t : Table} {x : Run} (hx : x ∈ t.runs.flatMap Prod.snd) (hentry : x.entry.isSome = true) :
    x.handle ∈ t.built.handles := by
  obtain ⟨p, hp, hin⟩ := List.mem_flatMap.mp hx
  refine List.mem_flatMap.mpr ⟨(p.1, inOrder p.2), List.mem_map_of_mem hp, List.mem_map_of_mem (List.mem_filter.mpr ⟨?_, hentry⟩)⟩
  exact (inOrder_perm p.2).mem_iff.mpr hin

section
variable {d : Dev}

/-- With no domain being destroyed a table needs no scrub runs. -/
theorem Dev.withScrubs_of_none (h : ∀ n, (d.domain n).state ≠ 2) (t : Table) : d.withScrubs t = t := by
  have hsegs (x : Basin) : d.scrubSegs x = 0 := List.foldl_fixed' (fun p => by simp [h]) x.tags
  exact List.foldl_fixed' (fun p => by simp [hsegs]) d.basins

/-- A stream that a table of the shadow names is ADMITTED. -/
theorem Dev.settle_of_mem_shadow {t : Table} {n : Nat} (ht : d.cad.table d.cad.shadow = some t) (hin : handleOf n (d.stream n) ∈ t.handles)
    (hfree : (d.stream n).state ≠ 0) (hretired : (d.stream n).state ≠ 4) : d.settle.stream n = { d.stream n with state := 2 } := by
  have hlisted : (Tab.find? d.streams n).isSome = true := by
    cases hfind : Tab.find? d.streams n with
    | some s => rfl
    | none => exact absurd (by simp [Dev.stream, Tab.at, hfind]) hfree
  have hused : ¬ ((d.stream n).state = 0 ∨ (d.stream n).state = 4) := not_or.mpr ⟨hfree, hretired⟩
  rw [Dev.settle, Dev.stream, Dev.setStreams_streams, Tab.at_mapv_listed hlisted, ht]
  exact (if_neg hused).trans (if_pos hin)

end

@[simp] theorem Cad.shadow_setTable (c : Cad) (k : Nat) (t : Option Table) : (c.setTable k t).shadow = c.shadow := by
  unfold Cad.setTable
  split <;> rfl

/-- A table put into the shadow is there. -/
theorem Cad.table_shadow_setTable (c : Cad) (t : Option Table) :
    (c.setTable c.shadow t).table (c.setTable c.shadow t).shadow = t := by
  rw [Cad.shadow_setTable, Cad.table_setTable]

theorem Cad.activeTable_setTable_shadow {c : Cad} (h : c.copy ≤ 1) (t : Option Table) :
    (c.setTable c.shadow t).activeTable = c.activeTable := by
  obtain h0 | h1 : c.copy = 0 ∨ c.copy = 1 := by omega
  · simp [Cad.activeTable, Cad.setTable, Cad.shadow, Cad.table, h0]
  · simp [Cad.activeTable, Cad.setTable, Cad.shadow, Cad.table, h1]

/-! ### The commands -/

section
variable {w : Dev} {r : Req}

/-! #### SLOT_PLAN (R465) -/

section
variable {i : Nat} {s : Stream} {x : Rsv} {img : Plan}

@[simp] theorem Dev.planNamed_setRsv (d : Dev) (x : Rsv) (p : Plan) : (d.setRsv x).planNamed p = d.planNamed p := by
  simp only [Dev.planNamed, Dev.tableRuns_setRsv]

theorem cmdSlotPlan_eq (hname : Names w r i s) (harg : r.arg 4 ≤ 1) (hread : w.imageRead s.domain (r.arg64 1) (r.arg 3) = (w.setRsv x, 0))
    (htrain : w.train i = none) (sigOk : Bool) :
    let p := { img with index := i, domain := s.domain }
    let rest := w.plans.filter (fun q => ¬ (q.index = i ∧ q.planno = p.planno))
    cmdSlotPlan sigOk img r w =
      if !sigOk then (w.setRsv x, { status := 0x203 })
      else if r.arg 4 = 1 ∧ (w.plan i p.planno).isNone then (w.setRsv x, { status := 0x302 })
      else if w.planNamed p then (w.setRsv x, { status := 0x304 })
      else ((w.setRsv x).setPlans (if r.arg 4 = 1 then rest else rest ++ [p]),
        { res := [0, 0, p.digest.toNat % 2 ^ 32, p.digest.toNat / 2 ^ 32 % 2 ^ 32] }) := by
  intro p rest
  have htrain' : ((w.setRsv x).train i).isSome = false := by simp [Dev.train, ← htrain]
  simp only [cmdSlotPlan, named_of_names hname, hread, if_neg (Nat.not_lt.mpr harg), htrain', Dev.planNamed_setRsv]
  rfl

theorem mem_plans_put {l : List Plan} {p q : Plan} (h : q.index ≠ p.index ∨ q.planno ≠ p.planno) :
    q ∈ l.filter (fun q => ¬ (q.index = p.index ∧ q.planno = p.planno)) ++ [p] ↔ q ∈ l := by
  have hne : q ≠ p := by rintro rfl; simp at h
  have hkept : ¬ (q.index = p.index ∧ q.planno = p.planno) := by tauto
  simp only [List.mem_append, List.mem_filter, List.mem_singleton, hne, or_false, hkept, not_false_eq_true, decide_true, and_true]

theorem find?_plans_del (l : List Plan) (i n : Nat) :
    (l.filter (fun q => ¬ (q.index = i ∧ q.planno = n))).find? (fun p => p.index == i && p.planno == n) = none :=
  List.find?_eq_none.mpr (fun q hq => by simpa [← not_and_or] using (List.mem_filter.mp hq).2)

end

/-! #### SLOT_LOAD (R225, R241, R243) -/

section
variable {x : Rsv} {img : Table}

theorem cmdSlotLoad_busy {sigOk : Bool} (h : w.cad.swapAt.isSome = true) : cmdSlotLoad sigOk img r w = (w, { status := 0x100 }) := if_pos h

theorem cmdSlotLoad_unsigned (hswap : w.cad.swapAt = none) (hread : w.imageRead 0 (r.arg64 0) (r.arg 2) = (w.setRsv x, 0)) :
    cmdSlotLoad false img r w = (w.setRsv x, { status := 0x203 }) := by
  simp [cmdSlotLoad, hswap, hread, Dev.no, stBAD_SIGNATURE]

@[simp] theorem Dev.imageFault_setRsv (d : Dev) (x : Rsv) (t : Table) : (d.setRsv x).imageFault t = d.imageFault t := rfl

theorem cmdSlotLoad_fault (hswap : w.cad.swapAt = none) (hread : w.imageRead 0 (r.arg64 0) (r.arg 2) = (w.setRsv x, 0))
    (hfault : (w.imageFault img).1 ≠ 0) :
    cmdSlotLoad true img r w = (w.setRsv x, { status := (w.imageFault img).1, detail := (w.imageFault img).2 }) := by
  simp [cmdSlotLoad, hswap, hread, hfault, Dev.no]

/-- A checked image becomes the shadow; the streams that it names are ADMITTED, and the bytes written are counted. -/
theorem cmdSlotLoad_ok (hswap : w.cad.swapAt = none) (hread : w.imageRead 0 (r.arg64 0) (r.arg 2) = (w.setRsv x, 0))
    (hfault : w.imageFault img = (0, 0)) (hdomains : ∀ n, (w.domain n).state ≠ 2) :
    ∃ e : Dev, cmdSlotLoad true img r w = (e, {}) ∧ e.cad = w.cad.setTable w.cad.shadow (some img.built)
      ∧ e = { w with cad := e.cad, streams := e.streams, domains := e.domains, rsv := e.rsv } ∧ (∀ n, e.domain n = w.domain n)
      ∧ ∀ n, handleOf n (w.stream n) ∈ img.built.handles → (w.stream n).state ≠ 0 → (w.stream n).state ≠ 4 →
          e.stream n = { w.stream n with state := 2 } := by
  have hscrubs : (w.setRsv x).withScrubs img = img := Dev.withScrubs_of_none hdomains img
  have hload : cmdSlotLoad true img r w =
      ((((w.setDomains (Tab.mapv w.domains (fun _ x => if x.state = 2 then { x with scrubGen := some w.cad.swapcnt.toNat } else x))).setRsv
        (x.moved (img.built.bytes 0).length)).setCad (w.cad.setTable w.cad.shadow (some img.built))).settle, {}) := by
    simp only [cmdSlotLoad, hswap, hread, hscrubs, Dev.imageFault_setRsv, hfault]
    rfl
  generalize x.moved (img.built.bytes 0).length = y at hload
  generalize img.built = t at hload ⊢
  refine ⟨_, hload, rfl, rfl, fun n => ?_, fun n hin hfree hretired => ?_⟩
  · exact Tab.at_mapv_rel (t := w.domains) (d := {})
      (f := fun _ v => if v.state = 2 then { v with scrubGen := some w.cad.swapcnt.toNat } else v)
      (R := fun a b => a.state ≠ 2 → b = a) (fun _ => rfl) (fun v hv => if_neg hv) (hdomains n)
  · refine Dev.settle_of_mem_shadow (t := t) ?_ hin hfree hretired
    exact w.cad.table_shadow_setTable (some t)

end

/-! #### SLOT_COMMIT (R245, R247) -/

section
variable {t : Table}

theorem cmdSlotCommit_none (h : w.cad.table w.cad.shadow = none) : cmdSlotCommit r w = (w, { status := 0x303 }) := by
  simp [cmdSlotCommit, h, Dev.no, stWRONG_STATE]

section
variable (htable : w.cad.table w.cad.shadow = some t) (hswap : w.cad.swapAt = none) (hfloor : w.pow.state = 1 → t.floor ≤ 1200)
include htable hswap hfloor

theorem cmdSlotCommit_refused {c b k : Nat} (h : w.admission t = some (c, b, k)) :
    cmdSlotCommit r w = (w, { status := 0x500, detail := c + b * 2 ^ 8 + k * 2 ^ 16 }) := by
  have hfloor : ¬ (w.pow.state = 1 ∧ 1200 < t.floor) := fun hx => Nat.not_lt.mpr (hfloor hx.1) hx.2
  simp only [cmdSlotCommit, htable, hswap, if_neg hfloor, h]
  rfl

/-- An admitted shadow whose functions are all installed waits for its boundary, or is refused for it. -/
theorem cmdSlotCommit_admitted (hadmit : w.admission t = none) (hinstalled : w.notInstalled t = false) :
    cmdSlotCommit r w =
      if (w.swapBoundary t).1 ≠ 0 then w.no (w.swapBoundary t).1 (w.swapBoundary t).2.1
      else (w.setCad { w.cad.setTable w.cad.shadow (some { t with fstart := (w.swapBoundary t).2.2, gen := (t.gen + 1) % 2 ^ 32 }) with
        swapAt := some (w.swapBoundary t).2.2 }).yes (words2 (w.swapBoundary t).2.2) := by
  have hfloor : ¬ (w.pow.state = 1 ∧ 1200 < t.floor) := fun hx => Nat.not_lt.mpr (hfloor hx.1) hx.2
  simp only [cmdSlotCommit, htable, hswap, if_neg hfloor, hadmit, hinstalled]
  rfl

end

theorem swapBoundary_active {a : Table} (h : w.cad.activeTable = some a) :
    w.swapBoundary t = if t.fstart ≠ 0 ∧ t.fstart ≠ w.frameAtOrAfter (w.ns + 2 * a.slen) then (0x500, 0x11, 0)
      else (0, 0, w.frameAtOrAfter (w.ns + 2 * a.slen)) := by
  simp only [Dev.swapBoundary, h, stREJECTED]

theorem swapBoundary_first (h : w.cad.activeTable = none) :
    w.swapBoundary t = if t.fstart = 0 then (0, 0, cdiv (w.ns + 2 * t.slen) 1000000000 * 1000000000)
      else if t.fstart % 1000000000 ≠ 0 then (0x500, 0x11, 0)
      else if t.fstart < w.ns + 2 * t.slen then (0x102, 0, 0) else (0, 0, t.fstart) := by
  simp only [Dev.swapBoundary, h, stREJECTED, stTOO_LATE, taiNs]
  rfl

/-- The first frame boundary from a CT on is less than a frame away. -/
theorem frameAtOrAfter_bounds {a : Table} (h : w.cad.activeTable = some a) (hframe : 0 < a.slen * a.nslot) {c : Nat} (hc : a.fstart ≤ c) :
    ∃ n, w.frameAtOrAfter c = a.fstart + n * (a.slen * a.nslot) ∧ c ≤ w.frameAtOrAfter c ∧ w.frameAtOrAfter c < c + a.slen * a.nslot := by
  have hat : w.frameAtOrAfter c = a.fstart + cdiv (c - a.fstart) (a.slen * a.nslot) * (a.slen * a.nslot) := by
    simp only [Dev.frameAtOrAfter, h, if_neg hframe.ne']
  obtain ⟨hle, hlt⟩ := cdiv_mul_bounds (c - a.fstart) hframe
  exact ⟨_, hat, by omega, by omega⟩

end

/-! #### SLOT_CANCEL and SLOT_QUERY (R243, R245) -/

theorem cmdSlotCancel_none (h : w.cad.swapAt = none) : cmdSlotCancel r w = (w, { status := 0x303 }) := by
  simp [cmdSlotCancel, h, Dev.no, stWRONG_STATE]

theorem cmdSlotCancel_eq {t : Nat} {a : Table} (hswap : w.cad.swapAt = some t) (hactive : w.cad.activeTable = some a) :
    cmdSlotCancel r w = if t ≤ w.ns + 2 * a.slen then (w, { status := 0x102 }) else (w.setCad { w.cad with swapAt := none }, {}) := by
  simp only [cmdSlotCancel, hswap, hactive]
  rfl

/-- What ENTRY reads as without a program does not show in a run that has one. -/
theorem Run.bytes_of_entry {x : Run} (h : x.entry.isSome = true) (n m : Nat) : x.bytes n = x.bytes m := by
  obtain ⟨e, he⟩ := Option.isSome_iff_exists.mp h
  simp [Run.bytes, he]

theorem cmdSlotQuery_ok {t : Table} (hcopy : r.arg 0 ≤ 1) (htable : w.cad.table (r.arg 0) = some t) (hslot : r.arg 1 < t.nslot)
    (hentry : ∀ x ∈ (Tab.at t.runs [] (r.arg 1)).filter (fun x => r.may x.domain), x.entry.isSome = true) :
    cmdSlotQuery r w = (w.setFree (w.free + 1),
      { payload := ((Tab.at t.runs [] (r.arg 1)).filter (fun x => r.may x.domain)).flatMap (fun x => x.bytes 0) }) := by
  have hbytes (n : Nat) := List.flatMap_congr (fun x hx => Run.bytes_of_entry (hentry x hx) n 0)
  simp only [cmdSlotQuery, if_neg (Nat.not_lt.mpr hcopy), htable, if_neg (Nat.not_le.mpr hslot), hbytes]
  rfl

end

end Sys2Proof.Machine

namespace Sys2Proof.Spec

open Sys2Proof Sys2Proof.Machine

section
variable {d w : Dev} {f : Nat} {r : Req} {t : Table} (h : Serving d f 0x502 r w) (htable : w.cad.table w.cad.shadow = some t)
  (hswap : w.cad.swapAt = none) (hfloor : w.pow.state = 1 → t.floor ≤ 1200) (hadmit : w.admission t = none)
  (hinstalled : w.notInstalled t = false)
include h htable hswap hfloor hadmit hinstalled

/-- An admitted shadow that has a boundary is committed to it. -/
theorem committed_of_boundary {b : Nat} (hcopy : w.cad.copy ≤ 1) (hb : w.swapBoundary t = (0, 0, b)) : Committed w f d r b := by
  have hcommit := cmdSlotCommit_admitted (r := r) htable hswap hfloor hadmit hinstalled
  rw [hb] at hcommit
  refine ⟨_, h.replies (fun _ => rfl) hcommit, rfl, rfl, ?_, Cad.activeTable_setTable_shadow hcopy _⟩
  exact congrArg (Option.map Table.fstart)
    (w.cad.table_shadow_setTable (some { t with fstart := b, gen := (t.gen + 1) % 2 ^ 32 }))

/-- A boundary refused refuses the commit. -/
theorem slotCommit_refused {st det b : Nat} (hb : w.swapBoundary t = (st, det, b)) (hst : st ≠ 0) :
    Replies (.slotCommit f) d w r { status := st, detail := det } := by
  refine h.replies (fun _ => rfl) ((cmdSlotCommit_admitted htable hswap hfloor hadmit hinstalled).trans ?_)
  rw [hb]
  exact if_pos hst

end

/-- Settles O44: each command's meaning per case; what it reads of an image is counted. -/
theorem slotCommandsFollowTheirTable : Obligations.SlotCommandsFollowTheirTable := by
  intro d w f i s r
  refine ⟨?plan, ?load, ?commit, ?cancel, ?query⟩
  case plan =>
    intro img h hname harg hpos hreach htrain p v dig
    have hread := Dev.imageRead_of_reaches hpos hreach
    have hplan (sigOk : Bool) := cmdSlotPlan_eq (img := img) hname harg hread htrain sigOk
    refine ⟨fun hfree harg0 => ?_, fun hfree harg1 hfound => ?_, fun hnamed harg1 hfound => ?_, h.replies (fun _ => rfl) (hplan false)⟩
    · have hreg := hplan true
      simp only [harg0, hfree, p, Bool.not_true, Bool.false_eq_true, zero_ne_one, false_and, if_false] at hreg
      exact ⟨_, h.replies (fun _ => rfl) hreg, rfl, List.mem_append_right _ (List.mem_singleton_self p),
        fun q hq => mem_plans_put (p := p) hq⟩
    · have hdel := hplan true
      simp only [harg1, hfree, p, Option.isNone_eq_false_iff.mpr hfound, Bool.not_true, Bool.false_eq_true, and_false, if_false,
        if_true] at hdel
      exact ⟨_, h.replies (fun _ => rfl) hdel, rfl, find?_plans_del _ _ _⟩
    · have hkeep := hplan true
      simp only [harg1, hnamed, p, Option.isNone_eq_false_iff.mpr hfound, Bool.not_true, Bool.false_eq_true, and_false, if_false,
        if_true] at hkeep
      exact h.replies (fun _ => rfl) hkeep
  case load =>
    intro img h
    refine ⟨fun hbusy => h.replies (fun _ => rfl) (cmdSlotLoad_busy hbusy), fun hswap hpos hreach => ?_⟩
    obtain ⟨x, hread⟩ : ∃ x, w.imageRead 0 (r.arg64 0) (r.arg 2) = (w.setRsv x, 0) := ⟨_, Dev.imageRead_of_reaches hpos hreach⟩
    refine ⟨fun hfault hdomains => ?_, fun hfault => ?_, ?_⟩
    · obtain ⟨e, hload, hcad, hframe, hdom, hnamed⟩ := cmdSlotLoad_ok hswap hread hfault hdomains
      refine ⟨e, h.replies (fun _ => rfl) hload, ⟨_, hcad, img.built_builtFrom⟩, hframe, hdom, ?_⟩
      intro n x hx hentry hhandle hfree hretired
      exact hnamed n (hhandle ▸ Table.built_handles hx hentry) hfree hretired
    · exact ⟨_, h.replies (fun _ => rfl) (cmdSlotLoad_fault hswap hread hfault), rfl, rfl⟩
    · exact ⟨_, h.replies (fun _ => rfl) (cmdSlotLoad_unsigned hswap hread), rfl⟩
  case commit =>
    intro h hcopy
    refine ⟨fun hnone => h.replies (fun _ => rfl) (cmdSlotCommit_none hnone), fun t htable hswap hfloor => ⟨?refused, ?admitted⟩⟩
    case refused => exact fun c b k hcause => h.replies (fun _ => rfl) (cmdSlotCommit_refused htable hswap hfloor hcause)
    case admitted =>
      intro hadmit hinstalled
      have hcommit {b : Nat} (hb : w.swapBoundary t = (0, 0, b)) : Committed w f d r b :=
        committed_of_boundary h htable hswap hfloor hadmit hinstalled hcopy hb
      have hrefuse {st det : Nat} (hb : w.swapBoundary t = (st, det, 0)) (hst : st ≠ 0) :=
        slotCommit_refused h htable hswap hfloor hadmit hinstalled hb hst
      refine ⟨fun a hactive hframe hstart => ?_, fun hfirst => ?_⟩
      · have hb := swapBoundary_active (t := t) hactive
        obtain ⟨n, hn, hle, hlt⟩ := frameAtOrAfter_bounds hactive hframe (c := w.ns + 2 * a.slen) (by omega)
        exact ⟨_, n, hn, hle, hlt, fun hfit => hcommit (hb.trans (if_neg (by tauto))),
          fun hset hother => hrefuse (hb.trans (if_pos ⟨hset, hother⟩)) (by decide)⟩
      · have hb := swapBoundary_first (t := t) hfirst
        obtain ⟨hle, hlt⟩ := cdiv_mul_bounds (w.ns + 2 * t.slen) (b := 1000000000) (by decide)
        refine ⟨_, Nat.mul_mod_left _ _, hle, hlt, fun hopen => hcommit ?_, fun hwhole hsoon hset => hcommit ?_,
          fun hwhole hset hlate => hrefuse (st := 0x102) ?_ (by decide), fun hpart => hrefuse (st := 0x500) ?_ (by decide)⟩
        · rw [hb, if_pos hopen]
        · rw [hb, if_neg hset.ne', if_neg (not_not.mpr hwhole), if_neg (Nat.not_lt.mpr hsoon)]
        · rw [hb, if_neg hset.ne', if_neg (not_not.mpr hwhole), if_pos hlate]
        · have hset : t.fstart ≠ 0 := fun h0 => hpart (by rw [h0])
          rw [hb, if_neg hset, if_pos hpart]
  case cancel =>
    intro h
    refine ⟨fun hnone => h.replies (fun _ => rfl) (cmdSlotCancel_none hnone), fun t a hswap hactive => ⟨fun hearly => ?_, fun hlate => ?_⟩⟩
    · exact h.replies (fun _ => rfl) ((cmdSlotCancel_eq hswap hactive).trans (if_neg (Nat.not_le.mpr hearly)))
    · exact h.replies (fun _ => rfl) ((cmdSlotCancel_eq hswap hactive).trans (if_pos hlate))
  case query =>
    intro t h hcopy htable hslot seen hentry
    exact ⟨_, h.replies (fun _ => rfl) (cmdSlotQuery_ok hcopy htable hslot hentry), rfl⟩

end Sys2Proof.Spec
end

section
/-! PROOFS. Parts of what was written: the bytes and numbers that stand at an offset of it (R53). -/

namespace Sys2Proof

/-- A list of bytes written is read back part by part. -/
theorem Mem.readBytes_part (m : Mem) (a o : Nat) {bs pre part post : List Byte} (hbs : bs = pre ++ (part ++ post)) (ho : pre.length = o) :
    Mem.readBytes (Mem.writeBytes m a bs) (a + o) part.length = part := by
  subst hbs ho
  refine List.ext_getElem (by simp [Mem.readBytes]) (fun k h _ => ?_)
  have hk : k < part.length := by simpa [Mem.readBytes] using h
  have hlt : pre.length + k < (pre ++ (part ++ post)).length := by
    simp only [List.length_append]
    omega
  have hread := Machine.Mem.read_writeBytes_within m a _ _ hlt
  rw [List.getElem?_append_right (Nat.le_add_right _ _), Nat.add_sub_cancel_left, List.getElem?_append_left hk,
    List.getElem?_eq_getElem hk] at hread
  simpa [Mem.readBytes, Nat.add_assoc] using hread

/-- A number that stands as `n` bytes at offset `o` of what was written is read there. -/
theorem Mem.readLe_field (m : Mem) (a : Nat) {bs pre post : List Byte} {o n v : Nat} (hbs : bs = pre ++ (leBytes n v ++ post))
    (ho : pre.length = o) : Mem.readLe (Mem.writeBytes m a bs) (a + o) n = v % 256 ^ n := by
  have hread := Mem.readBytes_part m a o hbs ho
  rw [leBytes_length] at hread
  rw [Mem.readLe, hread, leNat_leBytes]

/-- A list of bytes of known length is read back. -/
theorem Mem.readBytes_written {m : Mem} {a n : Nat} (bs : List Byte) (h : bs.length = n) : Mem.readBytes (Mem.writeBytes m a bs) a n = bs := by
  rw [← h, Mem.readBytes_writeBytes]

/-- What is read apart from a write is as before. -/
theorem Mem.readBytes_writeBytes_apart {m : Mem} {a b n : Nat} (bs : List Byte) (h : a + n ≤ b ∨ b + bs.length ≤ a) :
    Mem.readBytes (Mem.writeBytes m b bs) a n = Mem.readBytes m a n := by
  refine List.map_congr_left (fun k hk => ?_)
  have hlt := List.mem_range.mp hk
  exact Machine.Mem.read_writeBytes_outside m b bs (a + k) (by omega)

end Sys2Proof
end

section
/-! PROOFS. Doorbells (R254, R365): what a write in the doorbell region makes of the stream it names, and the obligation it settles. -/

namespace Sys2Proof.Machine

open Sys2Proof Sys2Proof.Spec

section
variable {d : Dev} {f i : Nat} {v : W64}

/-- A write of eight bytes at a stream's doorbell is taken for that stream. -/
theorem doorbell_eq (hi : i < 0x10000) :
    doorbell f (0x80000 + 8 * i) 8 v d = if d.doorbellOk f i v.toNat then
        d.putStream i { d.stream i with sqTail := bitsOf v.toNat 11 0, cqHead := bitsOf v.toNat 27 16, dbCt := d.cad.ct }
      else if (d.stream i).state = 0 then d.rejectDb
      else d.rejectDb.putStream i { d.stream i with nstaledb := (d.stream i).nstaledb + 1 } := by
  have hregion : ¬ (0x80000 + 8 * i < 0x80000 ∨ 0x100000 ≤ 0x80000 + 8 * i) := by omega
  have hwhole : ¬ (8 ≠ 8 ∨ (0x80000 + 8 * i) % 8 ≠ 0) := by omega
  have hindex : (0x80000 + 8 * i - 0x80000) / 8 = i := by omega
  rw [doorbell, if_neg hregion, if_neg hwhole, hindex]

theorem doorbell_accepted (hi : i < 0x10000) (hok : d.doorbellOk f i v.toNat = true) :
    doorbell f (0x80000 + 8 * i) 8 v d
      = d.putStream i { d.stream i with sqTail := v.toNat % 4096, cqHead := v.toNat / 65536 % 4096, dbCt := d.cad.ct } := by
  have htail : bitsOf v.toNat 11 0 = v.toNat % 4096 := by simp [bitsOf]
  rw [doorbell_eq hi, if_pos hok, htail]
  rfl

/-- A refused doorbell is counted by the headworks, and by the stream where one stands there; nothing else changes. -/
theorem doorbell_refused (hi : i < 0x10000) (hok : d.doorbellOk f i v.toNat = false) :
    doorbell f (0x80000 + 8 * i) 8 v d = d.rejectDb
      ∨ ∃ n, doorbell f (0x80000 + 8 * i) 8 v d = d.rejectDb.putStream i { d.stream i with nstaledb := n } := by
  rw [doorbell_eq hi, if_neg (by simp [hok])]
  split
  · exact .inl rfl
  · exact .inr ⟨_, rfl⟩

/-- A write of another width is counted and changes nothing else. -/
theorem doorbell_width {w : Nat} (hi : i < 0x10000) (hw : w ≠ 8) : doorbell f (0x80000 + 8 * i) w v d = d.rejectDb := by
  have hregion : ¬ (0x80000 + 8 * i < 0x80000 ∨ 0x100000 ≤ 0x80000 + 8 * i) := by omega
  rw [doorbell, if_neg hregion, if_pos (.inl hw)]

end

end Sys2Proof.Machine

namespace Sys2Proof.Spec

open Sys2Proof Sys2Proof.Machine

/-- Settles O27: a doorbell is accepted, refused, or of the wrong width. -/
theorem doorbellsMoveTheRingIndices : Obligations.DoorbellsMoveTheRingIndices := by
  intro d f i v hq hi
  have hgives (w : Nat) : Gives (.doorbell f (0x80000 + 8 * i) w v) d (doorbell f (0x80000 + 8 * i) w v d) := hq.gives (fun _ => rfl)
  refine ⟨fun hok => doorbell_accepted hi hok ▸ hgives 8, fun hok => ⟨_, hgives 8, ?refused⟩, fun w hw => ?width⟩
  case width =>
    have h := hgives w
    rwa [doorbell_width hi hw] at h
  case refused =>
    obtain h | ⟨c, h⟩ := doorbell_refused hi hok
    · rw [h]
      exact ⟨rfl, fun _ => rfl, fun _ => rfl, rfl⟩
    · have hother (n : Nat) (hn : n ≠ i) : (d.rejectDb.putStream i { d.stream i with nstaledb := c }).stream n = d.stream n :=
        d.rejectDb.stream_putStream_other i n _ hn
      rw [h]
      refine ⟨rfl, fun n => ?tail, fun n => ?head, rfl⟩
      case tail =>
        by_cases hn : n = i
        · rw [hn, Dev.stream_putStream]
        · rw [hother n hn]
      case head =>
        by_cases hn : n = i
        · rw [hn, Dev.stream_putStream]
        · rw [hother n hn]

end Sys2Proof.Spec
end

section
/-! PROOFS. Completions and posting (R256 to R259, R464): what a completion writes, what a primary's posting and a failed period make of the
device, and the obligation they settle. -/

namespace Sys2Proof.Machine

open Sys2Proof Sys2Proof.Spec

/-! ### The completion entry (R256) -/

theorem Dev.vector_hostMem (d : Dev) (f v : Nat) : (d.vector f v).hostMem = d.hostMem := by
  unfold Dev.vector
  dsimp only
  split
  · rfl
  · split <;> rfl

section
variable (m : Mem) (a : Nat) (x : Desc) (phase lost code ct outlen slot frame : Nat) (trunc flg ovb : Bool)

theorem completionBytes_length : (completionBytes x phase lost code ct outlen slot frame trunc flg ovb).length = 32 := by
  simp [completionBytes, leBytes_length]

/-- CSTAT stands at offset 4. -/
theorem readLe_completion_cstat :
    Mem.readLe (Mem.writeBytes m a (completionBytes x phase lost code ct outlen slot frame trunc flg ovb)) (a + 4) 4
      = (phase + bit01 trunc * 2 + bit01 flg * 4 + bit01 ovb * 8 + lost * 256 + code * 65536) % 2 ^ 32 :=
  Mem.readLe_field m a (pre := leBytes 4 x.seq) (n := 4) (by simp only [completionBytes, List.append_assoc]; rfl) (leBytes_length 4 _)

/-- COOKIE stands at offset 8. -/
theorem readLe_completion_cookie :
    Mem.readLe (Mem.writeBytes m a (completionBytes x phase lost code ct outlen slot frame trunc flg ovb)) (a + 8) 8 = x.cookie % 2 ^ 64 :=
  Mem.readLe_field m a (pre := leBytes 4 x.seq ++ leBytes 4 _) (n := 8) (by simp only [completionBytes, List.append_assoc]; rfl)
    (by simp [leBytes_length])

/-- CT stands at offset 16. -/
theorem readLe_completion_ct :
    Mem.readLe (Mem.writeBytes m a (completionBytes x phase lost code ct outlen slot frame trunc flg ovb)) (a + 16) 8 = ct % 2 ^ 64 :=
  Mem.readLe_field m a (pre := leBytes 4 x.seq ++ leBytes 4 _ ++ leBytes 8 x.cookie) (n := 8)
    (by simp only [completionBytes, List.append_assoc]; rfl) (by simp [leBytes_length])

end

/-! ### A completion (R257, R259) -/

/-- The stream once a completion of code `code` has been written at time `now`. -/
def Stream.completed (s : Stream) (code now : Nat) : Stream :=
  advanceRing { s with lost := 0, ncpl := s.ncpl + 1, lastcpl := now, nerr := if code = 0 then s.nerr else s.nerr + 1 }

section
variable {d : Dev} {i code ct outlen slot frame : Nat} {x : Desc} {trunc ovb : Bool}

/-- A completion that meets a full ring is lost and counted. -/
theorem Dev.complete_full (h : ringFull (d.stream i) = true) : ∃ lost nerr,
    d.complete i x code ct outlen slot frame trunc ovb
      = d.putStream i { d.stream i with nlost := (d.stream i).nlost + 1, lost := lost, nerr := nerr } := by
  unfold Dev.complete
  exact ⟨_, _, if_pos h⟩

/-- From `d` to `e` stream `i` has become `s`, and `bs` has been written at `a` of host memory; time, the reservoir and the basins are as
before. -/
structure Dev.Wrote (d e : Dev) (i : Nat) (s : Stream) (a : Nat) (bs : List Byte) : Prop where
  stream : e.stream i = s
  hostMem : e.hostMem = Mem.writeBytes d.hostMem a bs
  cad : e.cad = d.cad
  rsv : e.rsv = d.rsv
  basins : e.basins = d.basins

/-- A completion for a domain that is bound to no function is written where its ring stands. -/
theorem Dev.complete_wrote {s : Stream} (hs : d.stream i = s) (hfull : ringFull s = false) (hbind : (d.domain s.domain).bind = none) :
    d.Wrote (d.complete i x code ct outlen slot frame trunc ovb) i (s.completed code d.ns) (s.cqbase + 32 * s.cqTail)
      (completionBytes x s.cqPhase s.lost code ct outlen slot frame trunc (s.flags ≠ 0) ovb) := by
  let w := (d.hostWrite (s.cqbase + 32 * s.cqTail)
    (completionBytes x s.cqPhase s.lost code ct outlen slot frame trunc (s.flags ≠ 0) ovb)).putStream i (s.completed code d.ns)
  have hw : d.Wrote w i (s.completed code d.ns) (s.cqbase + 32 * s.cqTail)
      (completionBytes x s.cqPhase s.lost code ct outlen slot frame trunc (s.flags ≠ 0) ovb) :=
    ⟨Dev.stream_putStream _ i _, rfl, rfl, rfl, rfl⟩
  have heq : d.complete i x code ct outlen slot frame trunc ovb = if x.notify then w.vector 256 s.vector else w := by
    simp only [Dev.complete, hs, hfull, Dev.hostWriteFor, hbind, Bool.false_eq_true, if_false, Option.any_none, Option.map_none, Option.getD_none]
    rfl
  rw [heq]
  split
  · have hchange := w.vector_eventChange 256 s.vector
    refine ⟨?_, (w.vector_hostMem _ _).trans hw.hostMem, hchange.cad, hchange.rsv, hchange.basins⟩
    rw [Dev.stream, hchange.streams]
    exact hw.stream
  · exact hw

end

/-! ### Posting by the primary of an unmirrored stream (R257, R258) -/

/-- What OBUF holds is what is sent where the domain may reach it; the read is counted alone. -/
theorem Dev.output_of_reaches {d : Dev} {s : Stream} {n : Nat} (h : Reaches d s.domain s.obuf n) :
    ∃ r, d.rsv.SameData r ∧ d.output s n = (Mem.readBytes d.rsv.mem s.obuf n, d.setRsv r) := by
  by_cases hn : n = 0
  · exact ⟨d.rsv, .refl _, by subst hn; rfl⟩
  · refine ⟨_, d.rsv.charge_sameData s.domain s.obuf n, ?_⟩
    rw [Dev.output, if_neg hn, d.rsvRead_of_reaches _ _ _ h]

/-- The stream without a period that is no longer due. -/
def Stream.settled (s : Stream) (p : Period) : Stream := { s with due := s.due.erase p }

/-- The device at the time of a period's completion, its output written; the read of OBUF has left reservoir `r`. -/
def Dev.outputWritten (d : Dev) (i : Nat) (p : Period) (x : Desc) (r : Rsv) : Dev :=
  let s := d.stream i
  (((d.putStream i (s.settled p)).atNs (s.postTime p (p.out x).1)).setRsv r).hostWrite x.outaddr (Mem.readBytes d.rsv.mem s.obuf (p.out x).1)

section
variable {d : Dev} {i : Nat} {p : Period} {x : Desc} (hdesc : p.desc = some x) (hrole : (d.stream i).role = 0)
  (hmirror : (d.stream i).mirror = 0)
include hdesc hrole hmirror

theorem posting_eq (htrain : d.train i = none) (hdue : (d.stream i).due.find? (fun q => q.fail == 0) = some p)
    (hbind : (d.domain (d.stream i).domain).bind = none) (hreach : Reaches d (d.stream i).domain (d.stream i).obuf (p.out x).1) :
    ∃ r, d.rsv.SameData r ∧ posting i d = (d.outputWritten i p x r).complete i x (p.out x).2 (p.postCt.getD 0) (p.out x).1 p.postSlot
      p.postFrame p.trunc p.ovb := by
  let s := d.stream i
  let v := (d.putStream i (s.settled p)).atNs (s.postTime p (p.out x).1)
  have hv : v.stream i = s.settled p := d.stream_putStream i _
  obtain ⟨r, hsame, hout⟩ := Dev.output_of_reaches (d := v) (s := s) (n := (p.out x).1) hreach
  refine ⟨r, hsame, ?_⟩
  have hpost : posting i d = (v.output s (p.out x).1).2.postPeriod i p x (v.output s (p.out x).1).1 := by
    have hprimary : (d.stream i).role ≠ 1 := by simp [hrole]
    have hcold : (d.stream i).mirror ≠ 2 := by simp [hmirror]
    have hknown : ¬ ((d.train i).map Train.diverged).getD false = true := by simp [htrain]
    unfold posting
    simp only [hdue, hdesc]
    rw [if_neg hknown, if_neg (fun h => hprimary h.1), if_neg hprimary, if_neg hcold, if_pos (.inl hmirror)]
    rfl
  have hnone : (((v.setRsv r).domain ((v.setRsv r).stream i).domain).bind.any fun q => ((v.setRsv r).func q.1).inReset) = false := by
    have hdom : ((v.setRsv r).stream i).domain = s.domain := by rw [show (v.setRsv r).stream i = s.settled p from hv]; rfl
    rw [hdom, show (v.setRsv r).domain s.domain = d.domain s.domain from rfl, hbind]
    rfl
  rw [hpost, hout, Dev.postPeriod, Dev.hostWriteFor, if_neg (by simp [hnone])]
  rfl

theorem failedPeriodCompletion_eq (hperiod : (d.stream i).period = none)
    (hdue : (d.stream i).due.find? (fun q => q.fail != 0) = some p) :
    ∃ outlen slot frame, failedPeriodCompletion i d = ((d.atNs p.deadline).putStream i ((d.stream i).settled p)).complete i x p.fail
      (p.postCt.getD (ctAt d p.deadline / 65536)) outlen slot frame p.trunc p.ovb := by
  have hopen : ¬ ((d.stream i).due.all (fun p => p.fail == 0) ∧ (d.stream i).period.any (fun p => p.fail != 0)) := by simp [hperiod]
  have hsettled : ((d.atNs p.deadline).putStream i ((d.stream i).settled p)).stream i = (d.stream i).settled p := Dev.stream_putStream _ i _
  unfold failedPeriodCompletion
  simp only [if_neg hopen, hdue, hdesc]
  refine ⟨_, _, _, (if_pos ?_).trans ((if_neg ?_).trans rfl)⟩
  · exact (congrArg Stream.mirror hsettled).trans hmirror
  · exact fun h => absurd ((congrArg Stream.role hsettled).symm.trans h) (by simp [Stream.settled, hrole])

end

end Sys2Proof.Machine

namespace Sys2Proof.Spec

open Sys2Proof Sys2Proof.Machine

/-- Settles O29: a posting is the output written and then a completion, and a failed period a completion alone. -/
theorem periodsPostTheirCompletion : Obligations.PeriodsPostTheirCompletion := by
  intro d i p x hq hdesc htrain s hrole hmirror hbind n entry ok bad
  have hposting : Gives (.posting i) d (posting i d) := hq.gives (fun _ => rfl)
  have hfailed : Gives (.failedPeriodCompletion i) d (failedPeriodCompletion i d) := hq.gives (fun _ => rfl)
  have hwritten (r : Rsv) : (d.outputWritten i p x r).stream i = s.settled p := d.stream_putStream i _
  have hsettled (t : Nat) : ((d.atNs t).putStream i (s.settled p)).stream i = s.settled p := (d.atNs t).stream_putStream i _
  refine ⟨fun hdue hfull hreach hapart => ?posted, fun hdue hfull hreach => ?lost, fun hdue hfull => ?failed⟩
  case posted =>
    obtain ⟨r, hsame, hpost⟩ := posting_eq hdesc hrole hmirror htrain hdue hbind hreach
    rw [hpost] at hposting
    have hw := Dev.complete_wrote (x := x) (code := (p.out x).2) (ct := p.postCt.getD 0) (outlen := (p.out x).1) (slot := p.postSlot)
      (frame := p.postFrame) (trunc := p.trunc) (ovb := p.ovb) (hwritten r) hfull hbind
    refine ⟨_, hposting, ?time, ?due, ?ncpl, ?tail, ?output, ?cstat, ?cookie, ?mem, ?basins⟩
    case time => rw [hw.cad]; rfl
    case due => rw [hw.stream]; rfl
    case ncpl => rw [hw.stream]; rfl
    case tail => rw [hw.stream]; rfl
    case output =>
      rw [hw.hostMem]
      refine (Mem.readBytes_writeBytes_apart _ ?_).trans (Mem.readBytes_written _ (by simp [Mem.readBytes, n]))
      rw [completionBytes_length]
      exact hapart
    case cstat => rw [hw.hostMem]; exact readLe_completion_cstat ..
    case cookie => rw [hw.hostMem]; exact readLe_completion_cookie ..
    case mem => rw [hw.rsv]; exact hsame.mem
    case basins => rw [hw.basins]; rfl
  case lost =>
    obtain ⟨r, hsame, hpost⟩ := posting_eq hdesc hrole hmirror htrain hdue hbind hreach
    obtain ⟨lost, nerr, hlost⟩ := Dev.complete_full (x := x) (code := (p.out x).2) (ct := p.postCt.getD 0) (outlen := (p.out x).1)
      (slot := p.postSlot) (frame := p.postFrame) (trunc := p.trunc) (ovb := p.ovb)
      (show ringFull ((d.outputWritten i p x r).stream i) = true by rw [hwritten r]; exact hfull)
    rw [hpost, hlost, hwritten r] at hposting
    refine ⟨_, hposting, ?nlost, ?kept, ?ncpl, ?bytes⟩
    case nlost => rw [Dev.stream_putStream]; rfl
    case kept => rw [Dev.stream_putStream]; rfl
    case ncpl => rw [Dev.stream_putStream]; rfl
    case bytes =>
      intro q hq
      exact Mem.read_writeBytes_outside _ _ _ q (by simpa [Mem.readBytes] using hq)
  case failed =>
    obtain ⟨hperiod, hfound⟩ := hdue
    obtain ⟨outlen, slot, frame, hfail⟩ := failedPeriodCompletion_eq hdesc hrole hmirror hperiod hfound
    have hcode : p.fail ≠ 0 := by simpa using List.find?_some hfound
    rw [hfail] at hfailed
    have hw := Dev.complete_wrote (x := x) (code := p.fail) (ct := p.postCt.getD (ctAt d p.deadline / 65536)) (outlen := outlen) (slot := slot)
      (frame := frame) (trunc := p.trunc) (ovb := p.ovb) (hsettled p.deadline) hfull hbind
    refine ⟨_, hfailed, ?time, ?due, ?nerr, ?cstat, ?ended, ?rest⟩
    case time => rw [hw.cad]; rfl
    case due => rw [hw.stream]; rfl
    case nerr => rw [hw.stream, Stream.completed, if_neg hcode]; rfl
    case cstat => rw [hw.hostMem]; exact readLe_completion_cstat ..
    case ended => rw [hw.hostMem]; exact readLe_completion_ct ..
    case rest =>
      intro q hq
      rw [hw.hostMem]
      exact Mem.read_writeBytes_outside _ _ _ q (by rw [completionBytes_length]; exact hq)

end Sys2Proof.Spec
end

section
/-! PROOFS. Time sources (R234 to R238): how they qualify, lock and are lost, what a new selection leaves, and the obligation they settle. -/

namespace Sys2Proof.Spec

open Sys2Proof Sys2Proof.Machine

/-! ### What the cadence unit's commands leave alone -/

theorem timeOnly_iff {d e : Dev} : TimeOnly d e ↔ ∃ c m h l fs fh hm o,
    e = { d with cad := c, md := m, hw := h, link := l, funcs := fs, fh := fh, hostMem := hm, out := o } := by
  constructor
  · exact fun h => ⟨_, _, _, _, _, _, _, _, h⟩
  · rintro ⟨_, _, _, _, _, _, _, _, rfl⟩
    rfl

theorem TimeOnly.trans {a b c : Dev} (hab : TimeOnly a b) (hbc : TimeOnly b c) : TimeOnly a c := by
  obtain ⟨_, _, _, _, _, _, _, _, rfl⟩ := timeOnly_iff.mp hab
  obtain ⟨_, _, _, _, _, _, _, _, rfl⟩ := timeOnly_iff.mp hbc
  rfl

end Sys2Proof.Spec

namespace Sys2Proof.Machine

open Sys2Proof Sys2Proof.Spec

theorem EventChange.timeOnly {d e : Dev} (h : EventChange d e) : TimeOnly d e := by
  obtain ⟨_, _, _, _, _, _, rfl⟩ := h
  rfl

theorem EventChange.md {d e : Dev} (h : EventChange d e) : e.md = d.md := by obtain ⟨_, _, _, _, _, _, rfl⟩ := h; rfl
theorem EventChange.link {d e : Dev} (h : EventChange d e) : e.link = d.link := by obtain ⟨_, _, _, _, _, _, rfl⟩ := h; rfl

theorem Dev.timeEvent_eventChange (d : Dev) : EventChange d d.timeEvent := d.raiseO_eventChange _ _ _ _ _

theorem Dev.setCad_timeOnly (d : Dev) (c : Cad) : TimeOnly d (d.setCad c) := rfl

/-! ### Selection (R236, R238) -/

theorem Cad.best_pps {c : Cad} (h : c.pps.state = 2) : c.best = 1 := by simp [Cad.best, h]
theorem Cad.best_ptm {c : Cad} (hpps : c.pps.state ≠ 2) (h : c.ptm.state = 2) : c.best = 2 := by simp [Cad.best, hpps, h]
theorem Cad.best_rill {c : Cad} (hpps : c.pps.state ≠ 2) (hptm : c.ptm.state ≠ 2) (h : c.rill.state = 2) : c.best = 3 := by
  simp [Cad.best, hpps, hptm, h]
theorem Cad.best_none {c : Cad} (hpps : c.pps.state ≠ 2) (hptm : c.ptm.state ≠ 2) (hrill : c.rill.state ≠ 2) : c.best = 0 := by
  simp [Cad.best, hpps, hptm, hrill]

theorem Cad.best_ne_pps {c : Cad} (h : c.pps.state ≠ 2) : c.best ≠ 1 := by
  rw [Cad.best, if_neg h]
  split
  · decide
  · split <;> decide

/-- From `c` to `e` the best LOCKED source has been selected; with none, a device that was LOCKED begins its HOLDOVER. -/
structure Cad.Reselected (c e : Cad) : Prop where
  frame : e = { c with dev := e.dev, sel := e.sel, holdStart := e.holdStart, slew := e.slew, holdReported := e.holdReported }
  sel : e.sel = c.best
  locked : c.best ≠ 0 → e.dev = 1
  holdover : c.best = 0 → c.dev = 1 → e.dev = 2 ∧ e.holdStart = some c.ct ∧ e.slew = 0

section
variable {c e : Cad} (h : c.Reselected e)
include h

theorem Cad.Reselected.pps : e.pps = c.pps := by rw [h.frame]
theorem Cad.Reselected.ptm : e.ptm = c.ptm := by rw [h.frame]
theorem Cad.Reselected.rill : e.rill = c.rill := by rw [h.frame]
theorem Cad.Reselected.ct : e.ct = c.ct := by rw [h.frame]
theorem Cad.Reselected.label : e.label = c.label := by rw [h.frame]

end

/-- The state of the device with the sources it has: LOCKED, or FREE or HOLDOVER without a LOCKED source (R238). -/
def Cad.devFor (c : Cad) : Nat := if c.best ≠ 0 then 1 else if c.dev = 0 then 0 else 2

/-- The cadence unit once it has changed to its best source. -/
def Cad.reselected (c : Cad) : Cad :=
  { c with dev := c.devFor, sel := c.best, holdStart := if c.devFor = 2 then (if c.dev = 2 then c.holdStart else some c.ct) else none,
           slew := if c.devFor = 2 then 0 else c.slew, holdReported := if c.devFor = 2 then c.holdReported && c.dev == 2 else false }

theorem Dev.reselect_eq (d : Dev) :
    d.reselect = if d.cad.devFor = d.cad.dev ∧ d.cad.best = d.cad.sel then d else (d.setCad d.cad.reselected).timeEvent := rfl

theorem Cad.devFor_locked {c : Cad} (h : c.best ≠ 0) : c.devFor = 1 := if_pos h

theorem Cad.devFor_holdover {c : Cad} (h : c.best = 0) (hdev : c.dev = 1) : c.devFor = 2 := by simp [Cad.devFor, h, hdev]

theorem Dev.reselect_spec (d : Dev) : EventChange (d.setCad d.reselect.cad) d.reselect ∧ d.cad.Reselected d.reselect.cad := by
  rw [d.reselect_eq]
  split
  case isTrue hsame =>
    obtain ⟨hdev, hsel⟩ := hsame
    refine ⟨.refl d, rfl, hsel.symm, fun hbest => hdev.symm.trans (Cad.devFor_locked hbest), fun hbest hwas => ?_⟩
    rw [Cad.devFor_holdover hbest hwas, hwas] at hdev
    contradiction
  case isFalse =>
    have hchange := (d.setCad d.cad.reselected).timeEvent_eventChange
    have hcad : (d.setCad d.cad.reselected).timeEvent.cad = d.cad.reselected := hchange.cad
    rw [hcad]
    refine ⟨hchange, rfl, rfl, Cad.devFor_locked, fun hbest hwas => ?_⟩
    simp [Cad.reselected, Cad.devFor_holdover hbest hwas, hwas]

theorem Dev.withSources_spec (d : Dev) (c : Cad) :
    EventChange (d.setCad (d.withSources c).cad) (d.withSources c) ∧ c.Reselected (d.withSources c).cad :=
  (d.setCad c).reselect_spec

theorem Dev.withSources_timeOnly (d : Dev) (c : Cad) : TimeOnly d (d.withSources c) :=
  (d.setCad_timeOnly _).trans (d.withSources_spec c).1.timeOnly

/-! ### Correction (R237) -/

/-- An error of at most 1 ms is slewed. -/
theorem Dev.correct_slewed {d : Dev} {err : Int} (hlow : -oneMs ≤ err) (hhigh : err ≤ oneMs) :
    d.correct err = d.setCad { d.cad with pherr := err / 65536, slew := err, diverged := false } := if_pos ⟨hlow, hhigh⟩

theorem Dev.correctFrom_unselected {d : Dev} {src : Nat} (h : d.cad.sel ≠ src) (err : Int) : d.correctFrom src err = d :=
  if_neg fun hsel => h hsel.1

/-- From `d` to `e` the sources have become those of `c`, of which `src` is selected, and CT slews by `err` toward it. -/
structure Dev.Follows (d : Dev) (c : Cad) (src : Nat) (err : Int) (e : Dev) : Prop where
  timeOnly : TimeOnly d e
  cad : ∃ hold reported,
    e.cad = { c with dev := 1, sel := src, holdStart := hold, holdReported := reported, slew := err, pherr := err / 65536, diverged := false }
  md : e.md = d.md
  hw : e.hw = d.hw
  link : e.link = d.link

/-- The best LOCKED source corrects CT by an error of at most 1 ms. -/
theorem Dev.follows_best {d : Dev} {c : Cad} {src : Nat} {err : Int} (hbest : c.best = src) (hsrc : src ≠ 0) (hlow : -oneMs ≤ err)
    (hhigh : err ≤ oneMs) : d.Follows c src err ((d.withSources c).correctFrom src err) := by
  obtain ⟨hchange, hnew⟩ := d.withSources_spec c
  have hsel : (d.withSources c).cad.sel = src := hnew.sel.trans hbest
  have hdev : (d.withSources c).cad.dev = 1 := hnew.locked (hbest ▸ hsrc)
  rw [Dev.correctFrom, if_pos ⟨hsel, hdev⟩, Dev.correct_slewed hlow hhigh]
  refine ⟨(d.withSources_timeOnly c).trans (Dev.setCad_timeOnly _ _), ⟨(d.withSources c).cad.holdStart, (d.withSources c).cad.holdReported, ?_⟩,
    hchange.md, hchange.hw, hchange.link⟩
  rw [Dev.setCad_cad, hnew.frame, hsel, hdev]

/-! ### PPS_IN (R234, R235) -/

theorem ppsNext_qualifies {s : Source} (h : s.state = 0 ∨ s.state = 3) (ct cycles : Nat) (err : Option Int) :
    ppsNext s ct cycles true err = { s with last := some ct, state := 1, spaced := 0, good := 0, bad := 0 } := by
  obtain h | h := h
  · simp [ppsNext, h]
  · simp [ppsNext, h]

/-- The eighth edge in a row within 20 ns locks the source. -/
theorem ppsNext_locks {s : Source} {ct cycles : Nat} {err : Int} (hstate : s.state = 1) (hspaced : s.spaced = 3) (hgood : s.good = 7)
    (hlast : s.last.isSome = true) (hlow : 9999999 ≤ cycles) (hhigh : cycles ≤ 10000001) (hfrom : -(20 * 65536) < err) (hto : err < 20 * 65536) :
    ppsNext s ct cycles true (some err) = { s with last := some ct, state := 2, good := 0, bad := 0 } := by
  have herr : -1310720 < err ∧ err < 1310720 := by omega
  simp [ppsNext, hstate, hspaced, hgood, hlast, hlow, hhigh, herr]

/-- Without a LOCKED PTM an edge has the label given last. -/
theorem Cad.edgeLabel_given {c : Cad} (h : c.ptm.state ≠ 2) : c.edgeLabel = c.label := if_neg h

/-- The phase error of an edge that arrives now and is labelled. -/
def Cad.edgeError (c : Cad) : Option Int := c.edgeLabel.map (fun t => ((t * 65536000000000 : Nat) : Int) - (c.ct : Int))

/-- The cadence unit once an edge has been qualified and labelled. -/
def Cad.edgeTaken (c : Cad) (cycles : Nat) (refok : Bool) : Cad :=
  { c with pps := ppsNext c.pps c.ct cycles refok c.edgeError, label := c.edgeLabel.map (· + 1) }

/-- The device with the CT of the last edge. -/
def Dev.edgeSeen (d : Dev) : Dev := d.setMd { d.md with ppsLast := some d.cad.ct }

theorem ppsEdge_of_error {d : Dev} {err : Int} (h : d.cad.edgeError = some err) (cycles : Nat) :
    ppsEdge cycles d = (d.edgeSeen.withSources (d.cad.edgeTaken cycles d.md.refok)).correctFrom 1 err := by
  unfold Cad.edgeError at h
  simp only [ppsEdge, h, Cad.edgeTaken, Cad.edgeError]
  rfl

theorem ppsEdge_of_unlabelled {d : Dev} (h : d.cad.edgeError = none) (cycles : Nat) :
    ppsEdge cycles d = d.edgeSeen.withSources (d.cad.edgeTaken cycles d.md.refok) := by
  unfold Cad.edgeError at h
  simp only [ppsEdge, h, Cad.edgeTaken, Cad.edgeError]
  rfl

/-- An edge that does not leave PPS_IN LOCKED corrects nothing. -/
theorem ppsEdge_unlocked {d : Dev} {cycles : Nat} (h : (d.cad.edgeTaken cycles d.md.refok).pps.state ≠ 2) :
    ppsEdge cycles d = d.edgeSeen.withSources (d.cad.edgeTaken cycles d.md.refok) := by
  cases herr : d.cad.edgeError with
  | none => exact ppsEdge_of_unlabelled herr cycles
  | some err =>
    rw [ppsEdge_of_error herr]
    refine Dev.correctFrom_unselected ?_ err
    rw [(Dev.withSources_spec _ _).2.sel]
    exact Cad.best_ne_pps h

/-! ### Sources that are lost (R234) -/

theorem lostAfter_state {s : Source} (h : s.state = 1 ∨ s.state = 2) : (lostAfter s).state = if s.state = 2 then 3 else 1 := by
  obtain h | h := h
  · simp [lostAfter, h]
  · simp [lostAfter, h]

theorem lostAfter_state_ne_locked (s : Source) : (lostAfter s).state ≠ 2 := by
  unfold lostAfter
  dsimp only
  split
  · decide
  · assumption

theorem timeoutAt_heard {s : Source} {t : Nat} (h : s.state = 1 ∨ s.state = 2) (hlast : s.last = some t) (limit : Nat) :
    timeoutAt s limit = some (t / 65536 + limit) := by
  rw [timeoutAt, if_pos h, hlast]
  rfl

theorem ppsTimeout_eq {d : Dev} {t : Nat} (h : d.cad.pps.state = 1 ∨ d.cad.pps.state = 2) (hlast : d.cad.pps.last = some t) :
    let v := d.atNs (t / 65536 + 1500000000)
    ppsTimeout d = v.withSources { v.cad with pps := lostAfter d.cad.pps, label := none } := by
  simp only [ppsTimeout, timeoutAt_heard h hlast]
  rfl

theorem ptmTimeout_eq {d : Dev} {t : Nat} (h : d.cad.ptm.state = 1 ∨ d.cad.ptm.state = 2) (hlast : d.cad.ptm.last = some t) :
    let v := d.atNs (t / 65536 + 500000000)
    ptmTimeout d = v.withSources { v.cad with ptm := lostAfter d.cad.ptm } := by
  simp only [ptmTimeout, timeoutAt_heard h hlast]
  rfl

theorem rillTimeTimeout_eq {d : Dev} {t : Nat} (h : d.cad.rill.state = 1 ∨ d.cad.rill.state = 2) (hlast : d.cad.rill.last = some t) :
    let v := d.atNs (t / 65536 + 10000000)
    rillTimeTimeout d = v.withSources { v.cad with rill := lostAfter d.cad.rill } := by
  simp only [rillTimeTimeout, timeoutAt_heard h hlast]
  rfl

/-- What the return of the reference makes of PPS_IN: a LOST source qualifies again. -/
def Source.regained (s : Source) : Source := if s.state = 3 then { s with state := 1, good := 0, spaced := 0 } else s

theorem refclkReturn_eq (d : Dev) :
    refclkReturn d = (d.setMd { d.md with refok := true }).setCad { d.cad with pps := d.cad.pps.regained } := rfl

/-! ### PTM and rill (R234) -/

/-- The last event of a row locks the source where none is missing before it. -/
theorem countNext_locks {s : Source} {ct need gap t : Nat} {lim err : Int} (hstate : s.state = 1) (hgood : need ≤ s.good + 1)
    (hlast : s.last = some t) (hnext : ct < t + 2 * gap * 65536) (hfrom : -lim < err) (hto : err < lim) :
    countNext s ct need gap lim err = { s with last := some ct, state := 2, good := 0 } := by
  have hmet : s.next ct gap = true := by simpa [Source.next, hlast] using hnext
  simp [countNext, hstate, hmet, hfrom, hto, hgood]

theorem Source.broken_qualifying {s : Source} (h : s.state = 1) : s.broken = { s with good := 0 } := if_pos h

theorem holdlimExceeded_eq {d : Dev} {t : Nat} (hstart : d.cad.holdStart = some t) (hnew : d.cad.holdReported = false) :
    let v := d.atNs (t / 65536 + (d.cad.holdlim.toNat + 1) * 10000000)
    holdlimExceeded d = (v.setCad { v.cad with holdReported := true }).timeEvent := by
  simp only [holdlimExceeded, hstart, hnew, Bool.false_eq_true, if_false]

end Sys2Proof.Machine

namespace Sys2Proof.Spec

open Sys2Proof Sys2Proof.Machine

section
variable {d : Dev} {cycles sec : Nat} (hon : d.timeOn = true)
include hon

theorem gives_ppsEdge_qualified (hstate : d.cad.pps.state = 0 ∨ d.cad.pps.state = 3) (href : d.md.refok = true) :
    ∃ e, Gives (.ppsEdge cycles) d e ∧ e.cad.pps.state = 1 ∧ e.md.ppsLast = some d.cad.ct ∧ TimeOnly d e := by
  have hpps : (d.cad.edgeTaken cycles d.md.refok).pps.state = 1 := by rw [Cad.edgeTaken, href, ppsNext_qualifies hstate]
  have hgives : Gives (.ppsEdge cycles) d (ppsEdge cycles d) := gives_of_onlyIf hon (fun _ => rfl)
  obtain ⟨hchange, hnew⟩ := d.edgeSeen.withSources_spec (d.cad.edgeTaken cycles d.md.refok)
  rw [ppsEdge_unlocked (by rw [hpps]; decide)] at hgives
  refine ⟨_, hgives, ?state, ?last, TimeOnly.trans (b := d.edgeSeen) rfl (Dev.withSources_timeOnly _ _)⟩
  case state => rw [hnew.pps, hpps]
  case last => rw [hchange.md]; rfl

theorem gives_ppsEdge_locked (hstate : d.cad.pps.state = 1) (hspaced : d.cad.pps.spaced = 3) (hgood : d.cad.pps.good = 7)
    (hlast : d.cad.pps.last.isSome = true) (href : d.md.refok = true) (hlow : 9999999 ≤ cycles) (hhigh : cycles ≤ 10000001)
    (hptm : d.cad.ptm.state ≠ 2) (hlabel : d.cad.label = some sec) {err : Int} (herr : err = (sec : Int) * tSec - (d.cad.ct : Int))
    (hfrom : -(20 * tNs) < err) (hto : err < 20 * tNs) :
    ∃ e, Gives (.ppsEdge cycles) d e ∧ e.cad.pps.state = 2 ∧ e.cad.sel = 1 ∧ e.cad.dev = 1 ∧ e.cad.slew = err ∧ e.cad.ct = d.cad.ct
      ∧ e.cad.label = some (sec + 1) ∧ e.cad.pherr = err / 65536 ∧ TimeOnly d e := by
  simp only [tNs] at hfrom hto
  have hedge : d.cad.edgeLabel = some sec := (Cad.edgeLabel_given hptm).trans hlabel
  have herror : d.cad.edgeError = some err := by simp [Cad.edgeError, hedge, herr, tSec]
  have hpps : (d.cad.edgeTaken cycles d.md.refok).pps.state = 2 := by
    rw [Cad.edgeTaken, href, herror, ppsNext_locks hstate hspaced hgood hlast hlow hhigh hfrom hto]
  have hgives : Gives (.ppsEdge cycles) d (ppsEdge cycles d) := gives_of_onlyIf hon (fun _ => rfl)
  rw [ppsEdge_of_error herror] at hgives
  obtain ⟨htime, ⟨hold, reported, hcad⟩, -, -, -⟩ := d.edgeSeen.follows_best (Cad.best_pps hpps) one_ne_zero
    (show -oneMs ≤ err by simp only [oneMs]; omega) (show err ≤ oneMs by simp only [oneMs]; omega)
  refine ⟨_, hgives, ?_, ?_, ?_, ?_, ?_, ?_, ?_, TimeOnly.trans (b := d.edgeSeen) rfl htime⟩
  all_goals rw [hcad]
  · exact hpps
  · rfl
  · simp [Cad.edgeTaken, hedge]

theorem gives_ppsTimeout {t : Nat} (hstate : d.cad.pps.state = 2) (hlast : d.cad.pps.last = some t) (hptm : d.cad.ptm.state ≠ 2)
    (hrill : d.cad.rill.state ≠ 2) (hdev : d.cad.dev = 1) :
    ∃ e, Gives .ppsTimeout d e ∧ e.cad.pps.state = 3 ∧ e.cad.ct = ctAt d (t / 65536 + 1500000000) ∧ e.cad.dev = 2 ∧ e.cad.sel = 0
      ∧ e.cad.holdStart = some (ctAt d (t / 65536 + 1500000000)) ∧ e.cad.slew = 0 ∧ e.cad.label = none ∧ TimeOnly d e := by
  let v := d.atNs (t / 65536 + 1500000000)
  let c : Cad := { v.cad with pps := lostAfter d.cad.pps, label := none }
  have hgives : Gives .ppsTimeout d (ppsTimeout d) := gives_of_onlyIf hon (fun _ => rfl)
  rw [ppsTimeout_eq (.inr hstate) hlast] at hgives
  have hbest : c.best = 0 := Cad.best_none (lostAfter_state_ne_locked _) hptm hrill
  have hnew := (v.withSources_spec c).2
  obtain ⟨hhold, hstart, hslew⟩ := hnew.holdover hbest hdev
  refine ⟨_, hgives, ?state, hnew.ct, hhold, hnew.sel.trans hbest, hstart, hslew, hnew.label,
    TimeOnly.trans (b := v) rfl (v.withSources_timeOnly c)⟩
  rw [hnew.pps]
  exact (lostAfter_state (.inr hstate)).trans (if_pos hstate)

theorem gives_refclkLoss (hstate : d.cad.pps.state = 1 ∨ d.cad.pps.state = 2) :
    ∃ e, Gives .refclkLoss d e ∧ e.md.refok = false ∧ e.cad.pps.state = (if d.cad.pps.state = 2 then 3 else 1) ∧ e.cad.pps.good = 0
      ∧ e.cad.pps.spaced = 0 ∧ e.cad.ct = d.cad.ct ∧ TimeOnly d e := by
  let v := d.setMd { d.md with refok := false }
  obtain ⟨hchange, hnew⟩ := v.withSources_spec { d.cad with pps := lostAfter d.cad.pps }
  refine ⟨_, gives_of_onlyIf (g := refclkLoss) hon (fun _ => rfl), ?_, ?_, ?_, ?_, hnew.ct,
    TimeOnly.trans (b := v) rfl (v.withSources_timeOnly _)⟩
  · exact congrArg Mod.refok hchange.md
  · exact (congrArg Source.state hnew.pps).trans (lostAfter_state hstate)
  · exact congrArg Source.good hnew.pps
  · exact congrArg Source.spaced hnew.pps

theorem gives_refclkReturn (hstate : d.cad.pps.state = 3) :
    ∃ e, Gives .refclkReturn d e ∧ e.md.refok = true ∧ e.cad.pps.state = 1 ∧ TimeOnly d e := by
  refine ⟨_, gives_of_onlyIf (g := refclkReturn) hon (fun _ => rfl), rfl, ?_, rfl⟩
  rw [refclkReturn_eq, Source.regained, if_pos hstate]
  rfl

theorem gives_refclkReturn_unlost (hstate : d.cad.pps.state ≠ 3) :
    Gives .refclkReturn d (d.setMd { d.md with refok := true }) := by
  have hgives : Gives .refclkReturn d (refclkReturn d) := gives_of_onlyIf hon (fun _ => rfl)
  rwa [refclkReturn_eq, Source.regained, if_neg hstate] at hgives

/-- PTM that is not heard for 500 ms. -/
theorem gives_ptmTimeout {t : Nat} (hstate : d.cad.ptm.state = 1 ∨ d.cad.ptm.state = 2) (hlast : d.cad.ptm.last = some t) :
    ∃ e, Gives .ptmTimeout d e ∧ e.cad.ptm.state = (if d.cad.ptm.state = 2 then 3 else 1) ∧ e.cad.ptm.good = 0
      ∧ e.cad.ct = ctAt d (t / 65536 + 500000000) ∧ TimeOnly d e := by
  let v := d.atNs (t / 65536 + 500000000)
  have hgives : Gives .ptmTimeout d (ptmTimeout d) := gives_of_onlyIf hon (fun _ => rfl)
  rw [ptmTimeout_eq hstate hlast] at hgives
  have hnew := (v.withSources_spec { v.cad with ptm := lostAfter d.cad.ptm }).2
  exact ⟨_, hgives, (congrArg Source.state hnew.ptm).trans (lostAfter_state hstate), congrArg Source.good hnew.ptm, hnew.ct,
    TimeOnly.trans (b := v) rfl (v.withSources_timeOnly _)⟩

/-- A rill source that is not heard for 10 ms. -/
theorem gives_rillTimeTimeout {t : Nat} (hstate : d.cad.rill.state = 1 ∨ d.cad.rill.state = 2) (hlast : d.cad.rill.last = some t) :
    ∃ e, Gives .rillTimeTimeout d e ∧ e.cad.rill.state = (if d.cad.rill.state = 2 then 3 else 1) ∧ e.cad.rill.good = 0
      ∧ e.cad.ct = ctAt d (t / 65536 + 10000000) ∧ TimeOnly d e := by
  let v := d.atNs (t / 65536 + 10000000)
  have hgives : Gives .rillTimeTimeout d (rillTimeTimeout d) := gives_of_onlyIf hon (fun _ => rfl)
  rw [rillTimeTimeout_eq hstate hlast] at hgives
  have hnew := (v.withSources_spec { v.cad with rill := lostAfter d.cad.rill }).2
  exact ⟨_, hgives, (congrArg Source.state hnew.rill).trans (lostAfter_state hstate), congrArg Source.good hnew.rill, hnew.ct,
    TimeOnly.trans (b := v) rfl (v.withSources_timeOnly _)⟩

theorem gives_holdlimExceeded {t : Nat} (hstart : d.cad.holdStart = some t) (hnew : d.cad.holdReported = false) :
    ∃ e, Gives .holdlimExceeded d e ∧ e.cad.holdReported = true
      ∧ e.cad.ct = ctAt d (t / 65536 + (d.cad.holdlim.toNat + 1) * 10000000) ∧ TimeOnly d e := by
  let v := d.atNs (t / 65536 + (d.cad.holdlim.toNat + 1) * 10000000)
  have hgives : Gives .holdlimExceeded d (holdlimExceeded d) := gives_of_onlyIf hon (fun _ => rfl)
  rw [holdlimExceeded_eq hstart hnew] at hgives
  have hchange := (v.setCad { v.cad with holdReported := true }).timeEvent_eventChange
  exact ⟨_, hgives, congrArg Cad.holdReported hchange.cad, congrArg Cad.ct hchange.cad,
    TimeOnly.trans (b := v.setCad { v.cad with holdReported := true }) rfl hchange.timeOnly⟩

end

/-- The sixteenth dialogue in a row locks PTM. -/
theorem gives_ptmDialogue_locked {d : Dev} {master t : Nat} (hon : d.ptmOn = true) (hstate : d.cad.ptm.state = 1) (hgood : d.cad.ptm.good = 15)
    (hlast : d.cad.ptm.last = some t) (hnext : d.cad.ct < t + 20000000 * 65536) (hpps : d.cad.pps.state ≠ 2) {err : Int}
    (herr : err = (master : Int) - (d.cad.ct : Int)) (hfrom : -(100 * tNs) < err) (hto : err < 100 * tNs) :
    ∃ e, Gives (.ptmDialogue true master) d e ∧ e.cad.ptm.state = 2 ∧ e.cad.sel = 2 ∧ e.cad.dev = 1 ∧ e.cad.slew = err
      ∧ e.cad.ct = d.cad.ct ∧ e.hw.lastPtm = some d.ns ∧ TimeOnly d e := by
  let v := d.setHw { d.hw with lastPtm := some d.ns }
  let c : Cad := { d.cad with ptm := countNext d.cad.ptm d.cad.ct 16 10000000 (100 * 65536) err, ptmErr := err }
  simp only [tNs] at hfrom hto
  have hptm : c.ptm.state = 2 :=
    congrArg Source.state (countNext_locks (need := 16) (gap := 10000000) hstate (by omega) hlast (by omega) hfrom hto)
  have hgives : Gives (.ptmDialogue true master) d ((v.withSources c).correctFrom 2 err) := by
    subst herr
    exact gives_of_onlyIf (g := ptmDialogue true master) hon (fun _ => rfl)
  obtain ⟨htime, ⟨hold, reported, hcad⟩, -, hhw, -⟩ := v.follows_best (Cad.best_ptm (c := c) hpps hptm) two_ne_zero
    (show -oneMs ≤ err by simp only [oneMs]; omega) (show err ≤ oneMs by simp only [oneMs]; omega)
  refine ⟨_, hgives, ?_, ?_, ?_, ?_, ?_, congrArg Hw.lastPtm hhw, TimeOnly.trans (b := v) rfl htime⟩
  all_goals rw [hcad]
  exact hptm

theorem gives_ptmDialogue_failed {d : Dev} {master : Nat} (hon : d.ptmOn = true) (hstate : d.cad.ptm.state = 1) :
    Gives (.ptmDialogue false master) d (d.setCad { d.cad with ptm := { d.cad.ptm with good := 0 } }) := by
  rw [← Source.broken_qualifying hstate]
  exact gives_of_onlyIf (g := ptmDialogue false master) hon (fun _ => rfl)

/-- Settles O30: each clause is one event of a source and the selection that follows it. -/
theorem timeSourcesLockAndAreLost : Obligations.TimeSourcesLockAndAreLost := by
  refine ⟨fun d cycles sec hon => ⟨?qualified, ?locked, ?timeout, ?loss, ?back, ?unlost⟩,
    fun d master => ⟨?ptmLocked, ?ptmFailed, ?ptmTimeout, ?rillTimeout, ?holdlim⟩⟩
  case qualified => exact gives_ppsEdge_qualified hon
  case locked =>
    intro hstate hspaced hgood hlast href hlow hhigh hptm hlabel hfrom hto
    exact gives_ppsEdge_locked hon hstate hspaced hgood hlast href hlow hhigh hptm hlabel rfl hfrom hto
  case timeout => exact fun t hstate hlast hptm hrill hdev => gives_ppsTimeout hon hstate hlast hptm hrill hdev
  case loss => exact gives_refclkLoss hon
  case back => exact gives_refclkReturn hon
  case unlost => exact gives_refclkReturn_unlost hon
  case ptmLocked =>
    intro t hon hstate hgood hlast hnext hpps hfrom hto
    exact gives_ptmDialogue_locked hon hstate hgood hlast hnext hpps rfl hfrom hto
  case ptmFailed => exact gives_ptmDialogue_failed
  case ptmTimeout => exact fun t hon hstate hlast => gives_ptmTimeout hon hstate hlast
  case rillTimeout => exact fun t hon hstate hlast => gives_rillTimeTimeout hon hstate hlast
  case holdlim => exact fun t hon hstart hnew => gives_holdlimExceeded hon hstart hnew

end Sys2Proof.Spec
end

section
/-! PROOFS. Time over the rill (R267, R315, R316): what a TIME frame in order makes of its port, what a frame sent leaves, and the obligation
they settle. -/

namespace Sys2Proof.Machine

open Sys2Proof Sys2Proof.Spec

/-! ### Sending -/

/-- The frame that a port puts on the lanes. -/
def Port.stamped (x : Port) (f : Frame) : Frame :=
  { f with ctr := if f.type = 4 then 0 else x.txctr.toNat, keygen := x.keygen, ack := (x.rxseq + 2 ^ 32 - 1) % 2 ^ 32,
           cred := x.freed.map (fun n => min n 255) }

/-- The port once it has sent a frame at time `now`. -/
def Port.sent (x : Port) (f : Frame) (now : Nat) : Port :=
  { x with txctr := if f.type = 4 then x.txctr else x.txctr + 1, txfrm := x.txfrm + 1, lastTx := now,
           freed := List.zipWith (· - ·) x.freed (x.freed.map (fun n => min n 255)) }

/-- A port whose counter has not stopped it sends at once. -/
theorem Dev.transmit_eq {d : Dev} {p : Nat} {x : Port} (hport : d.port p = x) (hctr : x.txctr.toNat < 2 ^ 62) (f : Frame) :
    d.transmit p f = (d.putPort p (x.sent f d.ns)).emit (.frame p (x.stamped f) ((x.stamped f).wire x.keyTx x.saltTx)) := by
  unfold Dev.transmit
  dsimp only
  rw [hport]
  exact if_neg fun h => absurd h.2 (Nat.not_le.mpr hctr)

theorem Dev.transmit_spec {d : Dev} {p : Nat} {x : Port} (hport : d.port p = x) (hctr : x.txctr.toNat < 2 ^ 62) (f : Frame) :
    Sends d (d.transmit p f) p (x.stamped f) ∧ (d.transmit p f).port p = x.sent f d.ns
      ∧ d.transmit p f = { d with ports := (d.transmit p f).ports, out := (d.transmit p f).out } := by
  rw [Dev.transmit_eq hport hctr]
  exact ⟨⟨_, rfl⟩, d.port_putPort p _, rfl⟩

/-- A TIME frame counts one for CTR. -/
theorem Port.sent_txctr {f : Frame} (h : f.type = 3) (x : Port) (now : Nat) : (x.sent f now).txctr = x.txctr + 1 := if_neg (by simp [h])

/-! ### Receiving (R304, R306) -/

/-- A port without waiting frames has nothing to serve. -/
theorem Dev.flush_of_no_queue {d : Dev} {p : Nat} (h : (d.port p).queue = []) : d.flush p = d := by
  rw [Dev.flush, h]
  rfl

/-- The port once a good frame has come at time `now`: its ACK, credits and key are taken. -/
def Port.heard (x : Port) (f : Frame) (now : Nat) : Port := { ((x.decoded {}).acknowledge f now).seenKey f with lastRx := now }

theorem Port.seenKey_frame (x : Port) (f : Frame) : ∃ old ctr, x.seenKey f = { x with oldRx := old, rxctr := ctr } := by
  unfold Port.seenKey
  split
  · exact ⟨_, _, rfl⟩
  · exact ⟨_, _, rfl⟩

/-- A port that waits for no acknowledgement keeps all but counts, credits and its old key. -/
theorem Port.heard_frame {x : Port} (hreplay : x.replay = []) (f : Frame) (now : Nat) : ∃ old ctr credits ce ue,
    x.heard f now = { x with oldRx := old, rxctr := ctr, credits := credits, fecce := ce, fecue := ue, lastRx := now } := by
  obtain ⟨old, ctr, hkey⟩ := ((x.decoded {}).acknowledge f now).seenKey_frame f
  have hack : (x.decoded {}).acknowledge f now
      = { x.decoded {} with credits := List.zipWith (· + ·) (x.decoded {}).credits f.cred } := by
    simp [Port.acknowledge, Port.decoded, hreplay]
  rw [Port.heard, hkey, hack]
  exact ⟨_, _, _, _, _, rfl⟩

/-- From `x` to `y` a port has taken a TIME frame at time `now`; of what sends and times by it nothing else has changed. -/
structure Port.TookTime (x y : Port) (now : Nat) : Prop where
  state : y.state = x.state
  txctr : y.txctr = x.txctr
  asym : y.asym = x.asym
  rxfrm : y.rxfrm = x.rxfrm + 1
  lastRx : y.lastRx = now

theorem Port.accept_heard_tookTime {x : Port} (hreplay : x.replay = []) (f : Frame) (now : Nat) :
    x.TookTime (x.heard f now).accept now := by
  obtain ⟨old, ctr, credits, ce, ue, h⟩ := x.heard_frame hreplay f now
  rw [h]
  exact ⟨rfl, rfl, rfl, rfl, rfl⟩

end Sys2Proof.Machine

namespace Sys2Proof.Spec

open Sys2Proof Sys2Proof.Machine

section
variable {d : Dev} {a : Arrival} (h : Good d a)
include h

theorem Good.received : d.received a = (d.putPort a.port ((d.port a.port).heard a.frame d.ns), true) := by
  obtain ⟨⟨-, hp, hup, hreplay, hqueue, -⟩, hfec, htag⟩ := h
  have hrill : a.port ≠ 4 := by omega
  have hempty : ((d.putPort a.port ((d.port a.port).heard a.frame d.ns)).port a.port).queue = [] := by
    obtain ⟨old, ctr, credits, ce, ue, hheard⟩ := (d.port a.port).heard_frame hreplay a.frame d.ns
    rw [Dev.port_putPort, hheard]
    exact hqueue
  have heq : d.received a = ((d.putPort a.port ((d.port a.port).heard a.frame d.ns)).flush a.port, true) := by
    simp only [Dev.received, hup, hfec, htag, hrill, Dev.port_putPort, Dev.putPort_putPort, ne_eq, not_true_eq_false, Bool.not_true,
      Bool.false_eq_true, if_false]
    rfl
  rw [heq, Dev.flush_of_no_queue hempty]

/-- A good TIME frame is counted by its port, and nothing else takes note of it. -/
theorem Good.timeFrame : ∃ y, d.timeFrame a = (d.putPort a.port y, true) ∧ (d.port a.port).TookTime y d.ns := by
  have hreceived := h.received
  obtain ⟨⟨-, -, -, hreplay, -, -⟩, -, -⟩ := h
  refine ⟨_, ?_, Port.accept_heard_tookTime hreplay a.frame d.ns⟩
  simp only [Dev.timeFrame, hreceived, if_true, Dev.port_putPort, Dev.putPort_putPort]

end

end Sys2Proof.Spec

namespace Sys2Proof.Machine

open Sys2Proof Sys2Proof.Spec

/-! ### The exchange (R315, R316) -/

/-- FOLLOW as the device forms it for a SYNC sent at `t1`. -/
def Dev.follow (d : Dev) (t1 : Nat) : Frame :=
  { type := 3, tsub := 1, payload := leBytes 8 (t1 / 65536) ++ leBytes 2 (t1 % 65536) ++ leBytes 1 d.cad.dev ++ leBytes 1 d.cad.sel
                                      ++ leBytes 1 d.myHops }

/-- DRESP as the device forms it for a DREQ that has come now. -/
def Dev.dresp (d : Dev) : Frame :=
  { type := 3, tsub := 3, payload := leBytes 8 (quarterNs d.cad.ct / 65536) ++ leBytes 2 (quarterNs d.cad.ct % 65536) }

theorem Dev.follow_length (d : Dev) (t1 : Nat) : (d.follow t1).payload.length = 13 := by simp [Dev.follow, leBytes_length]

/-- The device when the next exchange of port `p` is due, and the port has noted it. -/
def Dev.syncDue (d : Dev) (p : Nat) : Dev :=
  let v := d.atNs ((d.port p).lastSync + 1000000)
  v.putPort p { d.port p with lastSync := v.ns }

/-- The device once an exchange has ended: its times are used up. -/
def Dev.exchangeEnded (d : Dev) : Dev := d.setLink { d.link with t1 := none, t2 := none, t3 := none }

theorem Dev.exchangeEnded_t1 (d : Dev) : d.exchangeEnded.link.t1 = none := rfl

theorem Dev.exchangeEnded_port (d : Dev) (p : Nat) (y : Port) : (d.putPort p y).exchangeEnded.port p = y := d.port_putPort p y

section
variable {d : Dev} {p : Nat}

theorem timeSyncSend_eq (hp : p < 4) (hfwd : bitOf d.link.fwd p = true) (hup : (d.port p).state = 3) (hgive : d.givesTime = true) :
    let v := (d.syncDue p).transmit p { type := 3, tsub := 0 }
    timeSyncSend p d = v.transmit p (v.follow (quarterNs (d.syncDue p).cad.ct)) := if_pos ⟨hp, hfwd, hup, hgive⟩

/-- A port in the same state is the slave's as before. -/
theorem Dev.slaveOn_putPort {y : Port} (h : y.state = (d.port p).state) : (d.putPort p y).slaveOn p = d.slaveOn p := by
  simp only [Dev.slaveOn, Dev.port_putPort, h]
  rfl

variable {a : Arrival} {y : Port} (htook : d.timeFrame a = (d.putPort a.port y, true))
include htook

theorem dreqFrame_eq (hp : a.port < 4) (hfwd : bitOf d.link.fwd a.port = true) (hgive : d.givesTime = true) :
    dreqFrame a d = (d.putPort a.port y).transmit a.port d.dresp := by
  unfold dreqFrame
  rw [htook]
  exact if_pos ⟨rfl, hp, hfwd, hgive⟩

variable (hslave : (d.putPort a.port y).slaveOn a.port = true)
include hslave

theorem syncFrame_eq :
    syncFrame a d = ((d.putPort a.port y).setLink { d.link with t2 := some (quarterNs d.cad.ct), t3 := some (quarterNs d.cad.ct), t1 := none }).transmit
      a.port { type := 3, tsub := 2 } := by
  unfold syncFrame
  rw [htook]
  exact if_pos ⟨rfl, hslave⟩

theorem followFrame_eq (t1 : Nat) (locked : Bool) (hops : Nat) :
    followFrame a t1 locked hops d
      = (d.putPort a.port y).setLink { d.link with t1 := some (quarterNs t1), masterOk := locked && decide (hops ≤ 63), hops := hops } := by
  unfold followFrame
  rw [htook]
  exact if_pos ⟨rfl, hslave⟩

theorem drespFrame_eq {t1 t2 t3 : Nat} (h1 : d.link.t1 = some t1) (h2 : d.link.t2 = some t2) (h3 : d.link.t3 = some t3) (t4 : Nat) :
    let v := (d.putPort a.port y).exchangeEnded
    let err := -(timeOffset t1 t2 t3 (quarterNs t4) (signedOf 16 (v.port a.port).asym))
    drespFrame a t4 d = if !d.link.masterOk then v.withSources { d.cad with rill := d.cad.rill.broken }
      else (v.withSources { d.cad with rill := countNext d.cad.rill d.cad.ct 64 1000000 (50 * 65536) err }).correctFrom 3 err := by
  have hlink : (d.putPort a.port y).link = d.link := rfl
  unfold drespFrame
  simp only [htook, hslave, hlink, h1, h2, h3, Bool.not_true, Bool.false_eq_true, or_self, if_false]
  rfl

end

end Sys2Proof.Machine

namespace Sys2Proof.Spec

open Sys2Proof Sys2Proof.Machine

theorem TimeOnly.ports {d e : Dev} (h : TimeOnly d e) : e.ports = d.ports := by rw [h]

/-- What an exchange that has ended, and then the time alone, leave of the port that took its last frame. -/
theorem TimeOnly.of_exchangeEnded {d e : Dev} {p now : Nat} {x y : Port} (htook : x.TookTime y now)
    (h : TimeOnly (d.putPort p y).exchangeEnded e) :
    ((e.port p).rxfrm = x.rxfrm + 1 ∧ (e.port p).lastRx = now) ∧ TimeOnly (d.setPorts e.ports) e := by
  have hports : e.ports = (d.putPort p y).ports := h.ports
  have hport : e.port p = y := by
    rw [Dev.port, hports]
    exact d.port_putPort p y
  have hended : TimeOnly (d.putPort p y) (d.putPort p y).exchangeEnded := rfl
  rw [hport, hports]
  exact ⟨⟨htook.rxfrm, htook.lastRx⟩, hended.trans h⟩

section
variable {d : Dev} {a : Arrival} (h : Good d a)
include h

theorem Good.quiet : Quiet d := by
  obtain ⟨⟨hquiet, -⟩, -⟩ := h
  exact hquiet

theorem Good.port_lt : a.port < 4 := by
  obtain ⟨⟨-, hp, -⟩, -⟩ := h
  exact hp

theorem Good.ctr_lt : (d.port a.port).txctr.toNat < 2 ^ 62 := by
  obtain ⟨⟨-, -, -, -, -, hctr, -⟩, -⟩ := h
  exact hctr

/-- A port that has taken a good TIME frame sends at once, and keeps what it took. -/
theorem Good.transmit {v : Dev} {y : Port} (htook : (d.port a.port).TookTime y d.ns) (hport : v.port a.port = y) (f : Frame) :
    Sends v (v.transmit a.port f) a.port (y.stamped f) ∧ ((v.transmit a.port f).port a.port).rxfrm = (d.port a.port).rxfrm + 1
      ∧ ((v.transmit a.port f).port a.port).lastRx = d.ns
      ∧ v.transmit a.port f = { v with ports := (v.transmit a.port f).ports, out := (v.transmit a.port f).out } := by
  have hctr : y.txctr.toNat < 2 ^ 62 := by
    rw [htook.txctr]
    exact h.ctr_lt
  obtain ⟨hsends, hsent, hframe⟩ := Dev.transmit_spec hport hctr f
  refine ⟨hsends, ?_, ?_, hframe⟩
  · rw [hsent]
    exact htook.rxfrm
  · rw [hsent]
    exact htook.lastRx

theorem Good.gives_dreqFrame (hfwd : bitOf d.link.fwd a.port = true) (hgive : d.givesTime = true) :
    ∃ e f, Gives (.dreqFrame a) d e ∧ Sends d e a.port f ∧ f.type = 3 ∧ f.tsub = 3 ∧ f.payload = d.dresp.payload
      ∧ ((e.port a.port).rxfrm = (d.port a.port).rxfrm + 1 ∧ (e.port a.port).lastRx = d.ns) ∧ e = { d with ports := e.ports, out := e.out } := by
  obtain ⟨y, hframe, htook⟩ := h.timeFrame
  have hgives : Gives (.dreqFrame a) d (dreqFrame a d) := h.quiet.gives (fun _ => rfl)
  rw [dreqFrame_eq hframe h.port_lt hfwd hgive] at hgives
  obtain ⟨hsends, hrxfrm, hlast, hrest⟩ := h.transmit htook (d.port_putPort a.port y) d.dresp
  exact ⟨_, _, hgives, hsends, rfl, rfl, rfl, ⟨hrxfrm, hlast⟩, hrest⟩

variable (hslave : d.slaveOn a.port = true)
include hslave

theorem Good.gives_syncFrame :
    ∃ e f, Gives (.syncFrame a) d e ∧ e.link.t2 = some (quarterNs d.cad.ct) ∧ e.link.t3 = some (quarterNs d.cad.ct) ∧ Sends d e a.port f
      ∧ f.type = 3 ∧ f.tsub = 2 ∧ ((e.port a.port).rxfrm = (d.port a.port).rxfrm + 1 ∧ (e.port a.port).lastRx = d.ns)
      ∧ e = { d with ports := e.ports, link := e.link, out := e.out } := by
  obtain ⟨y, hframe, htook⟩ := h.timeFrame
  have hgives : Gives (.syncFrame a) d (syncFrame a d) := h.quiet.gives (fun _ => rfl)
  rw [syncFrame_eq hframe ((Dev.slaveOn_putPort htook.state).trans hslave)] at hgives
  obtain ⟨hsends, hrxfrm, hlast, hrest⟩ := h.transmit htook
    (v := (d.putPort a.port y).setLink { d.link with t2 := some (quarterNs d.cad.ct), t3 := some (quarterNs d.cad.ct), t1 := none })
    (d.port_putPort a.port y) { type := 3, tsub := 2 }
  refine ⟨_, _, hgives, ?_, ?_, hsends, rfl, rfl, ⟨hrxfrm, hlast⟩, ?_⟩
  all_goals rw [hrest]
  all_goals rfl

theorem Good.gives_followFrame (t1 : Nat) (locked : Bool) (hops : Nat) :
    ∃ e, Gives (.followFrame a t1 locked hops) d e ∧ ((e.port a.port).rxfrm = (d.port a.port).rxfrm + 1 ∧ (e.port a.port).lastRx = d.ns)
      ∧ e = { d with ports := e.ports, link := { d.link with t1 := some (quarterNs t1), masterOk := locked && decide (hops ≤ 63), hops := hops } } := by
  obtain ⟨y, hframe, htook⟩ := h.timeFrame
  have hgives : Gives (.followFrame a t1 locked hops) d (followFrame a t1 locked hops d) := h.quiet.gives (fun _ => rfl)
  rw [followFrame_eq hframe ((Dev.slaveOn_putPort htook.state).trans hslave)] at hgives
  have hport (l : Link) : ((d.putPort a.port y).setLink l).port a.port = y := d.port_putPort a.port y
  refine ⟨_, hgives, ⟨?_, ?_⟩, rfl⟩
  · rw [hport]
    exact htook.rxfrm
  · rw [hport]
    exact htook.lastRx

variable {t1 t2 t3 t4 : Nat} (h1 : d.link.t1 = some t1) (h2 : d.link.t2 = some t2) (h3 : d.link.t3 = some t3) (hqual : d.cad.rill.state = 1)
include h1 h2 h3 hqual

/-- The last exchange of a row with a LOCKED master locks the rill source. -/
theorem Good.gives_drespFrame_locked {last : Nat} (hmaster : d.link.masterOk = true) (hgood : d.cad.rill.good = 63)
    (hlast : d.cad.rill.last = some last) (hnext : d.cad.ct < last + 2000000 * 65536) (hpps : d.cad.pps.state ≠ 2) (hptm : d.cad.ptm.state ≠ 2)
    {off : Int} (hoff : off = timeOffset t1 t2 t3 (quarterNs t4) (signedOf 16 (d.port a.port).asym)) (hfrom : -(50 * tNs) < off)
    (hto : off < 50 * tNs) :
    ∃ e, Gives (.drespFrame a t4) d e ∧ e.cad.rill.state = 2 ∧ e.cad.sel = 3 ∧ e.cad.dev = 1 ∧ e.cad.slew = -off ∧ e.link.t1 = none
      ∧ ((e.port a.port).rxfrm = (d.port a.port).rxfrm + 1 ∧ (e.port a.port).lastRx = d.ns) ∧ TimeOnly (d.setPorts e.ports) e := by
  obtain ⟨y, hframe, htook⟩ := h.timeFrame
  simp only [tNs] at hfrom hto
  have hrill := congrArg Source.state
    (countNext_locks (need := 64) (gap := 1000000) hqual (show 64 ≤ d.cad.rill.good + 1 by omega) hlast hnext (show -(50 * 65536) < -off by omega)
      (show -off < 50 * 65536 by omega))
  have hgives : Gives (.drespFrame a t4) d (drespFrame a t4 d) := h.quiet.gives (fun _ => rfl)
  rw [drespFrame_eq hframe ((Dev.slaveOn_putPort htook.state).trans hslave) h1 h2 h3, Dev.exchangeEnded_port, htook.asym, ← hoff,
    if_neg (by simp [hmaster])] at hgives
  obtain ⟨htime, ⟨hold, reported, hcad⟩, -, -, hlink⟩ := (d.putPort a.port y).exchangeEnded.follows_best
    (c := { d.cad with rill := countNext d.cad.rill d.cad.ct 64 1000000 (50 * 65536) (-off) }) (Cad.best_rill hpps hptm hrill) three_ne_zero
    (show -oneMs ≤ -off by simp only [oneMs]; omega) (show -off ≤ oneMs by simp only [oneMs]; omega)
  obtain ⟨htaken, htimeOnly⟩ := TimeOnly.of_exchangeEnded htook htime
  refine ⟨_, hgives, ?_, ?_, ?_, ?_, (congrArg Link.t1 hlink).trans (Dev.exchangeEnded_t1 _), htaken, htimeOnly⟩
  all_goals rw [hcad]
  exact hrill

/-- An exchange with another master breaks the row. -/
theorem Good.gives_drespFrame_broken (hmaster : d.link.masterOk = false) :
    ∃ e, Gives (.drespFrame a t4) d e ∧ e.cad.rill = { d.cad.rill with good := 0 } ∧ e.link.t1 = none
      ∧ ((e.port a.port).rxfrm = (d.port a.port).rxfrm + 1 ∧ (e.port a.port).lastRx = d.ns) ∧ TimeOnly (d.setPorts e.ports) e := by
  obtain ⟨y, hframe, htook⟩ := h.timeFrame
  have hgives : Gives (.drespFrame a t4) d (drespFrame a t4 d) := h.quiet.gives (fun _ => rfl)
  rw [drespFrame_eq hframe ((Dev.slaveOn_putPort htook.state).trans hslave) h1 h2 h3, if_pos (by simp [hmaster]),
    Source.broken_qualifying hqual] at hgives
  obtain ⟨hchange, hnew⟩ := (d.putPort a.port y).exchangeEnded.withSources_spec { d.cad with rill := { d.cad.rill with good := 0 } }
  obtain ⟨htaken, htimeOnly⟩ := TimeOnly.of_exchangeEnded htook (Dev.withSources_timeOnly _ _)
  exact ⟨_, hgives, hnew.rill, (congrArg Link.t1 hchange.link).trans (Dev.exchangeEnded_t1 _), htaken, htimeOnly⟩

end

/-- SYNC and FOLLOW are sent one after the other, when the exchange is due. -/
theorem gives_timeSyncSend {d : Dev} {p : Nat} (hq : Quiet d) (hp : p < 4) (hfwd : bitOf d.link.fwd p = true) (hup : (d.port p).state = 3)
    (hgive : d.givesTime = true) (hctr : (d.port p).txctr.toNat < 2 ^ 62 - 1) :
    ∃ e f g v w, Gives (.timeSyncSend p) d e ∧ e.cad.ct = ctAt d ((d.port p).lastSync + 1000000)
      ∧ e.out = d.out ++ [.frame p f v, .frame p g w] ∧ f.type = 3 ∧ f.tsub = 0 ∧ g.type = 3 ∧ g.tsub = 1 ∧ g.payload.length = 13
      ∧ (e.port p).lastSync = ctAt d ((d.port p).lastSync + 1000000) / 65536 ∧ (e.port p).txctr = (d.port p).txctr + 2
      ∧ e = { d with ports := e.ports, cad := e.cad, out := e.out } := by
  let sync : Frame := { type := 3, tsub := 0 }
  let u := d.syncDue p
  let x : Port := { d.port p with lastSync := u.ns }
  have hu : u.port p = x := Dev.port_putPort _ p _
  have hctr' : ((d.port p).txctr + 1).toNat < 2 ^ 62 := by
    rw [BitVec.toNat_add]
    exact lt_of_le_of_lt (Nat.mod_le _ _) (Nat.add_lt_of_lt_sub hctr)
  obtain ⟨⟨v, hout⟩, hsent, hrest⟩ := Dev.transmit_spec hu (lt_of_lt_of_le hctr (Nat.sub_le _ _)) sync
  let s := u.transmit p sync
  obtain ⟨⟨w, hout'⟩, hsent', hrest'⟩ := Dev.transmit_spec (d := s) hsent hctr' (s.follow (quarterNs u.cad.ct))
  have hgives : Gives (.timeSyncSend p) d (timeSyncSend p d) := hq.gives (fun _ => rfl)
  rw [timeSyncSend_eq hp hfwd hup hgive] at hgives
  obtain ⟨ps, o, hs⟩ : ∃ ps o, s = { u with ports := ps, out := o } := ⟨_, _, hrest⟩
  have hcad : s.cad = u.cad := by rw [hs]
  refine ⟨_, x.stamped sync, (x.sent sync u.ns).stamped (s.follow (quarterNs u.cad.ct)), v, w, hgives, ?ct, ?out, rfl, rfl, rfl, rfl,
    s.follow_length _, ?lastSync, ?txctr, ?rest⟩
  case ct =>
    rw [hrest']
    exact congrArg Cad.ct hcad
  case out =>
    rw [hout', hout, List.append_assoc]
    rfl
  case lastSync => rw [hsent']; rfl
  case txctr =>
    rw [hsent', Port.sent_txctr rfl, Port.sent_txctr rfl, BitVec.add_assoc]
    rfl
  case rest =>
    rw [hrest', hs]
    rfl

/-- Settles O31: the latch, the master's frames, and each frame of an exchange as its end takes it. -/
theorem timeIsExchangedOverTheRill : Obligations.TimeIsExchangedOverTheRill := by
  refine ⟨fun d hq => hq.gives (g := cadCtLowRead) (fun _ => rfl), fun d p hq hp hfwd hup hgive hctr => ?master, fun d a h => ?exchange⟩
  case master => exact gives_timeSyncSend hq hp hfwd hup hgive hctr
  case exchange =>
    intro p t taken
    refine ⟨fun hfwd hgive => h.gives_dreqFrame hfwd hgive, fun hslave => ⟨h.gives_syncFrame hslave, h.gives_followFrame hslave, ?dresp⟩⟩
    intro t1 t2 t3 t4 h1 h2 h3 off
    refine ⟨fun last hmaster hqual hgood hlast hnext hpps hptm hfrom hto => ?locked, fun hmaster hqual => ?broken⟩
    case locked =>
      exact h.gives_drespFrame_locked hslave h1 h2 h3 hqual hmaster hgood hlast hnext hpps hptm (off := off) rfl hfrom hto
    case broken => exact h.gives_drespFrame_broken hslave h1 h2 h3 hqual hmaster

end Sys2Proof.Spec
end

section
/-! PROOFS. The STREAM commands (R156, R159, R250 to R252, R269, R374): what each answers, and the obligation they settle. -/

namespace Sys2Proof.Machine

open Sys2Proof Sys2Proof.Spec

/-! ### STREAM_CREATE (R251, R255, R260, R269) -/

/-- The FREE indices of the stream table. -/
def Dev.freeStreams (d : Dev) : List Nat := (List.range 65536).filter (fun i => (d.stream i).state == 0)

theorem Dev.mem_freeStreams {d : Dev} {k : Nat} : k ∈ d.freeStreams ↔ k < 65536 ∧ (d.stream k).state = 0 := by simp [Dev.freeStreams]

/-- The entry that a creation puts at an index of generation `g`. -/
def Stream.created (t : Stream) (g : Nat) (isol : Bool) : Stream := { t with gen := g + 1, state := 1, fixedpost := t.fixedpost || isol }

section
variable {w : Dev} {r : Req} {t : Stream} (ht : streamOfBytes r.payload = t) (hlen : 76 ≤ r.payload.length)
  (hown : r.domain = 0 ∨ r.domain = t.domain) (hstate : (w.domain t.domain).state = 1)
include ht hlen hown hstate

theorem Dev.createStream_unfit (hfits : w.streamFits t = false) : w.createStream r r.payload = (stINVALID, 0, w) := by
  simp [Dev.createStream, ht, Nat.not_lt.mpr hlen, Req.may_of_own hown, hstate, hfits]

theorem Dev.createStream_full (hfits : w.streamFits t = true) (hfull : (w.domain t.domain).maxStreams ≤ w.streamsOf t.domain) :
    w.createStream r r.payload = (stLIMIT, 0, w) := by
  simp [Dev.createStream, ht, Nat.not_lt.mpr hlen, Req.may_of_own hown, hstate, hfits, hfull]

/-- Within the limit of its domain a fitting stream takes one of the FREE indices. -/
theorem Dev.createStream_ok (hfits : w.streamFits t = true) (hroom : w.streamsOf t.domain < (w.domain t.domain).maxStreams)
    (hfree : ∃ k, k < 65536 ∧ (w.stream k).state = 0) :
    ∃ k m, k < 65536 ∧ (w.stream k).state = 0
      ∧ w.createStream r r.payload = (0, k, (w.setFree m).putStream k (t.created (w.stream k).gen (w.domain t.domain).isol)) := by
  obtain ⟨j, hj⟩ := hfree
  obtain ⟨k, hk, m, hpick⟩ := w.pick_of_mem (Dev.mem_freeStreams.mpr hj)
  obtain ⟨hlt, hzero⟩ := Dev.mem_freeStreams.mp hk
  refine ⟨k, m, hlt, hzero, ?_⟩
  rw [Dev.freeStreams] at hpick
  simp [Dev.createStream, ht, Nat.not_lt.mpr hlen, Req.may_of_own hown, hstate, hfits, Nat.not_le.mpr hroom, hpick, Stream.created]

theorem cmdStreamCreate_unfit (hfits : w.streamFits t = false) : cmdStreamCreate r w = (w, { status := 0x201 }) := by
  rw [cmdStreamCreate, Dev.createStream_unfit ht hlen hown hstate hfits]
  rfl

theorem cmdStreamCreate_full (hfits : w.streamFits t = true) (hfull : (w.domain t.domain).maxStreams ≤ w.streamsOf t.domain) :
    cmdStreamCreate r w = (w, { status := 0x400 }) := by
  rw [cmdStreamCreate, Dev.createStream_full ht hlen hown hstate hfits hfull]
  rfl

variable (hfits : w.streamFits t = true) (hroom : w.streamsOf t.domain < (w.domain t.domain).maxStreams)
  (hfree : ∃ k, k < 65536 ∧ (w.stream k).state = 0)
include hfits hroom hfree

theorem cmdStreamCreate_training (hkind : t.kind = 2) : cmdStreamCreate r w = (w, { status := 0x201 }) := by
  obtain ⟨k, m, -, -, hcreate⟩ := Dev.createStream_ok ht hlen hown hstate hfits hroom hfree
  rw [cmdStreamCreate, hcreate, ht]
  simp [hkind, Dev.no, stINVALID]

theorem cmdStreamCreate_ok (hkind : t.kind ≠ 2) :
    ∃ k m, k < 65536 ∧ (w.stream k).state = 0
      ∧ cmdStreamCreate r w = ((w.setFree m).putStream k (t.created (w.stream k).gen (w.domain t.domain).isol),
          { res := [k * 65536 + ((w.stream k).gen + 1)] }) := by
  obtain ⟨k, m, hlt, hzero, hcreate⟩ := Dev.createStream_ok ht hlen hown hstate hfits hroom hfree
  refine ⟨k, m, hlt, hzero, ?_⟩
  rw [cmdStreamCreate, hcreate, ht]
  simp [hkind, Dev.yes, handleOf, Stream.created]

end

/-- A stream without an ingress or egress share fits nowhere (R255). -/
theorem Dev.streamFits_of_no_share (d : Dev) {t : Stream} (h : t.ishare = 0 ∨ t.eshare = 0) : d.streamFits t = false := by
  obtain h | h := h
  · simp [Dev.streamFits, h]
  · simp [Dev.streamFits, h]

/-! ### The commands that name a stream (R251, R374) -/

section
variable {w : Dev} {r : Req} {i : Nat} {s : Stream}

/-- The entry that a destroyed stream leaves (R251). -/
def Stream.destroyed (s : Stream) : Stream := { gen := s.gen, state := if s.gen = 0xFFFF then 4 else 0 }

/-- A handle of another generation than the index has is stale (R251). -/
theorem named_stale (hstream : w.stream (r.arg 0 / 65536) = s) (hgen : s.gen ≠ r.arg 0 % 65536) (hdomain : r.domain = 0) :
    w.named r (r.arg 0) = (stSTALE, r.arg 0 / 65536, s) := by
  simp [Dev.named, hstream, hgen, Req.may, hdomain]

theorem cmdStreamDestroy_idle (h : Names w r i s) (hidle : s.state = 1) :
    cmdStreamDestroy r w
      = (((w.putStream i s.destroyed).setPlans (w.plans.filter (fun p => p.index ≠ i))).setTrains (Tab.del w.trains i), {}) := by
  simp only [cmdStreamDestroy, named_of_names h, hidle, ne_eq, not_true_eq_false, if_false]
  rfl

theorem cmdStreamDestroy_busy (h : Names w r i s) (hbusy : s.state ≠ 1) : cmdStreamDestroy r w = (w, { status := 0x303 }) := by
  simp [cmdStreamDestroy, named_of_names h, hbusy, Dev.no, stWRONG_STATE]

theorem cmdStreamQuery_ok (h : Names w r i s) : cmdStreamQuery r w = (w, { payload := s.bytes i }) := by
  simp [cmdStreamQuery, named_of_names h, Dev.yes]

theorem cmdStreamQuery_stale (hstream : w.stream (r.arg 0 / 65536) = s) (hgen : s.gen ≠ r.arg 0 % 65536) (hdomain : r.domain = 0) :
    cmdStreamQuery r w = (w, { status := 0x301 }) := by
  simp [cmdStreamQuery, named_stale hstream hgen hdomain, Dev.no, stSTALE]

theorem Stream.pairst_length (s : Stream) : s.pairst.length = 64 := by simp only [Stream.pairst, List.length_append, leBytes_length]

theorem Stream.bytes_length (s : Stream) (i : Nat) : (s.bytes i).length = 256 := by
  unfold Stream.bytes
  rw [List.length_append, s.pairst_length]
  simp only [List.length_append, leBytes_length, List.length_replicate]

theorem cmdStreamSet_busy (h : Names w r i s) (hbusy : s.state ≠ 1) : cmdStreamSet r w = (w, { status := 0x303 }) := by
  simp [cmdStreamSet, named_of_names h, hbusy, Dev.no, stWRONG_STATE]

/-- No setting turns a stream into a training stream, or a training stream into another (R269). -/
theorem cmdStreamSet_kind (h : Names w r i s) (hidle : s.state = 1) (hkind : ¬ ((streamOfBytes r.payload).kind = 2 ↔ s.kind = 2)) :
    cmdStreamSet r w = (w, { status := 0x201 }) := by
  have hne : ((streamOfBytes r.payload).kind == 2) ≠ (s.kind == 2) := by rwa [ne_eq, Bool.eq_iff_iff, beq_iff_eq, beq_iff_eq]
  simp [cmdStreamSet, named_of_names h, hidle, hne, Dev.no, stINVALID]

theorem cmdStreamSet_idle (h : Names w r i s) (hidle : s.state = 1) (hlen : 76 ≤ r.payload.length)
    (hdomain : (streamOfBytes r.payload).domain = s.domain) (hfits : w.streamFits (streamOfBytes r.payload) = true)
    (hkind : (streamOfBytes r.payload).kind = 2 ↔ s.kind = 2) :
    cmdStreamSet r w = (w.putStream i (s.withSettings (streamOfBytes r.payload) (w.domain s.domain).isol), {}) := by
  have heq : ((streamOfBytes r.payload).kind == 2) = (s.kind == 2) := by rwa [Bool.eq_iff_iff, beq_iff_eq, beq_iff_eq]
  simp [cmdStreamSet, named_of_names h, hidle, Nat.not_lt.mpr hlen, hdomain, hfits, heq, Dev.yes]

end

/-! ### STREAM_REISSUE (R251) -/

/-- What a reissue of `n` indices from `lo` makes of the entry at `i`. -/
def Stream.reissued (lo n i : Nat) (s : Stream) : Stream :=
  if decide (lo ≤ i) && decide (i < lo + n) && s.state == 4 then {} else s

theorem cmdStreamReissue_ok {w : Dev} {r : Req} (h : r.arg 0 ≤ 65535) :
    ∃ k : Nat, cmdStreamReissue r w = (w.setStreams (Tab.mapv w.streams (Stream.reissued (r.arg 0) (r.arg 1))), { res := [k] }) := by
  rw [cmdStreamReissue, if_neg (Nat.not_lt.mpr h)]
  exact ⟨_, rfl⟩

theorem Dev.stream_reissued (d : Dev) (lo n i : Nat) :
    (d.setStreams (Tab.mapv d.streams (Stream.reissued lo n))).stream i
      = if lo ≤ i ∧ i < lo + n ∧ (d.stream i).state = 4 then {} else d.stream i := by
  have hat : (d.setStreams (Tab.mapv d.streams (Stream.reissued lo n))).stream i = (d.stream i).reissued lo n i :=
    Tab.at_mapv_rel (t := d.streams) (R := fun x y => y = x.reissued lo n i) (by simp [Stream.reissued]) (fun _ => rfl)
  rw [hat]
  simp [Stream.reissued, and_assoc]

/-! ### STREAM_RING (R156, R159) -/

theorem ringNext_lt (hdr pinval cur : Nat) : ringNext hdr pinval cur < 2 ^ 64 := by
  simp only [ringNext, bitsOf]
  omega

theorem Req.arg64_lt (r : Req) (k : Nat) : r.arg64 k < 2 ^ 64 := by
  have hlow := r.arg_lt k
  have hhigh := r.arg_lt (k + 1)
  unfold Req.arg64
  omega

/-- NEXTCT and NEXT as a ring change writes them into the header (R156). -/
def ringChange (r : Req) : List Byte := leBytes 8 (r.arg64 3) ++ leBytes 8 (ringNext (r.arg 5) (r.arg 6) (r.arg 7))

theorem ringChange_length (r : Req) : (ringChange r).length = 16 := by simp [ringChange, leBytes_length]

theorem ringChange_nextct (m : Mem) (a : Nat) (r : Req) : Mem.readLe (Mem.writeBytes m (a + 0x20) (ringChange r)) (a + 0x20) 8 = r.arg64 3 := by
  have hread := Mem.readLe_field m (a + 0x20) (bs := ringChange r) (pre := []) (o := 0) (n := 8)
    (by rw [List.nil_append]; rfl) rfl
  rw [Nat.add_zero] at hread
  rw [hread]
  exact Nat.mod_eq_of_lt (by have := r.arg64_lt 3; omega)

theorem ringChange_next (m : Mem) (a : Nat) (r : Req) :
    Mem.readLe (Mem.writeBytes m (a + 0x20) (ringChange r)) (a + 0x28) 8
      = r.arg 5 % 2 ^ 9 + r.arg 6 % 2 ^ 16 * 2 ^ 16 + r.arg 7 % 2 ^ 16 * 2 ^ 32 + r.arg 7 / 2 ^ 16 % 2 ^ 16 * 2 ^ 48 := by
  have hread := Mem.readLe_field m (a + 0x20) (bs := ringChange r) (pre := leBytes 8 (r.arg64 3)) (post := []) (n := 8)
    (by rw [List.append_nil]; rfl) (leBytes_length 8 _)
  rw [Nat.add_assoc] at hread
  rw [hread, Nat.mod_eq_of_lt (by have := ringNext_lt (r.arg 5) (r.arg 6) (r.arg 7); omega)]
  simp [ringNext, bitsOf]

theorem ringChange_outside (m : Mem) {a p : Nat} (r : Req) (hp : p < a + 0x20 ∨ a + 0x30 ≤ p) :
    Mem.read (Mem.writeBytes m (a + 0x20) (ringChange r)) p = Mem.read m p :=
  Mem.read_writeBytes_outside m (a + 0x20) (ringChange r) p (by rw [ringChange_length]; omega)

/-- The reservoir's bytes once a ring change is written and counted, and its stream has the ring's address. -/
theorem Dev.mem_ringWritten (w : Dev) (a n i : Nat) (bs : List Byte) (s : Stream) :
    ((w.setRsv ((w.rsv.write a bs).moved n)).putStream i s).rsv.mem = Mem.writeBytes w.rsv.mem a bs := rfl

theorem Dev.frame_ringWritten (w : Dev) (x : Rsv) (i : Nat) (s : Stream) :
    let e := (w.setRsv x).putStream i s
    e = { w with rsv := e.rsv, streams := e.streams } := rfl

theorem cmdStreamRing_ok {w : Dev} {r : Req} {i : Nat} {s : Stream} (h : Names w r i s) (halign : r.arg64 1 % 64 = 0)
    (hend : r.arg64 1 + 64 ≤ 0x6000000000) (hown : w.rsv.owned s.domain (r.arg64 1) 64 = true) (hct : r.arg64 3 ≠ 0)
    (hlow : -64 ≤ signedOf 8 (r.arg 5)) (hhigh : signedOf 8 (r.arg 5) ≤ 63) :
    cmdStreamRing r w = ((w.setRsv ((w.rsv.write (r.arg64 1 + 0x20) (ringChange r)).moved 64)).putStream i { s with ring := r.arg64 1 },
      { res := [r.arg64 3 % 2 ^ 32, r.arg64 3 / 2 ^ 32 % 2 ^ 32] }) := by
  have hpop : rsvPopulated (r.arg64 1) 64 = true := decide_eq_true hend
  have hrange : ¬ (signedOf 8 (r.arg 5) < -64 ∨ 63 < signedOf 8 (r.arg 5)) := by omega
  simp only [cmdStreamRing, named_of_names h, halign, hpop, hown, hct, if_neg hrange, ne_eq, not_true_eq_false, Bool.not_true,
    Bool.false_eq_true, or_self, if_false]
  rfl

end Sys2Proof.Machine

namespace Sys2Proof.Spec

open Sys2Proof Sys2Proof.Machine

/-- Settles O43: each command is the equation of its case. -/
theorem streamCommandsFollowTheirTable : Obligations.StreamCommandsFollowTheirTable := by
  intro d w f i s r
  refine ⟨?create, ?destroy, ?reissue, ?query, ?stale, ?set, ?ring⟩
  case create =>
    intro t x h hlen hown hstate
    refine ⟨fun hfits hroom hfree hkind => ?_, fun hfits hfull => ?_, fun hfits hroom hfree hkind => ?_, fun hshare => ?_⟩
    · obtain ⟨k, m, hlt, hzero, hcreate⟩ := cmdStreamCreate_ok rfl hlen hown hstate hfits hroom hfree hkind
      exact ⟨_, k, h.replies (fun _ => rfl) hcreate, hlt, hzero, rfl, fun n hn => Dev.stream_putStream_other _ k n _ hn,
        Dev.stream_putStream _ _ _⟩
    · exact h.replies (fun _ => rfl) (cmdStreamCreate_full rfl hlen hown hstate hfits hfull)
    · exact h.replies (fun _ => rfl) (cmdStreamCreate_training rfl hlen hown hstate hfits hroom hfree hkind)
    · exact h.replies (fun _ => rfl) (cmdStreamCreate_unfit rfl hlen hown hstate (w.streamFits_of_no_share hshare))
  case destroy =>
    intro h hname
    refine ⟨fun hidle => ?_, fun hbusy => h.replies (fun _ => rfl) (cmdStreamDestroy_busy hname hbusy)⟩
    refine ⟨_, h.replies (fun _ => rfl) (cmdStreamDestroy_idle hname hidle), rfl, w.stream_putStream i _,
      fun n hn => w.stream_putStream_other i n _ hn, fun p hp => ?_, Tab.find?_del_same _ i⟩
    simpa using (List.mem_filter.mp hp).2
  case reissue =>
    intro h hlo
    obtain ⟨k, hreissue⟩ := cmdStreamReissue_ok (w := w) hlo
    exact ⟨_, k, h.replies (fun _ => rfl) hreissue, rfl, fun n => w.stream_reissued _ _ n⟩
  case query => exact fun h hname => ⟨h.replies (fun _ => rfl) (cmdStreamQuery_ok hname), s.bytes_length i⟩
  case stale => exact fun h hstream hgen hdomain => h.replies (fun _ => rfl) (cmdStreamQuery_stale hstream hgen hdomain)
  case set =>
    intro t h hname
    refine ⟨fun hidle hlen hdomain hfits hkind => ?_, fun hidle hkind => ?_, fun hbusy => ?_⟩
    · have hset := cmdStreamSet_idle hname hidle hlen hdomain hfits hkind
      refine ⟨_, h.replies (fun _ => rfl) hset, ?_⟩
      rw [Stream.withSettings, hdomain]
      exact putStream_streamSet w i _
    · exact h.replies (fun _ => rfl) (cmdStreamSet_kind hname hidle hkind)
    · exact h.replies (fun _ => rfl) (cmdStreamSet_busy hname hbusy)
  case ring =>
    intro a h hname halign hend hown hct hlow hhigh
    have hring := cmdStreamRing_ok hname halign hend hown hct hlow hhigh
    refine ⟨_, h.replies (fun _ => rfl) hring, ?nextct, ?next, ?frame, w.frame_ringWritten _ i _, Dev.stream_putStream _ i _⟩
    case nextct =>
      rw [Dev.mem_ringWritten]
      exact ringChange_nextct _ a r
    case next =>
      rw [Dev.mem_ringWritten]
      exact ringChange_next _ a r
    case frame =>
      intro p hp
      rw [Dev.mem_ringWritten]
      exact ringChange_outside _ r hp

end Sys2Proof.Spec
end

section
/-! PROOFS. Rill ports (R299, R301, R306, R307, R319, R322): what a change of state and a frame sent leave of the device, and the obligations
they settle. -/

namespace Sys2Proof.Spec

open Sys2Proof Sys2Proof.Machine

/-! ### What the links' commands leave alone -/

/-- What may have changed, part by part. -/
theorem LinkOnly.parts {d e : Dev} (h : LinkOnly d e) : ∃ ps o fs fh hm ct slew err n,
    e = { d with ports := ps, out := o, funcs := fs, fh := fh, hostMem := hm, cad := { d.cad with ct := ct, slew := slew, ptmErr := err },
                 free := n } := by
  obtain ⟨hdev, hcad⟩ := h
  rw [hcad] at hdev
  exact ⟨_, _, _, _, _, _, _, _, _, hdev⟩

theorem LinkOnly.trans {a b c : Dev} (hab : LinkOnly a b) (hbc : LinkOnly b c) : LinkOnly a c := by
  obtain ⟨_, _, _, _, _, _, _, _, _, rfl⟩ := hab.parts
  obtain ⟨_, _, _, _, _, _, _, _, _, rfl⟩ := hbc.parts
  exact ⟨rfl, rfl⟩

end Sys2Proof.Spec

namespace Sys2Proof.Machine

open Sys2Proof Sys2Proof.Spec

theorem EventChange.linkOnly {d e : Dev} (h : EventChange d e) : LinkOnly d e := by
  obtain ⟨_, _, _, _, _, _, rfl⟩ := h
  exact ⟨rfl, rfl⟩

theorem EventChange.port {d e : Dev} (h : EventChange d e) (p : Nat) : e.port p = d.port p := by
  obtain ⟨_, _, _, _, _, _, rfl⟩ := h
  rfl

theorem Dev.putPort_linkOnly (d : Dev) (p : Nat) (x : Port) : LinkOnly d (d.putPort p x) := ⟨rfl, rfl⟩
theorem Dev.emit_linkOnly (d : Dev) (m : Msg) : LinkOnly d (d.emit m) := ⟨rfl, rfl⟩
theorem Dev.setFree_linkOnly (d : Dev) (n : Nat) : LinkOnly d (d.setFree n) := ⟨rfl, rfl⟩
theorem Dev.atNs_linkOnly (d : Dev) (t : Nat) : LinkOnly d (d.atNs t) := ⟨rfl, rfl⟩

theorem Dev.transmit_linkOnly (d : Dev) (p : Nat) (f : Frame) : LinkOnly d (d.transmit p f) := by
  unfold Dev.transmit
  dsimp only
  split
  · exact ⟨rfl, rfl⟩
  · exact ⟨rfl, rfl⟩

/-! ### States (R301) -/

theorem Dev.linkEvent_eventChange (d : Dev) (p : Nat) : EventChange d (d.linkEvent p) := d.raiseO_eventChange _ _ _ _ _

/-- The port once it has taken a state that is not DOWN at time `now`. -/
def Port.entered (x : Port) (st now : Nat) : Port := { x with state := st, since := now }

/-- From `d` to `e` port `p` has become `x`, which an event may have told; of what else the links change, nothing has, and CT stands. -/
structure Dev.PortBecomes (d e : Dev) (p : Nat) (x : Port) : Prop where
  port : e.port p = x
  cad : e.cad = d.cad
  link : LinkOnly d e

theorem Dev.putPort_linkEvent_becomes (d : Dev) (p : Nat) (x : Port) : d.PortBecomes ((d.putPort p x).linkEvent p) p x := by
  have hevent := (d.putPort p x).linkEvent_eventChange p
  exact ⟨(hevent.port p).trans (d.port_putPort p x), hevent.cad, (d.putPort_linkOnly p x).trans hevent.linkOnly⟩

theorem Dev.enter_becomes (d : Dev) (p st : Nat) : d.PortBecomes (d.enter p st) p ((d.port p).entered st d.ns) :=
  d.putPort_linkEvent_becomes p _

/-- A change of the port before it becomes another is no further change. -/
theorem Dev.PortBecomes.of_putPort {d e : Dev} {p : Nat} {x y : Port} (h : (d.putPort p y).PortBecomes e p x) : d.PortBecomes e p x :=
  ⟨h.port, h.cad, (d.putPort_linkOnly p y).trans h.link⟩

/-- A rill port that goes DOWN takes nothing of the pair with it. -/
theorem Dev.portDown_becomes {d : Dev} {p : Nat} (hrill : p ≠ 4) (hstate : (d.port p).state ≠ 0) (cause : Nat) :
    d.PortBecomes (d.portDown p cause) p ((d.port p).down d.ns cause) := by
  have hdown : d.portDown p cause = (d.putPort p ((d.port p).down d.ns cause)).linkEvent p := (if_neg hstate).trans (if_pos hrill)
  rw [hdown]
  exact d.putPort_linkEvent_becomes p _

theorem Dev.portDown_of_down {d : Dev} {p : Nat} (h : (d.port p).state = 0) (cause : Nat) : d.portDown p cause = d := if_pos h

/-- A port that went DOWN holds no keys, frames or credits. -/
theorem Dev.PortBecomes.downed {d e : Dev} {p now cause : Nat} {x : Port} (h : d.PortBecomes e p (x.down now cause)) : Downed e p cause := by
  unfold Downed
  rw [h.port]
  exact ⟨rfl, rfl, rfl, rfl, rfl, rfl, rfl, rfl, rfl, rfl⟩

theorem Dev.tryTrain_eq {d : Dev} {p : Nat} (henable : (d.port p).enable = true) (hvariant : (d.port p).variant < 2)
    (hstate : (d.port p).state = 0) : d.tryTrain p = d.enter p 1 := if_pos ⟨henable, hvariant, hstate⟩

/-! ### Training done (R299, R307) -/

/-- The port whose lanes are trained, with the nonce and the ephemeral key of the exchange that begins. -/
def Port.trained (x : Port) (lanes nonce eph : Nat) : Port := { x with lanes := lanes, nonce := nonce, eph := eph, hello := none, finished := false }

theorem laneTrainingDone_eq {d : Dev} {p : Nat} (hrill : p ≠ 4) (hstate : (d.port p).state = 1) :
    laneTrainingDone p d = (((d.setFree (d.free + 5)).putPort p ((d.port p).trained 4 d.random256.1 (d.free + 4))).enter p 2).transmit p
      { type := 4, payload := helloBytes (d.free + 4) d.random256.1 } := by
  unfold laneTrainingDone
  simp only [hstate, hrill, Dev.random256_snd, ne_eq, not_true_eq_false, if_false]
  rfl

/-- A port that is not UP sends whatever its counter says. -/
theorem Dev.transmit_of_not_up {d : Dev} {p : Nat} {x : Port} (hport : d.port p = x) (hstate : x.state ≠ 3) (f : Frame) :
    Sends d (d.transmit p f) p (x.stamped f) ∧ (d.transmit p f).port p = x.sent f d.ns := by
  have hsend : d.transmit p f = (d.putPort p (x.sent f d.ns)).emit (.frame p (x.stamped f) ((x.stamped f).wire x.keyTx x.saltTx)) := by
    unfold Dev.transmit
    dsimp only
    rw [hport]
    exact if_neg fun h => hstate h.1
  rw [hsend]
  exact ⟨⟨_, rfl⟩, d.port_putPort p _⟩

/-! ### Resending and wake bursts (R306, R319) -/

/-- A frame once it has been sent once more. -/
def Frame.again (f : Frame) : Frame := { f with resent := f.resent + 1 }

/-- The port whose only unacknowledged frame is resent at time `now`. -/
def Port.retrying (x : Port) (f : Frame) (now : Nat) : Port := { x with replay := [f.again], retrycnt := x.retrycnt + 1, lastAck := now }

/-- The only unacknowledged frame is sent again, where it has not been sent too often. -/
theorem Dev.resend_one {d : Dev} {p : Nat} {f : Frame} (hreplay : (d.port p).replay = [f]) (hresent : f.resent < 8) :
    d.resend p = (d.putPort p ((d.port p).retrying f d.ns)).transmit p f.again := by
  have hfew : ¬ 8 ≤ f.resent := Nat.not_le.mpr hresent
  simp [Dev.resend, hreplay, hfew, Port.retrying, Frame.again]

theorem Dev.resend_limit {d : Dev} {p : Nat} {f : Frame} (hreplay : (d.port p).replay = [f]) (hresent : 8 ≤ f.resent) :
    d.resend p = d.portDown p 2 := by
  simp [Dev.resend, hreplay, hresent]

/-- The time of a port's next burst: the first is sent at once. -/
def Dev.burstDue (d : Dev) (p : Nat) : Dev := if (d.port p).bursts = 0 then d else d.atNs ((d.port p).lastBurst + 1000000)

theorem wakeBurstTimer_eq {d : Dev} {p : Nat} (hstate : (d.port p).state = 0) (hsend : (d.port p).wakesend = true)
    (hask : (d.port p).wakeAsk = true) (hbursts : (d.port p).bursts < 99) :
    let v := d.burstDue p
    wakeBurstTimer p d = (v.putPort p { v.port p with bursts := (d.port p).bursts + 1, lastBurst := v.ns, wakeAsk := true }).emit
      (.burst p 0 64 wakeBlock) := by
  have hmore : (d.port p).bursts < 100 := by omega
  have hlast : (d.port p).bursts ≠ 99 := by omega
  simp [wakeBurstTimer, Dev.burstDue, hstate, hsend, hask, hmore, hlast]

theorem Dev.burstDue_linkOnly (d : Dev) (p : Nat) : LinkOnly d (d.burstDue p) := by
  unfold Dev.burstDue
  split
  · exact ⟨rfl, rfl⟩
  · exact d.atNs_linkOnly _

theorem Dev.burstDue_out (d : Dev) (p : Nat) : (d.burstDue p).out = d.out := by
  unfold Dev.burstDue
  split
  · rfl
  · rfl

/-! ### RIL_TOPO (R322) -/

theorem rilTopoWrite_free {d : Dev} (h : d.trains = []) (v : W32) :
    rilTopoWrite v d = d.setLink { d.link with xdim := bitsOf v.toNat 27 24, nrank := bitsOf v.toNat 22 16, rank := bitsOf v.toNat 13 8,
                                               mode := bitsOf v.toNat 1 0 } := by
  simp [rilTopoWrite, h]

theorem rilTopoWrite_training {d : Dev} (h : d.trains ≠ []) (v : W32) : rilTopoWrite v d = d.raiseO 9 0x1F4 0xFF 0 0 := by
  simp [rilTopoWrite, h]

end Sys2Proof.Machine

namespace Sys2Proof.Spec

open Sys2Proof Sys2Proof.Machine

/-- A command of the core that asks for a condition makes its change where the condition holds. -/
theorem Quiet.gives_if {d : Dev} {c : Instr} {P : Dev → Prop} [DecidablePred P] {g : Dev → Dev} (hq : Quiet d) (hp : P d)
    (hc : ∀ s, exec c s = onCore (fun d => if P d then g d else d) s) : Gives c d (g d) := by
  have hgives := hq.gives hc
  rwa [if_pos hp] at hgives

/-- A port that a command takes DOWN at a time. -/
theorem gives_portDown_atNs {d : Dev} {c : Instr} {p st t cause : Nat} (hrill : p ≠ 4) (hstate : (d.port p).state = st) (hst : st ≠ 0)
    (hgives : Gives c d ((d.atNs t).portDown p cause)) : ∃ e, Gives c d e ∧ LinkOnly d e ∧ Downed e p cause ∧ e.cad.ct = ctAt d t := by
  have hdown := Dev.portDown_becomes (d := d.atNs t) hrill (ne_of_eq_of_ne hstate hst) cause
  exact ⟨_, hgives, (d.atNs_linkOnly t).trans hdown.link, hdown.downed, congrArg Cad.ct hdown.cad⟩

section
variable {d : Dev} {p : Nat} (hq : Quiet d)
include hq

theorem gives_portEnable (hstate : (d.port p).state = 0) (hvariant : (d.port p).variant < 2) :
    ∃ e, Gives (.portEnable p) d e ∧ LinkOnly d e ∧ (e.port p).state = 1 ∧ (e.port p).enable = true ∧ (e.port p).since = d.ns := by
  have hgives : Gives (.portEnable p) d ((d.putPort p { d.port p with enable := true }).tryTrain p) :=
    hq.gives (g := fun d => (d.putPort p { d.port p with enable := true }).tryTrain p) (fun _ => rfl)
  rw [Dev.tryTrain_eq (by simp) (by simpa using hvariant) (by simpa using hstate)] at hgives
  have htrain := (d.putPort p { d.port p with enable := true }).enter_becomes p 1
  rw [Dev.port_putPort] at htrain
  refine ⟨_, hgives, htrain.of_putPort.link, ?_⟩
  rw [htrain.port]
  exact ⟨rfl, rfl, rfl⟩

theorem gives_downRetry (hstate : (d.port p).state = 0) (henable : (d.port p).enable = true) (hvariant : (d.port p).variant < 2) :
    ∃ e, Gives (.downRetry p) d e ∧ LinkOnly d e ∧ (e.port p).state = 1 ∧ e.cad.ct = ctAt d ((d.port p).since + 10000000) := by
  let v := d.atNs ((d.port p).since + 10000000)
  have hgives : Gives (.downRetry p) d (v.tryTrain p) :=
    hq.gives_if (P := fun d => (d.port p).state = 0 ∧ (d.port p).enable = true)
      (g := fun d => (d.atNs ((d.port p).since + 10000000)).tryTrain p) ⟨hstate, henable⟩ (fun _ => rfl)
  rw [Dev.tryTrain_eq (d := v) henable hvariant hstate] at hgives
  have htrain := v.enter_becomes p 1
  refine ⟨_, hgives, (d.atNs_linkOnly _).trans htrain.link, ?_, congrArg Cad.ct htrain.cad⟩
  rw [htrain.port]
  rfl

theorem gives_laneTrainingDone (hrill : p ≠ 4) (hstate : (d.port p).state = 1) :
    ∃ e f w, Gives (.laneTrainingDone p) d e ∧ LinkOnly d e ∧ (e.port p).state = 2 ∧ (e.port p).lanes = 4
      ∧ e.out.getLast? = some (.frame p f w) ∧ f.type = 4 ∧ f.payload = helloBytes (d.free + 4) (e.port p).nonce := by
  have hgives : Gives (.laneTrainingDone p) d (laneTrainingDone p d) := hq.gives (fun _ => rfl)
  let v := (d.setFree (d.free + 5)).putPort p ((d.port p).trained 4 d.random256.1 (d.free + 4))
  have hkeyx := v.enter_becomes p 2
  rw [Dev.port_putPort] at hkeyx
  rw [laneTrainingDone_eq hrill hstate] at hgives
  let hello : Frame := { type := 4, payload := helloBytes (d.free + 4) d.random256.1 }
  obtain ⟨⟨w, hout⟩, hport⟩ := Dev.transmit_of_not_up hkeyx.port (show (2 : Nat) ≠ 3 by decide) hello
  let x := ((d.port p).trained 4 d.random256.1 (d.free + 4)).entered 2 v.ns
  refine ⟨_, x.stamped hello, w, hgives, ?link, congrArg Port.state hport, congrArg Port.lanes hport, ?out, rfl, ?payload⟩
  case link => exact ((d.setFree_linkOnly _).trans hkeyx.of_putPort.link).trans (Dev.transmit_linkOnly _ _ _)
  case out =>
    rw [hout]
    exact List.getLast?_concat
  case payload => exact congrArg (helloBytes (d.free + 4)) (congrArg Port.nonce hport).symm

variable (hrill : p ≠ 4)
include hrill

/-- A port that has been in a state for too long since a time of its own goes DOWN. -/
theorem gives_portTimeout {c : Instr} {st span cause : Nat} {since : Port → Nat} (hst : st ≠ 0)
    (hc : ∀ s, exec c s = onCore (fun d => if (d.port p).state = st then (d.atNs (since (d.port p) + span)).portDown p cause else d) s)
    (hstate : (d.port p).state = st) :
    ∃ e, Gives c d e ∧ LinkOnly d e ∧ Downed e p cause ∧ e.cad.ct = ctAt d (since (d.port p) + span) :=
  gives_portDown_atNs hrill hstate hst
    (hq.gives_if (P := fun d => (d.port p).state = st) (g := fun d => (d.atNs (since (d.port p) + span)).portDown p cause) hstate hc)

theorem gives_portDisable (hstate : (d.port p).state ≠ 0) :
    ∃ e, Gives (.portDisable p) d e ∧ LinkOnly d e ∧ Downed e p 7 ∧ (e.port p).enable = false := by
  let x : Port := { d.port p with enable := false, bursts := 0 }
  have hgives : Gives (.portDisable p) d ((d.putPort p x).portDown p 7) :=
    hq.gives (g := fun d => (d.putPort p { d.port p with enable := false, bursts := 0 }).portDown p 7) (fun _ => rfl)
  have hport : (d.putPort p x).port p = x := d.port_putPort p x
  have hdown := Dev.portDown_becomes (d := d.putPort p x) hrill (by rw [hport]; exact hstate) 7
  refine ⟨_, hgives, hdown.of_putPort.link, hdown.downed, ?_⟩
  rw [hdown.port, hport]
  rfl

theorem gives_laneLoss (hstate : (d.port p).state ≠ 0) (hstopped : (d.port p).state ≠ 4) :
    ∃ e, Gives (.laneLoss p) d e ∧ LinkOnly d e ∧ Downed e p 1 ∧ e.cad.ct = d.cad.ct := by
  have hgives : Gives (.laneLoss p) d (laneLoss p d) := hq.gives (fun _ => rfl)
  rw [laneLoss, if_neg hstopped] at hgives
  have hdown := Dev.portDown_becomes hrill hstate 1
  exact ⟨_, hgives, hdown.link, hdown.downed, congrArg Cad.ct hdown.cad⟩

end

/-- A port that uses no lanes, or leaves its state by ENABLE alone, loses none. -/
theorem gives_laneLoss_none {d : Dev} {p : Nat} (hq : Quiet d) (h : (d.port p).state = 0 ∨ (d.port p).state = 4) : Gives (.laneLoss p) d d := by
  have hgives : Gives (.laneLoss p) d (laneLoss p d) := hq.gives (fun _ => rfl)
  obtain hdown | hstopped := h
  · rwa [laneLoss, Dev.portDown_of_down hdown, ite_self] at hgives
  · rwa [laneLoss, if_pos hstopped] at hgives

/-- Settles O32: each command takes the port into its state, and RIL_TOPO is open while no training stream exists. -/
theorem rillPortsFollowTheirStates : Obligations.RillPortsFollowTheirStates := by
  intro d p hq hp x
  have hrill : p ≠ 4 := by omega
  refine ⟨gives_portEnable hq, gives_downRetry hq, gives_portDisable hq hrill, gives_laneTrainingDone hq hrill,
    gives_portTimeout (since := Port.since) hq hrill one_ne_zero (fun _ => rfl),
    gives_portTimeout (since := Port.since) hq hrill two_ne_zero (fun _ => rfl), gives_laneLoss hq hrill, gives_laneLoss_none hq,
    gives_portTimeout (since := Port.lastRx) hq hrill three_ne_zero (fun _ => rfl), fun v hfree => ?free,
    fun v htrains => ?training⟩
  case free =>
    have hgives : Gives (.rilTopoWrite v) d (rilTopoWrite v d) := hq.gives (fun _ => rfl)
    rw [rilTopoWrite_free hfree] at hgives
    simpa [bitsOf] using hgives
  case training =>
    have hgives : Gives (.rilTopoWrite v) d (rilTopoWrite v d) := hq.gives (fun _ => rfl)
    rw [rilTopoWrite_training htrains] at hgives
    have hevent := d.raiseO_eventChange 9 0x1F4 0xFF 0 0
    exact ⟨_, hgives, hevent.link, hevent.linkOnly⟩

section
variable {d : Dev} {p : Nat} {f : Frame} (hq : Quiet d) (hup : (d.port p).state = 3) (hreplay : (d.port p).replay = [f])
include hq hup hreplay

theorem gives_ackTimeout : Gives (.ackTimeout p) d ((d.atNs ((d.port p).lastAck + 2000)).resend p) :=
  hq.gives_if (P := fun d => (d.port p).state = 3 ∧ (d.port p).replay ≠ []) (g := fun d => (d.atNs ((d.port p).lastAck + 2000)).resend p)
    ⟨hup, by simp [hreplay]⟩ (fun _ => rfl)

theorem gives_ackTimeout_resend (hresent : f.resent < 8) (htype : f.type ≠ 4) (hctr : (d.port p).txctr.toNat < 2 ^ 62) :
    ∃ e g, Gives (.ackTimeout p) d e ∧ LinkOnly d e ∧ e.cad.ct = ctAt d ((d.port p).lastAck + 2000)
      ∧ (e.port p).retrycnt = (d.port p).retrycnt + 1 ∧ (e.port p).replay = [{ f with resent := f.resent + 1 }] ∧ Sends d e p g
      ∧ g.seq = f.seq ∧ g.payload = f.payload ∧ g.ctr = (d.port p).txctr.toNat ∧ (e.port p).txctr = (d.port p).txctr + 1 := by
  let v := d.atNs ((d.port p).lastAck + 2000)
  have hgives := gives_ackTimeout hq hup hreplay
  rw [Dev.resend_one (d := v) hreplay hresent] at hgives
  obtain ⟨hsends, hsent, hrest⟩ := Dev.transmit_spec (v.port_putPort p ((d.port p).retrying f v.ns)) hctr f.again
  refine ⟨_, _, hgives, ?link, ?ct, ?retry, ?replay, hsends, rfl, rfl, if_neg htype, ?ctr⟩
  case link => exact ((d.atNs_linkOnly _).trans (v.putPort_linkOnly p _)).trans (Dev.transmit_linkOnly _ _ _)
  case ct => exact congrArg (fun e => e.cad.ct) hrest
  case retry => exact congrArg Port.retrycnt hsent
  case replay => exact congrArg Port.replay hsent
  case ctr => exact (congrArg Port.txctr hsent).trans (if_neg htype)

theorem gives_ackTimeout_limit (hrill : p ≠ 4) (hresent : 8 ≤ f.resent) : ∃ e, Gives (.ackTimeout p) d e ∧ Downed e p 2 ∧ LinkOnly d e := by
  have hgives := gives_ackTimeout hq hup hreplay
  rw [Dev.resend_limit (d := d.atNs ((d.port p).lastAck + 2000)) hreplay hresent] at hgives
  obtain ⟨e, hgives, hlink, hdown, -⟩ := gives_portDown_atNs hrill hup three_ne_zero hgives
  exact ⟨e, hgives, hdown, hlink⟩

end

theorem gives_wakeBurstTimer {d : Dev} {p : Nat} (hq : Quiet d) (hstate : (d.port p).state = 0) (hsend : (d.port p).wakesend = true)
    (hask : (d.port p).wakeAsk = true) (hbursts : (d.port p).bursts < 99) :
    ∃ e, Gives (.wakeBurstTimer p) d e ∧ LinkOnly d e ∧ e.out = d.out ++ [.burst p 0 64 wakeBlock]
      ∧ (e.port p).bursts = (d.port p).bursts + 1 ∧ ((d.port p).bursts ≠ 0 → e.cad.ct = ctAt d ((d.port p).lastBurst + 1000000)) := by
  have hgives : Gives (.wakeBurstTimer p) d (wakeBurstTimer p d) := hq.gives (fun _ => rfl)
  rw [wakeBurstTimer_eq hstate hsend hask hbursts] at hgives
  refine ⟨_, hgives, ?link, ?out, ?bursts, fun hlater => ?ct⟩
  case link => exact ((d.burstDue_linkOnly p).trans (Dev.putPort_linkOnly _ _ _)).trans (Dev.emit_linkOnly _ _)
  case out => exact congrArg (· ++ [Msg.burst p 0 64 wakeBlock]) (d.burstDue_out p)
  case bursts => exact congrArg Port.bursts ((d.burstDue p).port_putPort p _)
  case ct =>
    have hdue : d.burstDue p = d.atNs ((d.port p).lastBurst + 1000000) := if_neg hlater
    rw [hdue]
    rfl

/-- Settles O35: the frame resent, the limit of resends, and the burst. -/
theorem silentPartnersAreRetriedOrWoken : Obligations.SilentPartnersAreRetriedOrWoken := by
  intro d p hq hp x
  have hrill : p ≠ 4 := by omega
  exact ⟨fun f hup hreplay hresent htype hctr => gives_ackTimeout_resend hq hup hreplay hresent htype hctr,
    fun f hup hreplay hresent => gives_ackTimeout_limit hq hup hreplay hrill hresent, gives_wakeBurstTimer hq⟩

end Sys2Proof.Spec
end

section
/-! PROOFS. The TRAIN commands (R269, R273, R277, R278, R292, R295, R296, R314, R374): what each answers, and the obligation they settle. -/

namespace Sys2Proof.Machine

open Sys2Proof Sys2Proof.Spec

/-! ### TRAIN_CREATE (R269, R284, R314) -/

/-- A TRAIN_CREATE's payload gives the entry `x` and the context `c` of `n` buckets, all in their ranges. -/
structure TrainPayload (r : Req) (x : Stream) (c : Train) (n : Nat) : Prop where
  entry : streamOfBytes r.payload = x
  context : contextOf r.payload = c
  count : (wordsOf (r.payload.drop 76)).getD 9 0 = n
  length : 156 + 32 * n ≤ r.payload.length
  kind : x.kind = 2
  fits : c.fits n = true
  buckets : bucketsBad c.buckets = false

/-- The context fits the topology, the shares and the pages of the device, and its entry the limits of its domain. -/
structure Dev.AdmitsTrain (d : Dev) (r : Req) (x : Stream) (c : Train) (n : Nat) : Prop where
  rank : c.rank = d.link.rank
  nrank : c.nrank = d.link.nrank
  rtag : ∀ q ∈ d.trains, q.2.rtag ≠ c.rtag
  share : d.shareSum 65536 + c.share ≤ 195000
  own : r.domain = 0 ∨ r.domain = x.domain
  live : (d.domain x.domain).state = 1
  fits : d.streamFits x = true
  room : d.streamsOf x.domain < (d.domain x.domain).maxStreams
  free : ∃ k, k < 65536 ∧ (d.stream k).state = 0
  plans : ∀ q ∈ d.plans, (d.stream q.index).state ≠ 0
  populated : c.bucketsAddr + 32 * n ≤ 0x6000000000
  owned : d.rsv.owned x.domain c.bucketsAddr (32 * n) = true

section
variable {w : Dev} {r : Req} {x : Stream} {c : Train} {n : Nat} (hpay : TrainPayload r x c n)
include hpay

theorem TrainPayload.valid : ¬ (r.payload.length < 156 + 32 * (wordsOf (r.payload.drop 76)).getD 9 0 ∨ (streamOfBytes r.payload).kind ≠ 2
    ∨ !(contextOf r.payload).fits ((wordsOf (r.payload.drop 76)).getD 9 0) ∨ bucketsBad (contextOf r.payload).buckets) := by
  rw [hpay.entry, hpay.context, hpay.count]
  simp [hpay.length, hpay.kind, hpay.fits, hpay.buckets]

theorem cmdTrainCreate_topology (h : c.rank ≠ w.link.rank ∨ c.nrank ≠ w.link.nrank ∨ ∃ q ∈ w.trains, q.2.rtag = c.rtag) :
    cmdTrainCreate r w = (w, { status := 0x503 }) := by
  have htopology : (contextOf r.payload).rank ≠ w.link.rank ∨ (contextOf r.payload).nrank ≠ w.link.nrank
      ∨ w.trains.any (fun q => q.2.rtag == (contextOf r.payload).rtag) := by simpa [hpay.context] using h
  exact (if_neg hpay.valid).trans (if_pos htopology)

end

/-- A stream of a FREE index has no plan. -/
theorem Dev.plan_of_free {d : Dev} {k : Nat} (hplans : ∀ q ∈ d.plans, (d.stream q.index).state ≠ 0) (hfree : (d.stream k).state = 0) (n : Nat) :
    d.plan k n = none := by
  refine List.find?_eq_none.mpr fun q hq hfound => ?_
  simp only [Bool.and_eq_true, beq_iff_eq] at hfound
  obtain ⟨rfl, -⟩ := hfound
  exact hplans q hq hfree

/-- The device with the training stream `k` created: its entry, its context, and its bucket records at BUCKETS. -/
def Dev.trainMade (d : Dev) (k : Nat) (x : Stream) (c : Train) (recs : List Byte) : Dev :=
  ((d.putStream k x).setRsv ((d.rsv.write c.bucketsAddr recs).moved recs.length)).putTrain k c

section
variable (d : Dev) (k : Nat) (x : Stream) (c : Train) (recs : List Byte)

theorem Dev.trainMade_train : (d.trainMade k x c recs).train k = some c := Tab.find?_put_same _ _ _
theorem Dev.trainMade_stream : (d.trainMade k x c recs).stream k = x := d.stream_putStream k x
theorem Dev.trainMade_other {m : Nat} (h : m ≠ k) :
    (d.trainMade k x c recs).stream m = d.stream m ∧ (d.trainMade k x c recs).train m = d.train m :=
  ⟨d.stream_putStream_other k m x h, Tab.find?_put_other _ _ _ _ h⟩
theorem Dev.trainMade_mem : (d.trainMade k x c recs).rsv.mem = Mem.writeBytes d.rsv.mem c.bucketsAddr recs := rfl

end

/-- A training stream that fits takes a FREE index, with its context and its records (R269, R284). -/
theorem cmdTrainCreate_ok {w : Dev} {r : Req} {x : Stream} {c : Train} {n : Nat} (hpay : TrainPayload r x c n) (hadmits : w.AdmitsTrain r x c n) :
    ∃ k m, k < 65536 ∧ (w.stream k).state = 0 ∧ cmdTrainCreate r w
      = ((w.setFree m).trainMade k (x.created (w.stream k).gen (w.domain x.domain).isol) c ((r.payload.drop 156).take (32 * n)),
          { res := [k * 65536 + ((w.stream k).gen + 1)] }) := by
  have hvalid := hpay.valid
  obtain ⟨hx, hc, hn, hlen, -, -, -⟩ := hpay
  obtain ⟨hrank, hnrank, hrtag, hshare, hown, hlive, hfits, hroom, hfree, hplans, hpopulated, howned⟩ := hadmits
  have htopology : ¬ ((contextOf r.payload).rank ≠ w.link.rank ∨ (contextOf r.payload).nrank ≠ w.link.nrank
      ∨ w.trains.any (fun q => q.2.rtag == (contextOf r.payload).rtag)) := by simpa [hc, hrank, hnrank] using hrtag
  have hwithin : ¬ 195000 < w.shareSum 65536 + (contextOf r.payload).share := by
    rw [hc]
    exact Nat.not_lt.mpr hshare
  obtain ⟨k, m, hlt, hzero, hcreate⟩ := Dev.createStream_ok hx (by omega) hown hlive hfits hroom hfree
  let y := x.created (w.stream k).gen (w.domain x.domain).isol
  let e := (w.setFree m).putStream k y
  have hentry : e.stream k = y := Dev.stream_putStream _ _ _
  have hdomain : (e.stream k).domain = x.domain := (congrArg Stream.domain hentry).trans rfl
  have hhandle : handleOf k (e.stream k) = k * 65536 + ((w.stream k).gen + 1) := (congrArg (handleOf k) hentry).trans rfl
  have hrecords : ¬ (!rsvPopulated (contextOf r.payload).bucketsAddr (32 * n)
      ∨ !e.rsv.owned (e.stream k).domain (contextOf r.payload).bucketsAddr (32 * n)) := by
    have hend : rsvPopulated c.bucketsAddr (32 * n) = true := decide_eq_true hpopulated
    have hrsv : e.rsv = w.rsv := rfl
    simp [hc, hdomain, hrsv, hend, howned]
  have hplan : ¬ (e.plan k (e.stream k).planno).any (fun q => q.steps.any (fun x => x.phase == 4 && !x.evalOk)) := by
    have hnone : e.plan k (e.stream k).planno = none := w.plan_of_free hplans hzero _
    simp [hnone]
  refine ⟨k, m, hlt, hzero, (if_neg hvalid).trans ((if_neg htopology).trans ((if_neg hwithin).trans ?_))⟩
  rw [hcreate]
  subst hn hc
  refine (if_neg (not_not.mpr rfl)).trans ((if_neg hrecords).trans ((if_neg hplan).trans ?_))
  exact congrArg (fun h => (_, ({ res := [h] } : Resp))) hhandle

/-! ### The commands that name a training stream (R277, R278) -/

theorem Train.words_length (t : Train) : t.words.length = 19 := by simp [Train.words]

/-- A context of five phase timers takes 256 bytes (R277). -/
theorem Train.bytes_length {t : Train} (h : t.phases.length = 5) (n : Nat) : (t.bytes n).length = 256 := by
  unfold Train.bytes
  simp [List.length_flatMap, leBytes_length, t.words_length, h, List.map_const']

/-- A period that has begun cannot be changed any more (R278). -/
theorem Dev.tooLate_of_begun {d : Dev} {i p : Nat} {t : Train} (hopen : (d.stream i).period.isSome = true) (h : p ≤ t.period.toNat) :
    d.tooLate i p t = true := by
  have hbegun : d.periodStart i p t = none := by simp [Dev.periodStart, hopen, h]
  simp [Dev.tooLate, hbegun]

section
variable {w : Dev} {r : Req} {i : Nat} {s : Stream} {t : Train} (h : NamesTrain w r i s t)
include h

theorem trainNamed_of_names : w.trainNamed r (r.arg 0) = (0, i, s, t) := by
  obtain ⟨hnames, htrain⟩ := h
  simp [Dev.trainNamed, named_of_names hnames, htrain]

theorem tooLate_of_names (hopen : s.period.isSome = true) (hp : r.arg64 1 ≤ t.period.toNat) : w.tooLate i (r.arg64 1) t = true := by
  obtain ⟨⟨-, hstream, -⟩, -⟩ := h
  refine Dev.tooLate_of_begun ?_ hp
  rw [hstream]
  exact hopen

theorem cmdTrainQuery_ok : cmdTrainQuery r w = (w, { payload := t.bytes (handleOf i s) }) := by
  simp [cmdTrainQuery, trainNamed_of_names h, Dev.yes]

section
variable (hlen : 76 ≤ r.payload.length) (hfits : (t.setWords [] (wordsOf r.payload)).fits ((wordsOf r.payload).getD 9 0) = true)
  (hshare : w.shareSum 65536 - t.share + (t.setWords [] (wordsOf r.payload)).share ≤ 195000)
include hlen hfits hshare

theorem cmdTrainSet_eq : cmdTrainSet r w = if w.tooLate i (r.arg64 1) t then (w, { status := 0x102 })
    else (w.putTrain i { t with pendSet := t.pendSet ++ [(r.arg64 1, wordsOf r.payload)] }, {}) := by
  have hvalid : ¬ (r.payload.length < 76 ∨ !(t.setWords [] (wordsOf r.payload)).fits ((wordsOf r.payload).getD 9 0)) := by
    rw [hfits]
    simpa using hlen
  have hwithin : ¬ 195000 < w.shareSum 65536 - t.share + (t.setWords [] (wordsOf r.payload)).share := Nat.not_lt.mpr hshare
  unfold cmdTrainSet
  rw [trainNamed_of_names h]
  exact (if_neg (not_not.mpr rfl)).trans ((if_neg hvalid).trans (if_neg hwithin))

end

theorem cmdTrainState_eq (hstate : r.arg 3 ≤ 3) : cmdTrainState r w = if w.tooLate i (r.arg64 1) t then (w, { status := 0x102 })
    else (w.putTrain i { t with pendState := t.pendState ++ [(r.arg64 1, r.arg 3)] }, {}) := by
  unfold cmdTrainState
  rw [trainNamed_of_names h]
  exact (if_neg (not_not.mpr rfl)).trans (if_neg (Nat.not_lt.mpr hstate))

end

/-! ### TRAIN_FILL (R273) -/

theorem sprayBytes_length (seed tag pos : Nat) : (sprayBytes seed tag pos).length = 16 := by simp [sprayBytes, leBytes_length]

/-- Outputs of the counter generator from a position on. -/
def sprayRun (seed tag pos n : Nat) : List Byte := (List.range n).flatMap (fun k => sprayBytes seed tag (pos + k))

theorem sprayRun_length (seed tag pos n : Nat) : (sprayRun seed tag pos n).length = 16 * n := by
  simp [sprayRun, List.length_flatMap, sprayBytes_length, List.map_const', Nat.mul_comm]

/-- The output at each position stands in its place. -/
theorem sprayRun_split (seed tag pos : Nat) {k n : Nat} (h : k < n) :
    ∃ post, sprayRun seed tag pos n = sprayRun seed tag pos k ++ (sprayBytes seed tag (pos + k) ++ post) := by
  obtain ⟨m, rfl⟩ := Nat.exists_eq_add_of_le (Nat.succ_le_of_lt h)
  refine ⟨((List.range m).map (k + 1 + ·)).flatMap (fun j => sprayBytes seed tag (pos + j)), ?_⟩
  rw [sprayRun, List.range_add, List.range_succ, List.flatMap_append, List.flatMap_append, List.flatMap_singleton, List.append_assoc]
  rfl

theorem Mem.readBytes_sprayRun (m : Mem) (a seed tag pos : Nat) {k n : Nat} (h : k < n) :
    Mem.readBytes (Mem.writeBytes m a (sprayRun seed tag pos n)) (a + 16 * k) 16 = sprayBytes seed tag (pos + k) := by
  obtain ⟨post, hsplit⟩ := sprayRun_split seed tag pos h
  have hread := Mem.readBytes_part m a (16 * k) hsplit (sprayRun_length seed tag pos k)
  rwa [sprayBytes_length] at hread

section
variable {w : Dev} {r : Req} {n : Nat} (hn : r.arg 5 = n)
include hn

theorem cmdTrainFill_past (h : 2 ^ 64 < r.arg64 3 + n) : cmdTrainFill r w = (w, { status := 0x201, detail := 5 }) := by
  subst hn
  exact if_pos (Or.inr (Or.inr h))

theorem cmdTrainFill_ok {a : Nat} (ha : leNat (r.payload.take 8) = a) (hpos : 1 ≤ n) (hmax : n ≤ 4194304) (hlast : r.arg64 3 + n ≤ 2 ^ 64)
    (hlen : 8 ≤ r.payload.length) (hend : a + 16 * n ≤ 0x6000000000) (howned : w.rsv.owned r.domain a (16 * n) = true) :
    cmdTrainFill r w = (w.setRsv ((w.rsv.write a (sprayRun (r.arg64 0) (r.arg 2) (r.arg64 3) n)).moved (16 * n)), {}) := by
  subst hn ha
  have hcount : ¬ (r.arg 5 = 0 ∨ 4194304 < r.arg 5 ∨ 2 ^ 64 < r.arg64 3 + r.arg 5) := by omega
  have hpopulated : rsvPopulated (leNat (r.payload.take 8)) (16 * r.arg 5) = true := decide_eq_true hend
  have hplace : ¬ (r.payload.length < 8 ∨ !rsvPopulated (leNat (r.payload.take 8)) (16 * r.arg 5)) := by
    rw [hpopulated]
    simpa using hlen
  have hreach : ¬ (!w.rsv.owned r.domain (leNat (r.payload.take 8)) (16 * r.arg 5)) = true := by simp [howned]
  exact (if_neg hcount).trans ((if_neg hplace).trans (if_neg hreach))

end

/-! ### TRAIN_RESYNC and TRAIN_RESTORE (R292, R296) -/

/-- From `d` to `e` the reservoir alone has changed. -/
def Dev.RsvOnly (d e : Dev) : Prop := ∃ x, e = d.setRsv x

theorem Dev.RsvOnly.foldl {α : Type} {g : Dev → α → Dev} (hg : ∀ (d : Dev) x, d.RsvOnly (g d x)) (l : List α) (d : Dev) :
    d.RsvOnly (l.foldl g d) := by
  induction l generalizing d with
  | nil => exact ⟨d.rsv, rfl⟩
  | cons x l ih =>
    obtain ⟨y, hy⟩ := hg d x
    obtain ⟨z, hz⟩ := ih (g d x)
    refine ⟨z, ?_⟩
    rw [List.foldl_cons, hz, hy]
    rfl

theorem Dev.loadSet_rsvOnly (d : Dev) (i k off : Nat) (bs : List Byte) : d.RsvOnly (d.loadSet i k off bs) := by
  refine Dev.RsvOnly.foldl (fun d p => ?_) _ d
  dsimp only
  split
  · exact ⟨_, rfl⟩
  · exact ⟨d.rsv, rfl⟩

/-- Loading a state set changes the reservoir alone. -/
theorem Dev.loadBoth_rsvOnly (d : Dev) (i : Nat) (st : List (Nat × List Byte)) : d.RsvOnly (d.loadBoth i st) := by
  refine Dev.RsvOnly.foldl (fun d c => ?_) st d
  obtain ⟨x, hx⟩ := d.loadSet_rsvOnly i 0 c.1 c.2
  obtain ⟨y, hy⟩ := (d.loadSet i 0 c.1 c.2).loadSet_rsvOnly i 1 c.1 c.2
  refine ⟨y, ?_⟩
  rw [hy, hx]
  rfl

theorem Dev.RsvOnly.putTrain_frame {d e : Dev} (h : d.RsvOnly e) (i : Nat) (t : Train) :
    e.putTrain i t = { d with trains := (e.putTrain i t).trains, rsv := (e.putTrain i t).rsv } := by
  obtain ⟨x, rfl⟩ := h
  rfl

theorem Dev.train_putTrain (d : Dev) (i : Nat) (t : Train) : (d.putTrain i t).train i = some t := Tab.find?_put_same _ _ _

section
variable {w : Dev} {r : Req} {i : Nat} {s : Stream} {t : Train} (h : NamesTrain w r i s t) {st : List (Nat × List Byte)} (hst : st ≠ [])
  (seed period : W64)
include h hst

theorem cmdTrainResync_ok (hfrom : r.arg 1 = 0xFF ∨ (r.arg 1 < t.nrank ∧ r.arg 1 ≠ t.rank)) :
    cmdTrainResync st seed period r w = ((w.loadBoth i st).putTrain i { t with
      resumeAt := some (r.arg64 2, max 1 (r.arg64 2 + (if s.period.isSome then 0 else 1) - t.period.toNat)),
      seed := if r.arg 1 = 0xFF then seed else t.seed, period := if r.arg 1 = 0xFF then period + 1 else t.period }, {}) := by
  have hrank : ¬ (¬ r.arg 1 = 0xFF ∧ (t.nrank ≤ r.arg 1 ∨ r.arg 1 = t.rank)) := by omega
  unfold cmdTrainResync
  rw [trainNamed_of_names h]
  exact (if_neg (not_not.mpr rfl)).trans ((if_neg hrank).trans (if_neg hst))

theorem cmdTrainRestore_ok : cmdTrainRestore st seed period r w
    = ((w.loadBoth i st).putTrain i { t with seed := seed, period := period + 1 }, { res := words2 (period + 1).toNat }) := by
  unfold cmdTrainRestore
  rw [trainNamed_of_names h]
  exact (if_neg (not_not.mpr rfl)).trans (if_neg hst)

end

/-! ### TRAIN_CKPT_RESERVE (R295) -/

theorem Dev.mem_freeRuns {d : Dev} {k p : Nat} : p ∈ d.freeRuns k ↔ p < 195584 ∧ ∀ j, j < k → d.pageFree (p + j) = true := by
  simp [Dev.freeRuns]

/-- The device with a run of `k` pages from `p` on assigned to domain `n`. -/
def Dev.runAssigned (d : Dev) (p k n : Nat) : Dev := d.setRsv ((List.range k).foldl (fun (q : Rsv) j => q.assign (p + j) n) d.rsv)

theorem Dev.runAssigned_page (d : Dev) (p n : Nat) {j k : Nat} (h : j < k) :
    pageAt (d.runAssigned p k n) (p + j) = { valid := true, scrub := false, owner := n } := by
  have hassigned := Rsv.foldl_assign n ((List.range k).map (p + ·)) d.rsv
  rw [List.foldl_map] at hassigned
  exact hassigned.page (p + j) (List.mem_map_of_mem (List.mem_range.mpr h))

theorem cmdTrainCkptReserve_ok {w : Dev} {r : Req} {k : Nat} (hk : 2 * r.arg 1 = k) (hpos : 0 < r.arg 1)
    (hlimit : (w.ownPages r.domain).length + k ≤ (w.domain r.domain).maxPages) (harea : Tab.find? w.areas (r.arg 0) = none)
    (hfree : ∃ p, p < 195584 ∧ ∀ j, j < k → w.pageFree (p + j) = true) :
    ∃ p m, (∀ j, j < k → w.pageFree (p + j) = true) ∧ cmdTrainCkptReserve r w
      = (((w.setFree m).runAssigned p k r.domain).setAreas (Tab.put w.areas (r.arg 0) (p * 0x200000, r.arg 1, r.domain)),
          { res := words2 (p * 0x200000) }) := by
  obtain ⟨q, hq⟩ := hfree
  obtain ⟨p, hp, m, hpick⟩ := w.pick_of_mem (Dev.mem_freeRuns.mpr hq)
  obtain ⟨-, hrun⟩ := Dev.mem_freeRuns.mp hp
  subst hk
  have hunused : ¬ (Tab.find? w.areas (r.arg 0)).isSome = true := by simp [harea]
  refine ⟨p, m, hrun, ?_⟩
  refine (if_neg (Nat.pos_iff_ne_zero.mp hpos)).trans ((if_neg (Nat.not_lt.mpr hlimit)).trans ((if_neg hunused).trans ?_))
  rw [hpick]
  rfl

end Sys2Proof.Machine

namespace Sys2Proof.Spec

open Sys2Proof Sys2Proof.Machine

theorem putTrain_trainSet (w : Dev) (i : Nat) (t : Train) : TrainSet w (w.putTrain i t) i t :=
  ⟨rfl, w.train_putTrain i t, fun _ hn => Tab.find?_put_other _ _ _ _ hn⟩

/-- Settles O47: each command is the equation of its case. -/
theorem trainCommandsFollowTheirTable : Obligations.TrainCommandsFollowTheirTable := by
  intro d w f i s t r
  refine ⟨?create, ?query, ?set, ?state, ?fill, ?resync, ?restore, ?reserve⟩
  case create =>
    intro p x c n h hlen hkind hfits hbuckets
    have hpay : TrainPayload r x c n := ⟨rfl, rfl, rfl, hlen, hkind, hfits, hbuckets⟩
    refine ⟨fun hrank hnrank hrtag hshare hown hlive hstream hroom hfree hplans hpopulated howned => ?_, fun htopology => ?_⟩
    · obtain ⟨k, m, hlt, hzero, hcreate⟩ := cmdTrainCreate_ok hpay
        ⟨hrank, hnrank, hrtag, hshare, hown, hlive, hstream, hroom, hfree, hplans, hpopulated, howned⟩
      have hentry := (w.setFree m).trainMade_stream k (x.created (w.stream k).gen (w.domain x.domain).isol) c ((p.drop 156).take (32 * n))
      refine ⟨_, k, h.replies (fun _ => rfl) hcreate, hlt, hzero, Dev.trainMade_train _ _ _ _ _, congrArg Stream.state hentry,
        (congrArg Stream.kind hentry).trans hkind, fun j hj => Dev.trainMade_other _ _ _ _ _ hj, ?_, rfl⟩
      rw [Dev.trainMade_mem]
      exact Mem.readBytes_written _ (List.length_take_of_le (by rw [List.length_drop]; exact Nat.le_sub_of_add_le' hlen))
    · exact h.replies (fun _ => rfl) (cmdTrainCreate_topology hpay htopology)
  case query => exact fun h hnames hphases => ⟨h.replies (fun _ => rfl) (cmdTrainQuery_ok hnames), t.bytes_length hphases _⟩
  case set =>
    intro ws u h hnames hlen hfits hshare
    have hset := cmdTrainSet_eq hnames hlen hfits hshare
    refine ⟨fun hearly => ?_, fun hopen hp => ?_⟩
    · rw [hearly] at hset
      exact ⟨_, h.replies (fun _ => rfl) hset, putTrain_trainSet w i _⟩
    · rw [tooLate_of_names hnames hopen hp] at hset
      exact h.replies (fun _ => rfl) hset
  case state =>
    intro h hnames hrange
    have hstate := cmdTrainState_eq hnames hrange
    refine ⟨fun hearly => ?_, fun hopen hp => ?_⟩
    · rw [hearly] at hstate
      exact ⟨_, h.replies (fun _ => rfl) hstate, putTrain_trainSet w i _⟩
    · rw [tooLate_of_names hnames hopen hp] at hstate
      exact h.replies (fun _ => rfl) hstate
  case fill =>
    intro n a h
    refine ⟨fun hpos hmax hlast hlen hend howned => ?_, fun hpast => h.replies (fun _ => rfl) (cmdTrainFill_past rfl hpast)⟩
    refine ⟨_, h.replies (fun _ => rfl) (cmdTrainFill_ok rfl rfl hpos hmax hlast hlen hend howned), rfl,
      fun k hk => Mem.readBytes_sprayRun _ _ _ _ _ hk, fun p hp => ?_⟩
    exact Mem.read_writeBytes_outside _ a _ p (by rw [sprayRun_length]; exact hp)
  case resync =>
    intro st seed period h hnames hst hfrom
    exact ⟨_, h.replies (fun _ => rfl) (cmdTrainResync_ok hnames hst seed period hfrom), (w.loadBoth_rsvOnly i st).putTrain_frame i _,
      Dev.train_putTrain _ _ _⟩
  case restore =>
    intro st seed period h hnames hst
    exact ⟨_, h.replies (fun _ => rfl) (cmdTrainRestore_ok hnames hst seed period), (w.loadBoth_rsvOnly i st).putTrain_frame i _,
      Dev.train_putTrain _ _ _⟩
  case reserve =>
    intro k h hpos hlimit harea hfree
    obtain ⟨p, m, hrun, hreserve⟩ := cmdTrainCkptReserve_ok rfl hpos hlimit harea hfree
    exact ⟨_, p, h.replies (fun _ => rfl) hreserve, Tab.find?_put_same _ _ _, fun j hj => ⟨hrun j hj, Dev.runAssigned_page _ p _ hj⟩, rfl⟩

end Sys2Proof.Spec
end

section
/-! PROOFS. PAIR_ATTACH at a mirror link that is UP to another partner (R283, R301, R323, R340): what the link that goes DOWN makes of the training
contexts, and the obligation that this refutes. -/

namespace Sys2Proof.Machine

open Sys2Proof Sys2Proof.Spec

/-! ### The mirror link goes DOWN (R283, R301) -/

/-- What a failure of the mirror link abandons does not depend on what an event writes. -/
theorem EventChange.offloadLost_trains {d e : Dev} (h : EventChange d e) : e.offloadLost.trains = d.offloadLost.trains := by
  obtain ⟨_, _, _, _, _, _, rfl⟩ := h
  rfl

theorem Dev.setPairState_trains (d : Dev) (st : Nat) : (d.setPairState st).trains = d.trains := by
  unfold Dev.setPairState
  split
  · rfl
  · exact (Dev.raiseO_eventChange _ _ _ _ _ _).trains

theorem Dev.unpair_trains (d : Dev) : d.unpair.trains = d.trains := Dev.setPairState_trains _ _

/-- A mirror link that leaves UP abandons the backward work that offloads over it, and changes the training contexts in nothing else. -/
theorem Dev.portDown_mirror_trains {d : Dev} (hup : (d.port 4).state = 3) (cause : Nat) : (d.portDown 4 cause).trains = d.offloadLost.trains := by
  have hdown : ((d.putPort 4 ((d.port 4).down d.ns cause)).linkEvent 4).offloadLost.trains = d.offloadLost.trains :=
    (Dev.linkEvent_eventChange _ 4).offloadLost_trains
  unfold Dev.portDown
  simp only [hup, ne_eq, not_true_eq_false, if_true, if_false, OfNat.ofNat_ne_zero]
  split
  · exact (Dev.unpair_trains _).trans hdown
  · split
    · exact (Dev.setPairState_trains _ 3).trans hdown
    · exact hdown

/-! ### PAIR_ATTACH (R323) -/

/-- The pair's registers once the twin is named. -/
def Pair.named (p : Pair) (ident : Nat) : Pair :=
  { p with twin := ident, joinerr := 0, hbmiss := 0, detached := false, twinDetached := false, maps := [] }

/-- An UNPAIRED module that has named its twin waits for it in JOINING. -/
def Dev.attaching (d : Dev) (ident : Nat) : Dev := (d.setPair (d.pair.named ident)).setPairState 1

section
variable {d : Dev} {r : Req} {ident : Nat} (hlen : 48 ≤ r.payload.length) (hident : beNat (r.payload.take 48) = ident)
  (hunpaired : d.pair.state = 0)
include hunpaired

theorem Dev.attaching_eventChange (ident : Nat) : EventChange (d.setPair { d.pair.named ident with state := 1 }) (d.attaching ident) := by
  have hother : d.pair.state ≠ 1 := by simp [hunpaired]
  have hchange : d.attaching ident = (d.setPair { d.pair.named ident with state := 1 }).pairEvent := if_neg hother
  rw [hchange]
  exact Dev.raiseO_eventChange _ _ _ _ _ _

variable (hup : (d.port 4).state = 3) (hpeer : (d.port 4).peerid ≠ ident)
include hlen hident hup hpeer

/-- A link that is UP to another partner than the twin named goes DOWN. -/
theorem cmdPairAttach_otherPartner :
    let v := d.attaching ident
    cmdPairAttach r d = (((v.setPair { v.pair with joinerr := 4 }).pairEvent).portDown 4 5, {}) := by
  have hport : (d.attaching ident).port 4 = d.port 4 := (Dev.attaching_eventChange hunpaired ident).port 4
  subst hident
  rw [← hport] at hup hpeer
  exact (if_neg (Nat.not_lt.mpr hlen)).trans ((if_neg (not_not.mpr hunpaired)).trans ((if_pos hup).trans (if_neg hpeer)))

/-- Naming another twin while the link is UP abandons the backward work that offloads over the link (R283). -/
theorem cmdPairAttach_otherPartner_trains : (cmdPairAttach r d).1.trains = d.offloadLost.trains := by
  have hnamed := Dev.attaching_eventChange hunpaired ident
  let v := d.attaching ident
  have hrefused : EventChange (v.setPair { v.pair with joinerr := 4 }) (v.setPair { v.pair with joinerr := 4 }).pairEvent :=
    Dev.raiseO_eventChange _ _ _ _ _ _
  rw [cmdPairAttach_otherPartner hlen hident hunpaired hup hpeer]
  calc ((v.setPair { v.pair with joinerr := 4 }).pairEvent.portDown 4 5).trains
      = (v.setPair { v.pair with joinerr := 4 }).pairEvent.offloadLost.trains := by
        refine Dev.portDown_mirror_trains ?_ 5
        rw [hrefused.port 4]
        exact (congrArg Port.state (hnamed.port 4)).trans hup
    _ = v.offloadLost.trains := hrefused.offloadLost_trains
    _ = d.offloadLost.trains := hnamed.offloadLost_trains

end

/-! ### Answers -/

theorem Dev.vector_trains (d : Dev) (f v : Nat) : (d.vector f v).trains = d.trains := (d.vector_eventChange f v).trains

/-- An answer leaves the training contexts as they are. -/
theorem Dev.respond_trains (d : Dev) (r : Req) (x : Resp) : (d.respond r x).trains = d.trains := by
  simp only [Dev.respond, apply_ite Dev.trains, Dev.emit, Dev.hostWrite, Dev.putFunc, Dev.openValue_snd, Dev.vector_trains, Dev.setOut_trains,
    Dev.setFuncs_trains, Dev.setHostMem_trains, Dev.setFh_trains, Dev.setFree_trains, ite_self]

end Sys2Proof.Machine

namespace Sys2Proof.Spec

open Sys2Proof Sys2Proof.Machine

/-- A command gives one device. -/
theorem Gives.unique {c : Instr} {d e v : Dev} (he : Gives c d e) (hv : Gives c d v) : e = v := by
  have hnext := (he []).symm.trans (hv [])
  injection hnext with hstate
  exact congrArg State.dev hstate

/-- Whatever device a command leaves before its answer has the same training contexts. -/
theorem Replies.trains_unique {c : Instr} {d e v : Dev} {r : Req} {x : Resp} (he : Replies c d e r x) (hv : Replies c d v r x) :
    e.trains = v.trains := by
  have hanswered := congrArg Dev.trains (Gives.unique he hv)
  rwa [Dev.respond_trains, Dev.respond_trains] at hanswered

/-! ### A module that offloads over the link -/

/-- A run of stream 1 in a slot of 10 µs. -/
def offloadRun (step start fin : Nat) : Run :=
  { handle := 0x10001, lbasin := 0, domain := 1, det := false, take := step == 0, post := step == 1, apseg := 0, planStep := step, entry := some 0,
    base := 0, limit := 9, tstart := start, tend := fin, share := 0, segs := 0, model := 0, planno := 0 }

/-- Its forward run, which stores to the twin, and its backward run, which fetches. -/
def offloadTable : Table := { slen := 10000, nslot := 1, runs := [(0, [offloadRun 0 0 1000, offloadRun 1 6000 9000])] }

/-- An UNPAIRED module whose mirror link is UP still to partner 7, 5 µs into a period of training stream 1: the forward run has ended, the
backward run has not (R283). -/
def offloading : Dev :=
  { pow := { stable := 3 }, boot := { ready := true }, cad := { ct := 5000 * 65536, active := true, table0 := some offloadTable },
    streams := [(1, { gen := 1, domain := 1, state := 2, kind := 2, period := some {} })],
    plans := [{ index := 1, domain := 1, steps := [{ phase := 0 }, { phase := 1 }], offShare := 100 }],
    trains := [(1, { tstate := 1, nrank := 1, twinoff := 0x200000, phases := [{ first := some 0, fin := some 1000 }, {}, {}, {}, {}] })],
    ports := [(4, { state := 3, peerid := 7 })] }

/-- A request of function 0 that names twin 9. -/
def attachNine : Req := { opcode := 0x600, payload := List.replicate 47 0 ++ [9] }

theorem offloading_serves :
    Serving (offloading.setFh { offloading.fh with inprog := [attachNine] }) 0 0x600 attachNine offloading := ⟨rfl, rfl, rfl, rfl, [], rfl, rfl⟩

theorem attachNine_ident : beNat (attachNine.payload.take 48) = 9 := by decide

/-- The backward work is under way before the link fails, and abandoned after it. -/
theorem offloading_abandons : (offloading.train 1).map Train.nabandon = some 0 ∧ (offloading.offloadLost.train 1).map Train.nabandon = some 1 := by
  decide

/-- Refutes O45: where PAIR_ATTACH names another twin than the partner of a mirror link that is UP, the link goes DOWN, and a training stream
that offloads over it abandons its backward work and counts it in NABANDON (R283), so that more changes than `PairOnly` names. -/
theorem not_pairCommandsFollowTheirTable : ¬ Obligations.PairCommandsFollowTheirTable := by
  intro h
  obtain ⟨hattach, -⟩ := h (offloading.setFh { offloading.fh with inprog := [attachNine] }) offloading 0 1 {} attachNine
  obtain ⟨-, hother, -⟩ := hattach offloading_serves (by decide)
  have hpeer : (offloading.port 4).peerid ≠ 9 := by decide
  obtain ⟨e, hreply, hframe, -⟩ := hother rfl rfl (by rw [attachNine_ident]; exact hpeer)
  have hanswer : cmdPairAttach attachNine offloading = ((cmdPairAttach attachNine offloading).1, {}) :=
    Prod.ext rfl (congrArg Prod.snd (cmdPairAttach_otherPartner (by decide) attachNine_ident rfl rfl hpeer))
  have hcommand := offloading_serves.replies (c := .pairAttach 0) (fun _ => rfl) hanswer
  have hlost : e.trains = offloading.offloadLost.trains :=
    (hreply.trains_unique hcommand).trans (cmdPairAttach_otherPartner_trains (by decide) attachNine_ident rfl rfl hpeer)
  have hkept : e.trains = offloading.trains := by rw [hframe]
  obtain ⟨hbefore, hafter⟩ := offloading_abandons
  rw [Dev.train, ← hlost, hkept, ← Dev.train, hbefore] at hafter
  exact absurd hafter (by decide)

end Sys2Proof.Spec
end

section
/-! PROOFS. Mailbox and event-queue indices (R349, R369, R371, R377), and the obligation they settle. -/

namespace Sys2Proof.Spec

open Sys2Proof Sys2Proof.Machine

/-- On a quiet device a host write that names a function outside a reset makes its change. -/
theorem Quiet.gives_onFunc {d : Dev} {f : Nat} {c : Instr} {g : Dev → Dev} (hq : Quiet d) (hf : f < 256) (hr : (d.func f).inReset = false)
    (hc : ∀ s, exec c s = onCore (Dev.onFunc f g) s) : Gives c d (g d) := by
  have h := hq.gives hc
  rwa [onFunc_eq g hf hr] at h

/-- Settles O36: each write is that of its register, and ENABLE rising starts both rings at slot 0. -/
theorem mailboxWritesSetTheirIndices : Obligations.MailboxWritesSetTheirIndices := by
  unfold Obligations.MailboxWritesSetTheirIndices
  intro d f v hq hf hr x
  have henable : Gives (.mbEnable f) d (d.putFunc f (x.enabled f)) :=
    hq.gives_onFunc (g := fun w => w.putFunc f ((w.func f).enabled f)) hf hr (fun _ => rfl)
  refine ⟨?reqtail, ?rsphead, ?evqHead, ?disable, fun hoff => ?starts, fun hon => ?stays⟩
  case reqtail => exact hq.gives_onFunc (g := fun w => w.bar0Write f 0x1018 v) hf hr (fun _ => rfl)
  case rsphead => exact hq.gives_onFunc (g := fun w => w.bar0Write f 0x101C v) hf hr (fun _ => rfl)
  case evqHead => exact hq.gives_onFunc (g := fun w => w.bar0Write f 0x1020 v) hf hr (fun _ => rfl)
  case disable => exact hq.gives_onFunc (g := fun w => w.putFunc f { w.func f with enable := false }) hf hr (fun _ => rfl)
  case starts => rwa [Func.enabled, if_neg (by simp [hoff])] at henable
  case stays => rwa [Func.enabled, if_pos hon] at henable

end Sys2Proof.Spec
end

section
/-! PROOFS. Replays in the reserve (R347), and the obligation they settle. -/

namespace Sys2Proof.Machine

open Sys2Proof Sys2Proof.Spec

theorem Dev.fenceRow_of_no_fence {d : Dev} (h : d.flt.fencing = []) (row : Nat) : d.fenceRow row = d := by simp [Dev.fenceRow, h]

/-- The device at the start of a replay of logical basin `l`, whose window ends at `fin` tenths of a nanosecond: its run is taken off the
list and counted. -/
def Dev.replayed (d : Dev) (l : Nat) (rest : List (Nat × Run)) (start fin : Nat) : Dev :=
  let w := (d.setFlt { d.flt with replays := rest }).atNs (d.slotStart + start / 10)
  w.setFlt { w.flt with replaycnt := w.flt.replaycnt + 1, replayAt := Tab.put w.flt.replayAt l fin }

/-- The first run in the list is the next of its basin: it starts in the reserve, or, where its window would not end by the slot's end, fails
its period. -/
theorem replayStart_next {d : Dev} {b l : Nat} {r : Run} {rest : List (Nat × Run)} (hfence : d.flt.fencing = []) (hb : b < 272)
    (hnext : d.flt.replays = (l, r) :: rest) (hl : (d.basin b).logical = l) (hfree : (d.basin b).seq.active = none)
    (hrestored : d.restoring b = false) {start : Nat} (hat : Tab.at d.flt.replayAt (limTenths d.slen) l + 2000 = start) (hsegs : r.segs = 0)
    (hapseg : r.apseg = 0) :
    replayStart b d = if effTenths d.slen < start + (r.tend - r.tstart) * 10
      then ((d.setFlt { d.flt with replays := rest }).failRun r 0x600).postEnds r
      else (d.replayed l rest start (start + (r.tend - r.tstart) * 10)).startRun b r (start / 10) ((start + (r.tend - r.tstart) * 10) / 10) := by
  have hfirst : d.flt.replays.filter (fun q => q.1 == l) = (l, r) :: rest.filter (fun q => q.1 == l) := by simp [hnext]
  have hgo : ¬ ((d.basin b).seq.active.isSome = true ∨ d.restoring b = true ∨ ¬ b < 272) := by simp [hfree, hrestored, hb]
  unfold replayStart
  simp only [Dev.fenceRow_of_no_fence hfence, ite_self, hl, hfirst, if_neg hgo]
  simp [hsegs, hapseg, hat, hnext, bitOf, Dev.replayed]
  rfl

/-- What a replay changes does not bear on whether its run does work. -/
theorem Dev.works_replayed (d : Dev) (l : Nat) (rest : List (Nat × Run)) (start fin : Nat) (r : Run) :
    (d.replayed l rest start fin).works r = d.works r := rfl

end Sys2Proof.Machine

namespace Sys2Proof.Spec

open Sys2Proof Sys2Proof.Machine

/-- Settles O26: the next replay starts in the reserve as any run that does work, or leaves its basin alone. -/
theorem replaysRunInTheReserve : Obligations.ReplaysRunInTheReserve := by
  unfold Obligations.ReplaysRunInTheReserve
  intro d b l r rest hon hfence hb hnext hl hfree hrestored hat hsegs hapseg start fin
  have hgives : Gives (.replayStart b) d (replayStart b d) := (quiet_of_no_fence hon hfence).gives (fun _ => rfl)
  rw [replayStart_next hfence hb hnext hl hfree hrestored (start := start) (by rw [hat]) hsegs hapseg] at hgives
  refine ⟨fun hfits hworks => ?replayed, fun hlate hpost => ?late⟩
  case replayed =>
    obtain ⟨ts, a, hstart, hbegins⟩ := Dev.startRun_of_works (d := d.replayed l rest start fin) hworks b (start / 10) (fin / 10)
    rw [if_neg (Nat.not_lt.mpr hfits), hstart] at hgives
    have hbasin : ((((d.replayed l rest start fin).putBasin b (((d.replayed l rest start fin).setUp b r).activated a)).setTrains ts).basin b)
        = ((d.replayed l rest start fin).setUp b r).activated a := Dev.basin_putBasin _ _ _
    refine ⟨_, a, hgives, ?_, hbegins.run, hbegins.start, hbegins.fin, rfl, rfl, rfl, ?_⟩
    · rw [hbasin]; rfl
    · rw [hbasin]
      exact congrArg Seq.pc ((d.replayed l rest start fin).setUp_registers b r).1
  case late =>
    rw [if_pos hlate, Dev.postEnds_of_no_post _ hpost] at hgives
    obtain ⟨ss, hfail⟩ := (d.setFlt { d.flt with replays := rest }).failRun_frame r 0x600
    rw [hfail] at hgives
    exact ⟨_, hgives, hfree, rfl, rfl⟩

end Sys2Proof.Spec
end

section
/-! PROOFS. Fences (R205, R343 to R350): what halting a run leaves, how a fence stops its basin and ends, and the obligation they settle. -/

namespace Sys2Proof.Machine

open Sys2Proof Sys2Proof.Spec

/-! ### Halting a run (R213, R344, R353) -/

theorem Rsv.foldl_charge_sameData (dom : Nat) (ws : List (Nat × Byte)) (r : Rsv) : r.SameData (ws.foldl (fun r w => r.charge dom w.1 1) r) := by
  refine .foldl (fun q w => ?_) ws r
  exact q.charge_sameData dom w.1 1

/-- What cancelled transfers have had acknowledged leaves every page with its owner. -/
theorem Dev.standAcked_pages (d : Dev) (dom : Nat) (ops : List Op) : (d.standAcked dom ops).rsv.pages = d.rsv.pages := by
  unfold Dev.standAcked
  induction ops generalizing d with
  | nil => rfl
  | cons o ops ih =>
    rw [List.foldl_cons, ih]
    split
    · exact (Rsv.foldl_charge_sameData dom _ _).pages
    · rfl

/-- Halting a run stops it as a fault does, but leaves the fault record, and fails its period only where a code is given. -/
theorem Dev.haltRun_eq {d : Dev} {b : Nat} {a : Active} (h : (d.basin b).seq.active = some a) (code : Option Nat) :
    d.haltRun b code =
      let m := (d.standAcked a.run.domain (d.basin b).seq.ops).mergeFlags b a
      let e := m.putBasin b ((m.basin b).afterStop (d.basin b).seq a (d.basin b).seq.fault.code (d.basin b).seq.pc)
      code.elim e (e.failRun a.run) := by
  unfold Dev.haltRun
  dsimp only
  rw [h]
  cases code <;> rfl

/-- It changes its basin, streams, training contexts, the reservoir and open values, and no page changes hands. -/
theorem Dev.haltRun_frame {d : Dev} {b : Nat} {a : Active} (h : (d.basin b).seq.active = some a) (code : Option Nat) : ∃ ts n r ss y,
    d.haltRun b code = ((((d.setTrains ts).setFree n).setRsv r).setStreams ss).putBasin b y ∧ r.pages = d.rsv.pages
      ∧ y.seq = (d.basin b).seq.stopped (d.basin b).seq.fault.code (d.basin b).seq.pc ∧ y.logical = (d.basin b).logical := by
  obtain ⟨n, r, hack⟩ := d.standAcked_frame a.run.domain (d.basin b).seq.ops
  have hpages : r.pages = d.rsv.pages := by simpa [hack] using d.standAcked_pages a.run.domain (d.basin b).seq.ops
  obtain ⟨ts, n', p, hframe⟩ := ((d.setFree n).setRsv r).mergeFlags_frame b a
  have hmerge : ∃ ss, ((d.setFree n).setRsv r).mergeFlags b a
      = ((((d.setTrains ts).setFree n').setRsv r).setStreams ss).putBasin b ((d.basin b).flagsMerged p) := by
    rw [hframe]
    split
    · exact ⟨d.streams, rfl⟩
    · exact ⟨Tab.put d.streams (runIndex a.run) ((d.stream (runIndex a.run)).merged (d.basin b) a), rfl⟩
  obtain ⟨ss, hmerge⟩ := hmerge
  rw [Dev.haltRun_eq h, hack, hmerge]
  dsimp only
  rw [Dev.basin_putBasin, Dev.putBasin_putBasin]
  cases code with
  | none => exact ⟨ts, n', r, ss, _, rfl, hpages, rfl, rfl⟩
  | some c =>
    obtain ⟨ss', hfail⟩ := Dev.failRun_frame (((((d.setTrains ts).setFree n').setRsv r).setStreams ss).putBasin b
      (((d.basin b).flagsMerged p).afterStop (d.basin b).seq a (d.basin b).seq.fault.code (d.basin b).seq.pc)) a.run c
    exact ⟨ts, n', r, ss', _, hfail, hpages, rfl, rfl⟩

/-! ### A fence stops its basin (R344, R348, R353) -/

theorem Dev.foldl_quarantine {α : Type} (f : α → Quar) (l : List α) (d : Dev) :
    ∃ q, l.foldl (fun d x => (d.quarantine (f x)).1) d = d.setFlt { d.flt with quar := q } := by
  induction l generalizing d with
  | nil => exact ⟨_, rfl⟩
  | cons x l ih =>
    rw [List.foldl_cons]
    obtain ⟨q, h⟩ := ih (d.quarantine (f x)).1
    rw [h, Dev.quarantine]
    split <;> exact ⟨q, rfl⟩

/-- From `d` to `e` a fence has stopped what basin `b` ran; held traffic and replays apart, fault handling and time are as they were. -/
structure Dev.HaltedAt (d e : Dev) (b : Nat) : Prop where
  idle : (e.basin b).seq.active = none
  cancelled : (d.basin b).seq.active.isSome = true → (e.basin b).seq.ops = []
  logical : (e.basin b).logical = (d.basin b).logical
  others : ∀ n, n ≠ b → e.basin n = d.basin n
  flt : e.flt = { d.flt with quar := e.flt.quar, replays := e.flt.replays }
  cad : e.cad = d.cad

theorem Dev.HaltedAt.foldl_quarantine {α : Type} {d e : Dev} {b : Nat} (h : d.HaltedAt e b) (f : α → Quar) (l : List α) :
    d.HaltedAt (l.foldl (fun d x => (d.quarantine (f x)).1) e) b := by
  obtain ⟨q, hq⟩ := Dev.foldl_quarantine f l e
  obtain ⟨hidle, hcancelled, hlogical, hothers, hflt, hcad⟩ := h
  rw [hq]
  exact ⟨hidle, hcancelled, hlogical, hothers, by rw [hflt]; rfl, hcad⟩

theorem Dev.fenceStop_haltedAt (d : Dev) (b : Nat) : d.HaltedAt (d.fenceStop b) b := by
  unfold Dev.fenceStop
  dsimp only
  split
  case h_1 hidle => exact ⟨hidle, fun h => by simp [hidle] at h, rfl, fun _ _ => rfl, rfl, rfl⟩
  case h_2 a hactive =>
    have halted (code : Option Nat) : d.HaltedAt (d.haltRun b code) b := by
      obtain ⟨ts, n, r, ss, y, hhalt, -, hseq, hlogical⟩ := d.haltRun_frame hactive code
      obtain ⟨hsame, hother⟩ := Dev.basin_of_put (d := d) (e := d.haltRun b code) (b := b) (y := y) (by rw [hhalt]; rfl)
      rw [hhalt] at hsame hother ⊢
      exact ⟨by rw [hsame, hseq]; rfl, fun _ => by rw [hsame, hseq]; rfl, by rw [hsame, hlogical], hother, rfl, rfl⟩
    refine .foldl_quarantine ?_ _ _
    split
    · obtain ⟨hidle, hcancelled, hlogical, hothers, hflt, hcad⟩ := halted none
      exact ⟨hidle, hcancelled, hlogical, hothers, rfl, hcad⟩
    · exact halted (some 0x600)

theorem inService_of_view {d : Dev} {b : Nat} (hb : b < 272) (hfence : d.flt.fencing = []) (hview : (d.mgmtView b).state ≠ 2) :
    d.inService b = true := by
  simp [Dev.inService, Dev.fencing, hb, hfence, hview]

/-- A fence halts the run of a basin in service and then runs its course from now. -/
theorem Dev.fence_eq {d : Dev} {b : Nat} (hserves : d.inService b = true) (hfence : d.flt.fencing = []) (cls : Nat) :
    d.fence b cls = (d.fenceStop b).setFlt { (d.fenceStop b).flt with
      fencing := [{ basin := b, cls := cls, tf := d.ns, slot := d.slotStart }] } := by
  have hhalted := d.fenceStop_haltedAt b
  have hnone : (d.fenceStop b).flt.fencing = [] := (congrArg Fault3.fencing hhalted.flt).trans hfence
  have hns : (d.fenceStop b).ns = d.ns := by rw [Dev.ns, hhalted.cad, Dev.ns]
  have hslot : (d.fenceStop b).slotStart = d.slotStart := by simp only [Dev.slotStart, hhalted.cad]
  rw [Dev.fence, if_neg (by simp [hserves])]
  dsimp only
  rw [hnone, hns, hslot, List.nil_append]

/-! ### The basin goes out of service (R216, R344, R350) -/

/-- Fault handling with unit `b` FENCED under epoch `e`. -/
def Fault3.fenced (t : Fault3) (b : Nat) (e : W32) : Fault3 :=
  { t with mgmt := Tab.put t.mgmt b { epoch := e, state := 2 }, check := Tab.put t.check b e,
           changed := if b ∈ t.changed then t.changed else b :: t.changed,
           reissue := t.reissue.filter (· ≠ b), reissueDue := t.reissueDue.filter (· ≠ b) }

/-- A basin FENCED under epoch `e`, whose router sinks its traffic. -/
def Basin.fenced (x : Basin) (e : W32) : Basin := { x with epoch := e, ustate := 2, cis := { x.cis with weirFenced := true } }

/-- The device with basin `b` FENCED under the epoch after its last. -/
def Dev.fenced (d : Dev) (b : Nat) : Dev :=
  (d.setFlt (d.flt.fenced b ((d.mgmtView b).epoch + 1))).putBasin b ((d.basin b).fenced ((d.mgmtView b).epoch + 1))

theorem Dev.fenceSink_fenceState {d : Dev} {b : Nat} (hb : b < 272) : (d.fenceState b).fenceSink b = d.fenced b := by
  unfold Dev.fenceSink Dev.fenceState Dev.writeState
  dsimp only
  rw [if_pos hb]
  simp only [Dev.basin, Dev.putBasin, Dev.setFlt_basins, Dev.setBasins_basins, Tab.at_put_same]
  exact Dev.putBasin_putBasin (d.setFlt (d.flt.fenced b ((d.mgmtView b).epoch + 1))) b _ _

theorem Dev.fenced_basin (d : Dev) (b : Nat) : (d.fenced b).basin b = (d.basin b).fenced ((d.mgmtView b).epoch + 1) := Dev.basin_putBasin _ _ _

theorem Dev.fenced_logical (d : Dev) (b : Nat) : ((d.fenced b).basin b).logical = (d.basin b).logical := by rw [d.fenced_basin]; rfl
theorem Dev.fenced_seq (d : Dev) (b : Nat) : ((d.fenced b).basin b).seq = (d.basin b).seq := by rw [d.fenced_basin]; rfl

/-! ### The spare takes the number (R344 to R346) -/

theorem bitOf_add_pow {n k : Nat} (h : bitOf n k = false) : bitOf (n + 2 ^ k) k = true := by
  have hdiv : (n + 2 ^ k) / 2 ^ k = n / 2 ^ k + 1 := Nat.add_div_right n (Nat.two_pow_pos k)
  simp only [bitOf, beq_eq_false_iff_ne, beq_iff_eq] at h ⊢
  omega

/-- The column of a fence is marked in its row. -/
theorem SpareRow.fence_column (r : SpareRow) (col t fin : Nat) : bitOf (r.fence col t fin).fenced col = true := by
  have hmarked : bitOf (if bitOf r.fenced col then r.fenced else r.fenced + 2 ^ col) col = true := by
    split
    case isTrue h => exact h
    case isFalse h => exact bitOf_add_pow (by simpa using h)
  unfold SpareRow.fence
  dsimp only
  split
  · exact hmarked
  · split <;> exact hmarked

theorem SpareRow.fence_spare (r : SpareRow) (t fin : Nat) : (r.fence 16 t fin).spstate = 3 := rfl

theorem SpareRow.fence_first {r : SpareRow} (h : r.spstate = 0) {col : Nat} (hcol : col ≠ 16) (t fin : Nat) :
    (r.fence col t fin).spstate = 1 ∧ (r.fence col t fin).fcol = col := by
  simp [SpareRow.fence, h, hcol]

/-- The spare that takes a number changes in that basin alone. -/
theorem Dev.takeOver_frame (d : Dev) (row l : Nat) : ∃ y : Basin, d.takeOver row l = d.putBasin (row * 17 + 16) y ∧ y.logical = l := by
  unfold Dev.takeOver Dev.loadStores
  dsimp only
  rw [Dev.putBasin_putBasin, Dev.basin_putBasin]
  exact ⟨_, rfl, rfl⟩

theorem Basin.fillSeg_segsOnly (x : Basin) (k dom : Nat) (bs : List Byte) : x.SegsOnly (x.fillSeg k dom bs) := ⟨_, _, _, _, _, _, rfl⟩

/-- Restoring resident models fills segments of the basin, which the reservoir counts. -/
theorem Dev.restoreModels_frame (d : Dev) (b l : Nat) : ∃ (y : Basin) (n : Nat),
    d.restoreModels b l = (d.putBasin b y).setRsv (d.rsv.moved n) ∧ (d.basin b).SegsOnly y := by
  have filled (m : Model) (ss : List ModelSeg) (x : Basin) :
      x.SegsOnly (ss.foldl (fun (x : Basin) s => x.fillSeg s.seg m.domain (Mem.readBytes d.rsv.mem s.addr 65536)) x) := by
    induction ss generalizing x with
    | nil => exact .refl x
    | cons s ss ih =>
      rw [List.foldl_cons]
      exact (x.fillSeg_segsOnly _ _ _).trans (ih _)
  refine ⟨_, _, rfl, ?_⟩
  generalize d.basin b = x
  induction d.models generalizing x with
  | nil => exact .refl x
  | cons m ms ih => exact .trans (filled m.2 _ x) (ih _)

theorem Basin.SegsOnly.logical {x y : Basin} (h : x.SegsOnly y) : y.logical = x.logical := by obtain ⟨_, _, _, _, _, _, rfl⟩ := h; rfl

/-- The basin as a fence that is complete leaves it: without number and runs. -/
def Basin.unnumbered (x : Basin) : Basin := { x with logical := 0x1FF, delivered := [], coming := [] }

/-- From `d` to `e` the fence of basin `b` is complete, whose row's spare is in state `st` where it takes the number. -/
structure Dev.FenceDone (d e : Dev) (b st : Nat) : Prop where
  flt : e.flt = { d.flt with rows := e.flt.rows, fencecnt := d.flt.fencecnt + 1, planned := d.flt.planned.filter (· ≠ b) }
  column : bitOf (Tab.at e.flt.rows {} (b / 17)).fenced (b % 17) = true
  basin : e.basin b = (d.basin b).unnumbered
  others : ∀ n, n ≠ b → n ≠ b / 17 * 17 + 16 → e.basin n = d.basin n
  ct : e.cad.ct = d.cad.ct
  spare : b % 17 ≠ 16 → d.spareFree (b / 17) = true → (Tab.at e.flt.rows {} (b / 17)).spstate = st
    ∧ (Tab.at e.flt.rows {} (b / 17)).fcol = b % 17 ∧ (e.basin (b / 17 * 17 + 16)).logical = (d.basin b).logical
  failed : b % 17 = 16 → (Tab.at e.flt.rows {} (b / 17)).spstate = 3

theorem Dev.FenceDone.of_eventChange {d v e : Dev} {b st : Nat} (h : d.FenceDone v b st) (he : EventChange v e) : d.FenceDone e b st := by
  have hbasin (n : Nat) : e.basin n = v.basin n := by rw [Dev.basin, he.basins]; rfl
  obtain ⟨hflt, hcolumn, hb, hothers, hct, hspare, hfailed⟩ := h
  refine ⟨?_, ?_, ?_, fun n h1 h2 => ?_, ?_, fun h1 h2 => ?_, fun h => ?_⟩
  · rw [he.flt]; exact hflt
  · rw [he.flt]; exact hcolumn
  · rw [hbasin]; exact hb
  · rw [hbasin]; exact hothers n h1 h2
  · rw [he.cad]; exact hct
  · rw [he.flt, hbasin]; exact hspare h1 h2
  · rw [he.flt]; exact hfailed h

/-- Fault handling with the fence of basin `b` counted, its row `r`. -/
def Fault3.fenceCounted (t : Fault3) (b : Nat) (r : SpareRow) : Fault3 :=
  { t with rows := Tab.put t.rows (b / 17) r, fencecnt := t.fencecnt + 1, planned := t.planned.filter (· ≠ b) }

theorem Dev.FenceDone.of_parts {d e : Dev} {b st : Nat} {r : SpareRow} (hflt : e.flt = d.flt.fenceCounted b r)
    (hbasin : e.basin b = (d.basin b).unnumbered) (hothers : ∀ n, n ≠ b → n ≠ b / 17 * 17 + 16 → e.basin n = d.basin n)
    (hct : e.cad.ct = d.cad.ct) (hcolumn : bitOf r.fenced (b % 17) = true)
    (hspare : b % 17 ≠ 16 → d.spareFree (b / 17) = true → r.spstate = st ∧ r.fcol = b % 17
      ∧ (e.basin (b / 17 * 17 + 16)).logical = (d.basin b).logical)
    (hfailed : b % 17 = 16 → r.spstate = 3) : d.FenceDone e b st := by
  have hrow : Tab.at e.flt.rows {} (b / 17) = r := by rw [hflt]; exact Tab.at_put_same _ _ _ _
  exact ⟨by rw [hflt]; rfl, by rw [hrow]; exact hcolumn, hbasin, hothers, hct, by rw [hrow]; exact hspare, by rw [hrow]; exact hfailed⟩

/-- The row of basin `b` once its fence is complete at `ct`. -/
def Dev.fencedRow (d : Dev) (b ct slot : Nat) : SpareRow :=
  { (Tab.at d.flt.rows {} (b / 17)).fence (b % 17) ct
      (ct + (if d.pow.bclk = 0 then 0 else d.restoreBytes (d.basin b).logical * 1000 / (256 * d.pow.bclk))) with fencedSlot := slot }

/-- The device with the fence of basin `b` counted and its row replaced, before the spare takes the number. -/
def Dev.fenceCounted (d : Dev) (b : Nat) (r : SpareRow) : Dev :=
  (d.putBasin b (d.basin b).unnumbered).setFlt (d.flt.fenceCounted b r)

/-- The spare of a row takes the number of `x` and the runs delivered to it. -/
def Dev.numberMoved (d : Dev) (row : Nat) (x : Basin) : Dev :=
  let d := d.takeOver row x.logical
  let y := d.basin (row * 17 + 16)
  d.putBasin (row * 17 + 16) { y with delivered := y.delivered ++ x.delivered, coming := y.coming ++ x.coming }

/-- The spare that restored during the frame is in service. -/
def Dev.restoredAhead (d : Dev) (row l : Nat) (r : SpareRow) : Dev :=
  (d.restoreModels (row * 17 + 16) l).setFlt { d.flt with rows := Tab.put d.flt.rows row { r with spstate := 2, restoreEnd := none } }

theorem Dev.numberMoved_frame (d : Dev) (row : Nat) (x : Basin) :
    ∃ y : Basin, d.numberMoved row x = d.putBasin (row * 17 + 16) y ∧ y.logical = x.logical := by
  obtain ⟨y, htake, hlogical⟩ := d.takeOver_frame row x.logical
  unfold Dev.numberMoved
  rw [htake]
  dsimp only
  rw [Dev.putBasin_putBasin, Dev.basin_putBasin]
  exact ⟨_, rfl, hlogical⟩

theorem Dev.fenceDone_eq (d : Dev) (b cls ct slot : Nat) (planned : Bool) :
    d.fenceDone b cls ct slot planned =
      let x := d.basin b
      let free := d.spareFree (b / 17) && decide (b % 17 ≠ 16)
      let v := d.fenceCounted b (d.fencedRow b ct slot)
      let w := if free then v.numberMoved (b / 17) x
        else v.setCad { v.cad with absent := v.cad.absent ++ x.delivered, absentNext := v.cad.absentNext ++ x.coming }
      (if free && planned then w.restoredAhead (b / 17) x.logical (d.fencedRow b ct slot) else w).raiseAt ct
        { type := 6, domain := 0x3FF, source := b, d0 := x.logical, d1 := bit01 planned, d2 := cls } := rfl

theorem Dev.fenceCounted_basin (d : Dev) (b : Nat) (r : SpareRow) :
    (d.fenceCounted b r).basin b = (d.basin b).unnumbered ∧ ∀ n, n ≠ b → (d.fenceCounted b r).basin n = d.basin n :=
  Dev.basin_of_put rfl

/-- What a fence leaves once it is complete: in a planned one the spare has restored already. -/
theorem Dev.fenceDone_spec (d : Dev) (b cls ct slot : Nat) (planned : Bool) :
    d.FenceDone (d.fenceDone b cls ct slot planned) b (if planned then 2 else 1) := by
  have hcolumn : bitOf (d.fencedRow b ct slot).fenced (b % 17) = true := SpareRow.fence_column _ _ _ _
  obtain ⟨hbasin, hothers⟩ := d.fenceCounted_basin b (d.fencedRow b ct slot)
  rw [Dev.fenceDone_eq]
  dsimp only
  refine .of_eventChange ?_ (Dev.raiseAt_eventChange _ _ _)
  generalize hfree : (d.spareFree (b / 17) && decide (b % 17 ≠ 16)) = free
  cases free with
  | false =>
    refine .of_parts (r := d.fencedRow b ct slot) rfl hbasin (fun n hn _ => hothers n hn) rfl hcolumn (fun hcol hspare => ?_) (fun hcol => ?_)
    · simp [hcol, hspare] at hfree
    · rw [Dev.fencedRow, hcol]; rfl
  | true =>
    obtain ⟨hspare, hcol⟩ : d.spareFree (b / 17) = true ∧ b % 17 ≠ 16 := by simpa using hfree
    have hsp : b ≠ b / 17 * 17 + 16 := by omega
    obtain ⟨y, hmoved, hlogical⟩ := (d.fenceCounted b (d.fencedRow b ct slot)).numberMoved_frame (b / 17) (d.basin b)
    have hzero : (Tab.at d.flt.rows {} (b / 17)).spstate = 0 := by
      simp only [Dev.spareFree, Bool.and_eq_true, beq_iff_eq] at hspare
      exact hspare.1
    obtain ⟨hstate, hfcol⟩ := SpareRow.fence_first hzero hcol ct
      (ct + (if d.pow.bclk = 0 then 0 else d.restoreBytes (d.basin b).logical * 1000 / (256 * d.pow.bclk)))
    rw [if_pos rfl, hmoved]
    cases planned with
    | false =>
      refine .of_parts (r := d.fencedRow b ct slot) rfl ?_ (fun n hn hspn => ?_) rfl hcolumn (fun _ _ => ⟨hstate, hfcol, ?_⟩)
        (fun h => absurd h hcol)
      · exact (Dev.basin_putBasin_other _ _ _ _ hsp).trans hbasin
      · exact (Dev.basin_putBasin_other _ _ _ _ hspn).trans (hothers n hn)
      · exact (congrArg Basin.logical (Dev.basin_putBasin _ _ _)).trans hlogical
    | true =>
      obtain ⟨y', m, hrestore, hsegs⟩ := ((d.fenceCounted b (d.fencedRow b ct slot)).putBasin (b / 17 * 17 + 16) y).restoreModels_frame
        (b / 17 * 17 + 16) (d.basin b).logical
      rw [Dev.basin_putBasin] at hsegs
      rw [if_pos rfl, Dev.restoredAhead, hrestore, Dev.putBasin_putBasin]
      refine .of_parts (r := { d.fencedRow b ct slot with spstate := 2, restoreEnd := none }) ?_ ?_ (fun n hn hspn => ?_) rfl hcolumn
        (fun _ _ => ⟨rfl, hfcol, ?_⟩) (fun h => absurd h hcol)
      · exact congrArg (fun t => { d.flt.fenceCounted b (d.fencedRow b ct slot) with rows := t }) (Tab.put_put _ _ _ _)
      · exact (Dev.basin_putBasin_other _ _ _ _ hsp).trans hbasin
      · exact (Dev.basin_putBasin_other _ _ _ _ hspn).trans (hothers n hn)
      · exact ((congrArg Basin.logical (Dev.basin_putBasin _ _ _)).trans hsegs.logical).trans hlogical

/-! ### The course of a fence (R343, R344) -/

theorem Dev.setFlt_of_no_fence {d : Dev} (h : d.flt.fencing = []) : d.setFlt { d.flt with fencing := [] } = d := by rw [← h]; rfl

/-- The one fence under way that is due is complete, its basin FENCED. -/
theorem Dev.due_of_one_fence {d : Dev} (hfence : d.flt.fencing = []) {f : Fencing} (hb : f.basin < 272) (hstage : f.stage = 0)
    (hdue : f.tf + 3000 ≤ d.ns) :
    (d.setFlt { d.flt with fencing := [f] }).due = (d.fenced f.basin).fenceDone f.basin f.cls (f.tf + 3000) f.slot false := by
  have hnone : (d.setFlt { d.flt with fencing := [f] }).setFlt { d.flt with fencing := [] } = d := Dev.setFlt_of_no_fence hfence
  have helapsed : 3000 ≤ d.ns - f.tf := by omega
  have hstate : f.stage = 0 ∧ 500 ≤ d.ns - f.tf := by omega
  have hsink : f.stage ≤ 1 ∧ 1500 ≤ d.ns - f.tf := by omega
  calc (d.setFlt { d.flt with fencing := [f] }).due
    _ = ((d.setFlt { d.flt with fencing := [f] }).setFlt { d.flt with fencing := [] }).fenceProgress f := rfl
    _ = d.fenceProgress f := by rw [hnone]
    _ = ((d.fenceState f.basin).fenceSink f.basin).fenceDone f.basin f.cls (f.tf + 3000) f.slot false := by
      simp only [Dev.fenceProgress, if_pos hstate, if_pos hsink, if_pos helapsed]
    _ = (d.fenced f.basin).fenceDone f.basin f.cls (f.tf + 3000) f.slot false := by rw [Dev.fenceSink_fenceState hb]

end Sys2Proof.Machine

namespace Sys2Proof.Spec

open Sys2Proof Sys2Proof.Machine

/-- From `d` to `e` basin `b` has gone out of service under the epoch after its last, and beside it at most its row's spare has changed. -/
def OutOfService (d e : Dev) (b : Nat) : Prop :=
  e.mgmtView b = { epoch := (d.mgmtView b).epoch + 1, state := 2 } ∧ (e.basin b).ustate = 2 ∧ (e.basin b).epoch = (d.mgmtView b).epoch + 1
    ∧ e.epochOk b ((d.mgmtView b).epoch + 1) = true ∧ (e.basin b).logical = 0x1FF ∧ (e.basin b).cis.weirFenced = true
    ∧ e.flt.fencecnt = d.flt.fencecnt + 1 ∧ bitOf (Tab.at e.flt.rows {} (b / 17)).fenced (b % 17) = true
    ∧ ∀ n, n ≠ b → n ≠ b / 17 * 17 + 16 → e.basin n = d.basin n

/-- A fence that is complete on a basin made FENCED takes it out of service. -/
theorem outOfService_of_fenceDone {d e : Dev} {b st : Nat} (h : (d.fenced b).FenceDone e b st) : OutOfService d e b := by
  have hbasin : e.basin b = ((d.basin b).fenced ((d.mgmtView b).epoch + 1)).unnumbered := by
    rw [h.basin, d.fenced_basin]
  have hview : e.mgmtView b = { epoch := (d.mgmtView b).epoch + 1, state := 2 } := by
    rw [Dev.mgmtView, h.flt]
    exact Tab.at_put_same _ _ _ _
  have hcheck : e.epochOk b ((d.mgmtView b).epoch + 1) = true := by
    rw [Dev.epochOk, h.flt, beq_iff_eq]
    exact Tab.at_put_same _ _ _ _
  refine ⟨hview, by rw [hbasin]; rfl, by rw [hbasin]; rfl, hcheck, by rw [hbasin]; rfl, by rw [hbasin]; rfl, by rw [h.flt]; rfl, h.column,
    fun n hn hsp => (h.others n hn hsp).trans (Dev.basin_putBasin_other _ _ _ _ hn)⟩

/-- A basin that a fence has only halted goes out of service as it would have without. -/
theorem OutOfService.of_haltedAt {d v e : Dev} {b : Nat} (h : OutOfService v e b) (hv : d.HaltedAt v b) : OutOfService d e b := by
  have hview : v.mgmtView b = d.mgmtView b := by rw [Dev.mgmtView, hv.flt]; rfl
  have hcount : v.flt.fencecnt = d.flt.fencecnt := by rw [hv.flt]
  obtain ⟨h1, h2, h3, h4, h5, h6, h7, h8, hothers⟩ := h
  rw [hview] at h1 h3 h4
  exact ⟨h1, h2, h3, h4, h5, h6, h7.trans (by rw [hcount]), h8, fun n hn hsp => (hothers n hn hsp).trans (hv.others n hn)⟩

theorem plannedFence_eq {d : Dev} {b : Nat} (hb : b < 272) (hplanned : b ∈ d.flt.planned) (hserves : d.inService b = true) :
    plannedFence b d = (((d.atNs d.nextFrame).fenceStop b).fenced b).fenceDone b 3 (d.atNs d.nextFrame).ns (d.atNs d.nextFrame).slotStart true := by
  unfold plannedFence Dev.fencePlanned
  rw [if_pos ⟨hplanned, hserves⟩]
  dsimp only
  rw [Dev.fenceSink_fenceState hb]

/-- Settles O21: a fence detected halts its basin, one that is due or planned ends as `FenceDone` says, and a restore only fills the spare. -/
theorem fencesMoveWorkToTheSpare : Obligations.FencesMoveWorkToTheSpare := by
  unfold Obligations.FencesMoveWorkToTheSpare
  intro d b cause hon hfence hb row sp fenced moved
  have hquiet := quiet_of_no_fence hon hfence
  refine ⟨fun hview => ?detected, fun tf slot hdue => ?due, fun hview hplanned => ?planned, fun t hstate hend => ?restored⟩
  case detected =>
    have hhalted := d.fenceStop_haltedAt b
    have hgives : Gives (.basinFaultDetected b cause) d (basinFaultDetected b d) := hquiet.gives (fun _ => rfl)
    rw [basinFaultDetected, Dev.fence_eq (inService_of_view hb hfence hview) hfence] at hgives
    exact ⟨_, hgives, hhalted.idle, hhalted.others, hhalted.cancelled, rfl⟩
  case due =>
    have hdone := (d.fenced b).fenceDone_spec b 1 (tf + 3000) slot false
    rw [← Dev.due_of_one_fence (f := { basin := b, cls := 1, tf := tf, slot := slot }) hfence hb rfl hdue] at hdone
    intro w
    refine ⟨outOfService_of_fenceDone hdone, ?_, fun u hu => ?_, fun hcol hspare => ?_, hdone.failed⟩
    · exact (congrArg Fault3.fencing hdone.flt).trans hfence
    · intro q
      rw [show exec (.epochReissue u) { pending := q, dev := w } = onCore (epochReissue u) { pending := q, dev := w } from rfl, onCore_next _ _ hon,
        epochReissue, if_pos hu]
    · obtain ⟨h1, h2, h3⟩ := hdone.spare hcol hspare
      exact ⟨h1, h2, h3.trans (d.fenced_logical b)⟩
  case planned => 
    have hhalted := (d.atNs d.nextFrame).fenceStop_haltedAt b
    have hdone := (((d.atNs d.nextFrame).fenceStop b).fenced b).fenceDone_spec b 3 (d.atNs d.nextFrame).ns (d.atNs d.nextFrame).slotStart true
    rw [← plannedFence_eq hb hplanned (inService_of_view hb hfence hview)] at hdone
    refine ⟨_, hquiet.gives (g := plannedFence b) (fun _ => rfl), (outOfService_of_fenceDone hdone).of_haltedAt (d := d.atNs d.nextFrame) hhalted,
      ?_, ?_, ?_, fun hcol hspare => ?_⟩
    · rw [hdone.basin]
      exact (congrArg Seq.active (Dev.fenced_seq _ b)).trans hhalted.idle
    · rw [hdone.ct]
      exact (Nat.le_max_left _ _).trans (le_of_eq (congrArg Cad.ct hhalted.cad).symm)
    · rw [hdone.flt]
      simp
    · have hfree : (((d.atNs d.nextFrame).fenceStop b).fenced b).spareFree row = true := by
        rw [Dev.spareFree, Dev.fenced, Dev.putBasin, Dev.setBasins_flt, Dev.setFlt_flt, hhalted.flt]
        exact hspare
      obtain ⟨h1, h2, h3⟩ := hdone.spare hcol hfree
      exact ⟨h1, h2, (h3.trans (Dev.fenced_logical _ b)).trans hhalted.logical⟩
  case restored =>
    have hrestore : spareRestoreDone row d = ((d.atNs t).restoreModels sp (row * 16 + (Tab.at d.flt.rows {} row).fcol)).setFlt { d.flt with
        rows := Tab.put d.flt.rows row { Tab.at d.flt.rows {} row with spstate := 2, restoreEnd := none } } := by
      unfold spareRestoreDone
      simp only [Dev.fenceRow_of_no_fence hfence, hend, hstate, if_true]
      rfl
    obtain ⟨y, n, hfilled, -⟩ := (d.atNs t).restoreModels_frame sp (row * 16 + (Tab.at d.flt.rows {} row).fcol)
    have hgives : Gives (.spareRestoreDone row) d (spareRestoreDone row d) := hquiet.gives (fun _ => rfl)
    rw [hrestore, hfilled] at hgives
    refine ⟨_, hgives, ?_, ?_, Nat.le_max_right _ _, rfl, rfl, fun n hn => Dev.basin_putBasin_other _ _ _ _ hn⟩
    · exact congrArg SpareRow.spstate (Tab.at_put_same _ _ _ _)
    · exact congrArg SpareRow.restoreEnd (Tab.at_put_same _ _ _ _)

end Sys2Proof.Spec
end

section
/-! PROOFS. Epochs and the quarantine (R350 to R353): reissues, what is held and then served, what fails back, and the obligation they
settle. -/

namespace Sys2Proof.Machine

open Sys2Proof Sys2Proof.Spec

/-! ### Reissues (R350 to R352) -/

/-- The view of a unit in state `st` under the epoch after its last. -/
def Dev.nextView (d : Dev) (u st : Nat) : View := { epoch := (d.mgmtView u).epoch + 1, state := st }

/-- From `d` to `e` unit `u` has the view `v` on both sides and in the check tables; beside a basin's own view only fault handling has
changed. -/
structure Dev.Reissued (d e : Dev) (u : Nat) (v : View) : Prop where
  mgmt : e.mgmtView u = v
  own : e.ownView u = v
  check : e.epochOk u v.epoch = true
  frame : e = { d with basins := e.basins, flt := e.flt }
  others : ∀ n, n ≠ u → e.basin n = d.basin n
  due : e.flt.reissueDue = d.flt.reissueDue

/-- A state that Fountainhead writes reaches the check tables and both views (R350, R351). -/
theorem Dev.writeState_reissued (d : Dev) (u st : Nat) : d.Reissued (d.writeState u st) u (d.nextView u st) := by
  unfold Dev.writeState
  dsimp only
  split
  case isTrue hu =>
    refine ⟨Tab.at_put_same _ _ _ _, ?_, ?_, rfl, fun n hn => Dev.basin_putBasin_other _ _ _ _ hn, rfl⟩
    · rw [Dev.ownView, if_pos hu, Dev.basin_putBasin]; rfl
    · exact beq_iff_eq.mpr (Tab.at_put_same _ _ _ _)
  case isFalse hu =>
    refine ⟨Tab.at_put_same _ _ _ _, ?_, ?_, rfl, fun n hn => rfl, rfl⟩
    · rw [Dev.ownView, if_neg hu]; exact Tab.at_put_same _ _ _ _
    · exact beq_iff_eq.mpr (Tab.at_put_same _ _ _ _)

/-- The device with the reissue of unit `u` taken off those that are due. -/
def Dev.reissueTaken (d : Dev) (u : Nat) : Dev := d.setFlt { d.flt with reissueDue := d.flt.reissueDue.filter (· ≠ u) }

/-- A reissue that is due writes the more restrictive state, or waits for the next slot where its unit has changed in this one. -/
theorem epochReissue_due {d : Dev} {u : Nat} (hdue : u ∈ d.flt.reissueDue) :
    epochReissue u d = if u ∈ d.flt.changed
      then if max (d.mgmtView u).state (d.ownView u).state = 2 then d.reissueTaken u
        else (d.reissueTaken u).setFlt { (d.reissueTaken u).flt with reissue := d.flt.reissue ++ [u] }
      else (d.reissueTaken u).writeState u (max (d.mgmtView u).state (d.ownView u).state) := by
  unfold epochReissue
  rw [if_neg (by simp [hdue])]
  rfl

/-! ### The edge of the module under an event (R366, R377) -/

theorem Dev.vector_out_prefix (d : Dev) (f v : Nat) : d.out <+: (d.vector f v).out := by
  unfold Dev.vector
  dsimp only
  split
  · exact List.prefix_append _ _
  · split <;> exact List.prefix_rfl

theorem Dev.deliver_out_prefix (d : Dev) (f : Nat) (x : Event) : d.out <+: (d.deliver f x).out := by
  unfold Dev.deliver
  dsimp only
  split
  · exact List.prefix_rfl
  · split
    · exact List.prefix_rfl
    · refine List.IsPrefix.trans ?_ (Dev.vector_out_prefix _ _ _)
      exact List.prefix_rfl

/-- What stands at the edge stays there under an event. -/
theorem Dev.raiseAt_out_prefix (d : Dev) (ct : Nat) (x : Event) : d.out <+: (d.raiseAt ct x).out := by
  have toOperator (y : Event) (c : Bool) : d.out <+: (if c then (d.deliver 0 y).supervise y else d).out := by
    split
    · exact d.deliver_out_prefix 0 y
    · exact List.prefix_rfl
  have toDomain (e : Dev) (f : Nat) (y : Event) :
      e.out <+: (if f < 256 then e.deliver f y else e.setFh { e.fh with evlost := e.fh.evlost + 1 }).out := by
    split
    · exact e.deliver_out_prefix f y
    · exact List.prefix_rfl
  unfold Dev.raiseAt
  dsimp only
  split
  · split
    · exact (toOperator _ _).trans (toDomain _ _ _)
    · exact (toOperator _ _).trans (toDomain _ _ _)
  · exact toOperator _ _

/-! ### What is held (R353) -/

/-- The one request held for unit `u` is served once its epoch matches. -/
theorem quarantineRelease_one {d : Dev} {u : Nat} {q : Quar} (hquar : d.flt.quar = [q]) (hsrc : q.src = u)
    (hepoch : d.epochOk u (BitVec.ofNat 32 q.epoch) = true) :
    quarantineRelease u d = (d.setFlt { d.flt with quar := [] }).serveHeld q := by
  simp [quarantineRelease, hquar, hsrc, hepoch]

/-- A held request for the reservoir that is no atomic. -/
theorem Dev.serveHeld_rsv (d : Dev) {q : Quar} (hatomic : q.atomic = none) (hwork : q.write = true ∨ q.len ≠ 0) (hrecv : 0x1F8 ≤ q.recv) :
    d.serveHeld q = if q.write then (d.rsvWrite q.domain q.addr q.bytes).1.replyRsv q.addr (d.rsvWrite q.domain q.addr q.bytes).2
      else (d.rsvRead q.domain q.addr q.len).1.replyRsv q.addr (d.rsvRead q.domain q.addr q.len).2 := by
  have hsome : ¬ (q.len = 0 ∧ (!q.write) = true) := by rcases hwork with h | h <;> simp [h]
  simp only [Dev.serveHeld, hatomic, if_neg hsome, if_neg (show ¬ q.recv < 272 by omega), if_neg (show ¬ q.recv < 0x1F8 by omega)]
  split <;> rfl

theorem Dev.serveHeld_atomic (d : Dev) {q : Quar} {k : Atomic} (h : q.atomic = some k) :
    d.serveHeld q = d.atomic q.domain q.handle q.addr k := by simp only [Dev.serveHeld, h]

/-! ### What fails back (R353) -/

/-- The one request held for unit `u` fails back where its epoch still does not match, at the end of its slot where that has not passed. -/
theorem quarantineFailback_one {d : Dev} {u : Nat} {q : Quar} (hquar : d.flt.quar = [q]) (hsrc : q.src = u)
    (hepoch : d.epochOk u (BitVec.ofNat 32 q.epoch) = false) :
    quarantineFailback u d =
      let v := if q.slot = d.slotStart then d.atNs (d.slotStart + d.slen) else d
      (v.setFlt { v.flt with quar := [] }).failBack q := by
  have hflt : (d.atNs (d.slotStart + d.slen)).flt = d.flt := rfl
  by_cases hslot : q.slot = d.slotStart
  · simp [quarantineFailback, hquar, hsrc, hepoch, hslot, hflt]
  · simp [quarantineFailback, hquar, hsrc, hepoch, hslot]

/-- What fails back a request: an error for a read, and the run that sent it halted with code 0x00 at the instruction that issued it. -/
theorem Dev.failBack_eq {d : Dev} {q : Quar} {a : Active} (hview : (d.mgmtView q.src).state ≠ 2) (hsrc : q.src < 272)
    (hactive : (d.basin q.src).seq.active = some a) (hepoch : a.epoch = BitVec.ofNat 32 q.epoch) :
    d.failBack q =
      let v := (if q.write then d else d.emit (.reply q.recv [] false false true)).haltRun q.src (some 0x300)
      let x := v.basin q.src
      (v.putBasin q.src { x with seq := { x.seq with fault := { code := 0, pc := q.pc } } }).raiseS 1 q.src (runIndex a.run) a.run.lbasin 0 q.pc := by
  have hactive' : ((if q.write then d else d.emit (.reply q.recv [] false false true)).basin q.src).seq.active = some a := by
    split <;> exact hactive
  unfold Dev.failBack
  rw [if_neg hview]
  simp only [if_pos hsrc, hactive', if_pos hepoch]

/-- From `d` to `e` a request has failed back: its run is halted, a read is answered with an error, and fault handling, time and owners of
pages are as they were. -/
structure Dev.FailedBack (d e : Dev) (q : Quar) : Prop where
  idle : (e.basin q.src).seq.active = none
  cancelled : (e.basin q.src).seq.ops = []
  fault : (e.basin q.src).seq.fault = { code := 0, pc := q.pc }
  pages : e.rsv.pages = d.rsv.pages
  flt : e.flt = d.flt
  cad : e.cad = d.cad
  answered : q.write = false → .reply q.recv [] false false true ∈ e.out

theorem Dev.failBack_failedBack {d : Dev} {q : Quar} {a : Active} (hview : (d.mgmtView q.src).state ≠ 2) (hsrc : q.src < 272)
    (hactive : (d.basin q.src).seq.active = some a) (hepoch : a.epoch = BitVec.ofNat 32 q.epoch) : d.FailedBack (d.failBack q) q := by
  let v := if q.write then d else d.emit (.reply q.recv [] false false true)
  have hv : v.basin q.src = d.basin q.src ∧ v.rsv = d.rsv ∧ v.flt = d.flt ∧ v.cad = d.cad := by
    unfold v
    split <;> exact ⟨rfl, rfl, rfl, rfl⟩
  obtain ⟨hbasin, hrsv, hflt, hcad⟩ := hv
  have hreply : q.write = false → .reply q.recv [] false false true ∈ v.out := fun h => by simp [v, h, Dev.emit]
  obtain ⟨ts, n, r, ss, y, hhalt, hpages, hseq, -⟩ := Dev.haltRun_frame (d := v) (b := q.src) (by rw [hbasin]; exact hactive) (some 0x300)
  have hfail := Dev.failBack_eq hview hsrc hactive hepoch
  change d.failBack q = Dev.raiseS (Dev.putBasin (v.haltRun q.src (some 0x300)) q.src _) 1 q.src _ _ _ _ at hfail
  rw [hhalt, Dev.basin_putBasin, Dev.putBasin_putBasin] at hfail
  rw [hfail]
  generalize hw : Dev.putBasin _ q.src _ = w
  have hstopped : w.basin q.src = { y with seq := { y.seq with fault := { code := 0, pc := q.pc } } } := by rw [← hw, Dev.basin_putBasin]
  have hkept : w.rsv.pages = d.rsv.pages ∧ w.flt = d.flt ∧ w.cad = d.cad ∧ w.out = v.out := by
    rw [← hw]
    exact ⟨hpages.trans (congrArg Rsv.pages hrsv), hflt, hcad, rfl⟩
  obtain ⟨hwpages, hwflt, hwcad, hwout⟩ := hkept
  have he := w.raiseS_eventChange 1 q.src (runIndex a.run) a.run.lbasin 0 q.pc
  have hends : (w.raiseS 1 q.src (runIndex a.run) a.run.lbasin 0 q.pc).basin q.src
      = { y with seq := { y.seq with fault := { code := 0, pc := q.pc } } } := by
    rw [Dev.basin, he.basins]
    exact hstopped
  refine ⟨?_, ?_, ?_, ?_, he.flt.trans hwflt, he.cad.trans hwcad, fun h => ?_⟩
  · rw [hends, hseq]; rfl
  · rw [hends, hseq]; rfl
  · rw [hends]
  · rw [he.rsv, hwpages]
  · exact (w.raiseAt_out_prefix _ _).subset (hwout ▸ hreply h)

end Sys2Proof.Machine

namespace Sys2Proof.Spec

open Sys2Proof Sys2Proof.Machine

/-- Settles O22: a reissue is a state written, a held request one of its controller, and what fails back halts its run. -/
theorem epochDisagreementsAreResolved : Obligations.EpochDisagreementsAreResolved := by
  unfold Obligations.EpochDisagreementsAreResolved
  intro d u hquiet
  have hreissue : Gives (.epochReissue u) d (epochReissue u d) := hquiet.gives (fun _ => rfl)
  have hrelease : Gives (.quarantineRelease u) d (quarantineRelease u d) := hquiet.gives (fun _ => rfl)
  have hfailback : Gives (.quarantineFailback u) d (quarantineFailback u d) := hquiet.gives (fun _ => rfl)
  refine ⟨fun hdue hold => ?reissued, fun hdue hchanged hstate => ?waits, fun q hquar hsrc hepoch hrecv hatomic => ?served,
    fun q k hquar hsrc hepoch hatomic => ?atomic, fun q a hquar hsrc hepoch hview hu hactive hrun => ?failed⟩
  case reissued =>
    rw [epochReissue_due hdue, if_neg hold] at hreissue
    obtain ⟨hmgmt, hown, hcheck, hframe, hothers, hrest⟩ :=
      (d.reissueTaken u).writeState_reissued u (max (d.mgmtView u).state (d.ownView u).state)
    refine ⟨_, hreissue, hmgmt, hown, hcheck, ?_, hframe, hothers⟩
    rw [hrest]
    simp [Dev.reissueTaken]
  case waits =>
    rw [epochReissue_due hdue, if_pos hchanged, if_neg hstate] at hreissue
    refine ⟨_, hreissue, ?_, ?_, rfl, rfl⟩
    · simp
    · simp [Dev.reissueTaken]
  case served =>
    intro e
    rw [quarantineRelease_one hquar hsrc hepoch] at hrelease
    change Gives (.quarantineRelease u) d (e.serveHeld q) at hrelease
    refine ⟨fun hread hlen hreach => ?read, fun hwrite hin hown hwhole => ?written⟩
    case read =>
      rwa [Dev.serveHeld_rsv _ hatomic (.inr hlen) hrecv, if_neg (by simp [hread]), Dev.rsvRead_of_reaches e q.domain q.addr q.len hreach] at hrelease
    case written =>
      rw [Dev.serveHeld_rsv _ hatomic (.inl hwrite) hrecv, if_pos hwrite, Dev.rsvWrite_of_owned e q.domain q.addr q.bytes hin hown hwhole] at hrelease
      refine ⟨_, hrelease, rfl, fun i hi => ?_⟩
      exact (congrArg (fun m => some (Mem.read m (q.addr + i))) (Rsv.charge_write_mem _ _ _ _ _ _)).trans (Mem.read_writeBytes_within _ _ _ i hi)
  case atomic =>
    rw [quarantineRelease_one hquar hsrc hepoch, Dev.serveHeld_atomic _ hatomic] at hrelease
    exact hrelease
  case failed =>
    subst hsrc
    rw [quarantineFailback_one hquar rfl hepoch] at hfailback
    dsimp only at hfailback
    generalize hv : (if q.slot = d.slotStart then d.atNs (d.slotStart + d.slen) else d) = v at hfailback
    have hcad : ∃ c : Cad, v = d.setCad c ∧ (q.slot = d.slotStart → ctAt d (d.slotStart + d.slen) = c.ct) := by
      rw [← hv]
      split
      case isTrue => exact ⟨_, rfl, fun _ => rfl⟩
      case isFalse h => exact ⟨d.cad, rfl, fun hslot => absurd hslot h⟩
    obtain ⟨c, rfl, hct⟩ := hcad
    obtain ⟨hidle, hcancelled, hfault, hpages, hflt, hcad, hanswered⟩ :=
      Dev.failBack_failedBack (d := (d.setCad c).setFlt { d.flt with quar := [] }) hview hu hactive hrun
    refine ⟨_, hfailback, (congrArg Fault3.quar hflt).trans rfl, hidle, hcancelled, hfault, hpages, hanswered, fun hslot => ?_⟩
    rw [hct hslot]
    exact (congrArg Cad.ct hcad).ge

end Sys2Proof.Spec
end

section
/-! PROOFS. What the twin says of the pair (R323, R324, R333, R336, R339): JOIN, heartbeats, and the promotion that follows two missed. -/

namespace Sys2Proof.Spec

open Sys2Proof Sys2Proof.Machine

theorem PairOnly.trans {a b c : Dev} (hab : PairOnly a b) (hbc : PairOnly b c) : PairOnly a c := by
  unfold PairOnly at hab
  rw [hab] at hbc
  exact hbc

end Sys2Proof.Spec

namespace Sys2Proof.Machine

open Sys2Proof Sys2Proof.Spec

/-! ### What an event leaves of pair and streams -/

theorem EventChange.pair {d e : Dev} (h : EventChange d e) : e.pair = d.pair := by obtain ⟨_, _, _, _, _, _, rfl⟩ := h; rfl

theorem EventChange.stream {d e : Dev} (h : EventChange d e) (n : Nat) : e.stream n = d.stream n := by rw [Dev.stream, h.streams]; rfl

theorem EventChange.pairOnly {d e : Dev} (h : EventChange d e) : PairOnly d e := by
  obtain ⟨_, _, _, _, _, _, rfl⟩ := h
  exact rfl

theorem LinkChange.stream {d e : Dev} (h : LinkChange d e) (n : Nat) : e.stream n = d.stream n := by rw [Dev.stream, h.streams]; rfl

theorem Dev.setPair_pairOnly (d : Dev) (p : Pair) : PairOnly d (d.setPair p) := rfl

theorem Dev.pairEvent_eventChange (d : Dev) : EventChange d d.pairEvent := d.raiseO_eventChange _ _ _ _ _

/-- A pair that takes another state raises its event. -/
theorem Dev.setPairState_eventChange {d : Dev} {st : Nat} (h : d.pair.state ≠ st) :
    EventChange (d.setPair { d.pair with state := st }) (d.setPairState st) := by
  rw [Dev.setPairState, if_neg h]
  exact Dev.pairEvent_eventChange _

theorem Dev.setPairState_pairOnly (d : Dev) (st : Nat) : PairOnly d (d.setPairState st) := by
  by_cases h : d.pair.state = st
  · rw [Dev.setPairState, if_pos h]
    exact rfl
  · exact (d.setPair_pairOnly _).trans (Dev.setPairState_eventChange h).pairOnly

theorem Dev.rejoin_pairOnly (d : Dev) (j : Join) : PairOnly d (d.rejoin j) := d.setPair_pairOnly _

theorem Dev.unpair_pairOnly (d : Dev) : PairOnly d d.unpair := (d.setPair_pairOnly _).trans (Dev.setPairState_pairOnly _ _)

/-! ### JOIN (R323) -/

/-- The pair once nothing in a JOIN disagrees. -/
def Pair.agreed (p : Pair) (j : Join) : Pair := { p with join := some j, joinerr := 0, hbmiss := 0, promoted := false }

/-- What JOINERR shows of a twin's JOIN, 0 where nothing disagrees. -/
def Dev.joinErr (d : Dev) (j : Join) : Nat := if j.version / 2 ^ 24 ≠ d.fh.fwversion.toNat / 2 ^ 24 then 1 else d.alignment j

section
variable {d : Dev} {j : Join} (hstate : d.pair.state = 1) (hup : (d.port 4).state = 3)
include hstate hup

theorem join_refused (h : d.joinErr j ≠ 0) :
    join j d = (d.setPair { d.pair with join := some j, state := 1, joinerr := d.joinErr j }).pairEvent :=
  (if_neg (not_or.mpr ⟨by simp [hstate], not_not.mpr hup⟩)).trans (if_pos h)

theorem join_waits (h : d.joinErr j = 0) (hno : d.cad.active = false ∨ j.slen = 0) : join j d = d.setPair { d.pair with join := some j } :=
  (if_neg (not_or.mpr ⟨by simp [hstate], not_not.mpr hup⟩)).trans ((if_neg (not_not.mpr h)).trans
    ((if_neg (by simp [hstate])).trans (if_pos (by simpa using hno))))

theorem join_pairs (h : d.joinErr j = 0) (hactive : d.cad.active = true) (hslen : j.slen ≠ 0) :
    join j d = ((d.setPair (d.pair.agreed j)).setPairState 2).rejoin j :=
  (if_neg (not_or.mpr ⟨by simp [hstate], not_not.mpr hup⟩)).trans ((if_neg (not_not.mpr h)).trans
    ((if_neg (by simp [hstate])).trans (if_neg (by simp [hactive, hslen]))))

/-- A JOIN changes the pair alone: it is PAIRED, or the JOIN is kept until there is a table to compare, or the disagreement is recorded. -/
theorem join_changes : PairOnly d (join j d) ∧ (join j d).streams = d.streams
    ∧ (d.joinErr j = 0 → d.cad.active = true → j.slen ≠ 0 →
      (join j d).pair.state = 2 ∧ (join j d).pair.joinerr = 0 ∧ (join j d).pair.hbmiss = 0)
    ∧ (d.joinErr j = 0 → d.cad.active = false ∨ j.slen = 0 → (join j d).pair.state = 1 ∧ (join j d).pair.join = some j)
    ∧ (d.joinErr j ≠ 0 → (join j d).pair.state = 1 ∧ (join j d).pair.joinerr = d.joinErr j) := by
  by_cases herr : d.joinErr j = 0
  · by_cases hno : d.cad.active = false ∨ j.slen = 0
    · rw [join_waits hstate hup herr hno]
      refine ⟨rfl, rfl, fun _ hactive hslen => ?_, fun _ _ => ⟨hstate, rfl⟩, fun h => absurd herr h⟩
      rcases hno with h | h
      · exact absurd hactive (by simp [h])
      · exact absurd h hslen
    · obtain ⟨hactive, hslen⟩ := not_or.mp hno
      rw [join_pairs hstate hup herr (by simpa using hactive) hslen]
      have hpaired := Dev.setPairState_eventChange (d := d.setPair (d.pair.agreed j)) (st := 2) (by simp [Pair.agreed, hstate])
      refine ⟨?_, hpaired.streams, fun _ _ _ => ⟨?_, ?_, ?_⟩, fun _ h => absurd h hno, fun h => absurd herr h⟩
      · exact ((d.setPair_pairOnly _).trans (Dev.setPairState_pairOnly _ 2)).trans (Dev.rejoin_pairOnly _ j)
      · exact congrArg Pair.state hpaired.pair
      · exact congrArg Pair.joinerr hpaired.pair
      · exact congrArg Pair.hbmiss hpaired.pair
  · rw [join_refused hstate hup herr]
    have hevent := Dev.pairEvent_eventChange (d.setPair { d.pair with join := some j, state := 1, joinerr := d.joinErr j })
    refine ⟨hevent.pairOnly, hevent.streams, fun h => absurd h herr, fun h => absurd h herr, fun _ => ?_⟩
    rw [hevent.pair]
    exact ⟨rfl, rfl⟩

end

/-! ### Heartbeats (R333, R339) -/

/-- SKEWHI as a skew sets it. -/
def Pair.hiAt (p : Pair) (skew : Int) : Bool := if 1000 < skew.natAbs then true else if skew.natAbs ≤ 800 then false else p.skewhi

/-- SUSP as SKEWHI gives it to a mirrored stream. -/
def Stream.skewed (hi : Bool) (s : Stream) : Stream := if s.mirror = 0 then s else { s with susp := hi || s.resyncing }

theorem Dev.setSkew_kept {d : Dev} {skew : Int} (h : d.pair.hiAt skew = d.pair.skewhi) :
    d.setSkew skew = d.setPair { d.pair with skew := skew, skewhi := d.pair.hiAt skew } := if_pos h

theorem Dev.setSkew_changed {d : Dev} {skew : Int} (h : d.pair.hiAt skew ≠ d.pair.skewhi) :
    EventChange ((d.setPair { d.pair with skew := skew, skewhi := d.pair.hiAt skew }).setStreams
      (Tab.mapv d.streams (fun _ => Stream.skewed (d.pair.hiAt skew)))) (d.setSkew skew) := by
  have hchange : d.setSkew skew = Dev.raiseO _ _ _ _ _ _ := if_neg h
  rw [hchange]
  exact Dev.raiseO_eventChange _ _ _ _ _ _

theorem Dev.setSkew_pair (d : Dev) (skew : Int) :
    PairOnly d (d.setSkew skew) ∧ (d.setSkew skew).pair = { d.pair with skew := skew, skewhi := d.pair.hiAt skew } := by
  by_cases h : d.pair.hiAt skew = d.pair.skewhi
  · rw [Dev.setSkew_kept h]
    exact ⟨rfl, rfl⟩
  · have hchange := Dev.setSkew_changed h
    exact ⟨hchange.pairOnly, hchange.pair⟩

/-- A stream that is no default is listed. -/
theorem Dev.stream_listed {d : Dev} {i : Nat} (h : (d.stream i).mirror ≠ 0) : (Tab.find? d.streams i).isSome = true := by
  by_contra hnone
  have hdefault : d.stream i = {} := by rw [Dev.stream, Tab.at, Option.not_isSome_iff_eq_none.mp hnone]; rfl
  exact h (by rw [hdefault])

/-- SKEWHI suspends a mirrored stream. -/
theorem Dev.setSkew_susp {d : Dev} {i : Nat} {skew : Int} (hmirror : (d.stream i).mirror ≠ 0) (hlow : d.pair.skewhi = false)
    (hhigh : 1000 < skew.natAbs) : ((d.setSkew skew).stream i).susp = true := by
  have hhi : d.pair.hiAt skew = true := if_pos hhigh
  have hchange := Dev.setSkew_changed (d := d) (skew := skew) (by simp [hhi, hlow])
  have hstream : (d.setSkew skew).stream i = (d.stream i).skewed (d.pair.hiAt skew) :=
    (hchange.stream i).trans (Tab.at_mapv_listed (Dev.stream_listed hmirror) (fun _ => Stream.skewed (d.pair.hiAt skew)) {})
  rw [hstream, Stream.skewed, if_neg hmirror, hhi]
  rfl

/-- The pair once it has heard a heartbeat at `now`. -/
def Pair.heard (p : Pair) (m : Heartbeat) (now : Nat) : Pair :=
  { p with lasthb := now, hbmiss := 0, hbSlot := m.slotCt, rxSend := m.sent, rxArr := now, txSend := m.lastSent, txArr := m.lastArr }

section
variable {d : Dev} {m : Heartbeat} (hpair : d.pair.state ≠ 0)
include hpair

theorem hb_first (h : m.lastSent = 0) : hb m d = d.setPair (d.pair.heard m d.ns) := (if_neg hpair).trans (if_pos h)

theorem hb_skew (h : m.lastSent ≠ 0) :
    hb m d = (d.setPair (d.pair.heard m d.ns)).setSkew (skewOf m.sent d.ns m.lastSent m.lastArr (signedOf 16 (d.port 4).asym)) :=
  (if_neg hpair).trans (if_neg h)

end

/-! ### Promotion (R336) -/

/-- The stream once this module has promoted itself for it. -/
def Stream.promote (s : Stream) : Stream := { s with role := 0, promoted := true, npromote := s.npromote + 1 }

/-- The module promotes itself for stream `k` where it stands by it. -/
def Dev.promoteStream (d : Dev) (k : Nat) : Dev :=
  if !(d.stream k).standby then d
  else ((d.putStream k (d.stream k).promote).setPair { d.pair with promotecnt := d.pair.promotecnt + 1, promoted := true }).raiseS
    0xB 0x1F5 k (d.stream k).twin 0 0

theorem Dev.promoteAll_eq (d : Dev) : d.promoteAll = (d.streams.map Prod.fst).foldl Dev.promoteStream d := by
  rw [List.foldl_map]
  rfl

theorem Stream.promote_not_standby (s : Stream) : s.promote.standby = false := by simp [Stream.promote, Stream.standby]

/-- What promotion makes of stream `n` of `d` where `ks` are the streams that it goes over. -/
def Dev.promotedAt (d : Dev) (ks : List Nat) (n : Nat) : Stream :=
  if n ∈ ks ∧ (d.stream n).standby = true then (d.stream n).promote else d.stream n

theorem Dev.promoteStream_frame (d : Dev) (k : Nat) : (d.promoteStream k).pair.state = d.pair.state
    ∧ (d.promoteStream k).pair.hbmiss = d.pair.hbmiss ∧ ∀ n, (d.promoteStream k).stream n = d.promotedAt [k] n := by
  by_cases h : (d.stream k).standby = true
  · have hchange : EventChange ((d.putStream k (d.stream k).promote).setPair { d.pair with promotecnt := d.pair.promotecnt + 1, promoted := true })
        (d.promoteStream k) := by
      rw [Dev.promoteStream, if_neg (by simp [h])]
      exact Dev.raiseS_eventChange _ _ _ _ _ _ _
    refine ⟨(congrArg Pair.state hchange.pair : _), (congrArg Pair.hbmiss hchange.pair : _), fun n => (hchange.stream n).trans ?_⟩
    by_cases hn : n = k
    · subst hn
      rw [Dev.promotedAt, if_pos ⟨List.mem_singleton_self n, h⟩]
      exact Dev.stream_putStream d n _
    · rw [Dev.promotedAt, if_neg (by simp [hn])]
      exact Dev.stream_putStream_other d k n _ hn
  · rw [Dev.promoteStream, if_pos (by simpa using h)]
    refine ⟨rfl, rfl, fun n => ?_⟩
    rw [Dev.promotedAt, if_neg]
    rintro ⟨hn, hstandby⟩
    rw [List.mem_singleton.mp hn] at hstandby
    exact h hstandby

theorem Dev.promoteStreams_frame (ks : List Nat) (d : Dev) : (ks.foldl Dev.promoteStream d).pair.state = d.pair.state
    ∧ (ks.foldl Dev.promoteStream d).pair.hbmiss = d.pair.hbmiss ∧ ∀ n, (ks.foldl Dev.promoteStream d).stream n = d.promotedAt ks n := by
  induction ks generalizing d with
  | nil => exact ⟨rfl, rfl, fun n => by simp [Dev.promotedAt]⟩
  | cons k ks ih =>
    obtain ⟨hstate, hmiss, hstreams⟩ := ih (d.promoteStream k)
    obtain ⟨hstate', hmiss', hstreams'⟩ := d.promoteStream_frame k
    refine ⟨hstate.trans hstate', hmiss.trans hmiss', fun n => ?_⟩
    rw [List.foldl_cons, hstreams, Dev.promotedAt, hstreams']
    by_cases hfirst : n ∈ [k] ∧ (d.stream n).standby = true
    · rw [Dev.promotedAt, if_pos hfirst, if_neg (by simp [Stream.promote_not_standby]), Dev.promotedAt,
        if_pos ⟨List.mem_cons.mpr (.inl (List.mem_singleton.mp hfirst.1)), hfirst.2⟩]
    · rw [Dev.promotedAt, if_neg hfirst, Dev.promotedAt]
      refine if_congr ?_ rfl rfl
      rw [List.mem_cons]
      exact ⟨fun h => ⟨.inr h.1, h.2⟩, fun h => ⟨h.1.resolve_left (fun hk => hfirst ⟨by simp [hk], h.2⟩), h.2⟩⟩

/-- A module promotes itself for every stream that it stands by, and stays in its pair state. -/
theorem Dev.promoteAll_frame (d : Dev) : d.promoteAll.pair.state = d.pair.state ∧ d.promoteAll.pair.hbmiss = d.pair.hbmiss
    ∧ ∀ n, (d.stream n).standby = true → d.promoteAll.stream n = (d.stream n).promote := by
  obtain ⟨hstate, hmiss, hstreams⟩ := Dev.promoteStreams_frame (d.streams.map Prod.fst) d
  rw [← Dev.promoteAll_eq] at hstate hmiss hstreams
  refine ⟨hstate, hmiss, fun n hstandby => ?_⟩
  have hmirror : (d.stream n).mirror ≠ 0 := fun h => by simp [Stream.standby, h] at hstandby
  obtain ⟨s, hfind⟩ := Option.isSome_iff_exists.mp (Dev.stream_listed hmirror)
  rw [hstreams, Dev.promotedAt, if_pos ⟨List.mem_map.mpr ⟨(n, s), Tab.mem_of_find? hfind, rfl⟩, hstandby⟩]

/-! ### The check of a heartbeat (R333, R336) -/

section
variable {d : Dev} (hpair : d.pair.state = 2) (hactive : d.cad.active = true) (hstrobed : d.cad.strobed = true) (hopen : d.pair.hbDone = false)
include hpair hactive hstrobed hopen

theorem hbCheck_heard (hslen : 0 < d.slen) (hheard : d.pair.hbSlot = d.slotStart) :
    hbCheck d = (d.atNs (d.slotStart + 4000)).setPair { d.pair with hbDone := true } :=
  (if_neg (by simp [hpair, hactive, hstrobed, hopen])).trans (if_pos (by simp [hheard, hslen]))

/-- The pair once a heartbeat has been missed. -/
def Pair.missed (p : Pair) : Pair := { p with hbDone := true, hbmiss := min 15 (p.hbmiss + 1) }

variable (hmissed : d.pair.hbSlot + d.slen ≤ d.slotStart)
include hmissed

theorem hbCheck_first (hfirst : d.pair.hbmiss = 0) : hbCheck d = (d.atNs (d.slotStart + 4000)).setPair d.pair.missed :=
  (if_neg (by simp [hpair, hactive, hstrobed, hopen])).trans ((if_neg (by simp; omega)).trans (if_neg (by simp [hfirst])))

theorem hbCheck_second (hsecond : d.pair.hbmiss = 1) :
    hbCheck d = (((d.atNs (d.slotStart + 4000)).setPair d.pair.missed).setPairState 3).promoteAll :=
  (if_neg (by simp [hpair, hactive, hstrobed, hopen])).trans ((if_neg (by simp; omega)).trans ((if_pos (by simp [hsecond])).trans
    (congrArg Dev.promoteAll (if_pos hpair))))

/-- The second heartbeat missed isolates the pair and promotes the standby. -/
theorem hbCheck_isolates (hsecond : d.pair.hbmiss = 1) : (hbCheck d).pair.hbmiss = 2 ∧ (hbCheck d).pair.state = 3
    ∧ ∀ n, (d.stream n).standby = true → (hbCheck d).stream n = (d.stream n).promote := by
  rw [hbCheck_second hpair hactive hstrobed hopen hmissed hsecond]
  have hisolated := Dev.setPairState_eventChange (d := (d.atNs (d.slotStart + 4000)).setPair d.pair.missed) (st := 3)
    (by simp [Pair.missed, hpair])
  obtain ⟨hstate, hmiss, hstreams⟩ := (((d.atNs (d.slotStart + 4000)).setPair d.pair.missed).setPairState 3).promoteAll_frame
  refine ⟨?_, hstate.trans (congrArg Pair.state hisolated.pair), fun n hstandby => ?_⟩
  · rw [hmiss, hisolated.pair]
    simp [Pair.missed, hsecond]
  · have hn := hisolated.stream n
    rw [hstreams n (by rw [hn]; exact hstandby), hn]
    rfl

end

end Sys2Proof.Machine
end

section
/-! PROOFS. What the twin says of a stream (R325, R326, R330 to R332, R334, R338, R340, R341): POST, DIGEST, MAP and RESYNC, forwarded
records and deltas, and the boundaries from which mirroring applies. -/

namespace Sys2Proof.Machine

open Sys2Proof Sys2Proof.Spec

/-! ### POST (R334) -/

/-- The stream once the twin has posted period `tag`. -/
def Stream.posted (s : Stream) (tag : Nat) : Stream :=
  { s with lastpost := tag, postTags := if s.role = 0 ∨ tag ∈ s.postTags then s.postTags else s.postTags ++ [tag] }

theorem Stream.postedAt_frame (s : Stream) (idx : Nat) : (s.postedAt idx).lastpost = s.lastpost ∧ (s.postedAt idx).postTags = s.postTags
    ∧ (s.postedAt idx).cqTail = (idx + 1) % 2 ^ s.cqLog := by
  simp only [Stream.postedAt]
  split <;> exact ⟨rfl, rfl, rfl⟩

theorem Stream.mem_posted {s : Stream} (hrole : s.role = 1) (tag : Nat) : tag ∈ (s.posted tag).postTags := by
  by_cases h : tag ∈ s.postTags <;> simp [Stream.posted, hrole, h]

section
variable {d : Dev} {i h : Nat} {s : Stream} (hknown : d.streamOf h = some (i, s))
include hknown

theorem postMsg_eq (hmirror : s.mirror ≠ 0) (tag idx : Nat) :
    postMsg h tag idx d = d.putStream i (if s.role = 1 then (s.posted tag).postedAt idx else s.posted tag) := by
  simp only [postMsg, hknown, if_neg hmirror]
  rfl

/-! ### DIGEST (R338) -/

theorem digestMsg_eq (hmirror : s.mirror = 2) (tag dig : Nat) :
    digestMsg h tag dig d = (d.putStream i { s with twinDigests := Tab.put s.twinDigests tag dig }).compareDigests i tag := by
  simp only [digestMsg, hknown, hmirror]
  rfl

end

/-- The stream once the two digests of period `tag` have been compared. -/
def Stream.compared (s : Stream) (tag : Nat) : Stream :=
  { s with myDigests := Tab.del s.myDigests tag, twinDigests := Tab.del s.twinDigests tag }

section
variable {d : Dev} {i tag : Nat}

theorem Dev.compareDigests_unformed (h : Tab.find? (d.stream i).myDigests tag = none) : d.compareDigests i tag = d := by
  simp only [Dev.compareDigests, h]

theorem Dev.compareDigests_unheard (h : Tab.find? (d.stream i).twinDigests tag = none) : d.compareDigests i tag = d := by
  cases hown : Tab.find? (d.stream i).myDigests tag with
  | none => exact Dev.compareDigests_unformed hown
  | some own => simp only [Dev.compareDigests, hown, h]

theorem Dev.compareDigests_both {own twin : Nat} (hown : Tab.find? (d.stream i).myDigests tag = some own)
    (htwin : Tab.find? (d.stream i).twinDigests tag = some twin) :
    d.compareDigests i tag = if own = twin then d.putStream i ((d.stream i).compared tag)
      else (d.putStream i ((d.stream i).compared tag)).mismatch i tag := by
  simp only [Dev.compareDigests, hown, htwin]
  rfl

/-- A mismatch is counted for the module and for the stream, which is resynchronised from the next frame boundary. -/
theorem Dev.mismatch_counted (d : Dev) (i tag : Nat) : (d.mismatch i tag).pair.mismatchcnt = d.pair.mismatchcnt + 1
    ∧ ((d.mismatch i tag).stream i).nmismatch = (d.stream i).nmismatch + 1
    ∧ (d.mismatch i tag).pair.resyncs = d.pair.resyncs ++ [(i, d.nextFrame, false)] := by
  have hchange : EventChange ((d.putStream i { d.stream i with nmismatch := (d.stream i).nmismatch + 1 }).setPair
      { d.pair with mismatchcnt := d.pair.mismatchcnt + 1, resyncs := d.pair.resyncs ++ [(i, d.nextFrame, false)] }) (d.mismatch i tag) :=
    Dev.raiseS_eventChange _ _ _ _ _ _ _
  have hstream := (hchange.stream i).trans (Dev.stream_putStream d i _)
  exact ⟨congrArg Pair.mismatchcnt hchange.pair, congrArg Stream.nmismatch hstream, congrArg Pair.resyncs hchange.pair⟩

end

/-! ### MAP (R326, R340) -/

/-- The pair once it has a MAP that names streams. -/
def Pair.mapped (p : Pair) (m : MapMsg) : Pair := { p with maps := m :: p.maps.filter (fun x => ¬ (x.own = m.own ∧ x.other = m.other)) }

/-- The pair once the twin has said from which boundary it detaches. -/
def Pair.detaching (p : Pair) (m : MapMsg) : Pair :=
  { p with twinDetached := true, detachAt := some (match p.detachAt with | some w => min w m.boundary | none => m.boundary) }

theorem mapMsg_detach {m : MapMsg} {d : Dev} (hpair : d.pair.state ≠ 0) (hown : m.own = 0) (hother : m.other = 0)
    (h : d.pair.detached = false ∨ d.pair.detachAt.isSome = true) :
    mapMsg m d = d.setPair (d.pair.detaching m) := by
  refine (if_neg hpair).trans ((if_pos ⟨hown, hother⟩).trans ((if_neg ?_).trans rfl))
  rintro ⟨hdetached, hnone⟩
  rcases h with h | h
  · exact absurd (h.symm.trans hdetached) (by decide)
  · exact absurd (Option.isNone_iff_eq_none.mp hnone) (Option.isSome_iff_ne_none.mp h)

theorem mapMsg_unpairs {m : MapMsg} {d : Dev} (hpair : d.pair.state ≠ 0) (hown : m.own = 0) (hother : m.other = 0)
    (hdetached : d.pair.detached = true) (hat : d.pair.detachAt = none) : mapMsg m d = (d.setPair { d.pair with twinDetached := true }).unpair :=
  (if_neg hpair).trans ((if_pos ⟨hown, hother⟩).trans (if_pos ⟨hdetached, Option.isNone_iff_eq_none.mpr hat⟩))

/-- The registers of a pair that is no more. -/
def Pair.cleared (p : Pair) : Pair :=
  { p with twin := 0, detached := false, twinDetached := false, join := none, cmpPend := false, hbmiss := 0, joinerr := 0,
           roles := [], mirrors := [], ends := [], resyncs := [], owed := [], dones := [], maps := [] }

theorem Dev.unpair_unpaired {d : Dev} (hpair : d.pair.state ≠ 0) :
    d.unpair.pair.state = 0 ∧ d.unpair.pair.twin = 0 ∧ d.unpair.streams = d.streams := by
  have hchange : EventChange _ d.unpair := Dev.setPairState_eventChange (d := d.setPair d.pair.cleared) (st := 0) hpair
  exact ⟨congrArg Pair.state hchange.pair, congrArg Pair.twin hchange.pair, d.unpair_linkChange.streams⟩

theorem Stream.nextMode_ne_zero {s : Stream} : s.nextMode ≠ 0 ↔ s.mirror ≠ 0 ∨ s.nmode ≠ 0 := by
  unfold Stream.nextMode
  split <;> simp_all

section
variable {m : MapMsg} {d : Dev} {i : Nat} {s : Stream} (hpair : d.pair.state ≠ 0) (hother : m.other ≠ 0)
  (hknown : d.streamOf m.other = some (i, s)) (hmode : s.nextMode ≠ 0) (htwin : s.twin = m.own) (hmap : m.mode ≠ 0)
include hpair hother hknown hmode htwin hmap

theorem mapMsg_named : mapMsg m d = if m.digest ≠ s.plandig.toNat then (d.setPair (d.pair.mapped m)).dropMirror i
    else if s.resyncing then (d.setPair (d.pair.mapped m)).resync i m.boundary else d.setPair (d.pair.mapped m) := by
  have hmapped : (d.setPair (d.pair.mapped m)).streamOf m.other = some (i, s) := hknown
  refine (if_neg hpair).trans ((if_neg (fun h => hother h.2)).trans ?_)
  change (match (d.setPair (d.pair.mapped m)).streamOf m.other with
    | none => d.setPair (d.pair.mapped m)
    | some (i, s) =>
      if s.nextMode = 0 ∨ s.twin ≠ m.own ∨ m.mode = 0 then d.setPair (d.pair.mapped m)
      else if m.digest ≠ s.plandig.toNat then (d.setPair (d.pair.mapped m)).dropMirror i
      else if s.resyncing then (d.setPair (d.pair.mapped m)).resync i m.boundary else d.setPair (d.pair.mapped m)) = _
  rw [hmapped]
  exact if_neg (by simp [hmode, htwin, hmap])

end

/-- A stream whose PAIR_MIRROR is dropped. -/
def Stream.unmapped (s : Stream) (hi : Bool) : Stream := { s with nmode := 0, resyncing := false, susp := s.mirror != 0 && hi }

/-- Dropping a PAIR_MIRROR changes its stream, and leaves no boundary from which it would apply. -/
theorem Dev.dropMirror_dropped (d : Dev) (i : Nat) : PairOnly d (d.dropMirror i) ∧ (∀ n, n ≠ i → (d.dropMirror i).stream n = d.stream n)
    ∧ (d.dropMirror i).stream i = (d.stream i).unmapped d.pair.skewhi ∧ ∀ t, (i, t) ∉ (d.dropMirror i).pair.mirrors := by
  let v := d.putStream i ((d.stream i).unmapped d.pair.skewhi)
  have hchange : EventChange (v.setPair { d.pair with mirrors := d.pair.mirrors.filter (fun m => m.1 ≠ i),
                                                      dones := d.pair.dones.filter (fun m => m.1 ≠ i) }) (d.dropMirror i) :=
    Dev.pairEvent_eventChange _
  refine ⟨hchange.pairOnly, fun n hn => (hchange.stream n).trans (Dev.stream_putStream_other d i n _ hn),
    (hchange.stream i).trans (Dev.stream_putStream d i _), fun t => ?_⟩
  rw [hchange.pair]
  simp

/-! ### Resynchronisation (R341) -/

/-- A stream whose resynchronisation has started. -/
def Stream.awaiting (s : Stream) : Stream := { s with susp := true, resyncing := true }

theorem Stream.awaiting_of_resyncing {s : Stream} (h : s.resyncing = true) : s.awaiting = { s with susp := true } := by
  rw [Stream.awaiting, ← h]

section
variable {d : Dev} {i : Nat} (hmode : (d.stream i).nextMode ≠ 0) (boundary : Nat)
include hmode

theorem Dev.resync_standby (hrole : (d.stream i).nextRole ≠ 0) : d.resync i boundary = d.putStream i (d.stream i).awaiting :=
  (if_neg hmode).trans (if_neg hrole)

/-- The primary counts its state pages as moved; what it sends is the link's. -/
theorem Dev.resync_primary (hrole : (d.stream i).nextRole = 0) :
    ∃ n, LinkChange ((d.putStream i (d.stream i).awaiting).setRsv (d.rsv.moved n)) (d.resync i boundary) := by
  refine ⟨((d.putStream i (d.stream i).awaiting).stateBytes i).length, ?_⟩
  have hresync : d.resync i boundary = Dev.sendOwed _ := (if_neg hmode).trans (if_pos hrole)
  rw [hresync]
  exact (((Dev.sendMsg_linkChange _ _ _ _).trans (Dev.sendBytes_linkChange _ _ _ _ _ _ _)).trans (Dev.setPair_linkChange _ _)).trans
    (Dev.sendOwed_linkChange _)

/-- Resynchronisation suspends its stream, and what it sends leaves streams and memory as they are. -/
theorem Dev.resync_frame : (d.resync i boundary).rsv.mem = d.rsv.mem
    ∧ (d.resync i boundary).streams = (d.putStream i (d.stream i).awaiting).streams := by
  by_cases hrole : (d.stream i).nextRole = 0
  · obtain ⟨n, hlink⟩ := Dev.resync_primary hmode boundary hrole
    refine ⟨?_, hlink.streams⟩
    rw [hlink.rsv]
    rfl
  · rw [Dev.resync_standby hmode boundary hrole]
    exact ⟨rfl, rfl⟩

end

/-- Changes of the reservoir one after another are one change. -/
theorem Dev.foldl_setRsv {β : Type} (f : Rsv → β → Rsv) (ks : List β) (d : Dev) :
    ks.foldl (fun (d : Dev) k => d.setRsv (f d.rsv k)) d = d.setRsv (ks.foldl f d.rsv) := by
  induction ks generalizing d with
  | nil => rfl
  | cons k ks ih => exact ih (d.setRsv (f d.rsv k))

/-- State loaded into a stream's pages changes the reservoir alone. -/
theorem Dev.loadState_frame (d : Dev) (i : Nat) (bs : List Byte) : ∃ r, d.loadState i bs = d.setRsv r := by
  unfold Dev.loadState
  split
  · exact ⟨d.rsv, rfl⟩
  · exact ⟨_, Dev.foldl_setRsv (fun (r : Rsv) (k : Nat × Nat) =>
      (r.write (k.1 * 0x200000) ((bs.drop (k.2 * 0x200000)).take 0x200000)).moved 0x200000) _ d⟩

/-- The one boundary listed for stream `i` is the last put there. -/
theorem find?_filter_append (l : List (Nat × Nat)) (i t : Nat) :
    (l.filter (fun m => m.1 ≠ i) ++ [(i, t)]).find? (fun m => m.1 == i) = some (i, t) := by
  have hnone : (l.filter (fun m => m.1 ≠ i)).find? (fun m => m.1 == i) = none := List.find?_eq_none.mpr (by simp)
  rw [List.find?_append, hnone]
  simp

section
variable {d : Dev} {i h : Nat} {s : Stream} (hknown : d.streamOf h = some (i, s)) (hmode : s.nextMode ≠ 0) (hrole : s.nextRole = 1)
  (boundary bytes : Nat)
include hknown hmode hrole

/-- A state copy starts: its stream is suspended, and what was gathered for it goes. -/
theorem resyncMsg_starts :
    resyncMsg h boundary bytes false d = (d.putStream i s.awaiting).setPair { d.pair with placed := (d.pair.gather 2 h).2 } := by
  simp only [resyncMsg, hknown]
  exact if_neg (by simp [hmode, hrole])

/-- A state copy ends: the standby discards its inputs and mirrors from the first boundary two slots away. -/
theorem resyncMsg_done : ∃ r, resyncMsg h boundary bytes true d = ((d.putStream i { s.awaiting with descs := [] }).setRsv r).setPair
    { d.pair with placed := (d.pair.gather 2 h).2,
                  mirrors := d.pair.mirrors.filter (fun m => m.1 ≠ i) ++ [(i, d.frameAtOrAfter (max boundary (d.ns + 2 * d.slen)))] } := by
  let v := (d.putStream i s.awaiting).setPair { d.pair with placed := (d.pair.gather 2 h).2 }
  obtain ⟨r, hload⟩ := v.loadState_frame i ((d.pair.gather 2 h).1.take bytes)
  have hstream : (v.setRsv r).stream i = s.awaiting := d.stream_putStream i _
  refine ⟨r, ?_⟩
  have heq : resyncMsg h boundary bytes true d = (Dev.putStream (v.loadState i ((d.pair.gather 2 h).1.take bytes)) i
      { (v.loadState i ((d.pair.gather 2 h).1.take bytes)).stream i with descs := [] }).setPair
      (let e := v.loadState i ((d.pair.gather 2 h).1.take bytes)
       { e.pair with mirrors := e.pair.mirrors.filter (fun m => m.1 ≠ i) ++ [(i, e.frameAtOrAfter (max boundary (e.ns + 2 * e.slen)))] }) := by
    simp only [resyncMsg, hknown]
    exact if_neg (by simp [hmode, hrole])
  rw [heq, hload, hstream]
  exact congrArg (fun w : Dev => (w.setRsv r).setPair _) (d.putStream_putStream i s.awaiting { s.awaiting with descs := [] })

end

/-! ### Boundaries (R325, R340, R341) -/

/-- The stream once mirroring has taken effect. -/
def Stream.mirrored (s : Stream) (hi : Bool) : Stream :=
  { s with mirror := s.nextMode, role := s.nextRole, nmode := 0, promoted := s.nmode == 0 && s.promoted, resyncing := false, susp := hi }

theorem Stream.mirrored_new {s : Stream} (h : s.nmode ≠ 0) (hi : Bool) : s.mirrored hi =
    { s with mirror := s.nmode, role := s.nrole, nmode := 0, promoted := false, resyncing := false, susp := hi } := by
  simp [Stream.mirrored, Stream.nextMode, Stream.nextRole, h]

theorem Stream.mirrored_again {s : Stream} (h : s.nmode = 0) (hi : Bool) : s.mirrored hi = { s with resyncing := false, susp := hi } := by
  simp [Stream.mirrored, Stream.nextMode, Stream.nextRole, h]

section
variable {d : Dev} {i t : Nat} (hmode : (d.stream i).nextMode ≠ 0)
include hmode

theorem mirrorApply_ends (hends : d.pair.ends.find? (fun e => e.1 == i) = some (i, t)) : ∃ p : Pair,
    mirrorApply i d = ((d.atNs t).setPair p).putStream i (d.stream i).unmirror := by
  refine ⟨{ d.pair with ends := d.pair.ends.filter (fun x => x.1 ≠ i) }, ?_⟩
  simp only [mirrorApply, hends]
  exact if_neg hmode

theorem mirrorApply_applies (hends : d.pair.ends.find? (fun e => e.1 == i) = none)
    (hmirrors : d.pair.mirrors.find? (fun e => e.1 == i) = some (i, t)) : ∃ p : Pair,
    mirrorApply i d = ((d.atNs t).setPair p).putStream i ((d.stream i).mirrored d.pair.skewhi) := by
  refine ⟨{ d.pair with mirrors := d.pair.mirrors.filter (fun x => x.1 ≠ i) }, ?_⟩
  simp only [mirrorApply, hends, hmirrors]
  exact if_neg hmode

end

/-! ### Forwarded records (R331) -/

/-- The descriptor of a forwarded entry. -/
def forwarded (entry : List Byte) (idx ib arrCt : Nat) : Desc := { descOf entry idx ib with arr := some (arrCt * 65536), fwd := true }

/-- The standby's ring stands at the entry after the one forwarded. -/
def Stream.forwardedAt (s : Stream) (idx : Nat) : Stream := { s with fwdidx := (idx + 1) % 2 ^ s.sqLog, sqHead := (idx + 1) % 2 ^ s.sqLog }

/-- The standby after the store of a forwarded entry's input: the entry is kept, or ends with an error where the store was refused. -/
def keepForwarded (i : Nat) (descs : List Desc) (x : Desc) (ct : Nat) (w : Dev × RsvAns) : Dev :=
  match w.2 with
  | .ok _ => w.1.putStream i { w.1.stream i with descs := descs, lastarr := ct }
  | .poisoned => w.1.putStream i { w.1.stream i with descs := descs, lastarr := ct }
  | _ => w.1.invalid i x

section
variable {d : Dev} {i ib idx ct a : Nat} {entry data : List Byte} {s : Stream} (hs : d.stream i = s) (ha : s.ibuf + ib * s.slotkb * 1024 = a)
  (hstandby : s.standby = true) (hpair : d.pair.state = 2) (hstate : s.state = 2 ∨ s.state = 3) (hfree : s.freeIb = some ib)
  (hlen : data.length = (descOf entry idx ib).len) (hfits : data.length ≤ s.slotkb * 1024)
include hs ha hstandby hpair hstate hfree hlen hfits

theorem forwardRecord_eq : ∃ p : Pair, forwardRecord i entry idx ct data d = keepForwarded i (s.descs ++ [forwarded entry idx ib ct])
    (forwarded entry idx ib ct) ct (((d.setPair p).putStream i (s.forwardedAt idx)).rsvWrite s.domain a data) := by
  have hdata : (forwarded entry idx ib ct).len = data.length := hlen.symm
  have hkept : ¬ ((!s.standby) = true ∨ d.pair.state ≠ 2 ∨ ¬ (s.state = 2 ∨ s.state = 3) ∨ data.length ≠ (forwarded entry idx ib ct).len
      ∨ s.slotkb * 1024 < (forwarded entry idx ib ct).len) := by
    rw [hdata]
    simp [hstandby, hpair, hstate, hfits]
  refine ⟨{ d.pair with placed := (d.pair.gather 1 (handleOf i s)).2 }, ?_⟩
  subst ha
  simp only [forwardRecord, hs, hfree]
  exact if_neg hkept

/-- The standby keeps a forwarded entry and stores its input. -/
theorem forwardRecord_kept (hin : a + data.length ≤ 0x6000000000) (hown : d.rsv.owned s.domain a data.length = true)
    (hwhole : Whole64 d a data.length) : ∃ p : Pair,
    forwardRecord i entry idx ct data d = ((d.setPair p).setRsv ((d.rsv.charge s.domain a data.length).write a data)).putStream i
      { s.forwardedAt idx with descs := s.descs ++ [forwarded entry idx ib ct], lastarr := ct } := by
  obtain ⟨p, heq⟩ := forwardRecord_eq hs ha hstandby hpair hstate hfree hlen hfits (ct := ct)
  let v := (d.setPair p).putStream i (s.forwardedAt idx)
  let r := (d.rsv.charge s.domain a data.length).write a data
  have hstream : (v.setRsv r).stream i = s.forwardedAt idx := (d.setPair p).stream_putStream i _
  have hkept (w : Dev) : keepForwarded i (s.descs ++ [forwarded entry idx ib ct]) (forwarded entry idx ib ct) ct (w, .ok [])
      = w.putStream i { w.stream i with descs := s.descs ++ [forwarded entry idx ib ct], lastarr := ct } := rfl
  refine ⟨p, ?_⟩
  rw [heq, Dev.rsvWrite_of_owned v s.domain a data hin hown hwhole, hkept]
  change (v.setRsv r).putStream i { (v.setRsv r).stream i with descs := _, lastarr := ct } = _
  rw [hstream]
  exact congrArg (fun w : Dev => w.setRsv r) ((d.setPair p).putStream_putStream i _ _)

end

/-! ### Deltas (R332) -/

/-- The stream once the delta of period `tag` has come. -/
def Stream.withDelta (s : Stream) (tag : Nat) : Stream :=
  { s with deltaTags := if tag ∈ s.deltaTags then s.deltaTags else s.deltaTags ++ [tag] }

theorem Stream.mem_withDelta (s : Stream) (tag : Nat) : tag ∈ (s.withDelta tag).deltaTags := by
  by_cases h : tag ∈ s.deltaTags <;> simp [Stream.withDelta, h]

section
variable {d : Dev} {i tag : Nat} {s : Stream} (hs : d.stream i = s) (hstandby : s.standby = true) (hwarm : s.mirror = 1)
include hs hstandby hwarm

/-- A period that the standby ran itself is counted as come, and its delta dropped. -/
theorem deltaRecord_covered (hcovered : tag ∈ s.coverTags) (ws : List (Nat × List Byte)) : ∃ p : Pair,
    deltaRecord i tag ws d = (d.setPair p).putStream i (s.withDelta tag) := by
  refine ⟨{ d.pair with placed := (d.pair.gather 2 (handleOf i s)).2 }, ?_⟩
  subst hs
  exact (if_neg (by simp [hstandby, hwarm])).trans (if_pos (by simp [hcovered]))

/-- The delta of another period is applied where its pages are the plan's. -/
theorem deltaRecord_applied {pl : Plan} {a : Nat} {bs : List Byte} (hperiod : s.period = none) (hcovered : tag ∉ s.coverTags)
    (hplan : d.plan i s.planno = some pl) (hpages : ∀ k ∈ pagesOf a bs.length, k ∈ pl.statePages) : ∃ p : Pair,
    deltaRecord i tag [(a, bs)] d = ((d.setPair p).putStream i (s.withDelta tag)).setRsv ((d.rsv.write a bs).moved bs.length) := by
  refine ⟨{ d.pair with placed := (d.pair.gather 2 (handleOf i s)).2 }, ?_⟩
  have hmine : [(a, bs)].filter (fun w => (pagesOf w.1 w.2.length).all (fun k => decide (k ∈ ((d.plan i s.planno).map Plan.statePages).getD [])))
      = [(a, bs)] := by
    simpa [hplan] using hpages
  subst hs
  refine (if_neg (by simp [hstandby, hwarm])).trans ((if_neg (by simp [hperiod, hcovered])).trans ?_)
  rw [hmine]
  rfl

end

end Sys2Proof.Machine
end

section
/-! PROOFS. A hot standby's check (R334, R335, R338): what forming a digest, covering and posting leave of pair and stream. -/

namespace Sys2Proof.Machine

open Sys2Proof Sys2Proof.Spec

/-! ### What a message leaves of the pair -/

theorem LinkOnly.pair {d e : Dev} (h : LinkOnly d e) : e.pair = d.pair := by
  obtain ⟨_, _, _, _, _, _, _, _, _, rfl⟩ := h.parts
  rfl

theorem Dev.egress_pair (d : Dev) (p n : Nat) : (d.egress p n).pair = d.pair := by
  induction n generalizing d with
  | zero => rfl
  | succ n ih =>
    rw [Dev.egress]
    split
    · rfl
    · exact (ih _).trans (LinkOnly.pair (Dev.transmit_linkOnly _ _ _))

theorem Dev.sendMsg_pair (d : Dev) (code rtag : Nat) (payload : List Byte) : (d.sendMsg code rtag payload).pair = d.pair := Dev.egress_pair _ _ _

/-! ### Digest, cover and completion -/

/-- The digest of a period that the twin has sent none for is held, and time and the pair stay as they are. -/
theorem Dev.formDigest_held {d : Dev} {i : Nat} {p : Period} (hnone : Tab.find? (d.stream i).twinDigests p.tag = none) (code outlen : Nat)
    (out : List Byte) : ∃ g my, (d.formDigest i p code outlen out).stream i = { d.stream i with lastdig := g, myDigests := my }
      ∧ (d.formDigest i p code outlen out).pair = d.pair ∧ (d.formDigest i p code outlen out).cad = d.cad := by
  let g := periodDigest p.tag outlen (cstatOf (d.stream i) p code) out
  let s := { d.stream i with lastdig := BitVec.ofNat 64 g, myDigests := Tab.put (d.stream i).myDigests p.tag g }
  let v := if d.pair.state = 2 then (d.putStream i s).sendMsg 4 s.twin (leBytes 4 s.twin ++ leBytes 8 p.tag ++ leBytes 4 outlen ++ leBytes 4 code
    ++ leBytes 16 g) else d.putStream i s
  have hv : v.stream i = s ∧ v.pair = d.pair ∧ v.cad = d.cad := by
    have hput : (d.putStream i s).stream i = s := d.stream_putStream i s
    unfold v
    split
    · have hlink := (d.putStream i s).sendMsg_linkChange 4 s.twin (leBytes 4 s.twin ++ leBytes 8 p.tag ++ leBytes 4 outlen ++ leBytes 4 code
        ++ leBytes 16 g)
      exact ⟨(hlink.stream i).trans hput, Dev.sendMsg_pair _ _ _ _, hlink.cad⟩
    · exact ⟨hput, rfl, rfl⟩
  have heq : d.formDigest i p code outlen out = v := by
    change v.compareDigests i p.tag = v
    exact Dev.compareDigests_unheard (by rw [hv.1]; exact hnone)
  rw [heq]
  exact ⟨_, _, hv⟩

theorem Dev.covering_eventChange (d : Dev) (i : Nat) (p : Period) :
    EventChange ((d.putStream i { d.stream i with cqTail := p.cqIndex, cqPhase := p.cqPhase, ncover := (d.stream i).ncover + 1 }).setPair
      { d.pair with covercnt := d.pair.covercnt + 1 }) (d.covering i p) := Dev.raiseS_eventChange _ _ _ _ _ _ _

theorem Dev.hostWriteFor_eventChange (d : Dev) (dom a : Nat) (bs : List Byte) : EventChange d (d.hostWriteFor dom a bs) := by
  unfold Dev.hostWriteFor
  split
  · exact .refl d
  · exact ⟨_, _, _, _, _, _, rfl⟩

theorem EventChange.putStream {d e : Dev} (h : EventChange d e) (i : Nat) (t : Stream) : EventChange (d.putStream i t) (e.putStream i t) := by
  obtain ⟨_, _, _, _, _, _, rfl⟩ := h
  exact ⟨_, _, _, _, _, _, rfl⟩

/-- A completion changes its stream's ring and counts. -/
theorem Dev.complete_eventChange (d : Dev) (i : Nat) (x : Desc) (code ct outlen slot frame : Nat) (trunc ovb : Bool) :
    ∃ t, EventChange (d.putStream i t) (d.complete i x code ct outlen slot frame trunc ovb) ∧ t.due = (d.stream i).due
      ∧ t.ncover = (d.stream i).ncover := by
  by_cases hfull : ringFull (d.stream i) = true
  · obtain ⟨lost, nerr, heq⟩ := Dev.complete_full (x := x) (code := code) (ct := ct) (outlen := outlen) (slot := slot) (frame := frame)
      (trunc := trunc) (ovb := ovb) hfull
    rw [heq]
    exact ⟨_, .refl _, rfl, rfl⟩
  · let t := (d.stream i).completed code d.ns
    let w := (d.hostWriteFor (d.stream i).domain ((d.stream i).cqbase + 32 * (d.stream i).cqTail) (completionBytes x (d.stream i).cqPhase
      (d.stream i).lost code ct outlen slot frame trunc ((d.stream i).flags ≠ 0) ovb)).putStream i t
    have hwritten : EventChange (d.putStream i t) w := (d.hostWriteFor_eventChange _ _ _).putStream i t
    have heq : d.complete i x code ct outlen slot frame trunc ovb
        = if x.notify then w.vector (((d.domain (d.stream i).domain).bind.map Prod.fst).getD 256) (d.stream i).vector else w := if_neg hfull
    refine ⟨t, ?_, rfl, rfl⟩
    rw [heq]
    split
    · exact hwritten.trans (w.vector_eventChange _ _)
    · exact hwritten

/-- A period that is posted leaves what is due, what was covered, and time. -/
theorem Dev.postPeriod_frame (d : Dev) (i : Nat) (p : Period) (x : Desc) (out : List Byte) :
    (d.postPeriod i p x out).cad = d.cad ∧ (d.postPeriod i p x out).pair = d.pair ∧ ((d.postPeriod i p x out).stream i).due = (d.stream i).due
      ∧ ((d.postPeriod i p x out).stream i).ncover = (d.stream i).ncover := by
  let w := d.hostWriteFor (d.stream i).domain x.outaddr out
  have hwrite : EventChange d w := d.hostWriteFor_eventChange _ _ _
  obtain ⟨t, hchange, hdue, hcover⟩ := w.complete_eventChange i x (p.out x).2 (p.postCt.getD 0) (p.out x).1 p.postSlot p.postFrame p.trunc p.ovb
  have hstream : (d.postPeriod i p x out).stream i = t := (hchange.stream i).trans (w.stream_putStream i t)
  rw [hwrite.stream] at hdue hcover
  rw [hstream]
  exact ⟨hchange.cad.trans hwrite.cad, hchange.pair.trans hwrite.pair, hdue, hcover⟩

/-! ### The check (R334, R335) -/

/-- Of two times the later counts. -/
theorem ctAt_later {d v : Dev} {t u : Nat} (h : v.cad.ct = ctAt d t) (hle : t ≤ u) : (v.atNs u).cad.ct = ctAt d u := by
  change max v.cad.ct (u * 65536) = max d.cad.ct (u * 65536)
  rw [h, ctAt, max_assoc, max_eq_right (Nat.mul_le_mul_right 65536 hle)]

/-- A hot stream once period `p` has been checked. -/
def Stream.checked (s : Stream) (p : Period) : Stream :=
  { s with due := s.due.erase p, postTags := s.postTags.filter (fun t => decide (p.tag < t)) }

/-- The device at time `t`, period `p` checked and its digest formed. -/
def Dev.checkedAt (d : Dev) (i : Nat) (p : Period) (x : Desc) (t : Nat) : Dev :=
  let v := (d.atNs t).putStream i ((d.stream i).checked p)
  let o := v.output (d.stream i) (p.out x).1
  o.2.formDigest i p (p.out x).2 (p.out x).1 o.1

/-- When a hot standby checks for the twin's POST. -/
def Dev.coverCheckNs (d : Dev) (s : Stream) (p : Period) : Nat :=
  (if s.fixedpost then p.postEnd else p.postCt.getD 0) + 3000 + (if d.pair.skewhi then d.pair.skew.natAbs else 0)

section
variable {d : Dev} {i : Nat} {p : Period} {x : Desc} {s : Stream} (hs : d.stream i = s)
include hs

theorem Dev.checkedAt_frame (hnone : Tab.find? s.twinDigests p.tag = none) (hreach : Reaches d s.domain s.obuf (p.out x).1) (t : Nat) :
    (d.checkedAt i p x t).cad.ct = ctAt d t ∧ (d.checkedAt i p x t).pair = d.pair
      ∧ ((d.checkedAt i p x t).stream i).due = s.due.erase p ∧ ((d.checkedAt i p x t).stream i).ncover = s.ncover
      ∧ ((d.checkedAt i p x t).stream i).ncpl = s.ncpl := by
  subst hs
  let v := (d.atNs t).putStream i ((d.stream i).checked p)
  have hv : v.stream i = (d.stream i).checked p := (d.atNs t).stream_putStream i _
  obtain ⟨r, -, hout⟩ := Dev.output_of_reaches (d := v) (s := d.stream i) (n := (p.out x).1) hreach
  have hheld : (v.setRsv r).stream i = (d.stream i).checked p := hv
  obtain ⟨g, my, hstream, hpair, hcad⟩ := Dev.formDigest_held (d := v.setRsv r) (i := i) (p := p) (by rw [hheld]; exact hnone)
    (p.out x).2 (p.out x).1 (Mem.readBytes v.rsv.mem (d.stream i).obuf (p.out x).1)
  have heq : d.checkedAt i p x t = (v.setRsv r).formDigest i p (p.out x).2 (p.out x).1 (Mem.readBytes v.rsv.mem (d.stream i).obuf (p.out x).1) := by
    change (v.output (d.stream i) (p.out x).1).2.formDigest i p (p.out x).2 (p.out x).1 (v.output (d.stream i) (p.out x).1).1 = _
    rw [hout]
  rw [heq, hstream, hpair, hcad, hheld]
  exact ⟨rfl, rfl, rfl, rfl, rfl⟩

variable (hdue : s.due.find? (fun q => q.fail == 0) = some p) (hdesc : p.desc = some x) (hmirror : s.mirror = 2) (hrole : s.role = 1)
include hdue hdesc hmirror hrole

theorem hotCoverCheck_posted (hposted : p.tag ∈ s.postTags) : hotCoverCheck i d = d.checkedAt i p x (d.coverCheckNs s p) := by
  subst hs
  simp only [hotCoverCheck, hdue, hdesc]
  exact (if_neg (not_not.mpr ⟨hmirror, hrole⟩)).trans (if_pos (decide_eq_true hposted))

theorem hotCoverCheck_covers (hopen : p.tag ∉ s.postTags) : ∃ out, hotCoverCheck i d =
    (((d.checkedAt i p x (d.coverCheckNs s p)).covering i p).atNs
      (d.coverCheckNs s p + shareNs (if s.fixedpost then p.outsize else (p.out x).1) s.eshare)).postPeriod i p x out := by
  subst hs
  refine ⟨(((d.atNs (d.coverCheckNs (d.stream i) p)).putStream i ((d.stream i).checked p)).output (d.stream i) (p.out x).1).1, ?_⟩
  simp only [hotCoverCheck, hdue, hdesc]
  exact (if_neg (not_not.mpr ⟨hmirror, hrole⟩)).trans (if_neg (by simpa using hopen))

/-- What a hot standby's check leaves: the period is no longer due, and one that no POST came for is covered. -/
theorem hotCoverCheck_frame (hnone : Tab.find? s.twinDigests p.tag = none) (hreach : Reaches d s.domain s.obuf (p.out x).1) :
    (hotCoverCheck i d).cad.ct = ctAt d (if p.tag ∈ s.postTags then d.coverCheckNs s p
        else d.coverCheckNs s p + shareNs (if s.fixedpost then p.outsize else (p.out x).1) s.eshare)
      ∧ ((hotCoverCheck i d).stream i).due = s.due.erase p
      ∧ (p.tag ∈ s.postTags → ((hotCoverCheck i d).stream i).ncover = s.ncover ∧ ((hotCoverCheck i d).stream i).ncpl = s.ncpl
          ∧ (hotCoverCheck i d).pair.covercnt = d.pair.covercnt)
      ∧ (p.tag ∉ s.postTags → ((hotCoverCheck i d).stream i).ncover = s.ncover + 1
          ∧ (hotCoverCheck i d).pair.covercnt = d.pair.covercnt + 1) := by
  obtain ⟨hct, hpair, hdue', hcover, hcpl⟩ := Dev.checkedAt_frame hs hnone hreach (d.coverCheckNs s p)
  by_cases hposted : p.tag ∈ s.postTags
  · rw [hotCoverCheck_posted hs hdue hdesc hmirror hrole hposted, if_pos hposted]
    exact ⟨hct, hdue', fun _ => ⟨hcover, hcpl, by rw [hpair]⟩, fun h => absurd hposted h⟩
  · obtain ⟨out, heq⟩ := hotCoverCheck_covers hs hdue hdesc hmirror hrole hposted
    rw [heq, if_neg hposted]
    generalize d.checkedAt i p x (d.coverCheckNs s p) = v at hct hpair hdue' hcover hcpl
    have hcovering := v.covering_eventChange i p
    have hstream := (hcovering.stream i).trans (v.stream_putStream i _)
    generalize d.coverCheckNs s p = check at hct
    generalize shareNs (if s.fixedpost then p.outsize else (p.out x).1) s.eshare = share
    obtain ⟨hcad, hpaired, hdue'', hcover'⟩ := ((v.covering i p).atNs (check + share)).postPeriod_frame i p x out
    refine ⟨?_, ?_, fun h => absurd h hposted, fun _ => ⟨?_, ?_⟩⟩
    · rw [hcad]
      exact ctAt_later ((congrArg Cad.ct hcovering.cad).trans hct) (Nat.le_add_right check share)
    · exact hdue''.trans ((congrArg Stream.due hstream).trans hdue')
    · exact hcover'.trans ((congrArg Stream.ncover hstream).trans (congrArg (· + 1) hcover))
    · rw [hpaired]
      exact (congrArg Pair.covercnt hcovering.pair).trans (congrArg (fun q : Pair => q.covercnt + 1) hpair)

end

end Sys2Proof.Machine
end

section
/-! PROOFS. The obligation that the twin's messages settle (R323 to R326, R330 to R341), a lemma for each message. -/

namespace Sys2Proof.Spec

open Sys2Proof Sys2Proof.Machine

section
variable {d : Dev} (hquiet : Quiet d)
include hquiet

/-! ### The pair -/

theorem gives_join {j : Join} (hstate : d.pair.state = 1) (hup : (d.port 4).state = 3) :
    ∃ e : Dev, Gives (.join j) d e ∧ PairOnly d e ∧ e.streams = d.streams
      ∧ (d.joinErr j = 0 → d.cad.active = true → j.slen ≠ 0 → e.pair.state = 2 ∧ e.pair.joinerr = 0 ∧ e.pair.hbmiss = 0)
      ∧ (d.joinErr j = 0 → d.cad.active = false ∨ j.slen = 0 → e.pair.state = 1 ∧ e.pair.join = some j)
      ∧ (d.joinErr j ≠ 0 → e.pair.state = 1 ∧ e.pair.joinerr = d.joinErr j) :=
  ⟨_, hquiet.gives (fun _ => rfl), join_changes hstate hup⟩

theorem gives_hb {m : Heartbeat} (hpair : d.pair.state ≠ 0) (i : Nat) : ∃ e : Dev, Gives (.hb m) d e ∧ PairOnly d e ∧ e.pair.lasthb = d.ns
    ∧ e.pair.hbmiss = 0
    ∧ (m.lastSent ≠ 0 → e.pair.skew = skewOf m.sent d.ns m.lastSent m.lastArr (signedOf 16 (d.port 4).asym)
      ∧ (1000 < e.pair.skew.natAbs → e.pair.skewhi = true
        ∧ ((d.stream i).mirror ≠ 0 → d.pair.skewhi = false → (e.stream i).susp = true))
      ∧ (e.pair.skew.natAbs ≤ 800 → e.pair.skewhi = false)) := by
  refine ⟨hb m d, hquiet.gives (fun _ => rfl), ?_⟩
  by_cases hsent : m.lastSent = 0
  · rw [hb_first hpair hsent]
    exact ⟨rfl, rfl, rfl, fun h => absurd hsent h⟩
  · rw [hb_skew hpair hsent]
    generalize skewOf m.sent d.ns m.lastSent m.lastArr (signedOf 16 (d.port 4).asym) = skew
    let v := d.setPair (d.pair.heard m d.ns)
    obtain ⟨honly, hskew⟩ := v.setSkew_pair skew
    refine ⟨(d.setPair_pairOnly _).trans honly, ?_⟩
    rw [hskew]
    refine ⟨rfl, rfl, fun _ => ⟨rfl, fun hhigh => ⟨if_pos hhigh, fun hmirror hlow => ?_⟩, fun hlow => ?_⟩⟩
    · exact Dev.setSkew_susp (d := v) hmirror hlow hhigh
    · exact (if_neg (Nat.not_lt.mpr (hlow.trans (by decide)))).trans (if_pos hlow)

theorem gives_hbCheck (hpair : d.pair.state = 2) (hactive : d.cad.active = true) (hstrobed : d.cad.strobed = true)
    (hopen : d.pair.hbDone = false) (hslen : 0 < d.slen) :
    (d.pair.hbSlot = d.slotStart → ∃ e : Dev, Gives .hbCheck d e ∧ e.pair = { d.pair with hbDone := true }
      ∧ e.cad.ct = ctAt d (d.slotStart + 4000) ∧ e.streams = d.streams)
    ∧ (d.pair.hbSlot + d.slen ≤ d.slotStart → ∃ e : Dev, Gives .hbCheck d e
      ∧ (d.pair.hbmiss = 0 → e.pair.hbmiss = 1 ∧ e.pair.state = 2)
      ∧ (d.pair.hbmiss = 1 → e.pair.hbmiss = 2 ∧ e.pair.state = 3
        ∧ ∀ n, (d.stream n).standby = true → e.stream n = (d.stream n).promote)) := by
  have hgives : Gives .hbCheck d (hbCheck d) := hquiet.gives (fun _ => rfl)
  refine ⟨fun hheard => ⟨_, hgives, ?_⟩, fun hmissed => ⟨_, hgives, fun hfirst => ?_,
    hbCheck_isolates hpair hactive hstrobed hopen hmissed⟩⟩
  · rw [hbCheck_heard hpair hactive hstrobed hopen hslen hheard]
    exact ⟨rfl, rfl, rfl⟩
  · rw [hbCheck_first hpair hactive hstrobed hopen hmissed hfirst]
    exact ⟨by simp [Pair.missed, hfirst], hpair⟩

theorem gives_mapMsg_detach {m : MapMsg} (hpair : d.pair.state ≠ 0) (hown : m.own = 0) (hother : m.other = 0)
    (hkept : d.pair.detached = false ∨ d.pair.detachAt.isSome = true) : Gives (.mapMsg m) d (d.setPair (d.pair.detaching m)) := by
  rw [← mapMsg_detach hpair hown hother hkept]
  exact hquiet.gives (fun _ => rfl)

theorem gives_mapMsg_unpairs {m : MapMsg} (hpair : d.pair.state ≠ 0) (hown : m.own = 0) (hother : m.other = 0)
    (hdetached : d.pair.detached = true) (hat : d.pair.detachAt = none) : ∃ e : Dev, Gives (.mapMsg m) d e ∧ PairOnly d e ∧ e.pair.state = 0
      ∧ e.pair.twin = 0 ∧ e.streams = d.streams := by
  refine ⟨mapMsg m d, hquiet.gives (fun _ => rfl), ?_⟩
  rw [mapMsg_unpairs hpair hown hother hdetached hat]
  obtain ⟨hstate, htwin, hstreams⟩ := Dev.unpair_unpaired (d := d.setPair { d.pair with twinDetached := true }) hpair
  exact ⟨(d.setPair_pairOnly _).trans (Dev.unpair_pairOnly _), hstate, htwin, hstreams⟩

/-! ### A stream that the twin names -/

section
variable {h i : Nat} {s : Stream} (hknown : d.streamOf h = some (i, s))
include hknown

theorem gives_postMsg (hmirror : s.mirror ≠ 0) (tag idx : Nat) : ∃ e : Dev, Gives (.postMsg h tag idx) d e ∧ e = { d with streams := e.streams }
    ∧ (e.stream i).lastpost = tag ∧ (s.role = 1 → tag ∈ (e.stream i).postTags ∧ (e.stream i).cqTail = (idx + 1) % 2 ^ s.cqLog) := by
  refine ⟨postMsg h tag idx d, hquiet.gives (fun _ => rfl), ?_⟩
  rw [postMsg_eq hknown hmirror, Dev.stream_putStream]
  obtain ⟨hlast, htags, htail⟩ := (s.posted tag).postedAt_frame idx
  refine ⟨rfl, ?_, fun hrole => ?_⟩
  · split
    · exact hlast
    · rfl
  · rw [if_pos hrole, htags]
    exact ⟨Stream.mem_posted hrole tag, htail⟩

theorem gives_digestMsg (hmirror : s.mirror = 2) (tag len code g : Nat) :
    (Tab.find? s.myDigests tag = none → ∃ e : Dev, Gives (.digestMsg h tag len code g) d e
      ∧ StreamSet d e i { s with twinDigests := Tab.put s.twinDigests tag g })
    ∧ (∀ own, Tab.find? s.myDigests tag = some own → ∃ e : Dev, Gives (.digestMsg h tag len code g) d e
      ∧ (own = g → e.pair = d.pair ∧ (e.stream i).nmismatch = s.nmismatch)
      ∧ (own ≠ g → e.pair.mismatchcnt = d.pair.mismatchcnt + 1 ∧ (e.stream i).nmismatch = s.nmismatch + 1
        ∧ e.pair.resyncs = d.pair.resyncs ++ [(i, d.nextFrame, false)])) := by
  have hgives : Gives (.digestMsg h tag len code g) d (digestMsg h tag g d) := hquiet.gives (fun _ => rfl)
  rw [digestMsg_eq hknown hmirror] at hgives
  let u := { s with twinDigests := Tab.put s.twinDigests tag g }
  have hu : (d.putStream i u).stream i = u := d.stream_putStream i u
  refine ⟨fun hunformed => ?_, fun own hown => ?_⟩
  · rw [Dev.compareDigests_unformed (by rw [hu]; exact hunformed)] at hgives
    exact ⟨_, hgives, putStream_streamSet d i u⟩
  · refine ⟨_, hgives, ?_⟩
    rw [Dev.compareDigests_both (own := own) (twin := g) (by rw [hu]; exact hown) (by rw [hu]; exact Tab.find?_put_same _ _ _), hu]
    refine ⟨fun heq => ?_, fun hne => ?_⟩
    · rw [if_pos heq, Dev.stream_putStream]
      exact ⟨rfl, rfl⟩
    · rw [if_neg hne]
      have hcounted := ((d.putStream i u).putStream i (u.compared tag)).mismatch_counted i tag
      rwa [Dev.stream_putStream] at hcounted

theorem gives_mapMsg_named (hs : d.stream i = s) {m : MapMsg} (hpair : d.pair.state ≠ 0) (hother : m.other = h) (hh : h ≠ 0)
    (hmode : s.mirror ≠ 0 ∨ s.nmode ≠ 0) (htwin : s.twin = m.own) (hmap : m.mode ≠ 0) :
    (m.digest ≠ s.plandig.toNat → ∃ e : Dev, Gives (.mapMsg m) d e ∧ PairOnly d e ∧ (∀ n, n ≠ i → e.stream n = d.stream n)
      ∧ e.stream i = { s with nmode := 0, resyncing := false, susp := s.mirror != 0 && d.pair.skewhi } ∧ (∀ t, (i, t) ∉ e.pair.mirrors))
    ∧ (m.digest = s.plandig.toNat → ∃ e : Dev, Gives (.mapMsg m) d e ∧ e.rsv.mem = d.rsv.mem ∧ (∀ n, n ≠ i → e.stream n = d.stream n)
      ∧ e.stream i = (if s.resyncing then { s with susp := true } else s)) := by
  subst hother hs
  have hgives : Gives (.mapMsg m) d (mapMsg m d) := hquiet.gives (fun _ => rfl)
  have hnext := Stream.nextMode_ne_zero.mpr hmode
  rw [mapMsg_named hpair hh hknown hnext htwin hmap] at hgives
  refine ⟨fun hdigest => ⟨_, hgives, ?_⟩, fun hdigest => ⟨_, hgives, ?_⟩⟩
  · rw [if_pos hdigest]
    obtain ⟨honly, hothers, hstream, hmirrors⟩ := (d.setPair (d.pair.mapped m)).dropMirror_dropped i
    exact ⟨(d.setPair_pairOnly _).trans honly, hothers, hstream, hmirrors⟩
  · rw [if_neg (not_not.mpr hdigest)]
    by_cases hresyncing : (d.stream i).resyncing = true
    · rw [if_pos hresyncing, if_pos hresyncing]
      obtain ⟨hmem, hstreams⟩ := Dev.resync_frame (d := d.setPair (d.pair.mapped m)) (i := i) hnext m.boundary
      refine ⟨hmem, fun n hn => ?_, ?_⟩
      · rw [Dev.stream, hstreams]
        exact d.stream_putStream_other i n _ hn
      · rw [Dev.stream, hstreams]
        exact (d.stream_putStream i _).trans (Stream.awaiting_of_resyncing hresyncing)
    · rw [if_neg hresyncing, if_neg hresyncing]
      exact ⟨rfl, fun _ _ => rfl, rfl⟩

theorem gives_resyncMsg (hmode : s.mirror ≠ 0 ∨ s.nmode ≠ 0) (hrole : s.nextRole = 1) (t n : Nat) (done : Bool) :
    ∃ e : Dev, Gives (.resyncMsg h t n done) d e ∧ (e.stream i).susp = true
      ∧ (done = false → e.rsv = d.rsv ∧ (e.stream i).descs = s.descs)
      ∧ (done = true → (e.stream i).descs = []
        ∧ e.pair.mirrors.find? (fun m => m.1 == i) = some (i, d.frameAtOrAfter (max t (d.ns + 2 * d.slen)))) := by
  have hgives : Gives (.resyncMsg h t n done) d (resyncMsg h t n done d) := hquiet.gives (fun _ => rfl)
  have hnext := Stream.nextMode_ne_zero.mpr hmode
  refine ⟨_, hgives, ?_⟩
  cases done with
  | false =>
    have hstream : (resyncMsg h t n false d).stream i = s.awaiting := by
      rw [resyncMsg_starts hknown hnext hrole]
      exact d.stream_putStream i _
    rw [hstream, resyncMsg_starts hknown hnext hrole]
    exact ⟨rfl, fun _ => ⟨rfl, rfl⟩, fun h => absurd h (by decide)⟩
  | true =>
    obtain ⟨r, hdone⟩ := resyncMsg_done hknown hnext hrole t n
    have hstream : (resyncMsg h t n true d).stream i = { s.awaiting with descs := [] } := by
      rw [hdone]
      exact d.stream_putStream i _
    rw [hstream, hdone]
    exact ⟨rfl, fun h => absurd h (by decide), fun _ => ⟨rfl, find?_filter_append _ i _⟩⟩

end

/-! ### A stream at a boundary, and its records -/

section
variable {i : Nat} {s : Stream} (hs : d.stream i = s)
include hs

theorem gives_mirrorApply_applies {t : Nat} (hends : d.pair.ends.find? (fun e => e.1 == i) = none)
    (hmirrors : d.pair.mirrors.find? (fun e => e.1 == i) = some (i, t)) (hmode : s.mirror ≠ 0 ∨ s.nmode ≠ 0) :
    ∃ e : Dev, Gives (.mirrorApply i) d e ∧ e.cad.ct = ctAt d t
      ∧ (s.nmode ≠ 0 → e.stream i = { s with mirror := s.nmode, role := s.nrole, nmode := 0, promoted := false, resyncing := false,
                                             susp := d.pair.skewhi })
      ∧ (s.nmode = 0 → e.stream i = { s with resyncing := false, susp := d.pair.skewhi }) := by
  subst hs
  refine ⟨_, hquiet.gives (fun _ => rfl), ?_⟩
  obtain ⟨p, heq⟩ := mirrorApply_applies (Stream.nextMode_ne_zero.mpr hmode) hends hmirrors
  rw [heq, Dev.stream_putStream]
  exact ⟨rfl, fun h => Stream.mirrored_new h _, fun h => Stream.mirrored_again h _⟩

theorem gives_mirrorApply_ends {t : Nat} (hends : d.pair.ends.find? (fun e => e.1 == i) = some (i, t)) (hmode : s.mirror ≠ 0 ∨ s.nmode ≠ 0) :
    ∃ e : Dev, Gives (.mirrorApply i) d e ∧ e.cad.ct = ctAt d t ∧ e.stream i = modeNone s := by
  subst hs
  refine ⟨_, hquiet.gives (fun _ => rfl), ?_⟩
  obtain ⟨p, heq⟩ := mirrorApply_ends (Stream.nextMode_ne_zero.mpr hmode) hends
  rw [heq, Dev.stream_putStream]
  exact ⟨rfl, rfl⟩

theorem gives_forwardRecord {ib idx ct a : Nat} {entry data : List Byte} (hstandby : s.standby = true) (hpair : d.pair.state = 2)
    (hstate : s.state = 2 ∨ s.state = 3) (hfree : s.freeIb = some ib) (hlen : data.length = (descOf entry idx ib).len)
    (hfits : data.length ≤ s.slotkb * 1024) (ha : s.ibuf + ib * s.slotkb * 1024 = a) (hin : a + data.length ≤ 0x6000000000)
    (hown : d.rsv.owned s.domain a data.length = true) (hwhole : Whole64 d a data.length) :
    ∃ e : Dev, Gives (.forwardRecord i entry idx ct data) d e ∧ (e.stream i).fwdidx = (idx + 1) % 2 ^ s.sqLog
      ∧ (e.stream i).descs = s.descs ++ [{ descOf entry idx ib with arr := some (ct * 65536), fwd := true }]
      ∧ Mem.readBytes e.rsv.mem a data.length = data ∧ (∀ p, (p < a ∨ a + data.length ≤ p) → Mem.read e.rsv.mem p = Mem.read d.rsv.mem p)
      ∧ e = { d with pair := e.pair, streams := e.streams, rsv := e.rsv } := by
  refine ⟨_, hquiet.gives (fun _ => rfl), ?_⟩
  obtain ⟨p, heq⟩ := forwardRecord_kept hs ha hstandby hpair hstate hfree hlen hfits (ct := ct) hin hown hwhole
  rw [heq, Dev.stream_putStream]
  refine ⟨rfl, rfl, ?_, fun q hq => ?_, rfl⟩
  · exact (congrArg (fun m => Mem.readBytes m a data.length) (Rsv.charge_write_mem _ _ _ _ _ _)).trans (Mem.readBytes_writeBytes _ _ _)
  · exact (congrArg (fun m => Mem.read m q) (Rsv.charge_write_mem _ _ _ _ _ _)).trans (Mem.read_writeBytes_outside _ _ _ q hq)

theorem gives_deltaRecord_covered {tag : Nat} (hstandby : s.standby = true) (hwarm : s.mirror = 1) (hcovered : tag ∈ s.coverTags)
    (ws : List (Nat × List Byte)) : ∃ e : Dev, Gives (.deltaRecord i tag ws) d e ∧ tag ∈ (e.stream i).deltaTags ∧ e.rsv = d.rsv := by
  refine ⟨_, hquiet.gives (fun _ => rfl), ?_⟩
  obtain ⟨p, heq⟩ := deltaRecord_covered hs hstandby hwarm hcovered ws
  rw [heq, Dev.stream_putStream]
  exact ⟨s.mem_withDelta tag, rfl⟩

theorem gives_deltaRecord_applied {tag a : Nat} {bs : List Byte} {pl : Plan} (hstandby : s.standby = true) (hwarm : s.mirror = 1)
    (hperiod : s.period = none) (hcovered : tag ∉ s.coverTags) (hplan : d.plan i s.planno = some pl)
    (hpages : ∀ k ∈ pagesOf a bs.length, k ∈ pl.statePages) : ∃ e : Dev, Gives (.deltaRecord i tag [(a, bs)]) d e
      ∧ tag ∈ (e.stream i).deltaTags ∧ Mem.readBytes e.rsv.mem a bs.length = bs
      ∧ ∀ p, (p < a ∨ a + bs.length ≤ p) → Mem.read e.rsv.mem p = Mem.read d.rsv.mem p := by
  refine ⟨_, hquiet.gives (fun _ => rfl), ?_⟩
  obtain ⟨p, heq⟩ := deltaRecord_applied hs hstandby hwarm hperiod hcovered hplan hpages
  rw [heq]
  refine ⟨?_, Mem.readBytes_writeBytes _ _ _, fun q hq => Mem.read_writeBytes_outside _ _ _ q hq⟩
  have hstream : (((d.setPair p).putStream i (s.withDelta tag)).setRsv ((d.rsv.write a bs).moved bs.length)).stream i = s.withDelta tag :=
    (d.setPair p).stream_putStream i _
  rw [hstream]
  exact s.mem_withDelta tag

end

end

/-- Settles O46: each message is one change of the pair or of the stream that it names, and what it raises or sends leaves both as they are. -/
theorem pairMessagesReachTheirStream : Obligations.PairMessagesReachTheirStream := by
  unfold Obligations.PairMessagesReachTheirStream
  intro d i h s hquiet hs known mirrored pr fault
  refine ⟨fun j hstate hup => ?join, fun m hpair => ?heartbeat, fun hpair hactive hstrobed hopen hslen => ?check,
    fun tag idx hknown hmirror => gives_postMsg hquiet hknown hmirror tag idx,
    fun tag len code g hknown hmirror => gives_digestMsg hquiet hknown hmirror tag len code g,
    fun m hpair hother hh hknown hmode htwin hmap => gives_mapMsg_named hquiet hknown hs hpair hother hh hmode htwin hmap,
    fun m hpair hown hother => ?detach,
    fun t n done hknown hmode hrole => gives_resyncMsg hquiet hknown hmode hrole t n done,
    fun t hends hmirrors hmode => gives_mirrorApply_applies hquiet hs hends hmirrors hmode,
    fun t hends hmode => gives_mirrorApply_ends hquiet hs hends hmode,
    fun ib entry idx ct data hstandby hpair hstate hfree hlen hfits hin hown hwhole =>
      gives_forwardRecord hquiet hs hstandby hpair hstate hfree hlen hfits rfl hin hown hwhole,
    fun tag ws hstandby hwarm hcovered => gives_deltaRecord_covered hquiet hs hstandby hwarm hcovered ws,
    fun tag bs a pl hstandby hwarm hperiod hcovered hplan hpages =>
      gives_deltaRecord_applied hquiet hs hstandby hwarm hperiod hcovered hplan hpages,
    fun p x hdue hdesc hmirror hrole hnone hreach => ?cover⟩
  case join =>
    obtain ⟨e, hgives, honly, hstreams, hpaired, hwaits, hrefused⟩ := gives_join (j := j) hquiet hstate hup
    have hsame (hversion : j.version / 2 ^ 24 = d.fh.fwversion.toNat / 2 ^ 24) : d.joinErr j = fault j := if_neg (not_not.mpr hversion)
    refine ⟨e, hgives, honly, hstreams, fun hversion hfault => hpaired ((hsame hversion).trans hfault),
      fun hversion hfault => hwaits ((hsame hversion).trans hfault), fun hversion => ?_, fun hversion hfault => ?_⟩
    · have herr : d.joinErr j = 1 := if_pos hversion
      rw [herr] at hrefused
      exact hrefused (by decide)
    · rw [hsame hversion] at hrefused
      exact hrefused hfault
  case heartbeat =>
    subst hs
    exact gives_hb hquiet hpair i
  case check => exact gives_hbCheck hquiet hpair hactive hstrobed hopen hslen
  case detach =>
    exact ⟨gives_mapMsg_detach hquiet hpair hown hother, gives_mapMsg_unpairs hquiet hpair hown hother⟩
  case cover => exact ⟨_, hquiet.gives (fun _ => rfl), hotCoverCheck_frame hs hdue hdesc hmirror hrole hnone hreach⟩

end Sys2Proof.Spec
end

section
/-! PROOFS. The DEVICE commands (R307, R310, R362, R364, R374, R425, R434, R442): what each answers and sets, the module reset that one of
them schedules, and the obligation they settle. -/

namespace Sys2Proof

/-- A search by key reads the table. -/
theorem Tab.find?_eq_list_find? {α : Type} (t : Tab α) (k : Nat) :
    (List.find? (fun (p : Nat × α) => p.1 == k) t).map Prod.snd = Tab.find? t k := by
  induction t with
  | nil => rfl
  | cons p t ih =>
    obtain ⟨i, v⟩ := p
    by_cases h : i = k
    · simp [Tab.find?, h]
    · simp [Tab.find?, h, ih]

end Sys2Proof

namespace Sys2Proof.Machine

open Sys2Proof Sys2Proof.Spec

/-! ### The health record (R442) -/

/-- A page is full but for the last one; both hold whole values of 8 bytes. -/
theorem Dev.healthPage_length (d : Dev) {off : Nat} (hpage : off % 4096 = 0) : (d.healthPage off).length = min 4096 (35728 - off) := by
  have hvalues : (d.healthPage off).length = min 4096 (35728 - off) / 8 * 8 := by
    simp [Dev.healthPage, List.length_flatMap, leBytes_length, List.map_const']
  omega

theorem cmdDeviceHealth_ok {w : Dev} {r : Req} (hpage : r.arg 0 % 4096 = 0) (hin : r.arg 0 < 35728) :
    cmdDeviceHealth r w = (w, { res := [35728], payload := w.healthPage (r.arg 0) }) :=
  if_neg (by omega)

/-! ### Rekeys (R304, R310) -/

/-- The port that has formed frame `f` at time `now`: it keeps the frame until the partner acknowledges it. -/
def Port.keeping (x : Port) (f : Frame) (now : Nat) : Port :=
  { x with txseq := (x.txseq + 1) % 2 ^ 32, replay := x.replay ++ [f], lastAck := if x.replay.isEmpty then now else x.lastAck,
           credits := if f.type = 1 then x.credits.set f.cls (x.credits.getD f.cls 0 - 1) else x.credits }

/-- The frame under the port's next sequence number. -/
def Frame.numbered (f : Frame) (x : Port) : Frame := { f with seq := x.txseq }

/-- The port that keeps and sends frame `f` at time `now`. -/
def Port.launched (x : Port) (f : Frame) (now : Nat) : Port := (x.keeping (f.numbered x) now).sent (f.numbered x) now

/-- A port whose counter has not stopped it keeps the frame and sends it at once. -/
theorem Dev.launch_spec {d : Dev} {p : Nat} {x : Port} (hport : d.port p = x) (hctr : x.txctr.toNat < 2 ^ 62) (f : Frame) :
    (∃ g, Sends d (d.launch p f) p g ∧ g.type = f.type) ∧ (d.launch p f).port p = x.launched f d.ns ∧ LinkOnly d (d.launch p f) := by
  have hlaunch : d.launch p f = (d.putPort p (x.keeping (f.numbered x) d.ns)).transmit p (f.numbered x) := by
    subst hport
    rfl
  obtain ⟨hsends, hsent, -⟩ := Dev.transmit_spec (d.port_putPort p (x.keeping (f.numbered x) d.ns)) hctr (f.numbered x)
  rw [hlaunch]
  exact ⟨⟨_, hsends, rfl⟩, hsent, (d.putPort_linkOnly p _).trans (Dev.transmit_linkOnly _ _ _)⟩

/-- The port with what it draws at time `now` for its side of a rekey. -/
def Port.drawn (x : Port) (eph nonce now : Nat) : Port := { x with eph := eph, nonce := nonce, lastInit := now }

/-- Six draws make the nonce, the ephemeral key and the signature of a REKEY frame. -/
theorem Dev.sendRekey_eq {d : Dev} {p : Nat} {x : Port} (hport : d.port p = x) (kind : Nat) :
    d.sendRekey p kind = ((d.setFree (d.free + 6)).putPort p (x.drawn (d.free + 4) d.random256.1 d.ns)).launch p
      { type := 5, payload := rekeyBytes kind (d.free + 4) d.random256.1 (d.free + 5) } := by
  subst hport
  unfold Dev.sendRekey
  dsimp only
  rw [Dev.random256_snd]
  rfl

/-- An UP port that can sign and has no rekey in progress starts one with an INIT frame. -/
theorem Dev.startRekey_spec {d : Dev} {p : Nat} (hup : (d.port p).state = 3) (hidle : (d.port p).rekeypend = false)
    (hctr : (d.port p).txctr.toNat < 2 ^ 62) (hkey : d.boot.keyReady = true) :
    ∃ g, LinkOnly d (d.startRekey p) ∧ ((d.startRekey p).port p).rekeypend = true ∧ ((d.startRekey p).port p).initiator = true
      ∧ Sends d (d.startRekey p) p g ∧ g.type = 5 := by
  let x : Port := { d.port p with rekeypend := true, initiator := true }
  let v := d.putPort p x
  let u := v.setFree (v.free + 6)
  have hmay : ¬ ((d.port p).state ≠ 3 ∨ (d.port p).rekeypend = true ∨ (!d.boot.keyReady) = true) := by simp [hup, hidle, hkey]
  have hstart : d.startRekey p = v.sendRekey p 0 := if_neg hmay
  rw [hstart, Dev.sendRekey_eq (d.port_putPort p x)]
  obtain ⟨⟨g, hsends, htype⟩, hsent, hlink⟩ := Dev.launch_spec (u.port_putPort p (x.drawn (v.free + 4) v.random256.1 v.ns)) hctr
    { type := 5, payload := rekeyBytes 0 (v.free + 4) v.random256.1 (v.free + 5) }
  have hdrawn : LinkOnly d (u.putPort p (x.drawn (v.free + 4) v.random256.1 v.ns)) :=
    ((d.putPort_linkOnly p x).trans (v.setFree_linkOnly _)).trans (u.putPort_linkOnly p _)
  exact ⟨g, hdrawn.trans hlink, congrArg Port.rekeypend hsent, congrArg Port.initiator hsent, hsends, htype⟩

section
variable {w : Dev} {r : Req}

theorem cmdDeviceRekey_ok (hport : r.arg 0 ≤ 4) (hup : (w.port (r.arg 0)).state = 3) (hidle : (w.port (r.arg 0)).rekeypend = false) :
    cmdDeviceRekey r w = (w.startRekey (r.arg 0), {}) := by
  simp [cmdDeviceRekey, Nat.not_lt.mpr hport, hup, hidle, Dev.yes]

/-! ### The allow list (R307) -/

/-- The identities that a payload lists. -/
def Req.peers (r : Req) : List Nat := (List.range (r.arg 0)).map (fun k => beNat ((r.payload.drop (48 * k)).take 48))

theorem cmdDevicePeers_ok (hcount : r.arg 0 ≤ 64) (hlen : 48 * r.arg 0 ≤ r.payload.length) :
    cmdDevicePeers r w = (w.setLink { w.link with allow := r.peers }, {}) :=
  if_neg (by omega)

theorem cmdDevicePeers_many (hcount : 64 < r.arg 0) : cmdDevicePeers r w = (w, { status := 0x201 }) := if_pos (.inl hcount)

/-! ### Bindings and the window (R362, R364) -/

/-- The slot's domain is what the function map lists for it. -/
theorem Dev.slotDomain_eq (d : Dev) (f q : Nat) : d.slotDomain f q = Tab.find? d.hw.funcmap (4 * f + q) := Tab.find?_eq_list_find? _ _

/-- Domain `n` has binding `bind`, and the function map is `map`. -/
def Dev.rebound (d : Dev) (n : Nat) (bind : Option (Nat × Nat)) (map : Tab Nat) : Dev :=
  (d.putDomain n { d.domain n with bind := bind }).setHw { d.hw with funcmap := map }

theorem Dev.rebound_domain (d : Dev) (n : Nat) (bind : Option (Nat × Nat)) (map : Tab Nat) :
    (d.rebound n bind map).domain n = { d.domain n with bind := bind } :=
  d.domain_putDomain n _

theorem cmdFuncbind_bind (hf : r.arg 1 ≤ 255) (hk : r.arg 2 ≤ 3) (hbit : bitOf (r.arg 3) 0 = true) (hstate : (w.domain (r.arg 0)).state = 1)
    (hfree : (w.domain (r.arg 0)).bind = none) (hslot : w.slotDomain (r.arg 1) (r.arg 2) = none) :
    cmdFuncbind r w
      = (w.rebound (r.arg 0) (some (r.arg 1, r.arg 2)) (Tab.put w.hw.funcmap (4 * r.arg 1 + r.arg 2) (r.arg 0)), {}) := by
  simp [cmdFuncbind, Nat.not_lt.mpr hf, Nat.not_lt.mpr hk, hbit, hstate, hfree, hslot, Dev.yes, Dev.rebound]

theorem cmdFuncbind_unbind (hf : r.arg 1 ≤ 255) (hk : r.arg 2 ≤ 3) (hbit : bitOf (r.arg 3) 0 = false)
    (hstate : (w.domain (r.arg 0)).state ≠ 0) (hbound : (w.domain (r.arg 0)).bind = some (r.arg 1, r.arg 2)) (hn : r.arg 0 ≠ 0)
    (hstreams : w.streamsOf (r.arg 0) = 0) :
    cmdFuncbind r w = (w.rebound (r.arg 0) none (Tab.del w.hw.funcmap (4 * r.arg 1 + r.arg 2)), {}) := by
  simp [cmdFuncbind, Nat.not_lt.mpr hf, Nat.not_lt.mpr hk, hbit, hstate, hbound, hn, hstreams, Dev.yes, Dev.rebound]

theorem cmdWindow_ok (halign : r.arg64 0 % 0x200000 = 0) (hin : r.arg64 0 < 2 ^ 39) :
    cmdWindow r w = (w.putDomain r.domain { w.domain r.domain with wbase := r.arg64 0 }, {}) :=
  if_neg (by omega)

theorem cmdWindow_misaligned (h : r.arg64 0 % 0x200000 ≠ 0) : cmdWindow r w = (w, { status := 0x201 }) := if_pos (.inl h)

end

/-! ### The configuration (R425) -/

/-- The place of the set that is not in force. -/
def Boot.shadowSet (b : Boot) : Nat :=
  if (b.sets.getD 0 {}).valid = true ∧ (b.sets.getD 0 {}).seq = (b.config.getD {}).seq then 1 else 0

/-- The set in force with item `k` changed to `v`, one SEQ later. -/
def Boot.configWith (b : Boot) (k v : Nat) : ConfigSet :=
  { valid := true, seq := (b.config.getD {}).seq + 1, items := Tab.put (b.config.getD {}).items k v }

section
variable {b : Boot} {s t : ConfigSet} (hsets : b.sets = [s, t])
include hsets

theorem Boot.config_first (hvalid : s.valid = true) (hseq : t.valid = true → t.seq ≤ s.seq) : b.config = some s := by
  cases ht : t.valid
  · simp [Boot.config, hsets, hvalid, ht]
  · simp [Boot.config, hsets, hvalid, hseq ht]

theorem Boot.config_second (hvalid : t.valid = true) (hseq : s.valid = true → s.seq < t.seq) : b.config = some t := by
  cases hs : s.valid
  · simp [Boot.config, hsets, hvalid, hs]
  · simp [Boot.config, hsets, hvalid, hseq hs]

/-- A valid set written over the one that is not in force, one SEQ later, is in force. -/
theorem Boot.config_of_shadow_set {e : Boot} {c : ConfigSet} (hvalid : c.valid = true) (hseq : c.seq = (b.config.getD {}).seq + 1)
    (hwritten : e.sets = b.sets.set b.shadowSet c) : e.config = some c := by
  by_cases hfirst : s.valid = true ∧ (t.valid = true → t.seq ≤ s.seq)
  · obtain ⟨hs, hle⟩ := hfirst
    have hforce := Boot.config_first hsets hs hle
    have hshadow : b.shadowSet = 1 := by simp [Boot.shadowSet, hsets, hforce, hs]
    exact Boot.config_second (by rw [hwritten, hsets, hshadow]; rfl) hvalid (fun _ => by simp [hseq, hforce])
  · by_cases hs : s.valid = true
    · obtain ⟨ht, hlt⟩ : t.valid = true ∧ s.seq < t.seq := by simpa [hs] using hfirst
      have hforce := Boot.config_second hsets ht (fun _ => hlt)
      have hshadow : b.shadowSet = 0 := by simp [Boot.shadowSet, hsets, hforce, hlt.ne]
      exact Boot.config_first (by rw [hwritten, hsets, hshadow]; rfl) hvalid (fun _ => by simp [hseq, hforce])
    · have hshadow : b.shadowSet = 0 := by simp [Boot.shadowSet, hsets, hs]
      exact Boot.config_first (by rw [hwritten, hsets, hshadow]; rfl) hvalid
        (fun ht => by simp [hseq, Boot.config_second hsets ht (absurd · hs)])

end

/-- Each item takes the values of its range (R399, R401, R425). -/
theorem configOk_of_range {k v : Nat}
    (h : (k = 1 ∧ 8 ≤ v ∧ v ≤ 0x77) ∨ (k = 2 ∧ v < 64) ∨ (k = 3 ∧ 300 ≤ v ∧ v ≤ 1100) ∨ (k = 4 ∧ 400 ≤ v ∧ v ≤ 2000) ∨ k = 5) :
    configOk k v = true := by
  rcases h with ⟨rfl, hmin, hmax⟩ | ⟨rfl, hmax⟩ | ⟨rfl, hmin, hmax⟩ | ⟨rfl, hmin, hmax⟩ | rfl <;> simp [configOk, *]

theorem cmdConfig_ok {w : Dev} {r : Req} (hmin : 1 ≤ r.arg 0) (hmax : r.arg 0 ≤ 5) (hok : configOk (r.arg 0) (r.arg 1) = true) :
    ∃ j half, cmdConfig r w = (w.setBoot { w.boot with
      journal := j, journalHalf := half, sets := w.boot.sets.set w.boot.shadowSet (w.boot.configWith (r.arg 0) (r.arg 1)) }, {}) := by
  obtain ⟨j, half, herased⟩ := w.boot.erased_frame (3 + w.boot.shadowSet) 0
  have hitem : ¬ (r.arg 0 = 0 ∨ 5 < r.arg 0) := by omega
  have hconfig : cmdConfig r w = (w.setBoot { w.boot.erased (3 + w.boot.shadowSet) 0 with
      sets := (w.boot.erased (3 + w.boot.shadowSet) 0).sets.set w.boot.shadowSet (w.boot.configWith (r.arg 0) (r.arg 1)) }, {}) :=
    (if_neg hitem).trans (if_neg (by simp [hok]))
  exact ⟨j, half, by rw [hconfig, herased]⟩

/-! ### Resets (R434) -/

theorem cmdReset_ok {w : Dev} {r : Req} (h : r.arg 0 ≤ 1) :
    cmdReset r w = (w.setFh { w.fh with resetAt := some (w.ns + 10000000, r.arg 0 == 1) }, {}) :=
  if_neg (Nat.not_lt.mpr h)

/-- In READY the scheduled reset resets the core at its time. -/
theorem resetDelayExpiry_eq {d : Dev} {t : Nat} {cold : Bool} (hon : d.coreOn = true) (hreset : d.fh.resetAt = some (t, cold)) :
    resetDelayExpiry d = ((d.atNs t).setFh { d.fh with resetAt := none }).resetCore := by
  simp only [Dev.coreOn, Bool.and_eq_true, beq_iff_eq, Bool.not_eq_true'] at hon
  obtain ⟨⟨-, hready⟩, hrest⟩ := hon
  have hmoving : ¬ d.pow.moving = true := by simp [hrest]
  have hstable : ¬ (d.pow.stable = 2 ∧ d.boot.ready = true) := by omega
  unfold resetDelayExpiry
  rw [hreset]
  exact (if_neg hmoving).trans (if_neg hstable)

end Sys2Proof.Machine

namespace Sys2Proof.Spec

open Sys2Proof Sys2Proof.Machine

/-- Settles O40: each command is the equation of its case, and the reset that is due is one of the core. -/
theorem deviceCommandsReply : Obligations.DeviceCommandsReply := by
  unfold Obligations.DeviceCommandsReply
  intro d w f r
  refine ⟨?info, fun h hpage hin => ?health, fun h hcount hlen => ?peers, fun h hcount => ?many,
    fun h hport hup hidle hctr hkey => ?rekey, fun h hf hk hbit hstate hfree hslot => ?bind,
    fun h hf hk hbit hstate hbound hn hstreams => ?unbind, fun h halign hin => ?window, fun h halign => ?misaligned, ?config,
    fun h hkind => ?reset, fun t cold hon hreset => ?expiry⟩
  case info => exact fun h => h.replies (fun _ => rfl) rfl
  case health => exact ⟨_, h.replies (fun _ => rfl) (cmdDeviceHealth_ok hpage hin), w.healthPage_length hpage⟩
  case peers =>
    exact ⟨r.peers, by simp [Req.peers], fun k hk => by simp [Req.peers, hk], h.replies (fun _ => rfl) (cmdDevicePeers_ok hcount hlen)⟩
  case many => exact h.replies (fun _ => rfl) (cmdDevicePeers_many hcount)
  case rekey =>
    obtain ⟨g, hlink, hpend, hinit, hsends, htype⟩ := Dev.startRekey_spec hup hidle hctr hkey
    exact ⟨_, g, h.replies (fun _ => rfl) (cmdDeviceRekey_ok hport hup hidle), hlink, hpend, hinit, hsends, htype⟩
  case bind =>
    refine ⟨_, h.replies (fun _ => rfl) (cmdFuncbind_bind hf hk hbit hstate hfree hslot), rfl, w.rebound_domain _ _ _, ?_⟩
    rw [Dev.slotDomain_eq]
    exact Tab.find?_put_same _ _ _
  case unbind =>
    refine ⟨_, h.replies (fun _ => rfl) (cmdFuncbind_unbind hf hk hbit hstate hbound hn hstreams), rfl, w.rebound_domain _ _ _, ?_⟩
    rw [Dev.slotDomain_eq]
    exact Tab.find?_del_same _ _
  case window => exact h.replies (fun _ => rfl) (cmdWindow_ok halign hin)
  case misaligned => exact h.replies (fun _ => rfl) (cmdWindow_misaligned halign)
  case config =>
    intro k v h hlen hrange
    obtain ⟨j, half, hconfig⟩ := cmdConfig_ok (w := w) (r := r) (by omega) (by omega) (configOk_of_range hrange)
    obtain ⟨s, t, hsets⟩ := List.length_eq_two.mp hlen
    exact ⟨_, w.boot.configWith k v, h.replies (fun _ => rfl) hconfig, rfl, Boot.config_of_shadow_set hsets rfl rfl rfl,
      Tab.find?_put_same _ _ _, fun n hn => Tab.find?_put_other _ _ _ _ hn, rfl⟩
  case reset => exact h.replies (fun _ => rfl) (cmdReset_ok hkind)
  case expiry =>
    have hgives : Gives .resetDelayExpiry d (resetDelayExpiry d) := gives_of_answer d (fun _ => rfl)
    rw [resetDelayExpiry_eq hon hreset] at hgives
    exact ⟨_, hgives, rfl, rfl, rfl, rfl, rfl, rfl, rfl, rfl, rfl, rfl⟩

end Sys2Proof.Spec
end

section
/-! PROOFS. The fuse array (R426 to R429): its bits under burns, what keeps its words in order, and the obligation about reset. -/

namespace Sys2Proof

/-! ### Bits of numbers held as bytes (R9) -/

theorem testBit_leNat (bs : List Byte) (i : Nat) : (leNat bs).testBit i = (bs.getD (i / 8) 0).getLsbD (i % 8) := by
  induction bs generalizing i with
  | nil => simp [leNat]
  | cons b bs ih =>
    have hsum : leNat (b :: bs) = 2 ^ 8 * leNat bs + b.toNat := Nat.add_comm _ _
    rw [hsum, Nat.testBit_two_pow_mul_add _ b.isLt]
    by_cases hi : i < 8
    · simp [hi, Nat.div_eq_of_lt hi, Nat.mod_eq_of_lt hi, BitVec.getLsbD]
    · have hdiv : i / 8 = (i - 8) / 8 + 1 := by omega
      have hmod : (i - 8) % 8 = i % 8 := by omega
      simp [hi, ih, hdiv, hmod]

theorem getLsbD_leBytes {n k : Nat} (hk : k < n) (v i : Nat) (hi : i < 8) :
    ((leBytes n v).getD k 0).getLsbD i = v.testBit (8 * k + i) := by
  induction n generalizing v k with
  | zero => omega
  | succ n ih =>
    cases k with
    | zero => simp [leBytes, -BitVec.getLsbD_eq_getElem, BitVec.getLsbD_ofNat, hi]
    | succ k =>
      have hshift : v / 256 = v >>> 8 := by simp [Nat.shiftRight_eq_div_pow]
      rw [leBytes, List.getD_cons_succ, ih (by omega), hshift, Nat.testBit_shiftRight]
      congr 1
      omega

theorem Mem.testBit_readLe (m : Mem) (a n i : Nat) :
    (Mem.readLe m a n).testBit i = (decide (i / 8 < n) && (Mem.read m (a + i / 8)).getLsbD (i % 8)) := by
  rw [Mem.readLe, testBit_leNat]
  by_cases h : i / 8 < n
  · simp [Mem.readBytes, h]
  · simp [Mem.readBytes, h]

/-! ### Memories that lose no bit (R427) -/

/-- Every bit that is 1 in `f` is 1 in `g`. -/
def Mem.Grows (f g : Mem) : Prop := ∀ a k, (Mem.read f a).getLsbD k = true → (Mem.read g a).getLsbD k = true

theorem Mem.Grows.refl (f : Mem) : f.Grows f := fun _ _ h => h

theorem Mem.Grows.trans {f g h : Mem} (hfg : f.Grows g) (hgh : g.Grows h) : f.Grows h := fun a k hk => hgh a k (hfg a k hk)

theorem Mem.Grows.readLe {f g : Mem} (h : f.Grows g) {a n i : Nat} (hi : (Mem.readLe f a n).testBit i = true) :
    (Mem.readLe g a n).testBit i = true := by
  rw [Mem.testBit_readLe, Bool.and_eq_true] at hi ⊢
  exact ⟨hi.1, h _ _ hi.2⟩

/-- A write of a number that holds every bit that stood there loses none. -/
theorem Mem.grows_writeLe {f : Mem} {a n v : Nat} (h : ∀ i, (Mem.readLe f a n).testBit i = true → v.testBit i = true) :
    f.Grows (Mem.writeLe f a n v) := by
  intro p k hk
  have hk8 : k < 8 := BitVec.lt_of_getLsbD hk
  rw [Mem.writeLe, Mem.read_writeBytes, leBytes_length]
  split
  · have hin : p - a < n := by omega
    have hdiv : (8 * (p - a) + k) / 8 = p - a := by omega
    have hmod : (8 * (p - a) + k) % 8 = k := by omega
    have hp : a + (p - a) = p := by omega
    rw [getLsbD_leBytes hin v k hk8]
    exact h _ (by rw [Mem.testBit_readLe, hdiv, hmod, hp]; simp [hin, hk])
  · exact hk

end Sys2Proof

namespace Sys2Proof.Machine

open Sys2Proof Sys2Proof.Spec

/-! ### Burns (R428) -/

theorem bitOf_eq_testBit (n k : Nat) : bitOf n k = n.testBit k := (Nat.testBit_eq_decide_div_mod_eq).symm

theorem burnBits_grows (f : Mem) (o n v : Nat) : f.Grows (burnBits f o n v) :=
  Mem.grows_writeLe (fun i hi => by
    have hor : (Nat.lor (Mem.readLe f o n) v).testBit i = _ := Nat.testBit_or _ v i
    rw [hor, hi, Bool.true_or])

theorem burn_grows (f : Mem) (o : Nat) : f.Grows (burn f o) :=
  Mem.grows_writeLe (fun i hi => by
    rw [Mem.testBit_readLe, Bool.and_eq_true, decide_eq_true_eq] at hi
    rw [show 0xFFFFFFFF = 2 ^ 32 - 1 from rfl, Nat.testBit_two_pow_sub_one]
    simp only [decide_eq_true_eq]
    omega)

theorem burnt_of_grows {f g : Mem} (h : f.Grows g) {o : Nat} (hf : burnt f o = true) : burnt g o = true := by
  simp only [burnt, onesIn, bitOf_eq_testBit, decide_eq_true_eq] at hf ⊢
  exact hf.trans (List.monotone_filter_right _ (fun _ hk => h.readLe hk)).length_le

theorem burnt_burn_same (f : Mem) (o : Nat) : burnt (burn f o) o = true := by
  rw [burnt, burn, Mem.readLe_writeLe]
  decide

/-- A burn of bits beside a word leaves the word as it was. -/
theorem burnt_writeLe_apart (f : Mem) {o n p : Nat} (v : Nat) (h : o + n ≤ p ∨ p + 4 ≤ o) : burnt (Mem.writeLe f o n v) p = burnt f p := by
  rw [burnt, burnt, Mem.readLe, Mem.readLe, Mem.writeLe, Mem.readBytes_writeBytes_apart _ (by rw [leBytes_length]; omega)]

theorem burnt_burn (f : Mem) {o p : Nat} (ho : o % 4 = 0) (hp : p % 4 = 0) : burnt (burn f o) p = (decide (p = o) || burnt f p) := by
  by_cases h : p = o
  · subst h
    simp [burnt_burn_same]
  · rw [burn, burnt_writeLe_apart f _ (by omega)]
    simp [h]

@[simp] theorem burnt_nil (o : Nat) : burnt [] o = false := by
  have hword : Mem.readLe [] o 4 = 0 := rfl
  rw [burnt, hword]
  decide

/-! ### Steps of the fuse array (R426 to R429) -/

/-- The order of R429: a state word is burnt only with its intent word, FIELDED's only with DBGDIS, RETIRED's only with KEYKILL. -/
def FusesOrdered (f : Mem) : Prop :=
  (burnt f 0x04 = true → burnt f 0x00 = true) ∧ (burnt f 0x0C = true → burnt f 0x08 = true ∧ burnt f 0x18 = true)
    ∧ (burnt f 0x14 = true → burnt f 0x10 = true ∧ burnt f 0x1C = true)

theorem fuseOrder_iff (s : State) : FuseOrder s ↔ FusesOrdered s.dev.boot.fuses := Iff.rfl

/-- From `f` to `g` no bit has gone back to 0, and the words stand in order if they did. -/
structure FuseStep (f g : Mem) : Prop where
  grows : f.Grows g
  ordered : FusesOrdered f → FusesOrdered g

theorem FuseStep.refl (f : Mem) : FuseStep f f := ⟨Mem.Grows.refl f, id⟩

theorem FuseStep.trans {f g h : Mem} (hfg : FuseStep f g) (hgh : FuseStep g h) : FuseStep f h :=
  ⟨hfg.grows.trans hgh.grows, fun ho => hgh.ordered (hfg.ordered ho)⟩

theorem FuseStep.of_eq {f g : Mem} (h : g = f) : FuseStep f g := h ▸ FuseStep.refl f

theorem FuseStep.foldl {α : Type} {k : Mem → α → Mem} (l : List α) (hk : ∀ f, ∀ x ∈ l, FuseStep f (k f x)) (f : Mem) :
    FuseStep f (l.foldl k f) := by
  induction l generalizing f with
  | nil => exact FuseStep.refl f
  | cons x xs ih =>
    exact (hk f x List.mem_cons_self).trans (ih (fun g y hy => hk g y (List.mem_cons_of_mem x hy)) (k f x))

/-- A write past the life-cycle words leaves their order as it was. -/
theorem FuseStep.of_write {f : Mem} {o n v : Nat} (hgrows : f.Grows (Mem.writeLe f o n v)) (ho : 0x20 ≤ o) :
    FuseStep f (Mem.writeLe f o n v) := by
  refine ⟨hgrows, fun h => ?_⟩
  have hword (p : Nat) (hp : p + 4 ≤ 0x20) : burnt (Mem.writeLe f o n v) p = burnt f p := burnt_writeLe_apart f v (by omega)
  simp only [FusesOrdered, hword _ (show 0x04 + 4 ≤ 0x20 by decide), hword _ (show 0x00 + 4 ≤ 0x20 by decide),
    hword _ (show 0x0C + 4 ≤ 0x20 by decide), hword _ (show 0x08 + 4 ≤ 0x20 by decide), hword _ (show 0x18 + 4 ≤ 0x20 by decide),
    hword _ (show 0x14 + 4 ≤ 0x20 by decide), hword _ (show 0x10 + 4 ≤ 0x20 by decide), hword _ (show 0x1C + 4 ≤ 0x20 by decide)]
  exact h

theorem burnBits_fuseStep (f : Mem) {o : Nat} (n v : Nat) (ho : 0x20 ≤ o) : FuseStep f (burnBits f o n v) :=
  FuseStep.of_write (burnBits_grows f o n v) ho

theorem burnSvn_fuseStep (f : Mem) (v : Nat) : FuseStep f (burnSvn f v) := by
  unfold burnSvn
  split
  · exact FuseStep.refl f
  · exact burnBits_fuseStep f 16 _ (Nat.le_refl _)

theorem burnRevoke_fuseStep (f : Mem) (mask keep : Nat) : FuseStep f (burnRevoke f mask keep) :=
  FuseStep.foldl _ (fun f k _ => FuseStep.of_write (burn_grows f _) (by omega)) f

/-- An intent word may be burnt at any time. -/
theorem burn_intent_fuseStep (f : Mem) {x : Nat} (hx : x = 1 ∨ x = 2 ∨ x = 3) : FuseStep f (burn f (8 * (x - 1))) := by
  refine ⟨burn_grows f _, fun h => ?_⟩
  obtain ⟨hProvisioned, hFielded, hRetired⟩ := h
  rcases hx with rfl | rfl | rfl <;> simp only [FusesOrdered, burnt_burn]
  · simpa using ⟨hFielded, hRetired⟩
  · simpa using ⟨hProvisioned, fun h => (hFielded h).2, hRetired⟩
  · simpa using ⟨hProvisioned, hFielded, fun h => (hRetired h).2⟩

/-- Once the intent word of a transition is burnt, the words that follow it keep the order. -/
theorem burnRest_fuseStep {f : Mem} {x : Nat} (hx : x = 1 ∨ x = 2 ∨ x = 3) (hintent : burnt f (8 * (x - 1)) = true) :
    FuseStep f (burnRest f x) := by
  rcases hx with rfl | rfl | rfl
  · exact ⟨burn_grows f _, fun h => by simpa [FusesOrdered, burnRest, burnt_burn, hintent] using h⟩
  · refine ⟨(burn_grows f 0x18).trans (burn_grows _ 0x0C), fun h => ?_⟩
    simp_all [FusesOrdered, burnRest, burnt_burn]
  · refine ⟨(burn_grows f 0x1C).trans (burn_grows _ 0x14), fun h => ?_⟩
    simp_all [FusesOrdered, burnRest, burnt_burn]

theorem burnTo_fuseStep (f : Mem) {x : Nat} (hx : x = 1 ∨ x = 2 ∨ x = 3) : FuseStep f (burnTo f x) :=
  (burn_intent_fuseStep f hx).trans (burnRest_fuseStep hx (burnt_burn_same f _))

/-- What B1 makes of one transition that it finds begun and not done. -/
def completeOne (p : Mem × Bool) (x : Nat) : Mem × Bool :=
  if burnt p.1 (8 * (x - 1)) && !burnt p.1 (8 * (x - 1) + 4) then (burnRest p.1 x, true) else p

theorem completeTransition_eq (f : Mem) : completeTransition f = completeOne (completeOne (completeOne (f, false) 1) 2) 3 := rfl

theorem completeOne_fuseStep (p : Mem × Bool) {x : Nat} (hx : x = 1 ∨ x = 2 ∨ x = 3) : FuseStep p.1 (completeOne p x).1 := by
  unfold completeOne
  split
  · rename_i h
    exact burnRest_fuseStep hx (Bool.and_eq_true_iff.mp h).1
  · exact FuseStep.refl p.1

theorem completeTransition_fuseStep (f : Mem) : FuseStep f (completeTransition f).1 := by
  rw [completeTransition_eq]
  exact ((completeOne_fuseStep (f, false) (.inl rfl)).trans (completeOne_fuseStep _ (.inr (.inl rfl)))).trans
    (completeOne_fuseStep _ (.inr (.inr rfl)))

/-! ### The life-cycle under a step (R426, R440) -/

theorem lifeCycle_le_of_grows {f g : Mem} (h : f.Grows g) : lifeCycle f ≤ lifeCycle g := by
  have hRetired := burnt_of_grows h (o := 0x14)
  have hFielded := burnt_of_grows h (o := 0x0C)
  have hProvisioned := burnt_of_grows h (o := 0x04)
  unfold lifeCycle
  split_ifs <;> simp_all

theorem burnt_fielded_of_lifeCycle {f : Mem} (hlow : 2 ≤ lifeCycle f) (hhigh : lifeCycle f < 3) : burnt f 0x0C = true := by
  unfold lifeCycle at hlow hhigh
  split_ifs at hlow hhigh
  · omega
  · assumption
  all_goals omega

end Sys2Proof.Machine

namespace Sys2Proof.Spec

open Sys2Proof Sys2Proof.Machine

/-- Settles O60: an empty fuse array holds no burnt word, so nothing is out of order. -/
theorem resetKeepsTheFuses : Obligations.ResetKeepsTheFuses := by
  unfold Obligations.ResetKeepsTheFuses
  refine ⟨?_, fun o => burnt_nil o⟩
  rw [fuseOrder_iff]
  simp [FusesOrdered, State.reset]

/-- Settles O57: both are the equations of `step`. -/
theorem aStepRunsTheFrontCommand : Obligations.AStepRunsTheFrontCommand := by
  unfold Obligations.AStepRunsTheFrontCommand
  exact ⟨fun _ _ _ => rfl, fun _ => rfl⟩

end Sys2Proof.Spec
end
section
/-! PROOFS. What leaves the fuse array as it is: one equation per operation of the device, in the order of the model's definitions. Each is
a simp rule, so that an operation's equation follows from those of the operations that it calls. -/

namespace Sys2Proof.Machine

open Sys2Proof Sys2Proof.Spec

/-! ### The fuse array of a device -/

/-- The fuse array of a device. -/
def Dev.fuses (d : Dev) : Mem := d.boot.fuses

/-- The fuse array of the device that an operation leaves, where it also answers something. -/
def fstFuses {α : Type} (p : Dev × α) : Mem := p.1.fuses

theorem fst_fuses {α : Type} (p : Dev × α) : p.1.fuses = fstFuses p := (rfl)
@[simp] theorem fstFuses_mk {α : Type} (d : Dev) (x : α) : fstFuses (d, x) = d.fuses := (rfl)
@[simp] theorem Dev.boot_fuses (d : Dev) : d.boot.fuses = d.fuses := (rfl)
@[simp] theorem Dev.setBoot_fuses (d : Dev) (b : Boot) : (d.setBoot b).fuses = b.fuses := (rfl)
@[simp] theorem Dev.setBasins_fuses (d : Dev) (x : Tab Basin) : (d.setBasins x).fuses = d.fuses := (rfl)
@[simp] theorem Dev.setCad_fuses (d : Dev) (x : Cad) : (d.setCad x).fuses = d.fuses := (rfl)
@[simp] theorem Dev.setStreams_fuses (d : Dev) (x : Tab Stream) : (d.setStreams x).fuses = d.fuses := (rfl)
@[simp] theorem Dev.setPlans_fuses (d : Dev) (x : List Plan) : (d.setPlans x).fuses = d.fuses := (rfl)
@[simp] theorem Dev.setDomains_fuses (d : Dev) (x : Tab Domain) : (d.setDomains x).fuses = d.fuses := (rfl)
@[simp] theorem Dev.setModels_fuses (d : Dev) (x : Tab Model) : (d.setModels x).fuses = d.fuses := (rfl)
@[simp] theorem Dev.setLib_fuses (d : Dev) (x : RunLib) : (d.setLib x).fuses = d.fuses := (rfl)
@[simp] theorem Dev.setTrains_fuses (d : Dev) (x : Tab Train) : (d.setTrains x).fuses = d.fuses := (rfl)
@[simp] theorem Dev.setRsv_fuses (d : Dev) (x : Rsv) : (d.setRsv x).fuses = d.fuses := (rfl)
@[simp] theorem Dev.setHostMem_fuses (d : Dev) (x : Mem) : (d.setHostMem x).fuses = d.fuses := (rfl)
@[simp] theorem Dev.setOut_fuses (d : Dev) (x : List Msg) : (d.setOut x).fuses = d.fuses := (rfl)
@[simp] theorem Dev.setFuncs_fuses (d : Dev) (x : Tab Func) : (d.setFuncs x).fuses = d.fuses := (rfl)
@[simp] theorem Dev.setHw_fuses (d : Dev) (x : Hw) : (d.setHw x).fuses = d.fuses := (rfl)
@[simp] theorem Dev.setFh_fuses (d : Dev) (x : Fh) : (d.setFh x).fuses = d.fuses := (rfl)
@[simp] theorem Dev.setPorts_fuses (d : Dev) (x : Tab Port) : (d.setPorts x).fuses = d.fuses := (rfl)
@[simp] theorem Dev.setLink_fuses (d : Dev) (x : Link) : (d.setLink x).fuses = d.fuses := (rfl)
@[simp] theorem Dev.setPair_fuses (d : Dev) (x : Pair) : (d.setPair x).fuses = d.fuses := (rfl)
@[simp] theorem Dev.setFlt_fuses (d : Dev) (x : Fault3) : (d.setFlt x).fuses = d.fuses := (rfl)
@[simp] theorem Dev.setPow_fuses (d : Dev) (x : Power) : (d.setPow x).fuses = d.fuses := (rfl)
@[simp] theorem Dev.setStill_fuses (d : Dev) (x : Still) : (d.setStill x).fuses = d.fuses := (rfl)
@[simp] theorem Dev.setMd_fuses (d : Dev) (x : Mod) : (d.setMd x).fuses = d.fuses := (rfl)
@[simp] theorem Dev.setAreas_fuses (d : Dev) (x : Tab (Nat × Nat × Nat)) : (d.setAreas x).fuses = d.fuses := (rfl)
@[simp] theorem Dev.setFree_fuses (d : Dev) (x : Nat) : (d.setFree x).fuses = d.fuses := (rfl)
@[simp] theorem Dev.mk_fuses (a b c e f g h i j k l m n o p q r s t : _) (x : Boot) (u v w y : _) :
    (Dev.mk a b c e f g h i j k l m n o p q r s t x u v w y).fuses = x.fuses := (rfl)

@[simp] theorem ite_fuses (c : Prop) [Decidable c] (x y : Dev) : (if c then x else y).fuses = if c then x.fuses else y.fuses :=
  apply_ite Dev.fuses c x y
@[simp] theorem ite_snd_fuses {α : Type} (c : Prop) [Decidable c] (x y : α × Dev) :
    (if c then x else y).2.fuses = if c then x.2.fuses else y.2.fuses := apply_ite (fun p => p.2.fuses) c x y
@[simp] theorem ite_fst_fuses {α : Type} (c : Prop) [Decidable c] (x y : Dev × α) :
    (if c then x else y).1.fuses = if c then x.1.fuses else y.1.fuses := apply_ite (fun p => p.1.fuses) c x y
@[simp] theorem ite_fstFuses {α : Type} (c : Prop) [Decidable c] (x y : Dev × α) :
    fstFuses (if c then x else y) = if c then fstFuses x else fstFuses y := apply_ite fstFuses c x y

@[simp] theorem foldl_fuses {α : Type} {f : Dev → α → Dev} (hf : ∀ d x, (f d x).fuses = d.fuses) (l : List α) (d : Dev) :
    (l.foldl f d).fuses = d.fuses := by
  induction l generalizing d with
  | nil => rfl
  | cons x xs ih => rw [List.foldl_cons, ih, hf]

theorem foldl_fstFuses {α β : Type} {f : Dev × β → α → Dev × β} (hf : ∀ p x, fstFuses (f p x) = fstFuses p) (l : List α)
    (p : Dev × β) :
    fstFuses (l.foldl f p) = fstFuses p := by
  induction l generalizing p with
  | nil => rfl
  | cons x xs ih => rw [List.foldl_cons, ih, hf]

/-! ### The boot state -/

@[simp] theorem Boot.foldl_fuses {α : Type} {f : Boot → α → Boot} (hf : ∀ b x, (f b x).fuses = b.fuses) (l : List α) (b : Boot) :
    (l.foldl f b).fuses = b.fuses := by
  induction l generalizing b with
  | nil => rfl
  | cons x xs ih => rw [List.foldl_cons, ih, hf]

@[simp] theorem Boot.append_fuses (b : Boot) (r : JRec) : (b.append r).fuses = b.fuses := by
  obtain ⟨_, _, h⟩ := b.append_frame r
  rw [h]

@[simp] theorem Boot.replayed_fuses (b : Boot) : b.replayed.fuses = b.fuses := (rfl)
@[simp] theorem Boot.setArea_fuses (b : Boot) (k : Nat) (g : Area → Area) : (b.setArea k g).fuses = b.fuses := (rfl)
@[simp] theorem Boot.erased_fuses (b : Boot) (area sector : Nat) : (b.erased area sector).fuses = b.fuses := by simp [Boot.erased]
@[simp] theorem Boot.stage_fuses (b : Boot) (m : Manifest) : (b.stage m).fuses = b.fuses := by simp [Boot.stage]
@[simp] theorem Boot.eraseEnds_fuses (b : Boot) (a s : Nat) : (b.eraseEnds a s).fuses = b.fuses := by simp [Boot.eraseEnds]
@[simp] theorem Boot.eraseAfresh_fuses (b : Boot) : b.eraseAfresh.fuses = b.fuses := by simp [Boot.eraseAfresh]

/-! ### Claims, writes, flags and operations of a device -/

@[simp] theorem onlyIf_fuses (c : Dev → Bool) (g : Dev → Dev) (hg : ∀ x, (g x).fuses = x.fuses) (d : Dev) : (onlyIf c g d).fuses = d.fuses := by
  simp only [onlyIf]
  (repeat' split) <;> simp [*]

@[simp] theorem Dev.atNs_fuses (d : Dev) (t : Nat) : (d.atNs t).fuses = d.fuses := by simp [Dev.atNs]
@[simp] theorem tick_fuses (d : Dev) : (tick d).fuses = d.fuses := by simp [tick]
@[simp] theorem Dev.setClock_fuses (d : Dev) (p : Power) : (d.setClock p).fuses = d.fuses := by simp [Dev.setClock]
@[simp] theorem Dev.putBasin_fuses (d : Dev) (b : Nat) (x : Basin) : (d.putBasin b x).fuses = d.fuses := by simp [Dev.putBasin]
@[simp] theorem Dev.putStream_fuses (d : Dev) (i : Nat) (x : Stream) : (d.putStream i x).fuses = d.fuses := by simp [Dev.putStream]
@[simp] theorem Dev.putDomain_fuses (d : Dev) (n : Nat) (x : Domain) : (d.putDomain n x).fuses = d.fuses := by simp [Dev.putDomain]
@[simp] theorem Dev.putFunc_fuses (d : Dev) (f : Nat) (x : Func) : (d.putFunc f x).fuses = d.fuses := by simp [Dev.putFunc]
@[simp] theorem Dev.putPort_fuses (d : Dev) (p : Nat) (x : Port) : (d.putPort p x).fuses = d.fuses := by simp [Dev.putPort]
@[simp] theorem Dev.putTrain_fuses (d : Dev) (i : Nat) (x : Train) : (d.putTrain i x).fuses = d.fuses := by simp [Dev.putTrain]
@[simp] theorem Dev.putCtrl_fuses (d : Dev) (n : Nat) (x : Ctrl) : (d.putCtrl n x).fuses = d.fuses := by simp [Dev.putCtrl]
@[simp] theorem Dev.random_fuses (d : Dev) : d.random.2.fuses = d.fuses := by simp [Dev.random]
@[simp] theorem Dev.random256_fuses (d : Dev) : d.random256.2.fuses = d.fuses := by simp [Dev.random256]
@[simp] theorem Dev.drawKeys_fuses (d : Dev) : d.drawKeys.2.fuses = d.fuses := by simp [Dev.drawKeys]
@[simp] theorem Dev.openValue_fuses (d : Dev) : d.openValue.2.fuses = d.fuses := by simp [Dev.openValue]
@[simp] theorem Dev.emit_fuses (d : Dev) (m : Msg) : (d.emit m).fuses = d.fuses := by simp [Dev.emit]
@[simp] theorem Dev.hostWrite_fuses (d : Dev) (a : Nat) (bs : List Byte) : (d.hostWrite a bs).fuses = d.fuses := by simp [Dev.hostWrite]
@[simp] theorem Dev.hostWriteFor_fuses (d : Dev) (dom a : Nat) (bs : List Byte) :
    (d.hostWriteFor dom a bs).fuses = d.fuses := by simp [Dev.hostWriteFor]

@[simp] theorem Dev.vector_fuses (d : Dev) (f v : Nat) : (d.vector f v).fuses = d.fuses := by simp [Dev.vector]
@[simp] theorem Dev.deliver_fuses (d : Dev) (f : Nat) (e : Event) : (d.deliver f e).fuses = d.fuses := by simp [Dev.deliver]
@[simp] theorem Dev.supervise_fuses (d : Dev) (e : Event) : (d.supervise e).fuses = d.fuses := by simp [Dev.supervise]
@[simp] theorem Dev.raiseAt_fuses (d : Dev) (ct : Nat) (e : Event) : (d.raiseAt ct e).fuses = d.fuses := by simp [Dev.raiseAt]
@[simp] theorem Dev.raise_fuses (d : Dev) (e : Event) : (d.raise e).fuses = d.fuses := by simp [Dev.raise]
@[simp] theorem Dev.raiseO_fuses (d : Dev) (type source d0 d1 d2 : Nat) : (d.raiseO type source d0 d1 d2).fuses = d.fuses := by simp [Dev.raiseO]
@[simp] theorem Dev.raiseS_fuses (d : Dev) (type source i d0 d1 d2 : Nat) : (d.raiseS type source i d0 d1 d2).fuses = d.fuses := by simp [Dev.raiseS]
@[simp] theorem Dev.timeEvent_fuses (d : Dev) : d.timeEvent.fuses = d.fuses := by simp [Dev.timeEvent]
@[simp] theorem Dev.complete_fuses (d : Dev) (i : Nat) (x : Desc) (code ct outlen slot frame : Nat) (trunc ovb : Bool) :
    (d.complete i x code ct outlen slot frame trunc ovb).fuses = d.fuses := by simp [Dev.complete]

@[simp] theorem Dev.phaseMark_fuses (d : Dev) (r : Run) (f : Train → Nat → Nat → Train) : (d.phaseMark r f).fuses = d.fuses := by
  unfold Dev.phaseMark
  split <;> simp

@[simp] theorem Dev.denyGranule_fuses (d : Dev) (dom kind g : Nat) : (d.denyGranule dom kind g).fuses = d.fuses := by simp [Dev.denyGranule]
@[simp] theorem Dev.deny_fuses (d : Dev) (dom a n kind : Nat) : (d.deny dom a n kind).fuses = d.fuses := by simp [Dev.deny]
@[simp] theorem Dev.eccEvent_fuses (d : Dev) (source a unc : Nat) (scrub : Bool) :
    (d.eccEvent source a unc scrub).fuses = d.fuses := by simp [Dev.eccEvent]

@[simp] theorem Dev.writeState_fuses (d : Dev) (u st : Nat) : (d.writeState u st).fuses = d.fuses := by simp [Dev.writeState]
@[simp] theorem Dev.mergeFlags_fuses (d : Dev) (b : Nat) (a : Active) : (d.mergeFlags b a).fuses = d.fuses := by simp [Dev.mergeFlags]
@[simp] theorem Dev.standAcked_fuses (d : Dev) (dom : Nat) (ops : List Op) : (d.standAcked dom ops).fuses = d.fuses := by simp [Dev.standAcked]
@[simp] theorem Dev.stopRun_fuses (d : Dev) (b code pc : Nat) : (d.stopRun b code pc).fuses = d.fuses := by
  unfold Dev.stopRun
  dsimp only
  (repeat' split) <;> simp

@[simp] theorem Dev.haltRun_fuses (d : Dev) (b : Nat) (code : Option Nat) : (d.haltRun b code).fuses = d.fuses := by
  unfold Dev.haltRun
  dsimp only
  (repeat' split) <;> simp

/-! ### Events, faults and resets -/

@[simp] theorem Dev.loadStores_fuses (d : Dev) (b : Nat) : (d.loadStores b).fuses = d.fuses := by simp [Dev.loadStores]
@[simp] theorem Dev.restoreModels_fuses (d : Dev) (b l : Nat) : (d.restoreModels b l).fuses = d.fuses := by simp [Dev.restoreModels]
@[simp] theorem Dev.retentionSave_fuses (d : Dev) : d.retentionSave.fuses = d.fuses := by simp [Dev.retentionSave]
@[simp] theorem Dev.retentionRestore_fuses (d : Dev) : d.retentionRestore.fuses = d.fuses := by
  unfold Dev.retentionRestore
  split <;> simp

@[simp] theorem Dev.resetCore_fuses (d : Dev) : d.resetCore.fuses = d.fuses := (rfl)
/-! ### What progresses with time -/

@[simp] theorem Dev.linkEvent_fuses (d : Dev) (p : Nat) : (d.linkEvent p).fuses = d.fuses := by simp [Dev.linkEvent]
@[simp] theorem Dev.pairEvent_fuses (d : Dev) : d.pairEvent.fuses = d.fuses := by simp [Dev.pairEvent]
@[simp] theorem Dev.setPairState_fuses (d : Dev) (st : Nat) : (d.setPairState st).fuses = d.fuses := by simp [Dev.setPairState]
@[simp] theorem Dev.offloadLost_fuses (d : Dev) : d.offloadLost.fuses = d.fuses := by simp [Dev.offloadLost]
@[simp] theorem Dev.unpair_fuses (d : Dev) : d.unpair.fuses = d.fuses := by simp [Dev.unpair]
@[simp] theorem Dev.enter_fuses (d : Dev) (p st : Nat) : (d.enter p st).fuses = d.fuses := by simp [Dev.enter]
@[simp] theorem Dev.portDown_fuses (d : Dev) (p cause : Nat) : (d.portDown p cause).fuses = d.fuses := by
  unfold Dev.portDown
  dsimp only
  (repeat' split) <;> simp

@[simp] theorem Dev.takeOver_fuses (d : Dev) (row l : Nat) : (d.takeOver row l).fuses = d.fuses := by simp [Dev.takeOver]
@[simp] theorem Dev.quarantine_fuses (d : Dev) (q : Quar) : (d.quarantine q).1.fuses = d.fuses := by simp [Dev.quarantine]
@[simp] theorem Dev.fenceStop_fuses (d : Dev) (b : Nat) : (d.fenceStop b).fuses = d.fuses := by
  unfold Dev.fenceStop
  dsimp only
  (repeat' split) <;> simp

@[simp] theorem Dev.fenceState_fuses (d : Dev) (b : Nat) : (d.fenceState b).fuses = d.fuses := by simp [Dev.fenceState]
@[simp] theorem Dev.fenceSink_fuses (d : Dev) (b : Nat) : (d.fenceSink b).fuses = d.fuses := by simp [Dev.fenceSink]
@[simp] theorem Dev.fenceDone_fuses (d : Dev) (b cls ct slot : Nat) (planned : Bool) :
    (d.fenceDone b cls ct slot planned).fuses = d.fuses := by simp [Dev.fenceDone]

@[simp] theorem Dev.fence_fuses (d : Dev) (b cls : Nat) : (d.fence b cls).fuses = d.fuses := by simp [Dev.fence]
@[simp] theorem Dev.fencePlanned_fuses (d : Dev) (b cls : Nat) : (d.fencePlanned b cls).fuses = d.fuses := by simp [Dev.fencePlanned]
@[simp] theorem Dev.fenceProgress_fuses (d : Dev) (f : Fencing) : (d.fenceProgress f).fuses = d.fuses := by simp [Dev.fenceProgress]
@[simp] theorem Dev.due_fuses (d : Dev) : d.due.fuses = d.fuses := by simp [Dev.due]
@[simp] theorem Dev.fenceRow_fuses (d : Dev) (row : Nat) : (d.fenceRow row).fuses = d.fuses := by
  unfold Dev.fenceRow
  split <;> simp

/-! ### The power sequencer and its pins -/

@[simp] theorem Dev.setTherm_fuses (d : Dev) : d.setTherm.fuses = d.fuses := by simp [Dev.setTherm]
@[simp] theorem Dev.setPgood_fuses (d : Dev) (v : Bool) : (d.setPgood v).fuses = d.fuses := by simp [Dev.setPgood]
@[simp] theorem Dev.overrideEvent_fuses (d : Dev) (limit : Nat) : (d.overrideEvent limit).fuses = d.fuses := by simp [Dev.overrideEvent]
@[simp] theorem Dev.governor_fuses (d : Dev) (m : Readings) (traffic slen : Nat) :
    (d.governor m traffic slen).fuses = d.fuses := by simp [Dev.governor]

@[simp] theorem currentOverride_fuses (watts : Nat) (d : Dev) : (currentOverride watts d).fuses = d.fuses := by simp [currentOverride]
@[simp] theorem voltageOverride_fuses (vin : Nat) (droop : Bool) (d : Dev) :
    (voltageOverride vin droop d).fuses = d.fuses := by simp [voltageOverride]

@[simp] theorem Dev.portsDown_fuses (d : Dev) (cause : Option Nat) : (d.portsDown cause).fuses = d.fuses := by simp [Dev.portsDown]
@[simp] theorem Dev.toOff_fuses (d : Dev) : d.toOff.fuses = d.fuses := (rfl)
@[simp] theorem Dev.beginStep_fuses (d : Dev) (k : Nat) : (d.beginStep k).fuses = d.fuses := by simp [Dev.beginStep]
@[simp] theorem Dev.goTo_fuses (d : Dev) (dest : Nat) : (d.goTo dest).fuses = d.fuses := by
  unfold Dev.goTo
  split <;> simp

@[simp] theorem Dev.stepEffect_fuses (d : Dev) (k : Nat) : (d.stepEffect k).fuses = d.fuses := by
  unfold Dev.stepEffect
  split <;> simp

@[simp] theorem Dev.freeze_fuses (d : Dev) : d.freeze.fuses = d.fuses := by simp [Dev.freeze]
@[simp] theorem Dev.takePending_fuses (d : Dev) : d.takePending.fuses = d.fuses := by simp [Dev.takePending]
@[simp] theorem Dev.arrive_fuses (d : Dev) (sp : Nat) : (d.arrive sp).fuses = d.fuses := by
  simp only [Dev.arrive, ite_fuses, Dev.mk_fuses, Dev.boot_fuses, Dev.toOff_fuses, Dev.resetCore_fuses, Dev.setPow_fuses, Dev.setPgood_fuses,
    Dev.raiseO_fuses, Dev.takePending_fuses, Dev.goTo_fuses, ite_self]

@[simp] theorem seqStepDone_fuses (d : Dev) : (seqStepDone d).fuses = d.fuses := by simp [seqStepDone]
@[simp] theorem Dev.moduleFatal_fuses (d : Dev) : d.moduleFatal.fuses = d.fuses := by simp [Dev.moduleFatal]
@[simp] theorem seqStepTimeout_fuses (d : Dev) : (seqStepTimeout d).fuses = d.fuses := by simp [seqStepTimeout]
@[simp] theorem coresWait_fuses (d : Dev) : (coresWait d).fuses = d.fuses := by
  unfold coresWait
  dsimp only
  (repeat' split) <;> simp

@[simp] theorem Dev.assertWakeN_fuses (d : Dev) (bit : Nat) : (d.assertWakeN bit).fuses = d.fuses := by simp [Dev.assertWakeN]
@[simp] theorem Dev.wake_fuses (d : Dev) (bit : Nat) : (d.wake bit).fuses = d.fuses := by simp [Dev.wake]
@[simp] theorem pcieWake_fuses (inWindow : Bool) (d : Dev) : (pcieWake inWindow d).fuses = d.fuses := by simp [pcieWake]
@[simp] theorem wakeBurstRecognised_fuses (p : Nat) (d : Dev) : (wakeBurstRecognised p d).fuses = d.fuses := by simp [wakeBurstRecognised]
@[simp] theorem wakeInNFall_fuses (d : Dev) : (wakeInNFall d).fuses = d.fuses := by simp [wakeInNFall]
@[simp] theorem pwrEnRise_fuses (d : Dev) : (pwrEnRise d).fuses = d.fuses := by simp [pwrEnRise]
@[simp] theorem pwrEnFall_fuses (d : Dev) : (pwrEnFall d).fuses = d.fuses := by
  unfold pwrEnFall
  dsimp only
  (repeat' split) <;> simp

@[simp] theorem perstNAssert_fuses (d : Dev) : (perstNAssert d).fuses = d.fuses := by
  unfold perstNAssert
  dsimp only
  (repeat' split) <;> simp

@[simp] theorem perstNDeassert_fuses (d : Dev) : (perstNDeassert d).fuses = d.fuses := by
  unfold perstNDeassert
  dsimp only
  (repeat' split) <;> simp

@[simp] theorem wakeNTimeout_fuses (d : Dev) : (wakeNTimeout d).fuses = d.fuses := by
  unfold wakeNTimeout
  split <;> simp

@[simp] theorem pcieLinkL0_fuses (d : Dev) : (pcieLinkL0 d).fuses = d.fuses := by simp [pcieLinkL0]
@[simp] theorem Dev.shutdown_fuses (d : Dev) (code : Nat) : (d.shutdown code).fuses = d.fuses := by
  unfold Dev.shutdown
  dsimp only
  (repeat' split) <;> simp

@[simp] theorem vinRestored_fuses (d : Dev) : (vinRestored d).fuses = d.fuses := by
  unfold vinRestored
  dsimp only
  (repeat' split) <;> simp

@[simp] theorem auxLoss_fuses (d : Dev) : (auxLoss d).fuses = d.fuses := (rfl)
@[simp] theorem auxReturn_fuses (d : Dev) : (auxReturn d).fuses = d.fuses := by simp [auxReturn]
@[simp] theorem coolantInletHigh_fuses (t : Nat) (d : Dev) : (coolantInletHigh t d).fuses = d.fuses := by simp [coolantInletHigh]
@[simp] theorem refreshRateChange_fuses (n t : Nat) (d : Dev) : (refreshRateChange n t d).fuses = d.fuses := by simp [refreshRateChange]
/-! ### Cadence time and its discipline -/

@[simp] theorem Dev.stepCt_fuses (d : Dev) (n : Int) : (d.stepCt n).fuses = d.fuses := (rfl)
@[simp] theorem Dev.reselect_fuses (d : Dev) : d.reselect.fuses = d.fuses := by simp [Dev.reselect]
@[simp] theorem Dev.correct_fuses (d : Dev) (err : Int) : (d.correct err).fuses = d.fuses := by simp [Dev.correct]
@[simp] theorem Dev.correctFrom_fuses (d : Dev) (src : Nat) (err : Int) : (d.correctFrom src err).fuses = d.fuses := by simp [Dev.correctFrom]
@[simp] theorem Dev.withSources_fuses (d : Dev) (c : Cad) : (d.withSources c).fuses = d.fuses := by simp [Dev.withSources]
@[simp] theorem ppsEdge_fuses (cycles : Nat) (d : Dev) : (ppsEdge cycles d).fuses = d.fuses := by
  unfold ppsEdge
  dsimp only
  (repeat' split) <;> simp

@[simp] theorem ppsTimeout_fuses (d : Dev) : (ppsTimeout d).fuses = d.fuses := by
  unfold ppsTimeout
  split <;> simp

@[simp] theorem refclkLoss_fuses (d : Dev) : (refclkLoss d).fuses = d.fuses := by simp [refclkLoss]
@[simp] theorem refclkReturn_fuses (d : Dev) : (refclkReturn d).fuses = d.fuses := by simp [refclkReturn]
@[simp] theorem ptmDialogue_fuses (ok : Bool) (master : Nat) (d : Dev) : (ptmDialogue ok master d).fuses = d.fuses := by simp [ptmDialogue]
@[simp] theorem ptmTimeout_fuses (d : Dev) : (ptmTimeout d).fuses = d.fuses := by
  unfold ptmTimeout
  split <;> simp

@[simp] theorem rillTimeTimeout_fuses (d : Dev) : (rillTimeTimeout d).fuses = d.fuses := by
  unfold rillTimeTimeout
  split <;> simp

@[simp] theorem holdlimExceeded_fuses (d : Dev) : (holdlimExceeded d).fuses = d.fuses := by
  unfold holdlimExceeded
  split <;> simp

@[simp] theorem cadCtLowRead_fuses (d : Dev) : (cadCtLowRead d).fuses = d.fuses := by simp [cadCtLowRead]
/-! ### Runnel ports and frames -/

@[simp] theorem Dev.transmit_fuses (d : Dev) (p : Nat) (f : Frame) : (d.transmit p f).fuses = d.fuses := by
  unfold Dev.transmit
  simp only [ite_fuses, Dev.emit_fuses, Dev.putPort_fuses, ite_self]

@[simp] theorem Dev.launch_fuses (d : Dev) (p : Nat) (f : Frame) : (d.launch p f).fuses = d.fuses := by simp [Dev.launch]
@[simp] theorem Dev.egress_fuses (d : Dev) (p n : Nat) : (d.egress p n).fuses = d.fuses := by
  induction n generalizing d with
  | zero => rfl
  | succ k ih =>
    rw [Dev.egress]
    split
    · rfl
    · simp [ih]

@[simp] theorem Dev.flush_fuses (d : Dev) (p : Nat) : (d.flush p).fuses = d.fuses := by simp [Dev.flush]
@[simp] theorem Dev.send_fuses (d : Dev) (p : Nat) (f : Frame) : (d.send p f).fuses = d.fuses := by simp [Dev.send]
@[simp] theorem Dev.sendCtrl_fuses (d : Dev) (p : Nat) (nack : Bool) : (d.sendCtrl p nack).fuses = d.fuses := by simp [Dev.sendCtrl]
@[simp] theorem Dev.resend_fuses (d : Dev) (p : Nat) : (d.resend p).fuses = d.fuses := by simp [Dev.resend]
@[simp] theorem Dev.sendMsg_fuses (d : Dev) (code rtag : Nat) (payload : List Byte) :
    (d.sendMsg code rtag payload).fuses = d.fuses := by simp [Dev.sendMsg]

@[simp] theorem Dev.sendBytes_fuses (d : Dev) (p cls rtag bucket plo : Nat) (bs : List Byte) :
    (d.sendBytes p cls rtag bucket plo bs).fuses = d.fuses := by simp [Dev.sendBytes]

@[simp] theorem Dev.tagFail_fuses (d : Dev) (p : Nat) : (d.tagFail p).fuses = d.fuses := by simp [Dev.tagFail]
@[simp] theorem Dev.doneAcked_fuses (d : Dev) : d.doneAcked.fuses = d.fuses := by simp [Dev.doneAcked]
@[simp] theorem Dev.sendOwed_fuses (d : Dev) : d.sendOwed.fuses = d.fuses := by simp [Dev.sendOwed]
@[simp] theorem Dev.received_fuses (d : Dev) (a : Arrival) : (d.received a).1.fuses = d.fuses := by simp [Dev.received]
@[simp] theorem Dev.inOrder_fuses (d : Dev) (a : Arrival) : (d.inOrder a).1.fuses = d.fuses := by simp [Dev.inOrder]
@[simp] theorem Dev.refuseFrame_fuses (d : Dev) (a : Arrival) : (d.refuseFrame a).fuses = d.fuses := by simp [Dev.refuseFrame]
@[simp] theorem Dev.place_fuses (d : Dev) (a : Arrival) : (d.place a).fuses = d.fuses := by simp [Dev.place]
@[simp] theorem dataFrame_fuses (a : Arrival) (d : Dev) : (dataFrame a d).fuses = d.fuses := by simp [dataFrame]
@[simp] theorem ctrlFrame_fuses (a : Arrival) (d : Dev) : (ctrlFrame a d).fuses = d.fuses := by simp [ctrlFrame]
@[simp] theorem Dev.timeFrame_fuses (d : Dev) (a : Arrival) : (d.timeFrame a).1.fuses = d.fuses := by simp [Dev.timeFrame]
@[simp] theorem Dev.keyFrame_fuses (d : Dev) (a : Arrival) : (d.keyFrame a).1.fuses = d.fuses := by simp [Dev.keyFrame]
@[simp] theorem Dev.tryTrain_fuses (d : Dev) (p : Nat) : (d.tryTrain p).fuses = d.fuses := by simp [Dev.tryTrain]
@[simp] theorem rilTopoWrite_fuses (v : W32) (d : Dev) : (rilTopoWrite v d).fuses = d.fuses := by simp [rilTopoWrite]
@[simp] theorem laneTrainingDone_fuses (p : Nat) (d : Dev) : (laneTrainingDone p d).fuses = d.fuses := by simp [laneTrainingDone]
@[simp] theorem laneLoss_fuses (p : Nat) (d : Dev) : (laneLoss p d).fuses = d.fuses := by simp [laneLoss]
@[simp] theorem hello_fuses (a : Arrival) (ident key nonce : Nat) (chainOk : Bool) (d : Dev) :
    (hello a ident key nonce chainOk d).fuses = d.fuses := by simp [hello]

@[simp] theorem Dev.sendJoin_fuses (d : Dev) : d.sendJoin.fuses = d.fuses := by simp [Dev.sendJoin]
@[simp] theorem Dev.joinAgain_fuses (d : Dev) : d.joinAgain.fuses = d.fuses := by simp [Dev.joinAgain]
@[simp] theorem Dev.mirrorUp_fuses (d : Dev) : d.mirrorUp.fuses = d.fuses := by simp [Dev.mirrorUp]
@[simp] theorem finish_fuses (a : Arrival) (sigOk : Bool) (d : Dev) : (finish a sigOk d).fuses = d.fuses := by
  unfold finish
  dsimp only
  (repeat' split) <;> simp

@[simp] theorem Dev.sendRekey_fuses (d : Dev) (p kind : Nat) : (d.sendRekey p kind).fuses = d.fuses := by simp [Dev.sendRekey]
@[simp] theorem Dev.startRekey_fuses (d : Dev) (p : Nat) : (d.startRekey p).fuses = d.fuses := by simp [Dev.startRekey]
@[simp] theorem rekeyThreshold_fuses (p : Nat) (d : Dev) : (rekeyThreshold p d).fuses = d.fuses := by simp [rekeyThreshold]
@[simp] theorem Dev.newKeys_fuses (d : Dev) (p key nonce : Nat) : (d.newKeys p key nonce).fuses = d.fuses := by simp [Dev.newKeys]
@[simp] theorem Dev.rekeyFrame_fuses (d : Dev) (a : Arrival) : (d.rekeyFrame a).1.fuses = d.fuses := by simp [Dev.rekeyFrame]
@[simp] theorem rekeyInit_fuses (a : Arrival) (key nonce : Nat) (sigOk : Bool) (d : Dev) :
    (rekeyInit a key nonce sigOk d).fuses = d.fuses := by simp [rekeyInit]

@[simp] theorem rekeyResp_fuses (a : Arrival) (key nonce : Nat) (sigOk : Bool) (d : Dev) :
    (rekeyResp a key nonce sigOk d).fuses = d.fuses := by simp [rekeyResp]

@[simp] theorem wakeBurstTimer_fuses (p : Nat) (d : Dev) : (wakeBurstTimer p d).fuses = d.fuses := by simp [wakeBurstTimer]
@[simp] theorem timeSyncSend_fuses (p : Nat) (d : Dev) : (timeSyncSend p d).fuses = d.fuses := by simp [timeSyncSend]
@[simp] theorem syncFrame_fuses (a : Arrival) (d : Dev) : (syncFrame a d).fuses = d.fuses := by simp [syncFrame]
@[simp] theorem followFrame_fuses (a : Arrival) (t1 : Nat) (locked : Bool) (hops : Nat) (d : Dev) :
    (followFrame a t1 locked hops d).fuses = d.fuses := by simp [followFrame]

@[simp] theorem dreqFrame_fuses (a : Arrival) (d : Dev) : (dreqFrame a d).fuses = d.fuses := by simp [dreqFrame]
@[simp] theorem drespFrame_fuses (a : Arrival) (t4 : Nat) (d : Dev) : (drespFrame a t4 d).fuses = d.fuses := by
  unfold drespFrame
  dsimp only
  (repeat' split) <;> simp

/-! ### Fences -/

@[simp] theorem basinFaultDetected_fuses (b : Nat) (d : Dev) : (basinFaultDetected b d).fuses = d.fuses := by simp [basinFaultDetected]
@[simp] theorem plannedFence_fuses (b : Nat) (d : Dev) : (plannedFence b d).fuses = d.fuses := by simp [plannedFence]
@[simp] theorem spareRestoreDone_fuses (row : Nat) (d : Dev) : (spareRestoreDone row d).fuses = d.fuses := by
  unfold spareRestoreDone
  dsimp only
  (repeat' split) <;> simp

@[simp] theorem Dev.eccSoft_fuses (d : Dev) (b w : Nat) (scrub : Bool) : (d.eccSoft b w scrub).fuses = d.fuses := by simp [Dev.eccSoft]
@[simp] theorem Dev.eccCorrect_fuses (d : Dev) (b : Nat) (ws : List Nat) : (d.eccCorrect b ws).fuses = d.fuses := by simp [Dev.eccCorrect]
@[simp] theorem Dev.eccHard_fuses (d : Dev) (b w : Nat) (scrub : Bool) : (d.eccHard b w scrub).fuses = d.fuses := by simp [Dev.eccHard]
@[simp] theorem Dev.eccRun_fuses (d : Dev) (b w pc : Nat) : (d.eccRun b w pc).fuses = d.fuses := by simp [Dev.eccRun]
@[simp] theorem cisternScrub_fuses (b addr finding : Nat) (d : Dev) : (cisternScrub b addr finding d).fuses = d.fuses := by simp [cisternScrub]
@[simp] theorem epochReissue_fuses (u : Nat) (d : Dev) : (epochReissue u d).fuses = d.fuses := by simp [epochReissue]
@[simp] theorem Dev.failBack_fuses (d : Dev) (q : Quar) : (d.failBack q).fuses = d.fuses := by
  unfold Dev.failBack
  dsimp only
  (repeat' split) <;> simp

@[simp] theorem quarantineFailback_fuses (u : Nat) (d : Dev) : (quarantineFailback u d).fuses = d.fuses := by simp [quarantineFailback]
@[simp] theorem stackReadyLoss_fuses (n : Nat) (d : Dev) : (stackReadyLoss n d).fuses = d.fuses := by simp [stackReadyLoss]
/-! ### The reservoir and its units -/

@[simp] theorem Dev.rsvUe_fuses (d : Dev) (a : Nat) (scrub : Bool) : (d.rsvUe a scrub).fuses = d.fuses := by simp [Dev.rsvUe]
@[simp] theorem Dev.rsvSoft_fuses (d : Dev) (us : List Nat) : (d.rsvSoft us).fuses = d.fuses := by simp [Dev.rsvSoft]
@[simp] theorem Dev.rsvTouch_fuses (d : Dev) (dom a n : Nat) : (d.rsvTouch dom a n).fuses = d.fuses := by simp [Dev.rsvTouch]
@[simp] theorem Dev.rsvRead_fuses (d : Dev) (dom a n : Nat) : (d.rsvRead dom a n).1.fuses = d.fuses := by simp [Dev.rsvRead]
@[simp] theorem Dev.rsvStore_fuses (d : Dev) (a : Nat) (bs : List Byte) : (d.rsvStore a bs).1.fuses = d.fuses := by simp [Dev.rsvStore]
@[simp] theorem Dev.rsvWrite_fuses (d : Dev) (dom a : Nat) (bs : List Byte) : (d.rsvWrite dom a bs).1.fuses = d.fuses := by
  change fstFuses (d.rsvWrite dom a bs) = d.fuses
  unfold Dev.rsvWrite
  extract_lets w
  have hw : w.1.fuses = d.fuses := (fst_fuses w).trans (foldl_fstFuses (fun e p => by simp [fstFuses]) _ _)
  split
  · rfl
  split
  · exact (fstFuses_mk _ _).trans ((Dev.deny_fuses _ _ _ _ _).trans hw)
  split
  · exact (fstFuses_mk _ _).trans hw
  · exact (fstFuses_mk _ _).trans hw

@[simp] theorem Dev.replyRsv_fuses (d : Dev) (a : Nat) (r : RsvAns) : (d.replyRsv a r).fuses = d.fuses := by
  unfold Dev.replyRsv
  split <;> simp

@[simp] theorem Dev.holdOr_fuses (d : Dev) (q : Quar) : (d.holdOr q).fuses = d.fuses := by simp [Dev.holdOr]
@[simp] theorem reservoirRead_fuses (src : Nat) (epoch : W32) (domain : Nat) (handle addr len : Nat) (d : Dev) :
    (reservoirRead src epoch domain handle addr len d).fuses = d.fuses := by simp [reservoirRead]

@[simp] theorem reservoirWrite_fuses (src : Nat) (epoch : W32) (domain : Nat) (handle addr : Nat) (data : List Byte) (d : Dev) :
    (reservoirWrite src epoch domain handle addr data d).fuses = d.fuses := by simp [reservoirWrite]

@[simp] theorem Dev.atomic_fuses (d : Dev) (dom : Nat) (handle addr : Nat) (k : Atomic) : (d.atomic dom handle addr k).fuses = d.fuses := by
  unfold Dev.atomic
  dsimp only
  (repeat' split) <;> simp

@[simp] theorem atomicOp_fuses (src : Nat) (epoch : W32) (domain : Nat) (handle addr : Nat) (k : Dev → Atomic) (d : Dev) :
    (atomicOp src epoch domain handle addr k d).fuses = d.fuses := by simp [atomicOp]

@[simp] theorem Dev.ring_fuses (d : Dev) (ring ct : Nat) (amax : Option Nat) : (d.ring ring ct amax).1.fuses = d.fuses := by simp [Dev.ring]
@[simp] theorem Dev.ringDenied_fuses (d : Dev) (dom ring : Nat) : (d.ringDenied dom ring).fuses = d.fuses := by simp [Dev.ringDenied]
@[simp] theorem amaxOp_fuses (ring domain ct : Nat) (amax : Option Nat) (d : Dev) : (amaxOp ring domain ct amax d).fuses = d.fuses := by simp [amaxOp]
@[simp] theorem reservoirScrub_fuses (addr finding : Nat) (d : Dev) : (reservoirScrub addr finding d).fuses = d.fuses := by simp [reservoirScrub]
@[simp] theorem Dev.sink_fuses (d : Dev) (b : Nat) (read : Bool) : (d.sink b read).fuses = d.fuses := by simp [Dev.sink]
@[simp] theorem routerSinkPacket_fuses (b : Nat) (read : Bool) (d : Dev) : (routerSinkPacket b read d).fuses = d.fuses := by simp [routerSinkPacket]
@[simp] theorem Dev.remoteRead_fuses (d : Dev) (b domain addr len : Nat) : (d.remoteRead b domain addr len).fuses = d.fuses := by
  unfold Dev.remoteRead
  dsimp only
  (repeat' split) <;> simp

@[simp] theorem remoteCisternRead_fuses (b src : Nat) (epoch : W32) (domain : Nat) (handle addr len : Nat) (d : Dev) :
    (remoteCisternRead b src epoch domain handle addr len d).fuses = d.fuses := by simp [remoteCisternRead]

@[simp] theorem Dev.serveHeld_fuses (d : Dev) (q : Quar) : (d.serveHeld q).fuses = d.fuses := by
  unfold Dev.serveHeld
  split <;> simp

@[simp] theorem quarantineRelease_fuses (u : Nat) (d : Dev) : (quarantineRelease u d).fuses = d.fuses := by simp [quarantineRelease]
/-! ### Mirrored streams -/

@[simp] theorem Dev.sendPost_fuses (d : Dev) (twin tag idx : Nat) : (d.sendPost twin tag idx).fuses = d.fuses := by simp [Dev.sendPost]
@[simp] theorem Dev.sendDelta_fuses (d : Dev) (i tag idx : Nat) : (d.sendDelta i tag idx).fuses = d.fuses := by
  unfold Dev.sendDelta
  dsimp only
  (repeat' split) <;> simp

@[simp] theorem Dev.sendForward_fuses (d : Dev) (i : Nat) (x : Desc) (data : List Byte) :
    (d.sendForward i x data).fuses = d.fuses := by simp [Dev.sendForward]

@[simp] theorem Dev.hbSend_fuses (d : Dev) : d.hbSend.fuses = d.fuses := by simp [Dev.hbSend]
@[simp] theorem Dev.loadState_fuses (d : Dev) (i : Nat) (bs : List Byte) : (d.loadState i bs).fuses = d.fuses := by
  unfold Dev.loadState
  split
  · rfl
  · exact foldl_fuses (fun d k => Dev.setRsv_fuses d _) _ d

@[simp] theorem Dev.resync_fuses (d : Dev) (i boundary : Nat) : (d.resync i boundary).fuses = d.fuses := by simp [Dev.resync]
@[simp] theorem Dev.startResyncs_fuses (d : Dev) (now : Nat) : (d.startResyncs now).fuses = d.fuses := by simp [Dev.startResyncs]
@[simp] theorem Dev.rejoin_fuses (d : Dev) (j : Join) : (d.rejoin j).fuses = d.fuses := by simp [Dev.rejoin]
@[simp] theorem Dev.tryPair_fuses (d : Dev) (j : Join) : (d.tryPair j).fuses = d.fuses := by simp [Dev.tryPair]
@[simp] theorem Dev.comparePend_fuses (d : Dev) : d.comparePend.fuses = d.fuses := by
  unfold Dev.comparePend
  dsimp only
  (repeat' split) <;> simp

/-! ### The slot table -/

@[simp] theorem Dev.deliverRun_fuses (d : Dev) (r : Run) : (d.deliverRun r).fuses = d.fuses := by
  unfold Dev.deliverRun
  split <;> simp

@[simp] theorem Dev.deliverSlot_fuses (d : Dev) (copy a start : Nat) : (d.deliverSlot copy a start).fuses = d.fuses := by
  unfold Dev.deliverSlot
  dsimp only
  (repeat' split) <;> simp

@[simp] theorem Dev.deliverNext_fuses (d : Dev) (t : Table) (a : Nat) : (d.deliverNext t a).fuses = d.fuses := by simp [Dev.deliverNext]
@[simp] theorem Dev.takeDelivered_fuses (d : Dev) : d.takeDelivered.fuses = d.fuses := by simp [Dev.takeDelivered]
@[simp] theorem Dev.failRun_fuses (d : Dev) (r : Run) (code : Nat) : (d.failRun r code).fuses = d.fuses := by simp [Dev.failRun]
@[simp] theorem Dev.monitor_fuses (d : Dev) (m : Readings) : (d.monitor m).fuses = d.fuses := by simp [Dev.monitor]
@[simp] theorem Dev.trimSwitch_fuses (d : Dev) : d.trimSwitch.fuses = d.fuses := by
  unfold Dev.trimSwitch
  split <;> simp

@[simp] theorem Dev.loadBudgets_fuses (d : Dev) (l : List (Nat × Nat)) : (d.loadBudgets l).fuses = d.fuses := by simp [Dev.loadBudgets]
@[simp] theorem Dev.settle_fuses (d : Dev) : d.settle.fuses = d.fuses := by simp [Dev.settle]
@[simp] theorem tableSwap_fuses (d : Dev) : (tableSwap d).fuses = d.fuses := by
  unfold tableSwap
  split <;> simp

@[simp] theorem timeStepApply_fuses (d : Dev) : (timeStepApply d).fuses = d.fuses := by
  unfold timeStepApply
  split <;> simp

@[simp] theorem Dev.closePeriod_fuses (d : Dev) (i : Nat) : (d.closePeriod i).fuses = d.fuses := by
  unfold Dev.closePeriod
  split <;> simp

@[simp] theorem Dev.missed_fuses (d : Dev) (i : Nat) (s : Stream) (p : Period) (held : Bool) :
    (d.missed i s p held).fuses = d.fuses := by simp [Dev.missed]

@[simp] theorem Dev.take_fuses (d : Dev) (r : Run) : (d.take r).fuses = d.fuses := by
  unfold Dev.take
  dsimp only
  (repeat' split) <;> simp

@[simp] theorem Dev.trainBegin_fuses (d : Dev) (i : Nat) : (d.trainBegin i).fuses = d.fuses := by
  unfold Dev.trainBegin
  split <;> simp

@[simp] theorem Dev.takeFor_fuses (d : Dev) (r : Run) : (d.takeFor r).fuses = d.fuses := by simp [Dev.takeFor]
@[simp] theorem Dev.postEnds_fuses (d : Dev) (r : Run) (fin : Nat) : (d.postEnds r fin).fuses = d.fuses := by simp [Dev.postEnds]
@[simp] theorem Dev.neverStarts_fuses (d : Dev) (r : Run) (code : Nat) : (d.neverStarts r code).fuses = d.fuses := by simp [Dev.neverStarts]
@[simp] theorem Dev.slotOver_fuses (d : Dev) : d.slotOver.fuses = d.fuses := by simp [Dev.slotOver]
@[simp] theorem slotStrobe_fuses (m : Readings) (d : Dev) : (slotStrobe m d).fuses = d.fuses := by
  unfold slotStrobe
  dsimp only
  (repeat' split) <;> simp

@[simp] theorem Dev.startRun_fuses (d : Dev) (b : Nat) (r : Run) (start fin : Nat) : (d.startRun b r start fin).fuses = d.fuses := by
  unfold Dev.startRun
  dsimp only
  (repeat' split) <;> simp

@[simp] theorem Dev.epochClash_fuses (d : Dev) (b : Nat) (r : Run) : (d.epochClash b r).fuses = d.fuses := by simp [Dev.epochClash]
@[simp] theorem Dev.fenceFirst_fuses (d : Dev) (b : Nat) : (d.fenceFirst b).fuses = d.fuses := by
  simp only [Dev.fenceFirst]
  (repeat' split) <;> simp [*]

@[simp] theorem Dev.notStarted_fuses (d : Dev) (b : Nat) (r : Run) (f : Dev → Dev) (hf : ∀ x, (f x).fuses = x.fuses) :
    (d.notStarted b r f).fuses = d.fuses := by
  simp only [Dev.notStarted]
  simp [*]

@[simp] theorem runStart_fuses (b : Nat) (d : Dev) : (runStart b d).fuses = d.fuses := by
  unfold runStart
  dsimp only
  (repeat' split) <;> simp

@[simp] theorem replayStart_fuses (b : Nat) (d : Dev) : (replayStart b d).fuses = d.fuses := by
  unfold replayStart
  dsimp only
  (repeat' split) <;> simp

@[simp] theorem runEndOffset_fuses (b : Nat) (d : Dev) : (runEndOffset b d).fuses = d.fuses := by
  unfold runEndOffset
  split <;> simp

@[simp] theorem Dev.runRetired_fuses (d : Dev) (r : Run) : (d.runRetired r).fuses = d.fuses := by
  unfold Dev.runRetired
  split <;> simp

@[simp] theorem runFlagMerge_fuses (b : Nat) (d : Dev) : (runFlagMerge b d).fuses = d.fuses := by
  unfold runFlagMerge
  dsimp only
  (repeat' split) <;> simp

/-! ### Streams, doorbells and posting -/

@[simp] theorem Dev.rejectDb_fuses (d : Dev) : d.rejectDb.fuses = d.fuses := by simp [Dev.rejectDb]
@[simp] theorem doorbell_fuses (f off width : Nat) (v : W64) (d : Dev) : (doorbell f off width v d).fuses = d.fuses := by simp [doorbell]
@[simp] theorem Dev.openBytes_fuses (d : Dev) (n : Nat) : (d.openBytes n).2.fuses = d.fuses := by simp [Dev.openBytes]
@[simp] theorem Dev.invalid_fuses (d : Dev) (i : Nat) (x : Desc) : (d.invalid i x).fuses = d.fuses := by simp [Dev.invalid]
@[simp] theorem submissionFetch_fuses (i : Nat) (ok : Bool) (entry : List Byte) (d : Dev) : (submissionFetch i ok entry d).fuses = d.fuses := by
  unfold submissionFetch
  dsimp only
  (repeat' split) <;> simp

@[simp] theorem frameArrival_fuses (i : Nat) (data : List Byte) (d : Dev) : (frameArrival i data d).fuses = d.fuses := by
  unfold frameArrival
  dsimp only
  (repeat' split) <;> simp

@[simp] theorem ingressReadFailure_fuses (i : Nat) (d : Dev) : (ingressReadFailure i d).fuses = d.fuses := by
  unfold ingressReadFailure
  dsimp only
  (repeat' split) <;> simp

@[simp] theorem Dev.output_fuses (d : Dev) (s : Stream) (n : Nat) : (d.output s n).2.fuses = d.fuses := by
  unfold Dev.output
  dsimp only
  (repeat' split) <;> simp

@[simp] theorem Dev.mismatch_fuses (d : Dev) (i tag : Nat) : (d.mismatch i tag).fuses = d.fuses := by simp [Dev.mismatch]
@[simp] theorem Dev.compareDigests_fuses (d : Dev) (i tag : Nat) : (d.compareDigests i tag).fuses = d.fuses := by
  unfold Dev.compareDigests
  dsimp only
  (repeat' split) <;> simp

@[simp] theorem Dev.formDigest_fuses (d : Dev) (i : Nat) (p : Period) (code outlen : Nat) (out : List Byte) :
    (d.formDigest i p code outlen out).fuses = d.fuses := by simp [Dev.formDigest]

@[simp] theorem Dev.covering_fuses (d : Dev) (i : Nat) (p : Period) : (d.covering i p).fuses = d.fuses := by simp [Dev.covering]
@[simp] theorem Dev.postPeriod_fuses (d : Dev) (i : Nat) (p : Period) (x : Desc) (out : List Byte) :
    (d.postPeriod i p x out).fuses = d.fuses := by simp [Dev.postPeriod]

@[simp] theorem posting_fuses (i : Nat) (d : Dev) : (posting i d).fuses = d.fuses := by
  unfold posting
  dsimp only
  (repeat' split) <;> simp

@[simp] theorem hotCoverCheck_fuses (i : Nat) (d : Dev) : (hotCoverCheck i d).fuses = d.fuses := by
  unfold hotCoverCheck
  dsimp only
  (repeat' split) <;> simp

@[simp] theorem Dev.uncovered_fuses (d : Dev) (i tag : Nat) : (d.uncovered i tag).fuses = d.fuses := by simp [Dev.uncovered]
@[simp] theorem failedPeriodCompletion_fuses (i : Nat) (d : Dev) : (failedPeriodCompletion i d).fuses = d.fuses := by
  unfold failedPeriodCompletion
  dsimp only
  (repeat' split) <;> simp

/-! ### The boot -/

@[simp] theorem Dev.updateEvent_fuses (d : Dev) : d.updateEvent.fuses = d.fuses := by simp [Dev.updateEvent]
@[simp] theorem Dev.bootStep_fuses (d : Dev) (k : Nat) : (d.bootStep k).fuses = d.fuses := by simp [Dev.bootStep]
@[simp] theorem Dev.attempt_fuses (d : Dev) : d.attempt.fuses = d.fuses := by simp [Dev.attempt]
@[simp] theorem bootStart_fuses (d : Dev) : (bootStart d).fuses = d.fuses := by simp [bootStart]
@[simp] theorem Dev.bootFail_fuses (d : Dev) (cause detail : Nat) : (d.bootFail cause detail).fuses = d.fuses := by simp [Dev.bootFail]
@[simp] theorem Dev.applyConfig_fuses (d : Dev) : d.applyConfig.fuses = d.fuses := by
  unfold Dev.applyConfig
  split <;> simp

@[simp] theorem Dev.bootB3_fuses (d : Dev) : d.bootB3.fuses = d.fuses := by
  unfold Dev.bootB3
  dsimp only
  (repeat' split) <;> simp

@[simp] theorem Dev.bootB4_fuses (d : Dev) : d.bootB4.fuses = d.fuses := by
  unfold Dev.bootB4
  dsimp only
  (repeat' split) <;> simp

@[simp] theorem Dev.bootB5_fuses (d : Dev) (bad : Nat) : (d.bootB5 bad).fuses = d.fuses := by
  unfold Dev.bootB5
  split <;> simp

@[simp] theorem Dev.bootB6_fuses (d : Dev) (bad : Nat) : (d.bootB6 bad).fuses = d.fuses := by simp [Dev.bootB6]
@[simp] theorem Dev.absentEvents_fuses (d : Dev) : d.absentEvents.fuses = d.fuses := by simp [Dev.absentEvents]
@[simp] theorem Dev.bootB7_fuses (d : Dev) (bad : List Nat) : (d.bootB7 bad).fuses = d.fuses := by simp [Dev.bootB7]
@[simp] theorem bootStepTimeout_fuses (d : Dev) : (bootStepTimeout d).fuses = d.fuses := by simp [bootStepTimeout]
@[simp] theorem bootBackoffExpiry_fuses (d : Dev) : (bootBackoffExpiry d).fuses = d.fuses := by
  unfold bootBackoffExpiry
  split <;> simp

@[simp] theorem recoveryTimeout_fuses (d : Dev) : (recoveryTimeout d).fuses = d.fuses := by
  unfold recoveryTimeout
  split <;> simp

/-! ### Operations in a basin -/

@[simp] theorem Dev.retire_fuses (d : Dev) (b : Nat) (o : Op) : (d.retire b o).fuses = d.fuses := by
  unfold Dev.retire
  dsimp only
  (repeat' split) <;> simp

@[simp] theorem Dev.readFor_fuses (d : Dev) (b pc : Nat) (rs : List (Nat × Nat)) (k : Dev → Dev) (hk : ∀ x, (k x).fuses = x.fuses) :
    (d.readFor b pc rs k).fuses = d.fuses := by
  simp only [Dev.readFor]
  (repeat' split) <;> simp [*]

/-! ### Sluice transfers -/

@[simp] theorem Dev.sluiceEnd_fuses (d : Dev) (b : Nat) (o : Op) (slu code e : Nat) :
    (d.sluiceEnd b o slu code e).fuses = d.fuses := by simp [Dev.sluiceEnd]

@[simp] theorem Dev.sluiceFail_fuses (d : Dev) (b : Nat) (o : Op) (slu code : Nat) :
    (d.sluiceFail b o slu code).fuses = d.fuses := by simp [Dev.sluiceFail]

@[simp] theorem Dev.prismRefuse_fuses (d : Dev) (b : Nat) (o : Op) (e : Nat) : (d.prismRefuse b o e).fuses = d.fuses := by simp [Dev.prismRefuse]
@[simp] theorem Dev.sluiceEcc_fuses (d : Dev) (b w pc : Nat) : (d.sluiceEcc b w pc).fuses = d.fuses := by simp [Dev.sluiceEcc]
@[simp] theorem Dev.readRsvRows_fuses (d : Dev) (dom : Nat) (rows : List (Nat × Nat)) (got : List (List Byte)) :
    (d.readRsvRows dom rows got).1.fuses = d.fuses := by
  induction rows generalizing d got with
  | nil => rfl
  | cons p t ih =>
    rw [Dev.readRsvRows]
    split <;> simp [ih]

@[simp] theorem Dev.readSide_fuses (d : Dev) (b : Nat) (run : Run) (v : Nat → List (Nat × Nat)) (s : Side) :
    (d.readSide b run v s).1.fuses = d.fuses := by
  unfold Dev.readSide
  dsimp only
  (repeat' split) <;> simp

@[simp] theorem Dev.readSides_fuses (d : Dev) (b : Nat) (run : Run) (vs : List ((Nat → List (Nat × Nat)) × Side))
    (got : List (List (List Byte))) :
    (d.readSides b run vs got).1.fuses = d.fuses := by
  induction vs generalizing d got with
  | nil => rfl
  | cons v t ih =>
    rw [Dev.readSides]
    split <;> simp [ih]

@[simp] theorem Dev.gated_fuses (d : Dev) (b : Nat) (a : Active) (pc : Nat) (s : Sluice) (p : Ppb) (k : Dev → Dev)
    (hk : ∀ x, (k x).fuses = x.fuses) :
    (d.gated b a pc s p k).fuses = d.fuses := by
  simp only [Dev.gated]
  (repeat' split) <;> simp [*]

@[simp] theorem Dev.convert_fuses (d : Dev) (b : Nat) (a : Active) (o : Op) (s : Sluice) (ts : Nat) : (d.convert b a o s ts).fuses = d.fuses := by
  unfold Dev.convert
  dsimp only
  (repeat' split) <;> simp

@[simp] theorem sluiceTransferStart_fuses (b : Nat) (d : Dev) : (sluiceTransferStart b d).fuses = d.fuses := by
  unfold sluiceTransferStart
  dsimp only
  (repeat' split) <;> simp

@[simp] theorem Dev.writeSpans_fuses (d : Dev) (dom : Nat) (ps : List (Nat × List Byte)) : (d.writeSpans dom ps).1.fuses = d.fuses := by
  induction ps generalizing d with
  | nil => rfl
  | cons p t ih =>
    rw [Dev.writeSpans]
    split <;> simp [ih]

@[simp] theorem Dev.transferDone_fuses (d : Dev) (b : Nat) (a : Active) (o : Op) (p : Ppb) (raw : Bool) :
    (d.transferDone b a o p raw).fuses = d.fuses := by
  unfold Dev.transferDone
  dsimp only
  (repeat' split) <;> simp

@[simp] theorem transferRetire_fuses (b q : Nat) (d : Dev) : (transferRetire b q d).fuses = d.fuses := by
  unfold transferRetire
  dsimp only
  (repeat' split) <;> simp

/-! ### The cascade -/

@[simp] theorem cascadeRetire_fuses (b q : Nat) (d : Dev) : (cascadeRetire b q d).fuses = d.fuses := by
  unfold cascadeRetire
  dsimp only
  (repeat' split) <;> simp

@[simp] theorem partialArrival_fuses (b : Nat) (v : HeldPartial) (d : Dev) : (partialArrival b v d).fuses = d.fuses := by
  unfold partialArrival
  dsimp only
  (repeat' split) <;> simp

@[simp] theorem Dev.groupFinal_fuses (d : Dev) (b : Nat) (a : Active) (o : Op) (vs : List Partial) :
    (d.groupFinal b a o vs).fuses = d.fuses := by simp [Dev.groupFinal]

@[simp] theorem Dev.lateResult_fuses (d : Dev) (b : Nat) (a : Active) : (d.lateResult b a).fuses = d.fuses := by
  unfold Dev.lateResult
  split <;> simp

@[simp] theorem groupCombine_fuses (b q : Nat) (d : Dev) : (groupCombine b q d).fuses = d.fuses := by
  unfold groupCombine
  dsimp only
  (repeat' split) <;> simp

@[simp] theorem collectiveResult_fuses (b q : Nat) (vals : List Partial) (d : Dev) : (collectiveResult b q vals d).fuses = d.fuses := by
  unfold collectiveResult
  dsimp only
  (repeat' split) <;> simp

/-! ### Registers and the mailbox -/

@[simp] theorem Dev.regRead_fuses (d : Dev) (unit off width : Nat) : (d.regRead unit off width).2.fuses = d.fuses := by simp [Dev.regRead]
@[simp] theorem Dev.regReads_fuses (d : Dev) (unit off width n : Nat) : (d.regReads unit off width n).2.fuses = d.fuses := by
  induction n generalizing d off with
  | zero => rfl
  | succ k ih => simp [Dev.regReads, ih]

@[simp] theorem Dev.cfgWrite_fuses (d : Dev) (p v : Nat) : (d.cfgWrite p v).fuses = d.fuses := by simp [Dev.cfgWrite]
@[simp] theorem Dev.portWrite_fuses (d : Dev) (p off v : Nat) : (d.portWrite p off v).fuses = d.fuses := by
  unfold Dev.portWrite
  split <;> simp

@[simp] theorem Dev.wordWrite_fuses (d : Dev) (unit off v : Nat) : (d.wordWrite unit off v).fuses = d.fuses := by
  unfold Dev.wordWrite
  dsimp only
  (repeat' split) <;> simp

@[simp] theorem Dev.regWrite_fuses (d : Dev) (unit off width v : Nat) : (d.regWrite unit off width v).fuses = d.fuses := by simp [Dev.regWrite]
@[simp] theorem Dev.unmask_fuses (d : Dev) (f v : Nat) : (d.unmask f v).fuses = d.fuses := by simp [Dev.unmask]
@[simp] theorem Dev.bar0Write_fuses (d : Dev) (f off v : Nat) : (d.bar0Write f off v).fuses = d.fuses := by
  unfold Dev.bar0Write
  split <;> simp

@[simp] theorem Dev.bar0_fuses (d : Dev) (f off width : Nat) (v : W64) : (d.bar0 f off width v).fuses = d.fuses := by simp [Dev.bar0]
@[simp] theorem registerWrite_fuses (f : Option Nat) (addr width : Nat) (v : W64) (d : Dev) : (registerWrite f addr width v d).fuses = d.fuses := by
  simp only [registerWrite]
  (repeat' split) <;> simp [*]

/-! ### Requests, responses and the host link -/

@[simp] theorem Dev.onFunc_fuses (f : Nat) (g : Dev → Dev) (hg : ∀ x, (g x).fuses = x.fuses) (d : Dev) : (Dev.onFunc f g d).fuses = d.fuses := by
  simp only [Dev.onFunc]
  (repeat' split) <;> simp [*]

@[simp] theorem Dev.no_fuses (d : Dev) (st detail : Nat) : fstFuses (d.no st detail) = d.fuses := (rfl)
@[simp] theorem Dev.yes_fuses (d : Dev) (res : List Nat) (payload : List Byte) : fstFuses (d.yes res payload) = d.fuses := (rfl)
@[simp] theorem Dev.respond_fuses (d : Dev) (r : Req) (x : Resp) : (d.respond r x).fuses = d.fuses := by simp [Dev.respond]
@[simp] theorem requestStart_fuses (f : Nat) (slot : List Byte) (payload : Option (List Byte)) (d : Dev) :
    (requestStart f slot payload d).fuses = d.fuses := by
  unfold requestStart
  dsimp only
  (repeat' split) <;> simp

@[simp] theorem Dev.serve_fuses (f op : Nat) (g : Req → Dev → Dev × Resp) (hg : ∀ x y, fstFuses (g x y) = y.fuses) (d : Dev) :
    (Dev.serve f op g d).fuses = d.fuses := by
  unfold Dev.serve
  split
  · rfl
  · rename_i r rest _
    have hserved := hg r (d.setFh { d.fh with inprog := rest })
    split
    · exact (Dev.respond_fuses _ _ _).trans hserved
    · rfl

@[simp] theorem unknownOpcode_fuses (f : Nat) (d : Dev) : (unknownOpcode f d).fuses = d.fuses := by
  unfold unknownOpcode
  split <;> simp

@[simp] theorem Dev.winDeny_fuses (d : Dev) : d.winDeny.fuses = d.fuses := by simp [Dev.winDeny]
@[simp] theorem bar2Access_fuses (f off len : Nat) (data : Option (List Byte)) (d : Dev) : (bar2Access f off len data d).fuses = d.fuses := by
  unfold bar2Access
  dsimp only
  (repeat' split) <;> simp

@[simp] theorem hostlinkRetrain_fuses (speed width : Nat) (flit : Bool) (d : Dev) : (hostlinkRetrain speed width flit d).fuses = d.fuses := by
  unfold hostlinkRetrain
  dsimp only
  (repeat' split) <;> simp

@[simp] theorem functionReset_fuses (f : Nat) (fin : Bool) (d : Dev) : (functionReset f fin d).fuses = d.fuses := by simp [functionReset]
@[simp] theorem coreMiscompare_fuses (pass : List Nat) (d : Dev) : (coreMiscompare pass d).fuses = d.fuses := by simp [coreMiscompare]
/-! ### Runnel programs -/

@[simp] theorem Dev.capped_fuses (d : Dev) (b cap : Nat) : (d.capped b cap).fuses = d.fuses := by
  unfold Dev.capped
  dsimp only
  (repeat' split) <;> simp

@[simp] theorem Dev.mu_fuses (d : Dev) (b r : Nat) (sel : Mop → Bool) (k : Dev → Active → Op → RunnelOp → Mop → Dev)
    (hk : ∀ d a o x i, (k d a o x i).fuses = d.fuses) :
    (d.mu b r sel k).fuses = d.fuses := by
  simp only [Dev.mu]
  (repeat' split) <;> simp [*]

@[simp] theorem Dev.putLanes_fuses (d : Dev) (b r : Nat) (o : Op) (q : RunnelOp) (draws : Nat) :
    (d.putLanes b r o q draws).fuses = d.fuses := by simp [Dev.putLanes]

@[simp] theorem Dev.muLanes_fuses (d : Dev) (b r : Nat) (sel : Mop → Bool) (stoch : RunnelOp → Mop → Bool)
    (f : RunnelOp → Mop → Nat → Nat → Nat → Nat → Nat → Flagged) (mode : RunnelOp → Mop → W32) :
    (d.muLanes b r sel stoch f mode).fuses = d.fuses := by simp [Dev.muLanes]

@[simp] theorem muIn_fuses (b r : Nat) (d : Dev) : (muIn b r d).fuses = d.fuses := by simp [muIn]
@[simp] theorem muOut_fuses (b r : Nat) (d : Dev) : (muOut b r d).fuses = d.fuses := by simp [muOut]
@[simp] theorem muOutr_fuses (b r : Nat) (d : Dev) : (muOutr b r d).fuses = d.fuses := by simp [muOutr]
@[simp] theorem Dev.muInt_fuses (d : Dev) (b r code : Nat) (f : W32 → W32 → W32) : (d.muInt b r code f).fuses = d.fuses := by simp [Dev.muInt]
@[simp] theorem Dev.muBranch_fuses (d : Dev) (b r : Nat) (o : Op) (q : RunnelOp) (m : Mop) (take : Bool) :
    (d.muBranch b r o q m take).fuses = d.fuses := by simp [Dev.muBranch]

@[simp] theorem Dev.runLibrary_fuses (d : Dev) (b r : Nat) (o : Op) (q : RunnelOp) :
    (d.runLibrary b r o q).fuses = d.fuses := by simp [Dev.runLibrary]

@[simp] theorem Dev.runnelEnd_fuses (d : Dev) (b r : Nat) (o : Op) (q : RunnelOp) : (d.runnelEnd b r o q).fuses = d.fuses := by simp [Dev.runnelEnd]
@[simp] theorem runnelRetire_fuses (b r : Nat) (d : Dev) : (runnelRetire b r d).fuses = d.fuses := by
  unfold runnelRetire
  dsimp only
  split
  · rfl
  · split
    · exact Dev.runnelEnd_fuses _ _ _ _ _
    · split
      · refine Dev.readFor_fuses _ _ _ _ _ (fun e => ?_)
        split
        · exact (Dev.runnelEnd_fuses _ _ _ _ _).trans (Dev.runLibrary_fuses _ _ _ _ _)
        · exact Dev.runLibrary_fuses _ _ _ _ _
      · rfl

/-! ### Loupe operations -/

@[simp] theorem loupeRetire_fuses (b q : Nat) (d : Dev) : (loupeRetire b q d).fuses = d.fuses := by
  unfold loupeRetire
  dsimp only
  (repeat' split) <;> simp

/-! ### Device, domain, model, pair, event and log commands -/

@[simp] theorem Dev.pick_fuses (d : Dev) (l : List Nat) : (d.pick l).2.fuses = d.fuses := by simp [Dev.pick]
@[simp] theorem cmdDeviceInfo_fuses (r : Req) (d : Dev) : fstFuses (cmdDeviceInfo r d) = d.fuses := by simp [cmdDeviceInfo]
@[simp] theorem cmdDeviceHealth_fuses (r : Req) (d : Dev) : fstFuses (cmdDeviceHealth r d) = d.fuses := by simp [cmdDeviceHealth]
@[simp] theorem cmdDevicePeers_fuses (r : Req) (d : Dev) : fstFuses (cmdDevicePeers r d) = d.fuses := by simp [cmdDevicePeers]
@[simp] theorem cmdDeviceRekey_fuses (r : Req) (d : Dev) : fstFuses (cmdDeviceRekey r d) = d.fuses := by simp [cmdDeviceRekey]
@[simp] theorem cmdFuncbind_fuses (r : Req) (d : Dev) : fstFuses (cmdFuncbind r d) = d.fuses := by simp [cmdFuncbind]
@[simp] theorem cmdWindow_fuses (r : Req) (d : Dev) : fstFuses (cmdWindow r d) = d.fuses := by simp [cmdWindow]
@[simp] theorem cmdConfig_fuses (r : Req) (d : Dev) : fstFuses (cmdConfig r d) = d.fuses := by simp [cmdConfig]
@[simp] theorem Dev.resetSoon_fuses (d : Dev) (cold : Bool) : (d.resetSoon cold).fuses = d.fuses := by simp [Dev.resetSoon]
@[simp] theorem cmdReset_fuses (r : Req) (d : Dev) : fstFuses (cmdReset r d) = d.fuses := by simp [cmdReset]
@[simp] theorem resetDelayExpiry_fuses (d : Dev) : (resetDelayExpiry d).fuses = d.fuses := by
  unfold resetDelayExpiry
  dsimp only
  (repeat' split) <;> simp

@[simp] theorem cmdDomainCreate_fuses (r : Req) (d : Dev) : fstFuses (cmdDomainCreate r d) = d.fuses := by simp [cmdDomainCreate]
@[simp] theorem cmdDomainDestroy_fuses (r : Req) (d : Dev) : fstFuses (cmdDomainDestroy r d) = d.fuses := by simp [cmdDomainDestroy]
@[simp] theorem domainDestroyRelease_fuses (n : Nat) (d : Dev) : (domainDestroyRelease n d).fuses = d.fuses := by
  unfold domainDestroyRelease
  dsimp only
  (repeat' split) <;> simp

@[simp] theorem cmdDomainQuery_fuses (r : Req) (d : Dev) : fstFuses (cmdDomainQuery r d) = d.fuses := by simp [cmdDomainQuery]
@[simp] theorem cmdDomainLimits_fuses (r : Req) (d : Dev) : fstFuses (cmdDomainLimits r d) = d.fuses := by simp [cmdDomainLimits]
@[simp] theorem cmdPageAssign_fuses (r : Req) (d : Dev) : fstFuses (cmdPageAssign r d) = d.fuses := by simp [cmdPageAssign]
@[simp] theorem cmdPageRelease_fuses (r : Req) (d : Dev) : fstFuses (cmdPageRelease r d) = d.fuses := by simp [cmdPageRelease]
@[simp] theorem Dev.imageRead_fuses (d : Dev) (dom a n : Nat) : (d.imageRead dom a n).1.fuses = d.fuses := by
  unfold Dev.imageRead
  have hread := Dev.rsvRead_fuses d dom a n
  split
  · rfl
  · split <;> rename_i hr <;> simpa [hr] using hread

@[simp] theorem Dev.placeModel_fuses (d : Dev) (m : Model) : (d.placeModel m).fuses = d.fuses := by
  unfold Dev.placeModel
  dsimp only
  rw [foldl_fuses, foldl_fuses]
  · intro d g
    split <;> simp
  · intro d s
    split <;> simp

@[simp] theorem cmdModelLoad_fuses (sigOk : Bool) (img : Model) (r : Req) (d : Dev) : fstFuses (cmdModelLoad sigOk img r d) = d.fuses := by
  unfold cmdModelLoad
  dsimp only
  (repeat' split) <;>
    simp only [Dev.no_fuses, Dev.yes_fuses, Dev.imageRead_fuses, Dev.placeModel_fuses, Dev.setModels_fuses, Dev.pick_fuses]

@[simp] theorem cmdModelUnload_fuses (r : Req) (d : Dev) : fstFuses (cmdModelUnload r d) = d.fuses := by
  unfold cmdModelUnload
  split <;> simp

@[simp] theorem cmdModelQuery_fuses (r : Req) (d : Dev) : fstFuses (cmdModelQuery r d) = d.fuses := by
  unfold cmdModelQuery
  split <;> simp

@[simp] theorem cmdRunnelInstall_fuses (sigOk : Bool) (img : RunnelFn) (r : Req) (d : Dev) :
    fstFuses (cmdRunnelInstall sigOk img r d) = d.fuses := by simp [cmdRunnelInstall]

@[simp] theorem runnelImageWrite_fuses (d : Dev) : (runnelImageWrite d).fuses = d.fuses := by
  unfold runnelImageWrite
  split <;> simp

@[simp] theorem cmdRunnelRemove_fuses (r : Req) (d : Dev) : fstFuses (cmdRunnelRemove r d) = d.fuses := by simp [cmdRunnelRemove]
@[simp] theorem cmdRegRead_fuses (r : Req) (d : Dev) : fstFuses (cmdRegRead r d) = d.fuses := by
  cases ht : regTarget (r.arg64 0) (r.arg 2 * r.arg 3) <;>
    simp only [cmdRegRead, ht, ite_fstFuses, Dev.no_fuses, Dev.yes_fuses, Dev.regReads_fuses, ite_self]

@[simp] theorem cmdRegWrite_fuses (r : Req) (d : Dev) : fstFuses (cmdRegWrite r d) = d.fuses := by
  unfold cmdRegWrite
  dsimp only
  (repeat' split) <;> simp

@[simp] theorem cmdEventConfig_fuses (r : Req) (d : Dev) : fstFuses (cmdEventConfig r d) = d.fuses := by simp [cmdEventConfig]
@[simp] theorem cmdEventQuery_fuses (r : Req) (d : Dev) : fstFuses (cmdEventQuery r d) = d.fuses := by simp [cmdEventQuery]
@[simp] theorem cmdEventFetch_fuses (r : Req) (d : Dev) : fstFuses (cmdEventFetch r d) = d.fuses := by simp [cmdEventFetch]
@[simp] theorem cmdLogRead_fuses (r : Req) (d : Dev) : fstFuses (cmdLogRead r d) = d.fuses := by simp [cmdLogRead]
@[simp] theorem cmdLogClear_fuses (r : Req) (d : Dev) : fstFuses (cmdLogClear r d) = d.fuses := by simp [cmdLogClear]
/-! ### Stream, slot and flag commands -/

@[simp] theorem Dev.createStream_fuses (d : Dev) (r : Req) (bs : List Byte) : (d.createStream r bs).2.2.fuses = d.fuses := by
  unfold Dev.createStream
  dsimp only
  (repeat' split) <;> simp

@[simp] theorem cmdStreamCreate_fuses (r : Req) (d : Dev) : fstFuses (cmdStreamCreate r d) = d.fuses := by simp [cmdStreamCreate]
@[simp] theorem cmdStreamDestroy_fuses (r : Req) (d : Dev) : fstFuses (cmdStreamDestroy r d) = d.fuses := by simp [cmdStreamDestroy]
@[simp] theorem cmdStreamReissue_fuses (r : Req) (d : Dev) : fstFuses (cmdStreamReissue r d) = d.fuses := by simp [cmdStreamReissue]
@[simp] theorem cmdStreamQuery_fuses (r : Req) (d : Dev) : fstFuses (cmdStreamQuery r d) = d.fuses := by simp [cmdStreamQuery]
@[simp] theorem cmdStreamSet_fuses (r : Req) (d : Dev) : fstFuses (cmdStreamSet r d) = d.fuses := by simp [cmdStreamSet]
@[simp] theorem cmdStreamRing_fuses (r : Req) (d : Dev) : fstFuses (cmdStreamRing r d) = d.fuses := by simp [cmdStreamRing]
@[simp] theorem cmdFlagsRead_fuses (r : Req) (d : Dev) : fstFuses (cmdFlagsRead r d) = d.fuses := by simp [cmdFlagsRead]
@[simp] theorem cmdFlagsClear_fuses (r : Req) (d : Dev) : fstFuses (cmdFlagsClear r d) = d.fuses := by simp [cmdFlagsClear]
@[simp] theorem cmdSlotPlan_fuses (sigOk : Bool) (img : Plan) (r : Req) (d : Dev) :
    fstFuses (cmdSlotPlan sigOk img r d) = d.fuses := by simp [cmdSlotPlan]

@[simp] theorem cmdSlotLoad_fuses (sigOk : Bool) (img : Table) (r : Req) (d : Dev) : fstFuses (cmdSlotLoad sigOk img r d) = d.fuses := by
  simp only [cmdSlotLoad, ite_fstFuses, Dev.no_fuses, Dev.yes_fuses, Dev.imageRead_fuses, Dev.setDomains_fuses,
    Dev.setRsv_fuses, Dev.setCad_fuses, Dev.settle_fuses, ite_self]

@[simp] theorem cmdSlotCommit_fuses (r : Req) (d : Dev) : fstFuses (cmdSlotCommit r d) = d.fuses := by
  unfold cmdSlotCommit
  dsimp only
  (repeat' split) <;> simp

@[simp] theorem cmdSlotCancel_fuses (r : Req) (d : Dev) : fstFuses (cmdSlotCancel r d) = d.fuses := by
  unfold cmdSlotCancel
  split <;> simp

@[simp] theorem cmdSlotQuery_fuses (r : Req) (d : Dev) : fstFuses (cmdSlotQuery r d) = d.fuses := by
  unfold cmdSlotQuery
  dsimp only
  (repeat' split) <;> simp

/-! ### The pair -/

@[simp] theorem cmdPairAttach_fuses (r : Req) (d : Dev) : fstFuses (cmdPairAttach r d) = d.fuses := by simp [cmdPairAttach]
@[simp] theorem Dev.sendMap_fuses (d : Dev) (m : MapMsg) : (d.sendMap m).fuses = d.fuses := by simp [Dev.sendMap]
@[simp] theorem cmdPairDetach_fuses (r : Req) (d : Dev) : fstFuses (cmdPairDetach r d) = d.fuses := by simp [cmdPairDetach]
@[simp] theorem detachApply_fuses (d : Dev) : (detachApply d).fuses = d.fuses := by
  unfold detachApply
  dsimp only
  (repeat' split) <;> simp

@[simp] theorem cmdPairMirror_fuses (r : Req) (d : Dev) : fstFuses (cmdPairMirror r d) = d.fuses := by simp [cmdPairMirror]
@[simp] theorem cmdPairRole_fuses (r : Req) (d : Dev) : fstFuses (cmdPairRole r d) = d.fuses := by simp [cmdPairRole]
@[simp] theorem pairRoleApply_fuses (i : Nat) (d : Dev) : (pairRoleApply i d).fuses = d.fuses := by
  unfold pairRoleApply
  split <;> simp

@[simp] theorem cmdPairQuery_fuses (r : Req) (d : Dev) : fstFuses (cmdPairQuery r d) = d.fuses := by simp [cmdPairQuery]
@[simp] theorem join_fuses (j : Join) (d : Dev) : (join j d).fuses = d.fuses := by simp [join]
@[simp] theorem Dev.dropMirror_fuses (d : Dev) (i : Nat) : (d.dropMirror i).fuses = d.fuses := by simp [Dev.dropMirror]
@[simp] theorem mapMsg_fuses (m : MapMsg) (d : Dev) : (mapMsg m d).fuses = d.fuses := by
  unfold mapMsg
  dsimp only
  (repeat' split) <;> simp

@[simp] theorem resyncMsg_fuses (handle boundary bytes : Nat) (done : Bool) (d : Dev) : (resyncMsg handle boundary bytes done d).fuses = d.fuses := by
  unfold resyncMsg
  split <;> simp

@[simp] theorem mirrorApply_fuses (i : Nat) (d : Dev) : (mirrorApply i d).fuses = d.fuses := by
  unfold mirrorApply
  dsimp only
  (repeat' split) <;> simp

@[simp] theorem Dev.setSkew_fuses (d : Dev) (skew : Int) : (d.setSkew skew).fuses = d.fuses := by simp [Dev.setSkew]
@[simp] theorem hb_fuses (h : Heartbeat) (d : Dev) : (hb h d).fuses = d.fuses := by simp [hb]
@[simp] theorem Dev.promoteAll_fuses (d : Dev) : d.promoteAll.fuses = d.fuses := by simp [Dev.promoteAll]
@[simp] theorem hbCheck_fuses (d : Dev) : (hbCheck d).fuses = d.fuses := by
  unfold hbCheck
  dsimp only
  (repeat' split) <;> simp

@[simp] theorem postMsg_fuses (handle tag idx : Nat) (d : Dev) : (postMsg handle tag idx d).fuses = d.fuses := by
  unfold postMsg
  split <;> simp

@[simp] theorem digestMsg_fuses (handle tag dig : Nat) (d : Dev) : (digestMsg handle tag dig d).fuses = d.fuses := by
  unfold digestMsg
  split <;> simp

@[simp] theorem forwardRecord_fuses (i : Nat) (entry : List Byte) (idx arrCt : Nat) (data : List Byte) (d : Dev) :
    (forwardRecord i entry idx arrCt data d).fuses = d.fuses := by
  unfold forwardRecord
  dsimp only
  (repeat' split) <;> simp

@[simp] theorem deltaRecord_fuses (i tag : Nat) (writes : List (Nat × List Byte)) (d : Dev) :
    (deltaRecord i tag writes d).fuses = d.fuses := by simp [deltaRecord]

/-! ### The instructions of a sequencer -/

@[simp] theorem Dev.issue_fuses (d : Dev) (b : Nat) (sel : Basin → Ins → Bool) (k : Dev → Active → Ins → Dev)
    (hk : ∀ x y z, (k x y z).fuses = x.fuses) :
    (d.issue b sel k).fuses = d.fuses := by
  simp only [Dev.issue]
  (repeat' split) <;> simp [*]

@[simp] theorem Dev.goto_fuses (d : Dev) (b t : Nat) : (d.goto b t).fuses = d.fuses := by simp [Dev.goto]
@[simp] theorem Dev.advance_fuses (d : Dev) (b : Nat) : (d.advance b).fuses = d.fuses := by simp [Dev.advance]
@[simp] theorem Dev.hold_fuses (d : Dev) (b : Nat) : (d.hold b).fuses = d.fuses := by simp [Dev.hold]
@[simp] theorem Dev.result_fuses (d : Dev) (b k : Nat) (v : W32) : (d.result b k v).fuses = d.fuses := by simp [Dev.result]
@[simp] theorem seqEnd_fuses (b : Nat) (d : Dev) : (seqEnd b d).fuses = d.fuses := by simp [seqEnd]
@[simp] theorem Dev.alu_fuses (d : Dev) (b code : Nat) (f : W32 → W32 → W32) : (d.alu b code f).fuses = d.fuses := by simp [Dev.alu]
@[simp] theorem Dev.doLdw_fuses (d : Dev) (b : Nat) (a : Active) (i : Ins) : (d.doLdw b a i).fuses = d.fuses := by simp [Dev.doLdw]
@[simp] theorem Dev.doStw_fuses (d : Dev) (b : Nat) (a : Active) (i : Ins) : (d.doStw b a i).fuses = d.fuses := by simp [Dev.doStw]
@[simp] theorem Dev.branch_fuses (d : Dev) (b code : Nat) (f : W32 → W32 → Bool) : (d.branch b code f).fuses = d.fuses := by simp [Dev.branch]
@[simp] theorem seqLoop_fuses (b : Nat) (d : Dev) : (seqLoop b d).fuses = d.fuses := by simp [seqLoop]
@[simp] theorem seqFlags_fuses (b : Nat) (d : Dev) : (seqFlags b d).fuses = d.fuses := by simp [seqFlags]
@[simp] theorem Dev.doWait_fuses (d : Dev) (b : Nat) (i : Ins) : (d.doWait b i).fuses = d.fuses := by simp [Dev.doWait]
@[simp] theorem programRegionFault_fuses (b : Nat) (d : Dev) : (programRegionFault b d).fuses = d.fuses := by
  unfold programRegionFault
  dsimp only
  (repeat' split) <;> simp

@[simp] theorem Dev.descriptor_fuses (d : Dev) (b addr : Nat) (a : Active) (k : Dev → List Byte → Dev) (hk : ∀ x y, (k x y).fuses = x.fuses) :
    (d.descriptor b addr a k).fuses = d.fuses := by
  simp only [Dev.descriptor]
  (repeat' split) <;> simp [*]

@[simp] theorem Dev.grant_fuses (d : Dev) (b : Nat) (e : Engine) (i : Ins) (bytes : List Byte) (f : Basin → Op → Basin) :
    (d.grant b e i bytes f).fuses = d.fuses := by simp [Dev.grant]

@[simp] theorem Dev.goJop_fuses (d : Dev) (b : Nat) (a : Active) (i : Ins) (bytes : List Byte) :
    (d.goJop b a i bytes).fuses = d.fuses := by simp [Dev.goJop]

@[simp] theorem Dev.goSlu_fuses (d : Dev) (b : Nat) (a : Active) (i : Ins) (bytes : List Byte) :
    (d.goSlu b a i bytes).fuses = d.fuses := by simp [Dev.goSlu]

@[simp] theorem Dev.doSlu_fuses (d : Dev) (b : Nat) (a : Active) (i : Ins) (bytes : List Byte) : (d.doSlu b a i bytes).fuses = d.fuses := by
  unfold Dev.doSlu
  dsimp only
  (repeat' split) <;> simp

@[simp] theorem Dev.goCsc_fuses (d : Dev) (b : Nat) (a : Active) (i : Ins) (bytes : List Byte) :
    (d.goCsc b a i bytes).fuses = d.fuses := by simp [Dev.goCsc]

@[simp] theorem Dev.csc_fuses (d : Dev) (b : Nat) (sel : Basin → Ins → Bool) : (d.csc b sel).fuses = d.fuses := by simp [Dev.csc]
@[simp] theorem Dev.goRunl_fuses (d : Dev) (b : Nat) (a : Active) (i : Ins) (bytes : List Byte) :
    (d.goRunl b a i bytes).fuses = d.fuses := by simp [Dev.goRunl]

@[simp] theorem Dev.goLpe_fuses (d : Dev) (b : Nat) (a : Active) (i : Ins) (bytes : List Byte) :
    (d.goLpe b a i bytes).fuses = d.fuses := by simp [Dev.goLpe]

@[simp] theorem Dev.lpe_fuses (d : Dev) (b k : Nat) : (d.lpe b k).fuses = d.fuses := by simp [Dev.lpe]
@[simp] theorem Dev.goTile_fuses (d : Dev) (b : Nat) (a : Active) (i : Ins) (v : Nat) : (d.goTile b a i v).fuses = d.fuses := by simp [Dev.goTile]
@[simp] theorem scoreboardGrant_fuses (b : Nat) (d : Dev) : (scoreboardGrant b d).fuses = d.fuses := by
  unfold scoreboardGrant
  dsimp only
  (repeat' split) <;> simp

@[simp] theorem tileOpRetire_fuses (b q : Nat) (d : Dev) : (tileOpRetire b q d).fuses = d.fuses := by
  unfold tileOpRetire
  split <;> simp

@[simp] theorem layerRetire_fuses (b q : Nat) (d : Dev) : (layerRetire b q d).fuses = d.fuses := by
  unfold layerRetire
  dsimp only
  (repeat' split) <;> simp

/-! ### Time, power, update and life-cycle commands -/

@[simp] theorem cmdTimeQuery_fuses (r : Req) (d : Dev) : fstFuses (cmdTimeQuery r d) = d.fuses := by simp [cmdTimeQuery]
@[simp] theorem cmdTimeSet_fuses (r : Req) (d : Dev) : fstFuses (cmdTimeSet r d) = d.fuses := by simp [cmdTimeSet]
@[simp] theorem cmdTimeStep_fuses (r : Req) (d : Dev) : fstFuses (cmdTimeStep r d) = d.fuses := by simp [cmdTimeStep]
@[simp] theorem cmdPowerQuery_fuses (r : Req) (d : Dev) : fstFuses (cmdPowerQuery r d) = d.fuses := by simp [cmdPowerQuery]
@[simp] theorem Dev.trimRequest_fuses (d : Dev) (t : Nat) : (d.trimRequest t).fuses = d.fuses := by
  unfold Dev.trimRequest
  dsimp only
  (repeat' split) <;> simp

@[simp] theorem cmdPowerEnter_fuses (r : Req) (d : Dev) : fstFuses (cmdPowerEnter r d) = d.fuses := by simp [cmdPowerEnter]
@[simp] theorem cmdPowerPolicy_fuses (r : Req) (d : Dev) : fstFuses (cmdPowerPolicy r d) = d.fuses := by simp [cmdPowerPolicy]
@[simp] theorem cmdPowerWakeport_fuses (r : Req) (d : Dev) : fstFuses (cmdPowerWakeport r d) = d.fuses := by simp [cmdPowerWakeport]
@[simp] theorem cmdPowerTrickle_fuses (r : Req) (d : Dev) : fstFuses (cmdPowerTrickle r d) = d.fuses := by simp [cmdPowerTrickle]
@[simp] theorem cmdUpdateManifest_fuses (sigOk : Bool) (r : Req) (d : Dev) : fstFuses (cmdUpdateManifest sigOk r d) = d.fuses := by
  unfold cmdUpdateManifest
  dsimp only
  (repeat' split) <;> simp

@[simp] theorem cmdUpdateChunk_fuses (r : Req) (d : Dev) : fstFuses (cmdUpdateChunk r d) = d.fuses := by
  unfold cmdUpdateChunk
  dsimp only
  (repeat' split) <;> simp

@[simp] theorem Dev.programChunk_fuses (d : Dev) (readback : Bool) : (d.programChunk readback).fuses = d.fuses := by
  unfold Dev.programChunk
  dsimp only
  (repeat' split) <;> simp

@[simp] theorem chunkProgram_fuses (readback : Bool) (d : Dev) : (chunkProgram readback d).fuses = d.fuses := by
  unfold chunkProgram
  dsimp only
  (repeat' split) <;> simp

@[simp] theorem eraseResume_fuses (d : Dev) : (eraseResume d).fuses = d.fuses := by simp [eraseResume]
@[simp] theorem cmdUpdateStatus_fuses (r : Req) (d : Dev) : fstFuses (cmdUpdateStatus r d) = d.fuses := by simp [cmdUpdateStatus]
@[simp] theorem Dev.storeQueued_fuses (d : Dev) : d.storeQueued.fuses = d.fuses := by
  unfold Dev.storeQueued
  refine foldl_fuses (fun d i => ?_) _ d
  dsimp only
  (repeat' split) <;> simp

@[simp] theorem cmdUpdateActivate_fuses (bad : List Nat) (x1 : Req) (d : Dev) : fstFuses (cmdUpdateActivate bad x1 d) = d.fuses := by
  unfold cmdUpdateActivate
  dsimp only
  (repeat' split) <;> simp

@[simp] theorem cmdUpdateAbort_fuses (r : Req) (d : Dev) : fstFuses (cmdUpdateAbort r d) = d.fuses := by simp [cmdUpdateAbort]
@[simp] theorem cmdUpdateRecovery_fuses (sigOk : Bool) (r : Req) (d : Dev) :
    fstFuses (cmdUpdateRecovery sigOk r d) = d.fuses := by simp [cmdUpdateRecovery]

@[simp] theorem cmdLifecycleQuery_fuses (r : Req) (d : Dev) : fstFuses (cmdLifecycleQuery r d) = d.fuses := by simp [cmdLifecycleQuery]
@[simp] theorem mctpServe_fuses (sigOk : Bool) (bad : List Nat) (r : Req) (d : Dev) : fstFuses (mctpServe sigOk bad r d) = d.fuses := by
  unfold mctpServe
  split <;> simp

@[simp] theorem mctpAnswer_fuses (sigOk : Bool) (bad : List Nat) (r : Req) (d : Dev) :
    fstFuses (mctpAnswer sigOk bad r d) = d.fuses := by simp [mctpAnswer]

@[simp] theorem mctpRequest_fuses (slot payload : List Byte) (sigOk : Bool) (bad : List Nat) (d : Dev) :
    (mctpRequest slot payload sigOk bad d).fuses = d.fuses := (Dev.respond_fuses _ _ _).trans (mctpAnswer_fuses sigOk bad _ d)

/-! ### Stillness and the test access port -/

@[simp] theorem stillAssert_fuses (d : Dev) : (stillAssert d).fuses = d.fuses := by simp [stillAssert]
@[simp] theorem Dev.cancelRun_fuses (d : Dev) (b : Nat) : (d.cancelRun b).fuses = d.fuses := by
  unfold Dev.cancelRun
  split <;> simp

@[simp] theorem stillRelease_fuses (d : Dev) : (stillRelease d).fuses = d.fuses := by simp [stillRelease]
@[simp] theorem Dev.setIr_fuses (d : Dev) (code : Nat) : (d.setIr code).fuses = d.fuses := by simp [Dev.setIr]
@[simp] theorem samplePreload_fuses (pins load : Nat) (d : Dev) : (samplePreload pins load d).fuses = d.fuses := by simp [samplePreload]
@[simp] theorem Dev.bypassed_fuses (d : Dev) (tdi : Bool) : (d.bypassed tdi).fuses = d.fuses := by simp [Dev.bypassed]
@[simp] theorem Dev.debug_fuses (d : Dev) (code : Nat) (g : Dev → Dev) (hg : ∀ x, (g x).fuses = x.fuses) : (d.debug code g).fuses = d.fuses := by
  simp only [Dev.debug]
  (repeat' split) <;> simp [*]

@[simp] theorem stillstat_fuses (d : Dev) : (stillstat d).fuses = d.fuses := by simp [stillstat]
theorem Dev.memdata_fuses {d w : Dev} {v : Nat} (h : d.memdata = some (v, w)) : w.fuses = d.fuses := by
  unfold Dev.memdata at h
  dsimp only at h
  split at h
  · split at h
    · cases h
    · simp only [Option.some.injEq, Prod.mk.injEq] at h
      rw [← h.2]
      rfl
  · simp only [Option.some.injEq] at h
    split at h <;> cases h <;> rfl
  · cases h; rfl
  · cases h; rfl
  · cases h

@[simp] theorem memdata_fuses (d : Dev) : (memdata d).fuses = d.fuses := by
  unfold memdata
  refine Dev.debug_fuses d _ _ (fun e => ?_)
  split
  · rename_i v w h
    simp [Dev.memdata_fuses h]
  · simp

@[simp] theorem scan_fuses (nbits : Nat) (d : Dev) : (scan nbits d).fuses = d.fuses := by simp [scan]
/-! ### Training -/

@[simp] theorem Dev.writeElems_fuses (d : Dev) (i a w : Nat) (g : List Nat) : (d.writeElems i a w g).fuses = d.fuses := by simp [Dev.writeElems]
@[simp] theorem Dev.putBucket_fuses (d : Dev) (i k : Nat) (g : Bucket → Bucket) : (d.putBucket i k g).fuses = d.fuses := by
  unfold Dev.putBucket
  split <;> simp

@[simp] theorem Dev.onTrain_fuses (d : Dev) (i : Nat) (g : Train → Train) : (d.onTrain i g).fuses = d.fuses := by
  unfold Dev.onTrain
  split <;> simp

@[simp] theorem Dev.spendCarry_fuses (d : Dev) (i k : Nat) (t : Train) (b : Bucket) :
    (d.spendCarry i k t b).fuses = d.fuses := by simp [Dev.spendCarry]

@[simp] theorem Dev.spendEf_fuses (d : Dev) (i : Nat) (t : Train) (b : Bucket) : (d.spendEf i t b).fuses = d.fuses := by simp [Dev.spendEf]
@[simp] theorem Dev.sendRillFrame_fuses (d : Dev) (t : Train) (cls : Nat) (succ : Bool) (bucket f : Nat) (bs : List Byte) :
    (d.sendRillFrame t cls succ bucket f bs).fuses = d.fuses := by
  unfold Dev.sendRillFrame
  split <;> simp

@[simp] theorem Dev.sendRill_fuses (d : Dev) (t : Train) (cls : Nat) (succ : Bool) (bucket : Nat) (bs : List Byte) (mask : Option Nat) :
    (d.sendRill t cls succ bucket bs mask).fuses = d.fuses := by
  unfold Dev.sendRill
  split <;> simp

@[simp] theorem Dev.unplace_fuses (d : Dev) (t : Train) (cls bucket : Nat) : (d.unplace t cls bucket).fuses = d.fuses := by simp [Dev.unplace]
@[simp] theorem Dev.treatLate_fuses (d : Dev) (i k : Nat) : (d.treatLate i k).fuses = d.fuses := by
  unfold Dev.treatLate
  split <;> simp

@[simp] theorem Dev.exchanged_fuses (d : Dev) (i : Nat) : (d.exchanged i).fuses = d.fuses := by simp [Dev.exchanged]
@[simp] theorem Dev.storeFinal_fuses (d : Dev) (i k : Nat) (g : List Nat) (mask : Nat) : (d.storeFinal i k g mask).fuses = d.fuses := by
  unfold Dev.storeFinal
  dsimp only
  (repeat' split) <;> simp

@[simp] theorem Dev.average_fuses (d : Dev) (t : Train) (g : List Nat) (mask : Nat) : (d.average t g mask).2.fuses = d.fuses := by simp [Dev.average]
@[simp] theorem Dev.passOn_fuses (d : Dev) (i k : Nat) (t : Train) (g : List Nat) (mask : Nat) :
    (d.passOn i k t g mask).fuses = d.fuses := by simp [Dev.passOn]

@[simp] theorem Dev.chain_fuses (d : Dev) (i k : Nat) : (d.chain i k).fuses = d.fuses := by
  unfold Dev.chain
  split <;> simp

@[simp] theorem Dev.sumHeld_fuses (d : Dev) (i k : Nat) : (d.sumHeld i k).fuses = d.fuses := by
  unfold Dev.sumHeld
  split <;> simp

@[simp] theorem Dev.sumIfWhole_fuses (d : Dev) (i k : Nat) : (d.sumIfWhole i k).fuses = d.fuses := by
  unfold Dev.sumIfWhole
  split <;> simp

@[simp] theorem Dev.spread_fuses (d : Dev) (t : Train) (k : Nat) (bs : List Byte) (up down : Bool) :
    (d.spread t k bs up down).fuses = d.fuses := by simp [Dev.spread]

@[simp] theorem Dev.sendCompressed_fuses (d : Dev) (i k : Nat) (t : Train) (b : Bucket) :
    (d.sendCompressed i k t b).fuses = d.fuses := by simp [Dev.sendCompressed]

@[simp] theorem bucketSend_fuses (i k : Nat) (d : Dev) : (bucketSend i k d).fuses = d.fuses := by
  unfold bucketSend
  dsimp only
  (repeat' split) <;> simp

@[simp] theorem chainPartial_fuses (i k : Nat) (data : List Byte) (mask : Nat) (d : Dev) : (chainPartial i k data mask d).fuses = d.fuses := by
  unfold chainPartial
  dsimp only
  (repeat' split) <;> simp

@[simp] theorem finalResult_fuses (i k : Nat) (data : List Byte) (mask : Nat) (d : Dev) : (finalResult i k data mask d).fuses = d.fuses := by
  unfold finalResult
  dsimp only
  (repeat' split) <;> simp

@[simp] theorem compressedContribution_fuses (i k rank : Nat) (data : List Byte) (d : Dev) :
    (compressedContribution i k rank data d).fuses = d.fuses := by
  unfold compressedContribution
  dsimp only
  (repeat' split) <;> simp

@[simp] theorem kvBlock_fuses (i chunk : Nat) (data : List Byte) (d : Dev) : (kvBlock i chunk data d).fuses = d.fuses := by
  unfold kvBlock
  split <;> simp

@[simp] theorem optoffCheck_fuses (i : Nat) (d : Dev) : (optoffCheck i d).fuses = d.fuses := by
  unfold optoffCheck
  split <;> simp

@[simp] theorem offloadFetchFailure_fuses (i : Nat) (d : Dev) : (offloadFetchFailure i d).fuses = d.fuses := by simp [offloadFetchFailure]
@[simp] theorem Dev.loadSet_fuses (d : Dev) (i k off : Nat) (bs : List Byte) : (d.loadSet i k off bs).fuses = d.fuses := by simp [Dev.loadSet]
@[simp] theorem Dev.loadBoth_fuses (d : Dev) (i : Nat) (st : List (Nat × List Byte)) : (d.loadBoth i st).fuses = d.fuses := by simp [Dev.loadBoth]
@[simp] theorem Dev.sendTwin_fuses (d : Dev) (i a : Nat) (bs : List Byte) : (d.sendTwin i a bs).fuses = d.fuses := by simp [Dev.sendTwin]
@[simp] theorem checkpointStart_fuses (i : Nat) (d : Dev) : (checkpointStart i d).fuses = d.fuses := by
  unfold checkpointStart
  dsimp only
  (repeat' split) <;> simp

@[simp] theorem checkpointCommit_fuses (i : Nat) (d : Dev) : (checkpointCommit i d).fuses = d.fuses := by
  unfold checkpointCommit
  dsimp only
  (repeat' split) <;> simp

@[simp] theorem checkpointAbandon_fuses (i : Nat) (d : Dev) : (checkpointAbandon i d).fuses = d.fuses := by
  unfold checkpointAbandon
  dsimp only
  (repeat' split) <;> simp

@[simp] theorem twinStoreData_fuses (handle addr : Nat) (data : List Byte) (d : Dev) : (twinStoreData handle addr data d).fuses = d.fuses := by
  unfold twinStoreData
  dsimp only
  (repeat' split) <;> simp

@[simp] theorem cmdTrainCreate_fuses (r : Req) (d : Dev) : fstFuses (cmdTrainCreate r d) = d.fuses := by simp [cmdTrainCreate]
@[simp] theorem cmdTrainQuery_fuses (r : Req) (d : Dev) : fstFuses (cmdTrainQuery r d) = d.fuses := by simp [cmdTrainQuery]
@[simp] theorem cmdTrainSet_fuses (r : Req) (d : Dev) : fstFuses (cmdTrainSet r d) = d.fuses := by simp [cmdTrainSet]
@[simp] theorem cmdTrainState_fuses (r : Req) (d : Dev) : fstFuses (cmdTrainState r d) = d.fuses := by simp [cmdTrainState]
@[simp] theorem cmdTrainFill_fuses (r : Req) (d : Dev) : fstFuses (cmdTrainFill r d) = d.fuses := by simp [cmdTrainFill]
@[simp] theorem cmdTrainResync_fuses (st : List (Nat × List Byte)) (seed period : W64) (r : Req) (d : Dev) :
    fstFuses (cmdTrainResync st seed period r d) = d.fuses := by simp [cmdTrainResync]

@[simp] theorem cmdTrainRestore_fuses (st : List (Nat × List Byte)) (seed period : W64) (r : Req) (d : Dev) :
    fstFuses (cmdTrainRestore st seed period r d) = d.fuses := by simp [cmdTrainRestore]

@[simp] theorem cmdTrainCkptReserve_fuses (r : Req) (d : Dev) : fstFuses (cmdTrainCkptReserve r d) = d.fuses := by
  unfold cmdTrainCkptReserve
  dsimp only
  (repeat' split) <;> simp

/-! ### The trickle period -/

@[simp] theorem trickleWindowWrite_fuses (off : Nat) (data : List Byte) (d : Dev) :
    (trickleWindowWrite off data d).fuses = d.fuses := by simp [trickleWindowWrite]

@[simp] theorem tricklePeriod_fuses (d : Dev) : (tricklePeriod d).fuses = d.fuses := by simp [tricklePeriod]
end Sys2Proof.Machine
end
section
/-! PROOFS. The fuse array under every command (R423, R426 to R430, R440): three commands burn fuses, and the others leave them as they are;
the obligation about steps. -/

namespace Sys2Proof.Machine

open Sys2Proof Sys2Proof.Spec

/-! ### The commands that burn fuses (R423, R427, R429, R430) -/

theorem Dev.foldl_fuseStep {α : Type} {f : Dev → α → Dev} (hf : ∀ d x, FuseStep d.fuses (f d x).fuses) (l : List α) (d : Dev) :
    FuseStep d.fuses (l.foldl f d).fuses := by
  induction l generalizing d with
  | nil => exact FuseStep.refl _
  | cons x xs ih => exact (hf d x).trans (ih (f d x))

theorem Dev.writeKeys_fuseStep (d : Dev) : FuseStep d.fuses d.writeKeys.fuses :=
  Dev.foldl_fuseStep (fun d k => by simpa using burnBits_fuseStep d.fuses 8 _ (by omega)) _ d

/-- The fuses as the step of a life-cycle state finds them: DEVKEY and FWSEED are written on the way to FUSED (R427). -/
def Dev.keysFor (d : Dev) (target : Nat) : Dev := if target = 1 then d.writeKeys else d

theorem Dev.keysFor_fuseStep (d : Dev) (target : Nat) : FuseStep d.fuses (d.keysFor target).fuses := by
  unfold Dev.keysFor
  split
  · exact d.writeKeys_fuseStep
  · exact FuseStep.refl _

/-- LIFECYCLE_ADVANCE burns nothing, or the keys and then the word pair of its target (R428 to R430). -/
theorem cmdLifecycleAdvance_fuses (sigOk : Bool) (r : Req) (d : Dev) :
    let e := d.setBoot { d.boot with nonce := none }
    fstFuses (cmdLifecycleAdvance sigOk r d) = d.fuses ∨
      (r.arg 0 = lifeCycle d.fuses + 1 ∧ r.arg 0 ≤ 3) ∧
        fstFuses (cmdLifecycleAdvance sigOk r d) = burnTo (e.keysFor (r.arg 0)).fuses (r.arg 0) := by
  intro e
  unfold cmdLifecycleAdvance
  extract_lets t ok boot e'
  split_ifs with htarget hsig
  · exact .inl (Dev.no_fuses _ _ _)
  · exact .inl (Dev.no_fuses _ _ _)
  · refine .inr ⟨?_, ?_⟩
    · have hnext : t = lifeCycle d.fuses + 1 ∧ t ≤ 3 := by
        have : e'.boot.fuses = d.fuses := rfl
        rw [this] at htarget
        omega
      exact hnext
    · rw [Dev.yes_fuses, Dev.setBoot_fuses]
      rfl

theorem cmdLifecycleAdvance_fuseStep (sigOk : Bool) (r : Req) (d : Dev) :
    FuseStep d.fuses (fstFuses (cmdLifecycleAdvance sigOk r d)) := by
  obtain hkept | ⟨⟨hnext, hle⟩, hburnt⟩ := cmdLifecycleAdvance_fuses sigOk r d
  · exact FuseStep.of_eq hkept
  · rw [hburnt]
    exact (Dev.keysFor_fuseStep (d.setBoot { d.boot with nonce := none }) (r.arg 0)).trans (burnTo_fuseStep _ (by omega))

theorem burnAll_fuseStep (f : Mem) (m : Manifest) : FuseStep f (burnRevoke (burnSvn f m.svn) m.revoke m.keyidx) :=
  (burnSvn_fuseStep f m.svn).trans (burnRevoke_fuseStep _ m.revoke m.keyidx)

theorem Dev.promote_fuseStep (d : Dev) : FuseStep d.fuses d.promote.fuses := by
  unfold Dev.promote
  dsimp only
  split
  · exact FuseStep.refl _
  · rename_i m _
    split_ifs
    · exact FuseStep.refl _
    · simpa using burnAll_fuseStep d.fuses m
    · exact FuseStep.refl _
    · exact burnAll_fuseStep d.fuses m

theorem Dev.bootB8_fuseStep (d : Dev) : FuseStep d.fuses d.bootB8.fuses := by
  unfold Dev.bootB8
  extract_lets fh e f k rsv g boot h
  have hkept : FuseStep d.fuses (g.setBoot { boot with ready := true, step := 0, fails := 0 }).promote.fuses := by
    have hsame : (g.setBoot { boot with ready := true, step := 0, fails := 0 }).fuses = d.fuses := by
      simp [boot, g, k, f, e]
    rw [← hsame]
    exact Dev.promote_fuseStep _
  split
  · rw [Dev.updateEvent_fuses]
    exact hkept
  · exact hkept

/-- The end of B1 completes a transition that power loss cut short (R428). -/
theorem bootStepComplete_fuseStep (ok : Bool) (mask : Nat) (fails : List Nat) (d : Dev) :
    FuseStep d.fuses (bootStepComplete ok mask fails d).fuses := by
  unfold bootStepComplete
  extract_lets b r e boot a k
  have hburnt : FuseStep d.fuses e.fuses := completeTransition_fuseStep d.fuses
  split
  · exact FuseStep.refl _
  · split
    case h_1 =>
      split_ifs
      · rw [Dev.bootFail_fuses]
        exact FuseStep.refl _
      · exact hburnt
      · rw [Dev.freeze_fuses, Dev.bootStep_fuses]
        exact hburnt
      · rw [Dev.bootStep_fuses]
        exact hburnt
    case h_8 => exact d.bootB8_fuseStep
    all_goals exact FuseStep.of_eq (by (try split) <;> simp [b])

/-! ### Every command -/

/-- From `s`, the outcome leads only to states that a step of the fuse array reaches. -/
def StepsFuses (s : State) (o : Host.Outcome State Fault Refusal) : Prop := ∀ t, o = .next t → FuseStep s.dev.fuses t.dev.fuses

theorem answer_stepsFuses {g : Dev → Dev} (hg : ∀ d, FuseStep d.fuses (g d).fuses) (s : State) : StepsFuses s (answer g s) := by
  rintro t ⟨⟩
  exact hg s.dev

theorem answer_keepsFuses {g : Dev → Dev} (hg : ∀ d, (g d).fuses = d.fuses) (s : State) : StepsFuses s (answer g s) :=
  answer_stepsFuses (fun d => FuseStep.of_eq (hg d)) s

theorem onlyIf_fuseStep {c : Dev → Bool} {g : Dev → Dev} (hg : ∀ d, FuseStep d.fuses (g d).fuses) (d : Dev) :
    FuseStep d.fuses (onlyIf c g d).fuses := by
  unfold onlyIf
  split
  · exact hg d
  · exact FuseStep.refl _

theorem onCore_keepsFuses {g : Dev → Dev} (hg : ∀ d, (g d).fuses = d.fuses) (s : State) : StepsFuses s (onCore g s) :=
  answer_keepsFuses (onlyIf_fuses _ _ (fun d => (hg d.due).trans d.due_fuses)) s

theorem onLink_keepsFuses {g : Dev → Dev} (hg : ∀ d, (g d).fuses = d.fuses) (s : State) : StepsFuses s (onLink g s) :=
  onCore_keepsFuses hg s

theorem onTap_keepsFuses {g : Dev → Dev} (hg : ∀ d, (g d).fuses = d.fuses) (s : State) : StepsFuses s (onTap g s) :=
  answer_keepsFuses (onlyIf_fuses _ _ hg) s

theorem Dev.serve_fuseStep {f op : Nat} {g : Req → Dev → Dev × Resp} (hg : ∀ r d, FuseStep d.fuses (fstFuses (g r d))) (d : Dev) :
    FuseStep d.fuses (Dev.serve f op g d).fuses := by
  unfold Dev.serve
  split
  · exact FuseStep.refl _
  · rename_i r rest _
    have hserved := hg r (d.setFh { d.fh with inprog := rest })
    split
    · rw [Dev.respond_fuses]
      exact hserved
    · exact FuseStep.refl _

theorem onCmd_stepsFuses {f op : Nat} {g : Req → Dev → Dev × Resp} (hg : ∀ r d, FuseStep d.fuses (fstFuses (g r d))) (s : State) :
    StepsFuses s (onCmd f op g s) := by
  refine answer_stepsFuses (onlyIf_fuseStep (fun d => ?_)) s
  rw [← d.due_fuses]
  exact Dev.serve_fuseStep hg d.due

theorem onCmd_keepsFuses {f op : Nat} {g : Req → Dev → Dev × Resp} (hg : ∀ r d, fstFuses (g r d) = d.fuses) (s : State) :
    StepsFuses s (onCmd f op g s) :=
  onCmd_stepsFuses (fun r d => FuseStep.of_eq (hg r d)) s

/-- Every command answers a step of the fuse array; the groups are those of the part of the device that serves the command. -/
theorem exec_stepsFuses (c : Instr) (s : State) : StepsFuses s (exec c s) := by
  cases c with
  | lifecycleAdvance f sigOk => exact onCmd_stepsFuses (cmdLifecycleAdvance_fuseStep sigOk) s
  | bootStepComplete ok mask fails => exact answer_stepsFuses (onlyIf_fuseStep (bootStepComplete_fuseStep ok mask fails)) s
  | slotStrobe | tableSwap | timeStepApply | runStart | runEndOffset | runFlagMerge | scoreboardGrant | seqNop | seqEnd | seqAdd | seqSub
  | seqAnd | seqOr | seqXor | seqShl | seqShr | seqSltu | seqMul | seqLi | seqLdw | seqStw | seqJ | seqBeq | seqBne | seqBltu | seqLoop
  | seqJop | seqSlu | seqRunl | seqTzero | seqTfill | seqWait | seqRdslot | seqFlags | unlistedOpcode | programRegionFault | lpeAdd
  | lpeSubtract | lpeMultiply | lpeFma | lpeDivide | lpeSqrt | lpeMinimum | lpeMaximum | lpeCompare | lpeConvert | layerRetire
  | tileOpRetire | sluiceTransferStart | transferRetire | amaxGet | amaxMerge | cscSum | cscMax | cscMin | cscMeanvar | cscLse | cscSoftmax
  | cscSsq | cscGnorm | cascadeRetire | partialArrival | groupCombine | collectiveResult | runnelRetire | muNop | muIn | muOut | muOutr
  | muDone | muIdx | muLi | muLadd | muLsub | muLmul | muLdiv | muLshf | muLsgnAbs | muLsgnNegate | muLsgnSign | muFadd | muFsub
  | muCvtLgToLg | muCvtLgToA32 | muCvtA32ToLg | muCvtLgToFx | muCvtFxToLg | muCvtFxToLgField | muCvtLgFieldToFx | muCvtLgToFxWrap | muCmp
  | muSel | muIadd | muIsub | muAnd | muOr | muXor | muShl | muShr | muSra | muLut | muBr | muBany | muBnone | loupeRetire | reservoirRead
  | reservoirWrite | atomicFadd | atomicCas | semAcq | semRel | remoteCisternRead | routerSinkPacket | quarantineRelease
  | quarantineFailback | epochReissue | cisternScrub | reservoirScrub | basinFaultDetected | plannedFence | spareRestoreDone | replayStart
  | failedPeriodCompletion | cadCtLowRead | doorbell | submissionFetch | frameArrival | posting | mbReqtailWrite | mbEnable | mbDisable
  | mbRspheadWrite | evqHeadWrite | registerWrite | bar2Access | poisonedTlp | functionReset | hostlinkRetrain | runnelImageWrite
  | detachApply | pairRoleApply | currentOverride | voltageOverride | join | hb | hbCheck | postMsg | digestMsg | mapMsg | resyncMsg
  | forwardRecord | deltaRecord | hotCoverCheck | mirrorApply | bucketSend | chainPartial | finalResult | compressedContribution | kvBlock
  | optoffCheck | checkpointStart | checkpointCommit | checkpointAbandon | twinStoreData | offloadFetchFailure | stackReadyLoss
  | ingressReadFailure | refreshRateChange =>
    unfold exec
    refine onCore_keepsFuses (fun d => ?_) s
    simp
  | timeSyncSend | syncFrame | followFrame | dreqFrame | drespFrame | portEnable | portDisable | rilTopoWrite | downRetry
  | laneTrainingDone | trainTimeout | keyxTimeout | hello | finish | laneLoss | dataFrame | ctrlFrame | ackTimeout | idleFrameTimer
  | noFrameTimeout | rekeyThreshold | rekeyInit | rekeyResp | rekeyRetry | counterStop | wakeBurstTimer =>
    unfold exec
    refine onLink_keepsFuses (fun d => ?_) s
    simp
  | deviceInfo | deviceHealth | devicePeers | deviceRekey | deviceFuncbind | deviceWindow | deviceConfig | deviceReset | domainCreate
  | domainDestroy | domainQuery | domainLimits | pageAssign | pageRelease | modelLoad | modelUnload | modelQuery | runnelInstall
  | runnelRemove | streamCreate | streamDestroy | streamReissue | streamQuery | streamSet | streamRing | slotPlan | slotLoad | slotCommit
  | slotCancel | slotQuery | pairAttach | pairDetach | pairMirror | pairRole | pairQuery | trainCreate | trainQuery | trainSet | trainState
  | trainFill | trainResync | trainRestore | trainCkptReserve | flagsRead | flagsClear | regRead | regWrite | timeQuery | timeSet
  | timeStep | powerQuery | powerEnter | powerPolicy | powerWakeport | powerTrickle | updateManifest | updateChunk | updateStatus
  | updateActivate | updateAbort | lifecycleQuery | eventConfig | eventQuery | eventFetch | logRead | logClear =>
    unfold exec
    refine onCmd_keepsFuses (fun r d => ?_) s
    simp
  | trst | extest | samplePreload | idcode | clamp | highz | bypass | stillstat | memaddr | memdata | scansel | scan =>
    unfold exec
    refine onTap_keepsFuses (fun d => ?_) s
    simp
  | ppsEdge | ppsTimeout | refclkLoss | ptmDialogue | ptmTimeout | rillTimeTimeout | holdlimExceeded | requestStart | coreMiscompare
  | resetDelayExpiry | domainDestroyRelease | chunkProgram | eraseResume | updateRecovery | recoveryTimeout | unknownOpcode | mctpRequest
  | coresWait | seqStepDone | seqStepTimeout | pcieWake | rillTrainingWake | mirrorTrainingWake | wakeBurstRecognised | wakeInNFall
  | pwrEnRise | pwrEnFall | perstNAssert | perstNDeassert | wakeNTimeout | thermalShutdown | overcurrentShutdown | undervoltageShutdown
  | overvoltageShutdown | vinRestored | auxLoss | auxReturn | tricklePeriod | trickleWindowWrite | bootStart | bootStepTimeout
  | bootBackoffExpiry | stillAssert | stillRelease | refclkReturn | coolantInletHigh | pcieLinkL0 =>
    unfold exec
    refine answer_keepsFuses (fun d => ?_) s
    simp

theorem step_fuseStep {s t : State} (h : step s = .next t) : FuseStep s.dev.fuses t.dev.fuses := by
  unfold step at h
  split at h
  · cases h
    exact FuseStep.of_eq (tick_fuses s.dev)
  · have hexec := exec_stepsFuses _ _ t h
    exact hexec

end Sys2Proof.Machine

namespace Sys2Proof.Spec

open Sys2Proof Sys2Proof.Machine

/-- Settles O59: a step only burns fuses, in the order of R429. -/
theorem everyStepKeepsTheFuses : Obligations.EveryStepKeepsTheFuses := by
  unfold Obligations.EveryStepKeepsTheFuses
  intro s t hordered hstep
  have hfuses : FuseStep s.dev.boot.fuses t.dev.boot.fuses := step_fuseStep hstep
  refine ⟨hfuses.ordered hordered, hfuses.grows, lifeCycle_le_of_grows hfuses.grows, fun hlow hhigh => ?_⟩
  obtain ⟨-, hFielded, -⟩ := hordered
  exact burnt_of_grows hfuses.grows (hFielded (burnt_fielded_of_lifeCycle hlow hhigh)).2

end Sys2Proof.Spec
end
section
/-! PROOFS. The module's power pins: where each starts, turns or resets (R387, R398, R434, R452 to R456), and the obligation about them. -/

namespace Sys2Proof.Machine

open Sys2Proof

/-! ### Where the sequencer goes (R397) -/

/-- The power block once step `k` toward state `dest` has begun. -/
def Power.stepping (p : Power) (dest k now : Nat) : Power :=
  { p with dest := dest, latched := none, moving := true, step := k, stepCt := now }

theorem Dev.goTo_stepping {d : Dev} {dest k : Nat} (h : firstStep d.pow.stable dest = some k) :
    d.goTo dest = d.setPow (d.pow.stepping dest k d.ns) := Dev.goTo_step h

theorem Dev.goTo_run_of_auxOn {d : Dev} (h : d.pow.stable = 1) : d.goTo 0 = d.setPow (d.pow.stepping 0 1 d.ns) :=
  Dev.goTo_stepping (by rw [h]; rfl)

theorem Dev.goTo_run_of_coreOn {d : Dev} (h : d.pow.stable = 2) : d.goTo 0 = d.setPow (d.pow.stepping 0 5 d.ns) :=
  Dev.goTo_stepping (by rw [h]; rfl)

theorem Dev.goTo_md (d : Dev) (dest : Nat) : (d.goTo dest).md = d.md := by
  unfold Dev.goTo
  split <;> rfl

/-- U1 may begin: the module rests in AUX_ON with its supply, and no shutdown waits for PWR_EN (R452). -/
theorem Dev.mayStart_iff (d : Dev) : d.mayStart = true ↔
    d.pow.stable = 1 ∧ d.pow.moving = false ∧ d.md.auxOk = true ∧ d.md.thermShut = false ∧ d.md.currShut = false := by
  simp [Dev.mayStart, and_assoc]

theorem Dev.awake_iff (d : Dev) : d.awake = true ↔ d.still.frozen = false ∧ d.still.held = false := by simp [Dev.awake]

theorem Dev.awake_eq_false_iff (d : Dev) : d.awake = false ↔ d.still.frozen = true ∨ d.still.held = true := by
  rw [← Bool.not_eq_true, d.awake_iff]
  cases d.still.frozen <;> simp

/-! ### PWR_EN (R387, R398, R456) -/

/-- What PWR_EN rising writes before the sequencer looks at it: a shutdown that waited for it is cleared (R452). -/
def Mod.enabled (m : Mod) : Mod :=
  { m with pwren := true, thermShut := m.thermShut && !m.pwrenFell, currShut := m.currShut && !m.pwrenFell, pwrenFell := false }

/-- The device whose PWR_EN has risen, before the sequencer turns. -/
def Dev.enabled (d : Dev) : Dev := (d.setMd d.md.enabled).setTherm

theorem pwrEnRise_starts {d : Dev} (h : d.md.pwren = false) (hstart : d.enabled.mayStart = true) :
    pwrEnRise d = d.enabled.setPow (d.pow.stepping 0 1 d.ns) :=
  (if_neg (by simp [h])).trans ((if_pos hstart).trans (Dev.goTo_run_of_auxOn ((Dev.mayStart_iff _).mp hstart).1))

theorem pwrEnRise_turns {d : Dev} (h : d.md.pwren = false) (hmoving : d.pow.moving = true) (hdest : d.pow.dest = 4)
    (hlatched : d.pow.latched = none) : pwrEnRise d = d.enabled.setPow { d.pow with latched := some 0 } := by
  have hstart : ¬ d.enabled.mayStart = true := fun hs => by
    have hrests : d.pow.moving = false := ((Dev.mayStart_iff _).mp hs).2.1
    simp [hmoving] at hrests
  have hturns : d.pow.moving ∧ d.pow.dest = 4 ∧ d.pow.latched.isNone := by simp [hmoving, hdest, hlatched]
  exact (if_neg (by simp [h])).trans ((if_neg hstart).trans (if_pos hturns))

theorem pwrEnRise_stays {d : Dev} (h : d.md.pwren = false) (hstart : ¬ d.enabled.mayStart = true)
    (hturns : ¬ (d.pow.moving ∧ d.pow.dest = 4 ∧ d.pow.latched.isNone)) : pwrEnRise d = d.enabled :=
  (if_neg (by simp [h])).trans ((if_neg hstart).trans (if_neg hturns))

/-- Whatever the sequencer does, PWR_EN rising changes the power block and the pins alone. -/
theorem pwrEnRise_frame {d : Dev} (h : d.md.pwren = false) : pwrEnRise d = d.enabled.setPow (pwrEnRise d).pow := by
  by_cases hstart : d.enabled.mayStart = true
  · rw [pwrEnRise_starts h hstart]
    rfl
  by_cases hturns : d.pow.moving ∧ d.pow.dest = 4 ∧ d.pow.latched.isNone
  · obtain ⟨hmoving, hdest, hlatched⟩ := hturns
    rw [pwrEnRise_turns h hmoving hdest (Option.isNone_iff_eq_none.mp hlatched)]
    rfl
  · rw [pwrEnRise_stays h hstart hturns]
    rfl

/-- What PWR_EN falling writes: a reset that waited is forgotten (R398). -/
def Mod.disabled (m : Mod) : Mod := { m with pwren := false, pwrenFell := true, perstPend := false }

theorem pwrEnFall_stopped {d : Dev} (h : d.md.pwren = true) (hstopped : d.awake = false) :
    let e := (d.setMd d.md.disabled).resetCore
    pwrEnFall d = e.setPow (e.pow.stepping 4 13 e.ns) :=
  (if_neg (by simp [h])).trans (if_pos (d.awake_eq_false_iff.mp hstopped))

theorem pwrEnFall_awake {d : Dev} (h : d.md.pwren = true) (hawake : d.awake = true) :
    let e := d.setMd d.md.disabled
    pwrEnFall d = if d.pow.moving then
        (if d.pow.dest = 4 then e.setPow { d.pow with latched := none } else e.setPow { d.pow with latched := some 4 })
      else if d.pow.stable = 1 then e else e.goTo 4 := by
  have hlive : ¬ (d.still.frozen = true ∨ d.still.held = true) := by simp [d.awake_iff.mp hawake]
  exact (if_neg (by simp [h])).trans (if_neg hlive)

theorem pwrEnFall_md {d : Dev} (h : d.md.pwren = true) : (pwrEnFall d).md = d.md.disabled := by
  cases hawake : d.awake
  · rw [pwrEnFall_stopped h hawake]
    rfl
  · rw [pwrEnFall_awake h hawake]
    split_ifs
    · rfl
    · rfl
    · rfl
    · exact Dev.goTo_md _ 4

theorem pwrEnFall_turns {d : Dev} (h : d.md.pwren = true) (hawake : d.awake = true) (hmoving : d.pow.moving = true) (hdest : d.pow.dest ≠ 4) :
    pwrEnFall d = (d.setMd d.md.disabled).setPow { d.pow with latched := some 4 } :=
  (pwrEnFall_awake h hawake).trans ((if_pos hmoving).trans (if_neg hdest))

theorem pwrEnFall_goesOn {d : Dev} (h : d.md.pwren = true) (hawake : d.awake = true) (hmoving : d.pow.moving = true) (hdest : d.pow.dest = 4) :
    pwrEnFall d = (d.setMd d.md.disabled).setPow { d.pow with latched := none } :=
  (pwrEnFall_awake h hawake).trans ((if_pos hmoving).trans (if_pos hdest))

theorem pwrEnFall_off {d : Dev} (h : d.md.pwren = true) (hawake : d.awake = true) (hmoving : d.pow.moving = false)
    (hstable : d.pow.stable = 1) : pwrEnFall d = d.setMd d.md.disabled :=
  (pwrEnFall_awake h hawake).trans ((if_neg (by simp [hmoving])).trans (if_pos hstable))

theorem pwrEnFall_goesDown {d : Dev} {k : Nat} (h : d.md.pwren = true) (hawake : d.awake = true) (hmoving : d.pow.moving = false)
    (hfirst : firstStep d.pow.stable 4 = some k) : pwrEnFall d = (d.setMd d.md.disabled).setPow (d.pow.stepping 4 k d.ns) := by
  have hup : ¬ d.pow.stable = 1 := fun hstable => by simp [hstable, firstStep, stableOf] at hfirst
  exact (pwrEnFall_awake h hawake).trans ((if_neg (by simp [hmoving])).trans ((if_neg hup).trans (Dev.goTo_stepping hfirst)))

/-! ### PERST_N (R434, R454, R456) -/

theorem perstNAssert_moving {d : Dev} (hmoving : d.pow.moving = true) :
    perstNAssert d = d.setMd { d.md with perst := true, perstPend := true } := if_pos hmoving

theorem perstNAssert_ready {d : Dev} (hmoving : d.pow.moving = false) (hready : d.pow.stable = 3) :
    perstNAssert d = (d.setMd { d.md with perst := true }).resetCore :=
  (if_neg (by simp [hmoving])).trans (if_pos hready)

/-- At CORE_ON the device, or what a freeze left of it, goes to READY and resets there. -/
theorem perstNAssert_coreOn {d : Dev} (hmoving : d.pow.moving = false) (hstable : d.pow.stable = 2) :
    let w := d.setMd { d.md with perst := true }
    let e := if d.still.frozen ∨ d.still.held then w.resetCore else w
    perstNAssert d = (e.setMd { e.md with perstPend := true }).setPow (e.pow.stepping 0 5 e.ns) := by
  intro w e
  have hcore : e.pow.stable = 2 := by
    simp only [e]
    split <;> exact hstable
  have hready : ¬ d.pow.stable = 3 := by omega
  exact ((if_neg (by simp [hmoving])).trans ((if_neg hready).trans (if_pos hstable))).trans (Dev.goTo_run_of_coreOn hcore)

theorem perstNAssert_auxOn {d : Dev} (hmoving : d.pow.moving = false) (hlow : d.pow.stable ≠ 3) (hcore : d.pow.stable ≠ 2) :
    perstNAssert d = d.setMd { d.md with perst := true } :=
  (if_neg (by simp [hmoving])).trans ((if_neg hlow).trans (if_neg hcore))

theorem perstNAssert_perst (d : Dev) : (perstNAssert d).md.perst = true := by
  cases hmoving : d.pow.moving
  · by_cases hready : d.pow.stable = 3
    · rw [perstNAssert_ready hmoving hready]
      rfl
    by_cases hcore : d.pow.stable = 2
    · rw [perstNAssert_coreOn hmoving hcore]
      simp only [Dev.setPow, Dev.setMd]
      split <;> rfl
    · rw [perstNAssert_auxOn hmoving hready hcore]
      rfl
  · rw [perstNAssert_moving hmoving]
    rfl

end Sys2Proof.Machine

namespace Sys2Proof.Spec

open Sys2Proof Sys2Proof.Machine

theorem moduleReset_resetCore (d : Dev) : ModuleReset d d.resetCore := by
  refine ⟨rfl, rfl, rfl, rfl, rfl, rfl, rfl, rfl, rfl, rfl, rfl, rfl, rfl, rfl, rfl, rfl, rfl⟩

/-- Settles O54: each pin's command is the equation of its case. -/
theorem powerPinsMoveTheSequencer : Obligations.PowerPinsMoveTheSequencer := by
  unfold Obligations.PowerPinsMoveTheSequencer
  intro d p starts
  refine ⟨fun hlow => ?rise, fun hhigh => ?fall, ?assert, ?deassert, fun hstable hmoving hawake haux htherm hcurr => ?wakeIn⟩
  case rise =>
    have hgives : Gives .pwrEnRise d (pwrEnRise d) := gives_of_answer d (fun _ => rfl)
    have hframe := pwrEnRise_frame hlow
    have hmd : (pwrEnRise d).md = d.enabled.md := by rw [hframe]; rfl
    refine ⟨pwrEnRise d, hgives, ?_, ?_, fun hfell => ?_, fun hstable hrests haux hclear => ?_, fun hstable hkept hshut hrests => ?_,
      fun hmoving hdest hlatched => ?_⟩
    · rw [hframe]; rfl
    · rw [hmd]; rfl
    · rw [hmd]
      simp [Dev.enabled, Mod.enabled, Dev.setTherm, hfell]
    · have hstart : d.enabled.mayStart = true := by
        have hcleared : (d.md.thermShut && !d.md.pwrenFell) = false ∧ (d.md.currShut && !d.md.pwrenFell) = false := by
          obtain hfell | ⟨htherm, hcurr⟩ := hclear <;> simp [*]
        exact (Dev.mayStart_iff _).mpr ⟨hstable, hrests, haux, hcleared⟩
      rw [pwrEnRise_starts hlow hstart]
      rfl
    · have hstart : ¬ d.enabled.mayStart = true := fun hs => by
        obtain ⟨-, -, -, htherm, hcurr⟩ := (Dev.mayStart_iff _).mp hs
        simp [Dev.enabled, Mod.enabled, Dev.setTherm, hkept] at htherm hcurr
        simp [htherm, hcurr] at hshut
      rw [pwrEnRise_stays hlow hstart (fun hturns => by simp [p, hturns.1] at hrests)]
      rfl
    · rw [pwrEnRise_turns hlow hmoving hdest hlatched]
      rfl
  case fall =>
    have hgives : Gives .pwrEnFall d (pwrEnFall d) := gives_of_answer d (fun _ => rfl)
    have hmd := pwrEnFall_md hhigh
    refine ⟨pwrEnFall d, hgives, by rw [hmd]; rfl, by rw [hmd]; rfl, fun hawake hmoving hdest => ?_, fun hawake hmoving hdest => ?_,
      fun hawake hmoving hstable => ?_, fun hawake hmoving hstable => ?_, fun hawake hmoving hstable => ?_, fun hstopped => ?_⟩
    · rw [pwrEnFall_turns hhigh hawake hmoving hdest]
      rfl
    · rw [pwrEnFall_goesOn hhigh hawake hmoving hdest]
      rfl
    · rw [pwrEnFall_goesDown (k := 9) hhigh hawake hmoving (congrArg (firstStep · 4) hstable)]
      rfl
    · rw [pwrEnFall_goesDown (k := 12) hhigh hawake hmoving (congrArg (firstStep · 4) hstable)]
      rfl
    · rw [pwrEnFall_off hhigh hawake hmoving hstable]
      rfl
    · rw [pwrEnFall_stopped hhigh hstopped]
      exact ⟨moduleReset_resetCore d, rfl, rfl, rfl⟩
  case assert =>
    refine ⟨perstNAssert d, gives_of_answer d (fun _ => rfl), perstNAssert_perst d, perstNAssert_moving, fun hmoving hready => ?_,
      fun hmoving hstable hawake => ?_, fun hmoving hstable => ?_⟩
    · rw [perstNAssert_ready hmoving hready]
      exact moduleReset_resetCore d
    · have hlive : ¬ (d.still.frozen = true ∨ d.still.held = true) := by simp [d.awake_iff.mp hawake]
      rw [perstNAssert_coreOn hmoving hstable]
      simp only [if_neg hlive]
      exact ⟨rfl, rfl⟩
    · have haux : d.pow.stable = 1 := hstable
      exact perstNAssert_auxOn hmoving (by omega) (by omega)
  case deassert =>
    refine ⟨perstNDeassert d, gives_of_answer d (fun _ => rfl), ?_⟩
    unfold perstNDeassert
    cases hwaits : d.boot.waiting
    · simp [Dev.setMd, hwaits]
    · simp [Dev.setMd, Dev.setBoot, Dev.ns, hwaits]
  case wakeIn =>
    have hstart : d.mayStart = true := (Dev.mayStart_iff d).mpr ⟨hstable, hmoving, haux, htherm, hcurr⟩
    have hgives : Gives .wakeInNFall d (wakeInNFall d) := gives_of_onlyIf hawake (fun _ => rfl)
    have heq : wakeInNFall d = d.setPow (d.pow.stepping 0 1 d.ns) := (if_pos hstart).trans (Dev.goTo_run_of_auxOn hstable)
    rw [heq] at hgives
    exact hgives

end Sys2Proof.Spec
end
section
/-! PROOFS. STILL_N's rise: runs that were active are cancelled, and every port that is not STOPPED goes DOWN (R34, R301, R438). -/

namespace Sys2Proof.Machine

open Sys2Proof Sys2Proof.Spec

/-! ### A run that is stopped (R34, R110) -/

/-- From `d` to `e` nothing has changed but what the end of a run writes: basins, streams, training contexts, the reservoir, open values, the
count of overruns, and an event. -/
def RunChange (d e : Dev) : Prop :=
  ∃ bs ss ts r n c fs fh hm o, e = { d with basins := bs, streams := ss, trains := ts, rsv := r, free := n, cad := { d.cad with ovrcnt := c },
                                            funcs := fs, fh := fh, hostMem := hm, out := o }

theorem RunChange.refl (d : Dev) : RunChange d d := ⟨_, _, _, _, _, _, _, _, _, _, rfl⟩

theorem RunChange.trans {a b c : Dev} (hab : RunChange a b) (hbc : RunChange b c) : RunChange a c := by
  obtain ⟨_, _, _, _, _, _, _, _, _, _, rfl⟩ := hab
  obtain ⟨_, _, _, _, _, _, _, _, _, _, rfl⟩ := hbc
  exact ⟨_, _, _, _, _, _, _, _, _, _, rfl⟩

theorem RunChange.ct {d e : Dev} (h : RunChange d e) : e.cad.ct = d.cad.ct := by obtain ⟨_, _, _, _, _, _, _, _, _, _, rfl⟩ := h; rfl
theorem RunChange.ports {d e : Dev} (h : RunChange d e) : e.ports = d.ports := by obtain ⟨_, _, _, _, _, _, _, _, _, _, rfl⟩ := h; rfl
theorem RunChange.boot {d e : Dev} (h : RunChange d e) : e.boot = d.boot := by obtain ⟨_, _, _, _, _, _, _, _, _, _, rfl⟩ := h; rfl
theorem RunChange.still {d e : Dev} (h : RunChange d e) : e.still = d.still := by obtain ⟨_, _, _, _, _, _, _, _, _, _, rfl⟩ := h; rfl

theorem RunChange.foldl {f : Dev → Nat → Dev} (hf : ∀ d n, RunChange d (f d n)) (l : List Nat) (d : Dev) : RunChange d (l.foldl f d) := by
  induction l generalizing d with
  | nil => exact .refl d
  | cons n l ih => exact (hf d n).trans (ih (f d n))

theorem EventChange.runChange {d e : Dev} (h : EventChange d e) : RunChange d e := by
  obtain ⟨_, _, _, _, _, _, rfl⟩ := h
  exact ⟨_, _, _, _, _, _, _, _, _, _, rfl⟩

theorem Dev.putBasin_runChange (d : Dev) (b : Nat) (x : Basin) : RunChange d (d.putBasin b x) := ⟨_, _, _, _, _, _, _, _, _, _, rfl⟩

theorem Dev.mergeFlags_runChange (d : Dev) (b : Nat) (a : Active) : RunChange d (d.mergeFlags b a) := by
  obtain ⟨_, _, _, h⟩ := d.mergeFlags_frame b a
  rw [h]
  split
  · exact ⟨_, _, _, _, _, _, _, _, _, _, rfl⟩
  · exact ⟨_, _, _, _, _, _, _, _, _, _, rfl⟩

theorem Dev.standAcked_runChange (d : Dev) (dom : Nat) (ops : List Op) : RunChange d (d.standAcked dom ops) := by
  obtain ⟨_, _, h⟩ := d.standAcked_frame dom ops
  rw [h]
  exact ⟨_, _, _, _, _, _, _, _, _, _, rfl⟩

theorem Dev.failRun_runChange (d : Dev) (r : Run) (code : Nat) : RunChange d (d.failRun r code) := by
  obtain ⟨_, h⟩ := d.failRun_frame r code
  rw [h]
  exact ⟨_, _, _, _, _, _, _, _, _, _, rfl⟩

theorem Dev.postEnds_runChange (d : Dev) (r : Run) (fin : Nat) : RunChange d (d.postEnds r fin) := by
  obtain ⟨_, _, h⟩ := d.postEnds_frame r fin
  rw [h]
  exact ⟨_, _, _, _, _, _, _, _, _, _, rfl⟩

theorem Dev.stopRun_runChange {d : Dev} {b : Nat} {a : Active} (h : (d.basin b).seq.active = some a) (code pc : Nat) :
    RunChange d (d.stopRun b code pc) := by
  rw [Dev.stopRun_eq h]
  extract_lets m e
  have hfailed : RunChange d e :=
    (((d.standAcked_runChange _ _).trans (Dev.mergeFlags_runChange _ b a)).trans (Dev.putBasin_runChange _ b _)).trans
      (Dev.failRun_runChange _ _ _)
  have hcounted : RunChange e (if code = 8 then e.setCad { e.cad with ovrcnt := e.cad.ovrcnt + 1 } else e) := by
    split
    · exact ⟨_, _, _, _, _, _, _, _, _, _, rfl⟩
    · exact .refl e
  exact (hfailed.trans hcounted).trans (Dev.raiseS_eventChange _ _ _ _ _ _ _).runChange

/-! ### Active runs are cancelled (R34, R438) -/

/-- From `x` to `y`, a basin's run has been cancelled: none is active, and one that was has stopped with code 0x08. -/
structure Basin.Cancelled (x y : Basin) : Prop where
  idle : y.seq.active = none
  code : x.seq.active.isSome = true → y.seq.fault.code = 8
  kept : x.seq.active = none → y.seq = x.seq

theorem Basin.Cancelled.of_idle {x : Basin} (h : x.seq.active = none) : x.Cancelled x := ⟨h, fun hsome => by simp [h] at hsome, fun _ => rfl⟩

theorem Basin.Cancelled.trans {x y z : Basin} (hxy : x.Cancelled y) (hyz : y.Cancelled z) : x.Cancelled z :=
  ⟨hyz.idle, fun h => by rw [hyz.kept hxy.idle]; exact hxy.code h, fun h => (hyz.kept hxy.idle).trans (hxy.kept h)⟩

theorem Dev.cancelRun_runChange (d : Dev) (b : Nat) : RunChange d (d.cancelRun b) := by
  unfold Dev.cancelRun
  split
  · exact .refl d
  · rename_i hactive
    exact (Dev.stopRun_runChange hactive _ _).trans (Dev.postEnds_runChange _ _ _)

theorem Dev.cancelRun_basin (d : Dev) (b : Nat) :
    (d.basin b).Cancelled ((d.cancelRun b).basin b) ∧ ∀ n, n ≠ b → (d.cancelRun b).basin n = d.basin n := by
  unfold Dev.cancelRun
  split
  · rename_i hidle
    exact ⟨.of_idle hidle, fun _ _ => rfl⟩
  · rename_i a hactive
    obtain ⟨y, hbasins, hseq, -⟩ := Dev.stopRun_basins hactive 8 (d.basin b).seq.pc
    obtain ⟨hsame, hother⟩ := Dev.basin_of_put (d := d) ((Dev.postEnds_basins _ a.run a.fin).trans hbasins)
    rw [hsame]
    exact ⟨⟨by rw [hseq]; rfl, fun _ => by rw [hseq]; rfl, fun hnone => by simp [hnone] at hactive⟩, hother⟩

/-- Basin `b` once its run is cancelled and what was delivered ahead for it is gone. -/
def Dev.cancelled (d : Dev) (b : Nat) : Dev := (d.cancelRun b).putBasin b { (d.cancelRun b).basin b with delivered := [], coming := [] }

theorem Dev.cancelled_runChange (d : Dev) (b : Nat) : RunChange d (d.cancelled b) :=
  (d.cancelRun_runChange b).trans (Dev.putBasin_runChange _ b _)

theorem Dev.cancelled_basin (d : Dev) (b : Nat) :
    (d.basin b).Cancelled ((d.cancelled b).basin b) ∧ ∀ n, n ≠ b → (d.cancelled b).basin n = d.basin n := by
  obtain ⟨⟨hidle, hcode, hkept⟩, hother⟩ := d.cancelRun_basin b
  have hsame : ((d.cancelled b).basin b).seq = ((d.cancelRun b).basin b).seq := by simp [Dev.cancelled]
  refine ⟨⟨by rw [hsame, hidle], fun h => by rw [hsame, hcode h], fun h => hsame.trans (hkept h)⟩, fun n hn => ?_⟩
  exact (Dev.basin_putBasin_other _ b n _ hn).trans (hother n hn)

/-- Cancelling basin after basin cancels each that is listed and no other. -/
theorem Dev.foldl_cancelled_basin (l : List Nat) (d : Dev) (b : Nat) :
    (b ∈ l → (d.basin b).Cancelled ((l.foldl Dev.cancelled d).basin b)) ∧ (b ∉ l → (l.foldl Dev.cancelled d).basin b = d.basin b) := by
  induction l generalizing d with
  | nil => exact ⟨fun h => (List.not_mem_nil h).elim, fun _ => rfl⟩
  | cons x l ih =>
    obtain ⟨hin, hout⟩ := ih (d.cancelled x)
    obtain ⟨hsame, hother⟩ := d.cancelled_basin x
    rw [List.foldl_cons]
    by_cases hx : b = x
    · subst hx
      refine ⟨fun _ => ?_, fun hnot => (hnot List.mem_cons_self).elim⟩
      by_cases hb : b ∈ l
      · exact hsame.trans (hin hb)
      · rw [hout hb]
        exact hsame
    · have hkept := hother b hx
      exact ⟨fun h => hkept ▸ hin (List.mem_of_ne_of_mem hx h), fun h => (hout (fun hl => h (List.mem_cons_of_mem x hl))).trans hkept⟩

/-- A basin that is not listed has no run. -/
theorem Dev.basin_idle_of_not_mem {d : Dev} {b : Nat} (h : b ∉ d.basins.map Prod.fst) : (d.basin b).seq.active = none := by
  cases hfind : Tab.find? d.basins b with
  | none =>
    rw [Dev.basin, Tab.at, hfind]
    rfl
  | some x => exact (h (List.mem_map_of_mem (Tab.mem_of_find? hfind))).elim

theorem Dev.foldl_cancelled_all (d : Dev) (b : Nat) : (d.basin b).Cancelled (((d.basins.map Prod.fst).foldl Dev.cancelled d).basin b) := by
  obtain ⟨hin, hout⟩ := Dev.foldl_cancelled_basin (d.basins.map Prod.fst) d b
  by_cases hb : b ∈ d.basins.map Prod.fst
  · exact hin hb
  · rw [hout hb]
    exact .of_idle (Dev.basin_idle_of_not_mem hb)

/-! ### Ports go DOWN (R301, R438) -/

/-- A port after a freeze: STOPPED and DOWN stay, and every other state becomes DOWN with cause 8. -/
def Port.lost (x : Port) (now : Nat) : Port := if x.state = 4 ∨ x.state = 0 then x else x.down now 8

/-- Port `p` after a freeze, in the device. -/
def Dev.loses (d : Dev) (p : Nat) : Dev := if (d.port p).state = 4 then d else d.portDown p 8

theorem EventChange.ports {d e : Dev} (h : EventChange d e) : e.ports = d.ports := by obtain ⟨_, _, _, _, _, _, rfl⟩ := h; rfl

theorem Dev.setPairState_ports (d : Dev) (st : Nat) : (d.setPairState st).ports = d.ports := by
  unfold Dev.setPairState
  split
  · rfl
  · exact (Dev.pairEvent_eventChange _).ports

/-- A port that goes DOWN takes no other port with it. -/
theorem Dev.portDown_ports {d : Dev} {p : Nat} (h : (d.port p).state ≠ 0) (cause : Nat) :
    (d.portDown p cause).ports = Tab.put d.ports p ((d.port p).down d.ns cause) := by
  have hevent : ((d.putPort p ((d.port p).down d.ns cause)).linkEvent p).ports = Tab.put d.ports p ((d.port p).down d.ns cause) :=
    (Dev.linkEvent_eventChange _ p).ports
  have hlost (e : Dev) (q : Pair) : ((if (d.port p).state = 3 then e.offloadLost else e).setPair q).ports = e.ports := by
    split <;> rfl
  unfold Dev.portDown
  extract_lets x e pair f
  have hf : f.ports = Tab.put d.ports p ((d.port p).down d.ns cause) := (hlost e _).trans hevent
  rw [if_neg h]
  split_ifs
  · exact hevent
  · exact (Dev.setPairState_ports _ 0).trans hf
  · exact (Dev.setPairState_ports _ 3).trans hf
  · exact hf

theorem Dev.loses_linkChange (d : Dev) (p : Nat) : LinkChange d (d.loses p) := .ite (.refl d) (d.portDown_linkChange p 8)

theorem Dev.loses_ns (d : Dev) (p : Nat) : (d.loses p).ns = d.ns := by rw [Dev.ns, (d.loses_linkChange p).cad, Dev.ns]

theorem Dev.loses_port (d : Dev) (p : Nat) : (d.loses p).port p = (d.port p).lost d.ns ∧ ∀ n, n ≠ p → (d.loses p).port n = d.port n := by
  unfold Dev.loses Port.lost
  by_cases hstopped : (d.port p).state = 4
  · simp [hstopped]
  by_cases hdown : (d.port p).state = 0
  · simp [hdown, Dev.portDown_of_down hdown]
  · have hports := Dev.portDown_ports hdown 8
    rw [if_neg hstopped, if_neg (by simp [hstopped, hdown]), Dev.port, hports, Tab.at_put_same]
    exact ⟨rfl, fun n hn => by rw [Dev.port, hports, Tab.at_put_other _ _ _ _ _ hn, Dev.port]⟩

theorem Dev.foldl_loses_linkChange (l : List Nat) (d : Dev) : LinkChange d (l.foldl Dev.loses d) := by
  induction l generalizing d with
  | nil => exact .refl d
  | cons p l ih => exact (d.loses_linkChange p).trans (ih _)

/-- Ports that are listed once each lose their links, each by itself. -/
theorem Dev.foldl_loses_port {l : List Nat} (hnodup : l.Nodup) (d : Dev) (p : Nat) :
    (l.foldl Dev.loses d).port p = if p ∈ l then (d.port p).lost d.ns else d.port p := by
  induction l generalizing d with
  | nil => rfl
  | cons x l ih =>
    obtain ⟨hx, hl⟩ := List.nodup_cons.mp hnodup
    obtain ⟨hsame, hother⟩ := d.loses_port x
    rw [List.foldl_cons, ih hl, d.loses_ns]
    by_cases hp : p = x
    · subst hp
      simp [hx, hsame]
    · simp [hp, hother p hp]

theorem Port.lost_downed {d : Dev} {p : Nat} {x : Port} {now : Nat} (hport : d.port p = x.lost now) (hstopped : x.state ≠ 4)
    (hdown : x.state ≠ 0) : Downed d p 8 := by
  unfold Downed
  rw [hport, Port.lost, if_neg (by simp [hstopped, hdown])]
  exact ⟨rfl, rfl, rfl, rfl, rfl, rfl, rfl, rfl, rfl, rfl⟩

/-! ### The rise of STILL_N (R34, R438) -/

/-- The device whose clocks have resumed, before runs and links are looked at: the boot's step limit has moved with the gap, and stacks
leave self-refresh at READY. -/
def Dev.resumed (d : Dev) : Dev :=
  { d with md := { d.md with still := false },
           still := { d.still with frozen := false, stillcnt := d.still.stillcnt + 1 },
           pow := { d.pow with clkAt := d.ns },
           boot := { d.boot with stepCt := d.boot.stepCt + (d.ns - d.still.since) },
           rsv := { d.rsv with ctrls := d.rsv.ctrls.map (fun c => { c with selfref := c.selfref && decide (d.pow.stable < 3) }) } }

theorem Dev.resumed_ports (d : Dev) : d.resumed.ports = d.ports := rfl
theorem Dev.resumed_basin (d : Dev) (b : Nat) : d.resumed.basin b = d.basin b := rfl

/-- No run is delivered for 1 ms, and what was to come is gone. -/
def Dev.holdsOff (d : Dev) : Dev := d.setCad { d.cad with holdUntil := d.ns + 1000000, absent := [], absentNext := [], ahead := none }

theorem stillRelease_live {d : Dev} (hfrozen : d.still.frozen = true) (hwhole : d.still.destroyed = false) :
    stillRelease d = (List.range 5).foldl Dev.loses ((d.resumed.basins.map Prod.fst).foldl Dev.cancelled d.resumed).holdsOff := by
  unfold stillRelease
  extract_lets md e t gone pow d1 boot d2 rsv resumed cancelled cad held
  have hdestroyed : ¬ (t.destroyed = true ∧ t.frozen = true) := fun h => by simp [t, e, hwhole] at h
  have hlive : ¬ (!t.frozen) = true := by simp [t, e, hfrozen]
  rw [if_neg hdestroyed, if_neg hlive]
  have hresumed : resumed = d.resumed := by
    simp only [resumed, rsv, d2, boot, d1, pow, gone, t, e, md, Dev.setRsv, Dev.setBoot, Dev.setPow, Dev.setStill, Dev.setMd, Dev.resumed]
    rfl
  have hcancelled : cancelled = (resumed.basins.map Prod.fst).foldl Dev.cancelled resumed := rfl
  have hheld : held = cancelled.holdsOff := rfl
  rw [← hresumed, ← hcancelled, ← hheld]
  rfl

theorem stillRelease_destroyed {d : Dev} (hfrozen : d.still.frozen = true) (hdestroyed : d.still.destroyed = true) :
    stillRelease d = (d.setMd { d.md with still := false }).setStill { d.still with held := true } := if_pos ⟨hdestroyed, hfrozen⟩

theorem stillRelease_running {d : Dev} (hrunning : d.still.frozen = false) :
    stillRelease d = (d.setMd { d.md with still := false }).setStill { d.still with pending := false } :=
  (if_neg (by simp [Dev.setMd, hrunning])).trans (if_pos (by simp [Dev.setMd, hrunning]))

end Sys2Proof.Machine
end

section
/-! PROOFS. STILL_N and the test access port (R432 to R440, R444): the freeze, what each instruction shifts, and the obligation about them. -/

namespace Sys2Proof.Machine

open Sys2Proof Sys2Proof.Spec

/-! ### Freezing the clocks (R29, R432, R433, R436) -/

theorem cdiv_mul_self {n : Nat} (x : Nat) (h : n ≠ 0) : cdiv (x * n) n = x := by
  have hsum : x * n + n - 1 = n - 1 + n * x := by
    rw [Nat.mul_comm n x]
    omega
  rw [cdiv, hsum, Nat.add_mul_div_left _ _ (Nat.pos_of_ne_zero h), Nat.div_eq_of_lt (by omega), Nat.zero_add]

/-- A restore under way keeps its end while the clock keeps its period. -/
theorem SpareRow.reclock_same (r : SpareRow) (now clk : Nat) : r.reclock now clk clk = r := by
  unfold SpareRow.reclock
  split
  · rename_i t hend
    dsimp only
    split
    · rfl
    · rename_i h
      have hrest : max now r.restoreFrom + (t - max now r.restoreFrom) = t := by omega
      rw [cdiv_mul_self _ (by omega), hrest, ← hend]
  · rfl

theorem Tab.mapv_id {α : Type} (t : Tab α) {f : Nat → α → α} (h : ∀ k v, f k v = v) : Tab.mapv t f = t := by
  unfold Tab.mapv
  simp [h]

theorem Dev.setClock_same {d : Dev} {p : Power} (h : p.bclk = d.pow.bclk) :
    d.setClock p = d.setPow { p with clkBase := d.clocks, clkAt := d.ns } := by
  unfold Dev.setClock
  dsimp only
  rw [h, Tab.mapv_id _ (fun _ r => r.reclock_same _ _)]
  rfl

/-- The stacks once their controllers have put them in self-refresh. -/
def Rsv.selfRefreshing (r : Rsv) : Rsv := { r with ctrls := r.ctrls.map (fun c => { c with selfref := true }) }

theorem Dev.freeze_eq (d : Dev) :
    d.freeze = { d with pow := { d.pow with clkBase := d.clocks, clkAt := d.ns }, rsv := d.rsv.selfRefreshing,
                        still := { d.still with frozen := true, pending := false, ignored := false, denied := false, since := d.ns } } := by
  unfold Dev.freeze
  rw [Dev.setClock_same rfl]
  rfl

/-- STILL_N low takes effect in every state but Off, once. -/
theorem stillAssert_eq {d : Dev} (hon : d.aonOn = true) (hrunning : d.still.frozen = false) :
    let e := d.setMd { d.md with still := true }
    stillAssert d = if !d.boot.stillHeard then e.setStill { d.still with ignored := true }
      else if d.pow.moving then e.setStill { d.still with pending := true }
      else if d.pow.stable < 2 then e.setStill { d.still with ignored := true }
      else e.freeze := by
  have heard : ¬ ((!d.aonOn) = true ∨ d.still.frozen = true) := by simp [hon, hrunning]
  exact if_neg heard

/-! ### The test access port (R435 to R437, R440) -/

theorem leNat_lt (bs : List Byte) : leNat bs < 256 ^ bs.length := by
  induction bs with
  | nil => exact Nat.one_pos
  | cons b bs ih =>
    have hb : b.toNat < 256 := b.isLt
    rw [leNat, List.length_cons, Nat.pow_succ]
    omega

/-- The debug instructions work: the clocks are frozen and DBGDIS is not burnt. -/
def Dev.debugLive (d : Dev) : Prop := d.still.frozen = true ∧ d.boot.dbgdis = false

theorem Dev.debug_live {d : Dev} (h : d.debugLive) (code : Nat) (g : Dev → Dev) : d.debug code g = g (d.setIr code) := by
  obtain ⟨hfrozen, hdbg⟩ := h
  exact if_pos ⟨hfrozen, by simp [Dev.setIr, hdbg]⟩

theorem Dev.debug_bypass {d : Dev} (h : ¬ d.debugLive) (code : Nat) (g : Dev → Dev) : d.debug code g = shifted d code d.still 1 0 := by
  have hnot : ¬ (d.still.frozen = true ∧ (!d.boot.dbgdis) = true) := by simpa [Dev.debugLive] using h
  exact if_neg hnot

/-- The word that MEMDATA shifts out, with its check bits: 8 of them in the cistern, 14 in the accumulator store (R436). -/
def checkedWord (v : W64) (o word : Nat) : Nat :=
  word + (if o < 0x400000 then v.toNat % 256 else v.toNat % 128 + v.toNat / 128 % 128 * 256) * 2 ^ 64

theorem checkedWord_spec (v : W64) (o : Nat) {word : Nat} (h : word < 2 ^ 64) :
    checkedWord v o word % 2 ^ 64 = word ∧ checkedWord v o word < 2 ^ 80 ∧ (o < 0x400000 → checkedWord v o word < 2 ^ 72) := by
  unfold checkedWord
  split
  · omega
  · omega

theorem memdata_some {d e : Dev} {v : Nat} (hlive : d.debugLive) (h : (d.setIr 0x22).memdata = some (v, e)) :
    memdata d = (e.setStill { e.still with memaddr := (e.still.memaddr + 8) % 2 ^ 52 }).emit (.tdo 80 v) := by
  unfold memdata
  rw [Dev.debug_live hlive]
  dsimp only
  rw [h]

theorem memdata_none {d : Dev} (hlive : d.debugLive) (h : (d.setIr 0x22).memdata = none) :
    memdata d = shifted d 0x22 { d.still with memaddr := (d.still.memaddr + 8) % 2 ^ 52, denied := true } 80 0 := by
  unfold memdata
  rw [Dev.debug_live hlive]
  dsimp only
  rw [h]
  rfl

/-- The register words do not depend on the instruction that the TAP has selected. -/
theorem Dev.regWord_setIr (d : Dev) (code unit off : Nat) : (d.setIr code).regWord unit off = d.regWord unit off := rfl

theorem Dev.runnelWord_setIr (d : Dev) (code : Nat) (x : Basin) (off : Nat) : (d.setIr code).runnelWord x off = d.runnelWord x off := rfl

end Sys2Proof.Machine

namespace Sys2Proof.Spec

open Sys2Proof Sys2Proof.Machine

/-- What the rise of STILL_N leaves of the device whose runs have been cancelled. -/
theorem holdsOff_loses_spec {d w e : Dev} (hruns : RunChange d.resumed w) (he : e = (List.range 5).foldl Dev.loses w.holdsOff) :
    (e.still = d.resumed.still ∧ e.boot = d.resumed.boot ∧ e.cad.ct = d.cad.ct ∧ e.cad.holdUntil = d.ns + 1000000)
    ∧ (∀ b, e.basin b = w.basin b) ∧ ∀ p, p < 5 → e.port p = (d.port p).lost d.ns := by
  have hlinks : LinkChange w.holdsOff e := he ▸ Dev.foldl_loses_linkChange (List.range 5) w.holdsOff
  have hct : w.cad.ct = d.cad.ct := hruns.ct
  have hns : w.ns = d.ns := congrArg (· / 65536) hct
  obtain ⟨hstill, hboot⟩ : e.still = w.still ∧ e.boot = w.boot := by
    obtain ⟨_, _, _, _, _, _, _, hlast⟩ := hlinks
    rw [hlast]
    exact ⟨rfl, rfl⟩
  refine ⟨⟨hstill.trans hruns.still, hboot.trans hruns.boot, ?_, ?_⟩, fun b => ?_, fun p hp => ?_⟩
  · rw [hlinks.cad]
    exact hct
  · rw [hlinks.cad, ← hns]
    rfl
  · rw [Dev.basin, hlinks.basins]
    rfl
  · have hport : w.holdsOff.port p = d.port p := by
      have hsame : w.holdsOff.port p = w.port p := rfl
      rw [hsame, Dev.port, hruns.ports, d.resumed_ports, Dev.port]
    rw [he, Dev.foldl_loses_port List.nodup_range, if_pos (List.mem_range.mpr hp), hport]
    exact congrArg (Port.lost _) hns

/-- Nothing but the clocks, runs and links changes when the clocks resume. -/
theorem stillRelease_spec {d e : Dev} (hfrozen : d.still.frozen = true) (hwhole : d.still.destroyed = false) (he : e = stillRelease d) :
    (e.still = d.resumed.still ∧ e.boot = d.resumed.boot ∧ e.cad.ct = d.cad.ct ∧ e.cad.holdUntil = d.ns + 1000000)
    ∧ (∀ b, (d.basin b).Cancelled (e.basin b)) ∧ ∀ p, p < 5 → e.port p = (d.port p).lost d.ns := by
  rw [stillRelease_live hfrozen hwhole] at he
  obtain ⟨hkept, hbasins, hports⟩ := holdsOff_loses_spec (.foldl Dev.cancelled_runChange _ _) he
  refine ⟨hkept, fun b => ?_, hports⟩
  rw [hbasins, ← d.resumed_basin]
  exact Dev.foldl_cancelled_all d.resumed b

/-- MEMDATA reads a store, a register, a program or a runnel's stores, and nothing of the reservoir (R436, R437). -/
theorem memdata_spec {d : Dev} (hlive : d.debugLive) :
    let t := d.still
    let a := t.memaddr / 8 * 8
    let next := (t.memaddr + 8) % 2 ^ 52
    (∀ b o, placeOf a = .locPhys b o → b < 272 → ∃ v n : Nat, memdata d = (shifted d 0x22 { t with memaddr := next } 80 v).setFree n
        ∧ v % 2 ^ 64 = Mem.readLe (d.basin b).store o 8 ∧ v < 2 ^ 80 ∧ (o < 0x400000 → v < 2 ^ 72))
    ∧ (∀ b o, placeOf a = .mgmt false b 1 o → t.destroyed = false → memdata d =
        shifted d 0x22 { t with memaddr := next } 80 (d.regWord b o + d.regWord b (o + 4) * 2 ^ 32))
    ∧ (∀ b o, placeOf a = .mgmt false b 2 o → b < 272 → memdata d =
        shifted d 0x22 { t with memaddr := next } 80 (Tab.at (d.basin b).prog 0 (o / 8)).toNat)
    ∧ (∀ b o, placeOf a = .mgmt false b 3 o → memdata d =
        shifted d 0x22 { t with memaddr := next } 80 (d.runnelWord (d.basin b) o))
    ∧ (∀ h, placeOf a = .rsv h → memdata d = shifted d 0x22 { t with memaddr := next, denied := true } 80 0) := by
  intro t a next
  have hplace : (d.setIr 0x22).still.memaddr / 8 * 8 = a := rfl
  refine ⟨fun b o h hb => ?store, fun b o h hwhole => ?register, fun b o h _ => ?program, fun b o h => ?runnel, fun h hrsv => ?reservoir⟩
  case store =>
    have hword : (d.setIr 0x22).memdata
        = some (checkedWord d.openValue.1 o (Mem.readLe (d.basin b).store o 8), (d.setIr 0x22).openValue.2) := by
      unfold Dev.memdata
      dsimp only
      rw [hplace, h]
      exact if_neg (by omega)
    have hlt : Mem.readLe (d.basin b).store o 8 < 2 ^ 64 := by
      have := leNat_lt (Mem.readBytes (d.basin b).store o 8)
      simpa [Mem.readLe, Mem.readBytes] using this
    exact ⟨_, _, memdata_some hlive hword, checkedWord_spec _ _ hlt⟩
  case register =>
    refine memdata_some hlive (e := d.setIr 0x22) ?_
    unfold Dev.memdata
    dsimp only
    rw [hplace, h]
    have hkept : ¬ (d.setIr 0x22).still.destroyed = true := fun hd => by simp [Dev.setIr, t] at hd hwhole; simp [hd] at hwhole
    simp only [if_neg hkept, Dev.regWord_setIr]
  case program =>
    refine memdata_some hlive (e := d.setIr 0x22) ?_
    unfold Dev.memdata
    dsimp only
    rw [hplace, h]
    rfl
  case runnel =>
    refine memdata_some hlive (e := d.setIr 0x22) ?_
    unfold Dev.memdata
    dsimp only
    rw [hplace, h]
    rfl
  case reservoir =>
    refine memdata_none hlive ?_
    unfold Dev.memdata
    dsimp only
    rw [hplace, hrsv]

/-- Settles O56: each command is the equation of its case. -/
theorem freezesAndTheTestAccessPort : Obligations.FreezesAndTheTestAccessPort := by
  unfold Obligations.FreezesAndTheTestAccessPort
  intro d t pin live
  refine ⟨fun hon hrunning => ?assert, fun hfrozen hwhole => ?release, fun hfrozen hdestroyed => ?destroyed, fun hrunning => ?running,
    fun hon => ?tap⟩
  case assert =>
    have hgives : Gives .stillAssert d (stillAssert d) := gives_of_answer d (fun _ => rfl)
    rw [stillAssert_eq hon hrunning] at hgives
    refine ⟨fun hheard hrests hstable => ?_, fun hheard hmoving => ?_, fun hdeaf => ?_⟩
    · have hfreezes : Gives .stillAssert d (pin true).freeze := by simpa [hheard, hrests, Nat.not_lt.mpr hstable] using hgives
      refine ⟨_, hfreezes, ?_⟩
      rw [Dev.freeze_eq]
      exact ⟨rfl, rfl, rfl, rfl, rfl, fun c hc => by obtain ⟨_, -, rfl⟩ := List.mem_map.mp hc; rfl⟩
    · simpa [hheard, hmoving] using hgives
    · simpa [hdeaf] using hgives
  case release =>
    obtain ⟨⟨hstill, hboot, hct, hheld⟩, hruns, hports⟩ := stillRelease_spec hfrozen hwhole rfl
    refine ⟨stillRelease d, gives_of_answer d (fun _ => rfl), congrArg Still.frozen hstill, congrArg Still.stillcnt hstill, hct, hheld,
      congrArg Boot.stepCt hboot,
      fun b => ⟨(hruns b).code, (hruns b).idle⟩,
      fun p hp hdown hstopped => Port.lost_downed (hports p hp) hstopped hdown, fun p hp hstopped => ?_⟩
    rw [hports p hp, Port.lost, if_pos (.inl hstopped), hstopped]
  case destroyed =>
    have hgives : Gives .stillRelease d (stillRelease d) := gives_of_answer d (fun _ => rfl)
    rwa [stillRelease_destroyed hfrozen hdestroyed] at hgives
  case running =>
    have hgives : Gives .stillRelease d (stillRelease d) := gives_of_answer d (fun _ => rfl)
    rwa [stillRelease_running hrunning] at hgives
  case tap =>
    have htap {c : Instr} (g : Dev → Dev) (hc : ∀ s, exec c s = onTap g s) : Gives c d (g d) := gives_of_onlyIf hon hc
    have hdebug {c : Instr} {code : Nat} {g : Dev → Dev} (hc : ∀ s, exec c s = onTap (fun d => d.debug code g) s) (hdead : ¬ live) :
        ActsAsBypass c d code := by
      have hgives : Gives c d (d.debug code g) := htap (fun d => d.debug code g) hc
      exact ⟨0, Dev.debug_bypass hdead code g ▸ hgives⟩
    have hmemdata : Gives .memdata d (memdata d) := htap memdata (fun _ => rfl)
    refine ⟨?trst, fun pins hpins => ?extest, fun pins load hpins hload => ?sample, ?idcode, ?clamp, ?highz, fun tdi => ?bypass,
      fun hopen => ?stillstat, fun hburnt => ?stillstatBurnt, fun v hlive => ?memaddr, fun v hlive hv => ?scansel, fun hlive => ?memdata,
      fun n hlive hn => ?scan, fun hdead => ?dead⟩
    case trst => exact htap (fun d => d.setIr 2) (fun _ => rfl)
    case extest =>
      have hgives : Gives (.extest pins) d (shifted d 0 t Config.boundaryLen (pins % 2 ^ Config.boundaryLen)) :=
        htap (fun d => (d.setIr 0).emit (.tdo Config.boundaryLen (pins % 2 ^ Config.boundaryLen))) (fun _ => rfl)
      rwa [Nat.mod_eq_of_lt hpins] at hgives
    case sample =>
      have hgives : Gives (.samplePreload pins load) d (samplePreload pins load d) := htap (samplePreload pins load) (fun _ => rfl)
      unfold samplePreload at hgives
      rwa [Nat.mod_eq_of_lt hpins, Nat.mod_eq_of_lt hload] at hgives
    case idcode => exact htap (fun d => (d.setIr 2).emit (.tdo 32 idcodeWord)) (fun _ => rfl)
    case clamp => exact ⟨0, htap (fun d => (d.setIr 3).emit (.tdo 1 0)) (fun _ => rfl)⟩
    case highz => exact ⟨0, htap (fun d => (d.setIr 4).emit (.tdo 1 0)) (fun _ => rfl)⟩
    case bypass =>
      have hgives : Gives (.bypass tdi) d ((d.setIr 0xFF).bypassed tdi) := htap (fun d => (d.setIr 0xFF).bypassed tdi) (fun _ => rfl)
      refine ⟨bit01 tdi * 2, hgives, ?_⟩
      cases tdi <;> decide
    case stillstat =>
      have hgives : Gives .stillstat d (stillstat d) := htap stillstat (fun _ => rfl)
      have heq : stillstat d = shifted d 0x20 t 32 t.word := if_neg (by simp [Dev.setIr, hopen])
      rwa [heq] at hgives
    case stillstatBurnt =>
      have hgives : Gives .stillstat d (stillstat d) := htap stillstat (fun _ => rfl)
      have heq : stillstat d = shifted d 0x20 t 1 0 := if_pos hburnt
      exact ⟨0, heq ▸ hgives⟩
    case memaddr =>
      have hgives := htap (c := .memaddr v) (fun d => d.debug 0x21 (fun d => d.setStill { d.still with memaddr := v.toNat % 2 ^ 52 })) (fun _ => rfl)
      rw [Dev.debug_live hlive] at hgives
      exact ⟨_, hgives, rfl⟩
    case scansel =>
      have hgives := htap (c := .scansel v) (fun d => d.debug 0x28 (fun d => d.setStill { d.still with scansel := v % 2 ^ 16 })) (fun _ => rfl)
      rw [Dev.debug_live hlive, Nat.mod_eq_of_lt hv] at hgives
      exact hgives
    case memdata =>
      obtain ⟨hstore, hregister, hprogram, hrunnel, hreservoir⟩ := memdata_spec hlive
      refine ⟨fun b o h hb => ?_, fun b o h hwhole => hregister b o h hwhole ▸ hmemdata, fun b o h hb => hprogram b o h hb ▸ hmemdata,
        fun b o h => hrunnel b o h ▸ hmemdata, fun a h => hreservoir a h ▸ hmemdata⟩
      obtain ⟨v, n, heq, hword, hlt, hcistern⟩ := hstore b o h hb
      exact ⟨_, v, heq ▸ hmemdata, rfl, hword, hlt, hcistern⟩
    case scan =>
      have hgives : Gives (.scan n) d (scan n d) := htap (scan n) (fun _ => rfl)
      have heq : scan n d = (shifted d 0x29 { t with destroyed := true } n (d.openValue.1.toNat % 2 ^ n)).setFree (d.free + 1) := by
        unfold scan
        rw [Dev.debug_live hlive]
        exact if_neg (by omega)
      exact ⟨_, _, heq ▸ hgives, rfl⟩
    case dead =>
      exact ⟨fun v => hdebug (fun _ => rfl) hdead, hdebug (fun _ => rfl) hdead, fun v => hdebug (fun _ => rfl) hdead,
        fun n => hdebug (fun _ => rfl) hdead⟩

end Sys2Proof.Spec
end
section
/-! PROOFS. Wake sources (R318, R386, R388, R448): what a source records, and where it turns the sequencer. -/

namespace Sys2Proof.Machine

open Sys2Proof Sys2Proof.Spec

/-! ### Bits of numbers -/

theorem bitOf_or_pow (n k j : Nat) : bitOf (n ||| 2 ^ k) j = (bitOf n j || decide (k = j)) := by
  simp [bitOf_eq_testBit, Nat.testBit_or, Nat.testBit_two_pow]

theorem bitOf_or_pow_same (n k : Nat) : bitOf (n ||| 2 ^ k) k = true := by simp [bitOf_or_pow]

/-! ### A source that fires (R386, R388, R448) -/

theorem Dev.assertWakeN_eq (d : Dev) (bit : Nat) : d.assertWakeN bit = d.setMd { d.md with wakeN := wakePin d bit } := by
  unfold Dev.assertWakeN wakePin
  by_cases h : bit ≠ 0 ∧ (!d.hw.l0) = true ∧ d.md.wakeN.isNone = true
  · have hpin : bit ≠ 0 ∧ d.hw.l0 = false ∧ d.md.wakeN = none := by simpa using h
    rw [if_pos h, if_pos hpin]
  · have hpin : ¬ (bit ≠ 0 ∧ d.hw.l0 = false ∧ d.md.wakeN = none) := by simpa using h
    rw [if_neg h, if_neg hpin]
    rfl

theorem Dev.wake_disabled {d : Dev} {bit : Nat} (h : bitOf d.pow.wakeen bit = false) : d.wake bit = d := if_pos (by simp [h])

theorem Dev.wake_asleep {d : Dev} {bit : Nat} (h : bitOf d.pow.wakeen bit = true) (hasleep : Asleep d) :
    d.wake bit = { d with pow := woken d bit, md := { d.md with wakeN := wakePin d bit } } := by
  obtain ⟨hrests, hstable, hstate⟩ := hasleep
  have hsleeps : (!d.pow.moving) = true ∧ (d.pow.state = 2 ∨ d.pow.state = 3) ∧ d.pow.stable = 2 := ⟨by simp [hrests], hstate, hstable⟩
  have henabled : ¬ (!bitOf d.pow.wakeen bit) = true := by simp [h]
  refine (if_neg henabled).trans ((if_pos hsleeps).trans ?_)
  rw [d.assertWakeN_eq]
  exact Dev.goTo_run_of_coreOn (d := Dev.setPow (d.setMd _) _) hstable

theorem Dev.wake_fallingAsleep {d : Dev} {bit : Nat} (h : bitOf d.pow.wakeen bit = true) (hfalling : FallingAsleep d) :
    d.wake bit = { d with pow := { d.pow with wakesrc := d.pow.wakesrc ||| 2 ^ bit, latched := some 0, abortcnt := d.pow.abortcnt + 1 },
                          md := { d.md with wakeN := wakePin d bit } } := by
  obtain ⟨hmoving, hdest, hlatched⟩ := hfalling
  have henabled : ¬ (!bitOf d.pow.wakeen bit) = true := by simp [h]
  have hawake : ¬ ((!d.pow.moving) = true ∧ (d.pow.state = 2 ∨ d.pow.state = 3) ∧ d.pow.stable = 2) := by simp [hmoving]
  have hfalls : d.pow.moving = true ∧ (d.pow.dest = 2 ∨ d.pow.dest = 3) ∧ d.pow.latched.isNone = true :=
    ⟨hmoving, hdest, by simp [hlatched]⟩
  refine (if_neg henabled).trans ((if_neg hawake).trans ((if_pos hfalls).trans ?_))
  rw [d.assertWakeN_eq]
  rfl

/-- Only WAKE_N and what of the power block a wake writes changes. -/
theorem wakeSource_of_wake {c : Instr} {d w : Dev} {bit : Nat} (h : Gives c d (w.wake bit)) : WakeSource c d w bit := by
  refine ⟨fun hoff => ?_, fun hon hasleep => ?_, fun hon hfalling => ?_⟩
  · rwa [Dev.wake_disabled hoff] at h
  · rwa [Dev.wake_asleep hon hasleep] at h
  · rwa [Dev.wake_fallingAsleep hon hfalling] at h

/-! ### Each source (R318, R387, R388) -/

theorem pcieWake_counts {d : Dev} {inWindow : Bool} (h : ¬ (inWindow = true ∧ d.pow.state = 2)) : pcieWake inWindow d = d.wake 0 := if_neg h

theorem wakeInNFall_wakes {d : Dev} (hup : d.pow.stable ≠ 1) (hdest : d.pow.dest ≠ 4) : wakeInNFall d = d.wake 4 := by
  have hstart : ¬ d.mayStart = true := fun h => hup ((Dev.mayStart_iff d).mp h).1
  exact (if_neg hstart).trans (if_neg (fun h => hdest h.2))

/-- The port once its detector has recognised a burst while it was DOWN. -/
def Port.burst (x : Port) : Port := { x with wakeseen := true, wakecnt := x.wakecnt + 1 }

theorem wakeBurstRecognised_linked {d : Dev} {p : Nat} (hdetects : (d.port p).wakeen = true) (hup : d.pow.stable ≠ 1)
    (hlinked : 1 ≤ (d.port p).state ∧ (d.port p).state ≤ 3) :
    wakeBurstRecognised p d = d.putPort p { d.port p with wakeseen := true } := by
  have hdeaf : ¬ ((!(d.port p).wakeen) = true ∨ (d.pow.stable = 1 ∧ (!d.pow.moving) = true)) := by simp [hdetects, hup]
  exact (if_neg hdeaf).trans (if_pos (by omega))

theorem wakeBurstRecognised_down {d : Dev} {p : Nat} (hdetects : (d.port p).wakeen = true) (hup : d.pow.stable ≠ 1)
    (hdown : (d.port p).state = 0) :
    wakeBurstRecognised p d = if d.awake then (d.putPort p (d.port p).burst).wake 3 else d.putPort p (d.port p).burst := by
  have hdeaf : ¬ ((!(d.port p).wakeen) = true ∨ (d.pow.stable = 1 ∧ (!d.pow.moving) = true)) := by simp [hdetects, hup]
  exact (if_neg hdeaf).trans (if_neg (by omega))

theorem wakeBurstRecognised_deaf {d : Dev} {p : Nat} (h : (d.port p).wakeen = false) : wakeBurstRecognised p d = d := if_pos (by simp [h])

end Sys2Proof.Machine
end
section
/-! PROOFS. The trickle window (R391, R392): what a write into it stores, and which slots it makes fresh. -/

namespace Sys2Proof.Machine

open Sys2Proof Sys2Proof.Spec

/-- One byte written into the trickle window. -/
def Power.windowByte (p : Power) (a : Nat) (v : Byte) : Power :=
  if 14400 ≤ a % 16384 then p
  else { p with trkBuf := Mem.write p.trkBuf a v, fresh := if a % 16384 = 14399 then p.fresh ||| 2 ^ (a / 16384) else p.fresh }

theorem Power.windowWrite_nil (p : Power) (off : Nat) : p.windowWrite off [] = p := rfl

theorem Power.windowWrite_cons (p : Power) (off : Nat) (v : Byte) (bs : List Byte) :
    p.windowWrite off (v :: bs) = (p.windowByte off v).windowWrite (off + 1) bs := by
  have hbytes (q : Power) (o : Nat) (l : List Byte) :
      q.windowWrite o l = l.zipIdx.foldl (fun q (x : Byte × Nat) => q.windowByte (o + x.2) x.1) q := rfl
  rw [hbytes, hbytes, List.zipIdx_cons, List.zipIdx_eq_map_add, List.foldl_cons, List.foldl_map]
  simp only [Nat.add_zero, Nat.zero_add, Nat.add_assoc]

/-- Where the write puts a byte, it stands; elsewhere, and from byte 14,400 of each slot on, the window stands as it was. -/
theorem Power.read_windowWrite (p : Power) (off : Nat) (bs : List Byte) (a : Nat) :
    Mem.read (p.windowWrite off bs).trkBuf a
      = if off ≤ a ∧ a < off + bs.length ∧ a % 16384 < 14400 then bs.getD (a - off) 0 else Mem.read p.trkBuf a := by
  induction bs generalizing p off with
  | nil => rw [Power.windowWrite_nil, if_neg (by simp; omega)]
  | cons v bs ih =>
    have hbyte : Mem.read (p.windowByte off v).trkBuf a = if a = off ∧ a % 16384 < 14400 then v else Mem.read p.trkBuf a := by
      unfold Power.windowByte
      by_cases hpad : 14400 ≤ off % 16384
      · rw [if_pos hpad, if_neg (by omega)]
      · rw [if_neg hpad]
        by_cases ha : a = off
        · subst ha
          rw [if_pos (by omega : a = a ∧ a % 16384 < 14400)]
          exact Mem.read_write_same _ _ _
        · rw [if_neg (by omega : ¬ (a = off ∧ a % 16384 < 14400))]
          exact Mem.read_write_other _ _ _ _ ha
    rw [Power.windowWrite_cons, ih, hbyte]
    by_cases ha : a = off
    · subst ha
      simp
    · by_cases hin : off + 1 ≤ a ∧ a < off + 1 + bs.length ∧ a % 16384 < 14400
      · have hindex : a - off = a - (off + 1) + 1 := by omega
        rw [if_pos hin, if_pos (by simp only [List.length_cons]; omega), hindex, List.getD_cons_succ]
      · rw [if_neg hin, if_neg (fun h => ha h.1), if_neg (by simp only [List.length_cons]; omega)]

/-- A slot is fresh once its byte 14,399 has been written. -/
theorem Power.fresh_windowWrite (p : Power) (off : Nat) (bs : List Byte) (t : Nat) :
    bitOf (p.windowWrite off bs).fresh t = true
      ↔ bitOf p.fresh t = true ∨ (off ≤ 16384 * t + 14399 ∧ 16384 * t + 14399 < off + bs.length) := by
  induction bs generalizing p off with
  | nil => exact ⟨.inl, fun h => h.resolve_right (by simp only [List.length_nil]; omega)⟩
  | cons v bs ih =>
    have hbyte : bitOf (p.windowByte off v).fresh t = true ↔ bitOf p.fresh t = true ∨ off = 16384 * t + 14399 := by
      unfold Power.windowByte
      by_cases hpad : 14400 ≤ off % 16384
      · rw [if_pos hpad]
        exact ⟨.inl, fun h => h.resolve_right (by omega)⟩
      · rw [if_neg hpad]
        by_cases hlast : off % 16384 = 14399
        · simp only [if_pos hlast, bitOf_or_pow, Bool.or_eq_true, decide_eq_true_eq]
          exact or_congr_right (by omega)
        · simp only [if_neg hlast]
          exact ⟨.inl, fun h => h.resolve_right (by omega)⟩
    rw [Power.windowWrite_cons, ih, hbyte, or_assoc, List.length_cons]
    exact or_congr_right (by omega)

end Sys2Proof.Machine
end
section
/-! PROOFS. The sample of a trickle period (R392 to R395): ages, the slots that wake, and the reference that follows. -/

namespace Sys2Proof

/-! ### Sets of slots as bits -/

/-- Setting a bit that was 0 leaves every other as it was. -/
theorem bitOf_add_pow_other {n k j : Nat} (h : bitOf n k = false) (hj : j ≠ k) : bitOf (n + 2 ^ k) j = bitOf n j := by
  unfold bitOf
  obtain hlow | hhigh := Nat.lt_or_gt_of_ne hj
  · obtain ⟨c, hc⟩ : ∃ c, 2 ^ k = 2 ^ j * (2 * c) := ⟨2 ^ (k - j - 1), by rw [← Nat.pow_succ', ← Nat.pow_add]; congr 1; omega⟩
    have hdiv : (n + 2 ^ k) / 2 ^ j = n / 2 ^ j + 2 * c := by rw [hc, Nat.add_mul_div_left _ _ (Nat.two_pow_pos j)]
    have hparity : (n / 2 ^ j + 2 * c) % 2 = n / 2 ^ j % 2 := by omega
    rw [hdiv, hparity]
  · have hsplit : 2 ^ j = 2 ^ k * 2 * 2 ^ (j - k - 1) := by
      rw [← Nat.pow_succ, ← Nat.pow_add]
      congr 1
      omega
    have heven : n / 2 ^ k % 2 = 0 := by
      simp only [bitOf, beq_eq_false_iff_ne] at h
      omega
    have hhalf : (n + 2 ^ k) / 2 ^ k / 2 = n / 2 ^ k / 2 := by
      rw [Nat.add_div_right n (Nat.two_pow_pos k)]
      omega
    rw [hsplit, ← Nat.div_div_eq_div_mul, ← Nat.div_div_eq_div_mul, ← Nat.div_div_eq_div_mul, ← Nat.div_div_eq_div_mul, hhalf]

/-- The number whose bits are the slots of a list. -/
def slotBits (l : List Nat) : Nat := l.foldl (fun n t => n + 2 ^ t) 0

theorem bitOf_foldl_add_pow {l : List Nat} (hnodup : l.Nodup) {n : Nat} (hfree : ∀ x ∈ l, bitOf n x = false) (t : Nat) :
    bitOf (l.foldl (fun n t => n + 2 ^ t) n) t = (bitOf n t || decide (t ∈ l)) := by
  induction l generalizing n with
  | nil => simp
  | cons x l ih =>
    obtain ⟨hx, hl⟩ := List.nodup_cons.mp hnodup
    have hbit : bitOf n x = false := hfree x List.mem_cons_self
    have hrest : ∀ y ∈ l, bitOf (n + 2 ^ x) y = false := fun y hy => by
      rw [bitOf_add_pow_other hbit (fun h => hx (h ▸ hy))]
      exact hfree y (List.mem_cons_of_mem x hy)
    rw [List.foldl_cons, ih hl hrest]
    by_cases ht : t = x
    · subst ht
      simp [Machine.bitOf_add_pow hbit]
    · simp [bitOf_add_pow_other hbit ht, ht]

theorem bitOf_slotBits {l : List Nat} (hnodup : l.Nodup) (t : Nat) : bitOf (slotBits l) t = decide (t ∈ l) := by
  have hzero (k : Nat) : bitOf 0 k = false := by simp [bitOf]
  rw [slotBits, bitOf_foldl_add_pow hnodup (fun x _ => hzero x), hzero, Bool.false_or]

theorem slotBits_add {l k : List Nat} (h : (l ++ k).Nodup) (t : Nat) : bitOf (slotBits l + slotBits k) t = decide (t ∈ l ++ k) := by
  have hsum (n m : Nat) : k.foldl (fun n t => n + 2 ^ t) (n + m) = n + k.foldl (fun n t => n + 2 ^ t) m := by
    clear h
    induction k generalizing m with
    | nil => rfl
    | cons x k ih => rw [List.foldl_cons, Nat.add_assoc, ih, List.foldl_cons]
  have happend : slotBits l + slotBits k = slotBits (l ++ k) := by
    rw [slotBits, slotBits, slotBits, List.foldl_append, ← hsum, Nat.add_zero]
  rw [happend, bitOf_slotBits h]

end Sys2Proof

namespace Sys2Proof.Machine

open Sys2Proof Sys2Proof.Spec

/-! ### Ages (R395) -/

theorem Tab.at_foldl_put {α : Type} {l : List Nat} (v : Nat → α) (tab : Tab α) (d : α) (t : Nat) :
    Tab.at (l.foldl (fun a t => Tab.put a t (v t)) tab) d t = if t ∈ l then v t else Tab.at tab d t := by
  induction l generalizing tab with
  | nil => simp
  | cons x l ih =>
    rw [List.foldl_cons, ih]
    by_cases ht : t = x
    · subst ht
      simp [Tab.at_put_same]
    · simp [ht, Tab.at_put_other _ _ _ _ _ ht]

/-! ### The reference follows its slots (R394) -/

/-- One pixel of the reference moved toward the window by its filter. -/
def followed (refk : Nat) (x r : Byte) : Byte := BitVec.ofInt 8 ((r.toNat : Int) + ((x.toNat : Int) - r.toNat) / (2 : Int) ^ refk)

/-- Moved by a part of its difference, a pixel stays between what it was and what it follows, so no byte wraps. -/
theorem followed_toNat (refk : Nat) (x r : Byte) :
    ((followed refk x r).toNat : Int) = (r.toNat : Int) + ((x.toNat : Int) - r.toNat) / (2 : Int) ^ refk := by
  have hx : x.toNat < 256 := x.isLt
  have hr : r.toNat < 256 := r.isLt
  have hpos : (1 : Int) ≤ 2 ^ refk := one_le_pow₀ (by omega)
  have hrange : 0 ≤ (r.toNat : Int) + ((x.toNat : Int) - r.toNat) / 2 ^ refk
      ∧ (r.toNat : Int) + ((x.toNat : Int) - r.toNat) / 2 ^ refk < 256 := by
    generalize hdiff : (x.toNat : Int) - r.toNat = n
    obtain hup | hdown := le_or_gt 0 n
    · have hlow : 0 ≤ n / 2 ^ refk := Int.ediv_nonneg hup (by omega)
      have hhigh : n / 2 ^ refk ≤ n := Int.ediv_le_self _ hup
      omega
    · have hlow : n ≤ n / 2 ^ refk := (Int.le_ediv_iff_mul_le (by omega)).mpr (by nlinarith)
      have hhigh : n / 2 ^ refk < 0 := Int.ediv_neg_of_neg_of_pos hdown (by omega)
      omega
  rw [followed, BitVec.toNat_ofInt, Int.toNat_of_nonneg (Int.emod_nonneg _ (by decide))]
  exact Int.emod_eq_of_lt hrange.1 hrange.2

/-- The pixels `l` of slot `t`, moved in turn. -/
def followPixels (buf : Mem) (refk t : Nat) (l : List Nat) (m : Mem) : Mem :=
  l.foldl (fun m k => Mem.write m (t * 16384 + k) (followed refk (Mem.read buf (t * 16384 + k)) (Mem.read m (t * 16384 + k)))) m

theorem Power.follow_eq (p : Power) (t : Nat) :
    p.follow t = { p with trkRef := followPixels p.trkBuf p.trk.refk t (List.range 14400) p.trkRef } := (rfl)

theorem Power.follow_frame (p : Power) (t : Nat) : ∃ ref, p.follow t = { p with trkRef := ref } := ⟨_, p.follow_eq t⟩

theorem read_followPixels {l : List Nat} (hnodup : l.Nodup) (buf m : Mem) (refk t a : Nat) :
    Mem.read (followPixels buf refk t l m) a
      = if t * 16384 ≤ a ∧ a - t * 16384 ∈ l then followed refk (Mem.read buf a) (Mem.read m a) else Mem.read m a := by
  induction l generalizing m with
  | nil => simp [followPixels]
  | cons k l ih =>
    obtain ⟨hk, hl⟩ := List.nodup_cons.mp hnodup
    have hcons (v : Byte) (hv : v = followed refk (Mem.read buf (t * 16384 + k)) (Mem.read m (t * 16384 + k))) :
        followPixels buf refk t (k :: l) m = followPixels buf refk t l (Mem.write m (t * 16384 + k) v) := by rw [hv]; rfl
    rw [hcons _ rfl, ih hl]
    by_cases ha : a = t * 16384 + k
    · have hindex : a - t * 16384 = k := by omega
      rw [hindex, if_neg (fun h => hk h.2), if_pos ⟨by omega, List.mem_cons_self⟩, ha, Mem.read_write_same]
    · have hother : ¬ (t * 16384 ≤ a ∧ a - t * 16384 = k) := by omega
      rw [Mem.read_write_other _ _ _ _ ha]
      refine if_congr (and_congr_right fun hle => ?_) rfl rfl
      rw [List.mem_cons, or_iff_right (fun h => hother ⟨hle, h⟩)]

/-- Every pixel of a slot follows, and none of another slot. -/
theorem Power.read_follow (p : Power) (t a : Nat) :
    Mem.read (p.follow t).trkRef a
      = if t * 16384 ≤ a ∧ a < t * 16384 + 14400 then followed p.trk.refk (Mem.read p.trkBuf a) (Mem.read p.trkRef a)
        else Mem.read p.trkRef a := by
  rw [Power.follow_eq]
  dsimp only
  rw [read_followPixels List.nodup_range]
  refine if_congr (and_congr_right fun hle => ?_) rfl rfl
  rw [List.mem_range]
  omega

theorem Power.foldl_follow_frame (l : List Nat) (p : Power) : ∃ ref, l.foldl Power.follow p = { p with trkRef := ref } := by
  induction l generalizing p with
  | nil => exact ⟨p.trkRef, rfl⟩
  | cons t l ih =>
    obtain ⟨ref, h⟩ := p.follow_frame t
    obtain ⟨ref', h'⟩ := ih (p.follow t)
    exact ⟨ref', by rw [List.foldl_cons, h', h]⟩

/-- Of slots listed once, each follows by itself. -/
theorem Power.read_foldl_follow {l : List Nat} (hnodup : l.Nodup) (p : Power) {t px : Nat} (hpx : px < 14400) :
    Mem.read (l.foldl Power.follow p).trkRef (16384 * t + px)
      = if t ∈ l then followed p.trk.refk (Mem.read p.trkBuf (16384 * t + px)) (Mem.read p.trkRef (16384 * t + px))
        else Mem.read p.trkRef (16384 * t + px) := by
  induction l generalizing p with
  | nil => rfl
  | cons x l ih =>
    obtain ⟨hx, hl⟩ := List.nodup_cons.mp hnodup
    obtain ⟨ref, hframe⟩ := p.follow_frame x
    have hkept : (p.follow x).trk = p.trk ∧ (p.follow x).trkBuf = p.trkBuf := by rw [hframe]; exact ⟨rfl, rfl⟩
    rw [List.foldl_cons, ih hl, Power.read_follow, hkept.1, hkept.2]
    by_cases ht : t = x
    · subst ht
      rw [if_neg hx, if_pos (by omega), if_pos List.mem_cons_self]
    · rw [if_neg (by omega : ¬ (x * 16384 ≤ 16384 * t + px ∧ 16384 * t + px < x * 16384 + 14400))]
      refine if_congr ?_ rfl rfl
      rw [List.mem_cons, or_iff_right ht]

end Sys2Proof.Machine
end
section
/-! PROOFS. The end of a trickle period (R392 to R395), and the obligation about wakes. -/

namespace Sys2Proof.Machine

open Sys2Proof Sys2Proof.Spec

/-! ### What a period finds (R394, R395) -/

/-- The enabled slots. -/
def Power.enabledSlots (p : Power) : List Nat := (List.range 64).filter (fun t => bitOf p.trk.sloten t)

/-- The enabled slots that are fresh. -/
def Power.freshSlots (p : Power) : List Nat := p.enabledSlots.filter (fun t => bitOf p.fresh t)

/-- How many periods each slot has not become fresh for. -/
def Power.agesAfter (p : Power) : Tab Nat :=
  p.enabledSlots.foldl (fun a t => Tab.put a t (if bitOf p.fresh t then 0 else Tab.at p.age 0 t + 1)) p.age

/-- The enabled slots that have not become fresh for STALEMAX periods. -/
def Power.staleSlots (p : Power) : List Nat :=
  p.enabledSlots.filter (fun t => p.trk.stalemax != 0 && !bitOf p.fresh t && decide (p.trk.stalemax ≤ Tab.at p.agesAfter 0 t))

/-- The power block with the period counted. -/
def Power.counting (p : Power) (due : Nat) : Power := { p with trkcnt := p.trkcnt + 1, trkCt := due, age := p.agesAfter }

/-- The score of the pixels of slot `t` in this period's sample. -/
def Dev.sample (d : Dev) (t : Nat) : Nat → Int → Int :=
  pixelScore (d.boot.devseed.toNat, 0xFFFFFFF2, 2 ^ 16 * (d.pow.trkcnt + 1).toNat) d.pow.trk.mlen t

/-- The fresh slots that exceed their thresholds. -/
def Dev.hitSlots (d : Dev) : List Nat := d.pow.freshSlots.filter (fun t => d.pow.exceeds (d.sample t) t)

/-- When the period under way ends. -/
def Power.periodEnd (p : Power) : Nat := p.trkCt + p.trk.period * 1000000

/-- The power block once the sample has taken the fresh slots. -/
def Power.sampled (p : Power) : Power :=
  { p.counting p.periodEnd with fresh := p.fresh - slotBits p.freshSlots }

/-- The power block whose sample wakes. -/
def Dev.waking (d : Dev) : Power :=
  { d.pow with trkcnt := d.pow.trkcnt + 1, trkCt := d.pow.periodEnd, age := d.pow.agesAfter, fresh := d.pow.fresh - slotBits d.pow.freshSlots,
               trkwake := slotBits d.hitSlots + slotBits d.pow.staleSlots,
               trkstale := slotBits d.pow.staleSlots, row0On := true }

theorem Power.mem_enabledSlots (p : Power) (t : Nat) : t ∈ p.enabledSlots ↔ t < 64 ∧ bitOf p.trk.sloten t = true := by
  simp [Power.enabledSlots]

theorem Power.mem_freshSlots (p : Power) (t : Nat) : t ∈ p.freshSlots ↔ t < 64 ∧ bitOf p.trk.sloten t = true ∧ bitOf p.fresh t = true := by
  simp [Power.freshSlots, Power.mem_enabledSlots, and_assoc]

theorem Power.mem_staleSlots (p : Power) (t : Nat) : t ∈ p.staleSlots ↔ t < 64 ∧ bitOf p.trk.sloten t = true ∧ bitOf p.fresh t = false
    ∧ p.trk.stalemax ≠ 0 ∧ p.trk.stalemax ≤ Tab.at p.age 0 t + 1 := by
  have hage (h : t ∈ p.enabledSlots) : Tab.at p.agesAfter 0 t = if bitOf p.fresh t then 0 else Tab.at p.age 0 t + 1 := by
    rw [Power.agesAfter, Tab.at_foldl_put, if_pos h]
  rw [Power.staleSlots, List.mem_filter, ← and_assoc, ← Power.mem_enabledSlots]
  refine and_congr_right fun h => ?_
  rw [hage h]
  cases hfresh : bitOf p.fresh t <;> simp

theorem Dev.mem_hitSlots (d : Dev) (t : Nat) : t ∈ d.hitSlots ↔ t ∈ d.pow.freshSlots ∧ d.pow.exceeds (d.sample t) t = true := List.mem_filter

theorem Power.enabledSlots_nodup (p : Power) : p.enabledSlots.Nodup := List.nodup_range.filter _
theorem Power.freshSlots_nodup (p : Power) : p.freshSlots.Nodup := p.enabledSlots_nodup.filter _
theorem Power.staleSlots_nodup (p : Power) : p.staleSlots.Nodup := p.enabledSlots_nodup.filter _

/-- No slot both exceeds and is stale. -/
theorem Dev.hitSlots_staleSlots_nodup (d : Dev) : (d.hitSlots ++ d.pow.staleSlots).Nodup := by
  refine List.nodup_append'.mpr ⟨d.pow.freshSlots_nodup.filter _, d.pow.staleSlots_nodup, fun t hhit hstale => ?_⟩
  obtain ⟨-, -, hfresh⟩ := (d.pow.mem_freshSlots t).mp ((d.mem_hitSlots t).mp hhit).1
  obtain ⟨-, -, hnot, -⟩ := (d.pow.mem_staleSlots t).mp hstale
  simp [hfresh] at hnot

/-! ### What a period does (R392 to R395) -/

theorem Power.exceeds_counting (p : Power) (due : Nat) (f : Nat → Int → Int) (t : Nat) : (p.counting due).exceeds f t = p.exceeds f t := (rfl)

theorem tricklePeriod_eq {d : Dev} (hasleep : Asleep d) (htrickle : d.pow.state = 2) :
    tricklePeriod d = if d.pow.freshSlots = [] ∧ d.pow.staleSlots = [] then
        (d.atNs d.pow.periodEnd).setPow (d.pow.counting d.pow.periodEnd)
      else if d.hitSlots = [] ∧ d.pow.staleSlots = [] then (d.atNs d.pow.periodEnd).setPow
        (if d.pow.trk.refk = 0 then d.pow.sampled else d.pow.freshSlots.foldl Power.follow d.pow.sampled)
      else ((d.atNs d.pow.periodEnd).setPow d.waking).wake 5 := by
  obtain ⟨hrests, hstable, -⟩ := hasleep
  have hruns : ¬ (d.pow.state ≠ 2 ∨ d.pow.moving = true ∨ d.pow.stable ≠ 2) := by simp [htrickle, hrests, hstable]
  exact if_neg hruns

/-- A sleeping device that a source may wake keeps CT and what the trickle unit holds; an enabled source turns it toward Run. -/
theorem Dev.wake_trickle {d : Dev} (hasleep : Asleep d) (bit : Nat) :
    let e := d.wake bit
    (e.cad = d.cad ∧ e.pow.trkcnt = d.pow.trkcnt ∧ e.pow.trkCt = d.pow.trkCt ∧ e.pow.trkwake = d.pow.trkwake
      ∧ e.pow.trkstale = d.pow.trkstale ∧ e.pow.row0On = d.pow.row0On)
    ∧ (bitOf d.pow.wakeen bit = true → bitOf e.pow.wakesrc bit = true ∧ e.pow.moving = true ∧ e.pow.dest = 0) := by
  intro e
  cases hon : bitOf d.pow.wakeen bit
  · have he : e = d := Dev.wake_disabled hon
    rw [he]
    exact ⟨⟨rfl, rfl, rfl, rfl, rfl, rfl⟩, fun h => by simp at h⟩
  · have he : e = { d with pow := woken d bit, md := { d.md with wakeN := wakePin d bit } } := Dev.wake_asleep hon hasleep
    rw [he]
    exact ⟨⟨rfl, rfl, rfl, rfl, rfl, rfl⟩, fun _ => ⟨bitOf_or_pow_same _ _, rfl, rfl⟩⟩

theorem tricklePeriod_wakes {d : Dev} (hasleep : Asleep d) (htrickle : d.pow.state = 2) (h : ¬ (d.hitSlots = [] ∧ d.pow.staleSlots = [])) :
    tricklePeriod d = ((d.atNs d.pow.periodEnd).setPow d.waking).wake 5 := by
  have hsampled : ¬ (d.pow.freshSlots = [] ∧ d.pow.staleSlots = []) := fun ⟨hfresh, hstale⟩ =>
    h ⟨by rw [Dev.hitSlots, hfresh, List.filter_nil], hstale⟩
  exact (tricklePeriod_eq hasleep htrickle).trans ((if_neg hsampled).trans (if_neg h))

/-- A period in which slots wake counts, records them, powers row 0 and turns the device where the source is enabled. -/
theorem tricklePeriod_waking {d : Dev} (hasleep : Asleep d) (htrickle : d.pow.state = 2) (h : ¬ (d.hitSlots = [] ∧ d.pow.staleSlots = [])) :
    let e := tricklePeriod d
    (e.pow.trkcnt = d.pow.trkcnt + 1 ∧ e.pow.trkCt = d.pow.periodEnd ∧ e.cad.ct = ctAt d d.pow.periodEnd ∧ e.pow.row0On = true)
    ∧ (∀ t, t ∈ d.hitSlots ∨ t ∈ d.pow.staleSlots → bitOf e.pow.trkwake t = true)
    ∧ (∀ t, t ∈ d.pow.staleSlots → bitOf e.pow.trkstale t = true)
    ∧ (bitOf d.pow.wakeen 5 = true → bitOf e.pow.wakesrc 5 = true ∧ e.pow.moving = true ∧ e.pow.dest = 0) := by
  obtain ⟨hrests, hstable, hstate⟩ := hasleep
  have hwaking : Asleep ((d.atNs d.pow.periodEnd).setPow d.waking) := ⟨hrests, hstable, hstate⟩
  obtain ⟨⟨hcad, hcnt, hct, hwake, hstaled, hrow⟩, hturns⟩ := Dev.wake_trickle hwaking 5
  rw [tricklePeriod_wakes ⟨hrests, hstable, hstate⟩ htrickle h]
  refine ⟨⟨hcnt, hct, congrArg Cad.ct hcad, hrow⟩, fun t ht => ?_, fun t ht => ?_, hturns⟩
  · rw [hwake]
    exact (slotBits_add d.hitSlots_staleSlots_nodup t).trans (decide_eq_true (List.mem_append.mpr ht))
  · rw [hstaled]
    exact (bitOf_slotBits d.pow.staleSlots_nodup t).trans (decide_eq_true ht)

/-- A period in which no slot wakes counts, and the reference follows the fresh slots where it has a filter. -/
theorem tricklePeriod_quiet {d : Dev} (hasleep : Asleep d) (htrickle : d.pow.state = 2) (h : d.hitSlots = [] ∧ d.pow.staleSlots = []) :
    ∃ fresh ref, tricklePeriod d
        = (d.atNs d.pow.periodEnd).setPow { d.pow.counting d.pow.periodEnd with fresh := fresh, trkRef := ref }
      ∧ (d.pow.trk.refk = 0 → ref = d.pow.trkRef)
      ∧ ∀ t px, px < 14400 → d.pow.trk.refk ≠ 0 → Mem.read ref (16384 * t + px) =
          if t ∈ d.pow.freshSlots then followed d.pow.trk.refk (Mem.read d.pow.trkBuf (16384 * t + px)) (Mem.read d.pow.trkRef (16384 * t + px))
          else Mem.read d.pow.trkRef (16384 * t + px) := by
  have heq := tricklePeriod_eq hasleep htrickle
  by_cases hnone : d.pow.freshSlots = [] ∧ d.pow.staleSlots = []
  · refine ⟨d.pow.fresh, d.pow.trkRef, heq.trans (if_pos hnone), fun _ => rfl, fun t px _ _ => ?_⟩
    rw [hnone.1, if_neg List.not_mem_nil]
  rw [if_neg hnone, if_pos h] at heq
  by_cases hk : d.pow.trk.refk = 0
  · rw [if_pos hk] at heq
    exact ⟨_, d.pow.trkRef, heq, fun _ => rfl, fun t px _ hfilter => (hfilter hk).elim⟩
  · obtain ⟨ref, hframe⟩ := Power.foldl_follow_frame d.pow.freshSlots d.pow.sampled
    have hread := fun t px (hpx : px < 14400) => Power.read_foldl_follow d.pow.freshSlots_nodup d.pow.sampled (t := t) hpx
    rw [hframe] at hread
    rw [if_neg hk, hframe] at heq
    exact ⟨_, ref, heq, fun hzero => (hk hzero).elim, fun t px hpx _ => hread t px hpx⟩

theorem tricklePeriod_resting {d : Dev} (hasleep : Asleep d) (htrickle : d.pow.state = 2) (h : d.hitSlots = [] ∧ d.pow.staleSlots = []) :
    let e := tricklePeriod d
    (e.pow.trkcnt = d.pow.trkcnt + 1 ∧ e.pow.trkCt = d.pow.periodEnd ∧ e.cad.ct = ctAt d d.pow.periodEnd ∧ e.pow.moving = false
      ∧ e.pow.trkwake = d.pow.trkwake ∧ e.pow.wakesrc = d.pow.wakesrc)
    ∧ (d.pow.trk.refk = 0 → e.pow.trkRef = d.pow.trkRef)
    ∧ ∀ t px, px < 14400 → d.pow.trk.refk ≠ 0 →
      let r : Int := (Mem.read d.pow.trkRef (16384 * t + px)).toNat
      let x : Int := (Mem.read d.pow.trkBuf (16384 * t + px)).toNat
      ((Mem.read e.pow.trkRef (16384 * t + px)).toNat : Int) = if t ∈ d.pow.freshSlots then r + (x - r) / (2 : Int) ^ d.pow.trk.refk else r := by
  obtain ⟨fresh, ref, heq, hunfiltered, hread⟩ := tricklePeriod_quiet hasleep htrickle h
  rw [heq]
  refine ⟨⟨rfl, rfl, rfl, hasleep.1, rfl, rfl⟩, hunfiltered, fun t px hpx hk => ?_⟩
  refine (congrArg (fun v : Byte => (v.toNat : Int)) (hread t px hpx hk)).trans ?_
  split
  · exact followed_toNat _ _ _
  · rfl

/-! ### A write into the window (R388, R391) -/

theorem trickleWindowWrite_stores {off : Nat} {bs : List Byte} {d : Dev} (hin : off + bs.length ≤ 0x100000) (hreset : (d.func 0).inReset = false)
    (hstate : d.pow.state ≠ 3) (hdest : ¬ (d.pow.moving = true ∧ d.pow.dest = 3)) :
    trickleWindowWrite off bs d = d.setPow (d.pow.windowWrite off bs) := by
  have hout : ¬ (0x100000 < off + bs.length ∨ (d.func 0).inReset = true) := by simp [hreset]; omega
  exact (if_neg hout).trans (if_neg (fun h => h.elim hstate hdest))

/-- In Rest the write stays on the link, and wakes. -/
theorem trickleWindowWrite_wakes {off : Nat} {bs : List Byte} {d : Dev} (hin : off + bs.length ≤ 0x100000) (hreset : (d.func 0).inReset = false)
    (hrest : d.pow.state = 3) :
    trickleWindowWrite off bs d = (d.setPow { d.pow with heldTlp := d.pow.heldTlp ++ [(off, bs)] }).wake 0 := by
  have hout : ¬ (0x100000 < off + bs.length ∨ (d.func 0).inReset = true) := by simp [hreset]; omega
  exact (if_neg hout).trans (if_pos (.inl hrest))

end Sys2Proof.Machine

namespace Sys2Proof.Spec

open Sys2Proof Sys2Proof.Machine

/-- Settles O53: each source is the wake of its bit, and the period is that of the slots it finds. -/
theorem wakesTurnTowardRun : Obligations.WakesTurnTowardRun := by
  unfold Obligations.WakesTurnTowardRun
  refine ⟨fun d p hstopped hdetects hdown hup => ?stopped, fun d hawake => ⟨?pcie, fun hstate => ?outside, fun hstate => ?inside, ?rill, ?mirror,
    fun p hdetects => ⟨fun hlow hhigh hup => ?linked, fun hdown hup => ?burst⟩, fun p hdeaf => ?deaf, fun hup hdest => ?pin,
    fun t hpin => ?release, fun off bs hon hin hreset => ⟨fun hstate hdest => ?window, fun hasleep hrest henabled => ?held⟩,
    fun hasleep htrickle => ?period⟩⟩
  case stopped =>
    have hgives : Gives (.wakeBurstRecognised p) d (wakeBurstRecognised p d) := gives_of_answer d (fun _ => rfl)
    rw [wakeBurstRecognised_down hdetects hup hdown, if_neg (by simp [hstopped])] at hgives
    exact hgives
  case pcie => exact wakeSource_of_wake (gives_of_onlyIf (g := pcieWake false) hawake (fun _ => rfl))
  case outside =>
    have hgives : Gives (.pcieWake true) d (pcieWake true d) := gives_of_onlyIf hawake (fun _ => rfl)
    rw [pcieWake_counts (fun h => hstate h.2)] at hgives
    exact wakeSource_of_wake hgives
  case inside =>
    have hgives : Gives (.pcieWake true) d (pcieWake true d) := gives_of_onlyIf hawake (fun _ => rfl)
    have hkept : pcieWake true d = d := if_pos ⟨rfl, hstate⟩
    rwa [hkept] at hgives
  case rill => exact wakeSource_of_wake (gives_of_onlyIf (g := fun d => d.wake 1) hawake (fun _ => rfl))
  case mirror => exact wakeSource_of_wake (gives_of_onlyIf (g := fun d => d.wake 2) hawake (fun _ => rfl))
  case linked =>
    have hgives : Gives (.wakeBurstRecognised p) d (wakeBurstRecognised p d) := gives_of_answer d (fun _ => rfl)
    rwa [wakeBurstRecognised_linked hdetects hup ⟨hlow, hhigh⟩] at hgives
  case burst =>
    have hgives : Gives (.wakeBurstRecognised p) d (wakeBurstRecognised p d) := gives_of_answer d (fun _ => rfl)
    rw [wakeBurstRecognised_down hdetects hup hdown, if_pos hawake] at hgives
    exact wakeSource_of_wake hgives
  case deaf =>
    have hgives : Gives (.wakeBurstRecognised p) d (wakeBurstRecognised p d) := gives_of_answer d (fun _ => rfl)
    rwa [wakeBurstRecognised_deaf hdeaf] at hgives
  case pin =>
    have hgives : Gives .wakeInNFall d (wakeInNFall d) := gives_of_onlyIf hawake (fun _ => rfl)
    rw [wakeInNFall_wakes hup hdest] at hgives
    exact wakeSource_of_wake hgives
  case release =>
    have hgives : Gives .wakeNTimeout d (wakeNTimeout d) := gives_of_answer d (fun _ => rfl)
    have heq : wakeNTimeout d = (d.atNs (t + 100000000)).setMd { d.md with wakeN := none } := by
      unfold wakeNTimeout
      rw [hpin]
      rfl
    rw [heq] at hgives
    exact ⟨_, hgives, rfl, rfl, rfl⟩
  case window =>
    have hgives : Gives (.trickleWindowWrite off bs) d (trickleWindowWrite off bs d) := gives_of_onlyIf hon (fun _ => rfl)
    rw [trickleWindowWrite_stores hin hreset hstate hdest] at hgives
    obtain ⟨buf, fresh, hframe⟩ := d.pow.windowWrite_frame off bs
    refine ⟨_, hgives, by rw [hframe]; rfl, fun k x hx hpixel => ?_, fun a ha => ?_, fun t _ => d.pow.fresh_windowWrite off bs t⟩
    · obtain ⟨hk, rfl⟩ := List.getElem?_eq_some_iff.mp hx
      refine (d.pow.read_windowWrite off bs _).trans ?_
      rw [if_pos (by omega), Nat.add_sub_cancel_left, List.getD_eq_getElem _ _ hk]
    · exact (d.pow.read_windowWrite off bs a).trans (if_neg (by omega))
  case held =>
    have hgives : Gives (.trickleWindowWrite off bs) d (trickleWindowWrite off bs d) := gives_of_onlyIf hon (fun _ => rfl)
    rw [(trickleWindowWrite_wakes hin hreset hrest).trans (Dev.wake_asleep (d := d.setPow _) henabled hasleep)] at hgives
    exact ⟨_, hgives, rfl, rfl, rfl, rfl, rfl, bitOf_or_pow_same _ 0⟩
  case period =>
    intro due k stale fresh seed exceeding
    have hgives : Gives .tricklePeriod d (tricklePeriod d) := gives_of_onlyIf hawake (fun _ => rfl)
    have hstale (t : Nat) : stale t ↔ t ∈ d.pow.staleSlots := (d.pow.mem_staleSlots t).symm
    have hfresh (t : Nat) : fresh t ↔ t ∈ d.pow.freshSlots := (d.pow.mem_freshSlots t).symm
    have hexceeding (t : Nat) : exceeding t ↔ t ∈ d.hitSlots := (and_congr_left' (hfresh t)).trans (d.mem_hitSlots t).symm
    by_cases hquiet : d.hitSlots = [] ∧ d.pow.staleSlots = []
    · obtain ⟨⟨hcnt, hct, hcad, hrests, hwake, hsrc⟩, hunfiltered, hread⟩ := tricklePeriod_resting hasleep htrickle hquiet
      obtain ⟨hnoHit, hnoStale⟩ := hquiet
      refine ⟨_, hgives, hcnt, hct, hcad, fun t ht => ?_, fun t ht => ?_,
        fun _ _ => ⟨hrests, hwake, hsrc, hunfiltered, fun t px ht hpx hk _ => ?_⟩⟩
      · rw [hstale, hnoStale] at ht
        exact (List.not_mem_nil ht).elim
      · rw [hexceeding, hnoHit] at ht
        exact (List.not_mem_nil ht).elim
      · have hmem : (bitOf k.sloten t && bitOf d.pow.fresh t) = true ↔ t ∈ d.pow.freshSlots := by
          rw [← hfresh, Bool.and_eq_true]
          exact ⟨fun h => ⟨ht, h⟩, fun h => h.2⟩
        simp only [hmem]
        exact hread t px hpx hk
    · obtain ⟨⟨hcnt, hct, hcad, hrow⟩, hwakes, hstaled, hturns⟩ := tricklePeriod_waking hasleep htrickle hquiet
      refine ⟨_, hgives, hcnt, hct, hcad, fun t ht => ⟨hwakes t (.inr ((hstale t).mp ht)), hstaled t ((hstale t).mp ht), hturns⟩,
        fun t ht hon => ?_, fun hnoStale hnoHit => ?_⟩
      · obtain ⟨hsrc, hmoving, hdest⟩ := hturns hon
        exact ⟨hwakes t (.inl ((hexceeding t).mp ht)), hsrc, hmoving, hdest, hrow⟩
      · refine (hquiet ⟨List.eq_nil_iff_forall_not_mem.mpr fun t ht => hnoHit t ((hexceeding t).mpr ht), ?_⟩).elim
        exact List.eq_nil_iff_forall_not_mem.mpr fun t ht => hnoStale t ((hstale t).mpr ht)

end Sys2Proof.Spec
end
section
/-! PROOFS. The UPDATE commands (R411, R412, R415 to R424): manifests, chunks, activation and recovery. -/

namespace Sys2Proof.Machine

open Sys2Proof Sys2Proof.Spec

/-! ### The journal (R413, R414) -/

/-- What was appended last is read last, whether or not the half was exchanged. -/
theorem Boot.append_getLast (b : Boot) (r : JRec) : (b.append r).journal.getLast? = some r := by
  unfold Boot.append
  split
  · exact List.getLast?_concat
  · exact List.getLast?_concat

/-! ### UPDATE_MANIFEST (R405, R406, R418) -/

section Manifest
variable {w : Dev} {r : Req} {sig : Bool} {m : Manifest}

theorem cmdUpdateManifest_trying (h : w.boot.updState = 3) : cmdUpdateManifest sig r w = (w, { status := 0x303 }) := if_pos h

/-- A piece whose manifest is not complete is held. -/
theorem cmdUpdateManifest_piece (hstate : w.boot.updState ≠ 3) (hoff : r.arg 0 % 4096 = 0) (hlow : r.arg 0 < 0x20000) (hsome : r.payload ≠ [])
    (hshort : (heldManifest (Tab.put w.boot.pieces (r.arg 0) r.payload)).length < 8) :
    cmdUpdateManifest sig r w = (w.setBoot { w.boot with pieces := Tab.put w.boot.pieces (r.arg 0) r.payload }, {}) := by
  have hgood : ¬ (r.arg 0 % 4096 ≠ 0 ∨ 0x20000 ≤ r.arg 0 ∨ r.payload = []) := by
    rintro (h | h | h)
    · exact h hoff
    · omega
    · exact hsome h
  exact (if_neg hstate).trans ((if_neg hgood).trans (if_pos (.inl hshort)))

/-- A manifest of one piece is held whole. -/
theorem heldManifest_single (bs : List Byte) : heldManifest [(0, bs)] = bs := by
  have hzero : Tab.at [(0, bs)] [] (4096 * 0) = bs := rfl
  have hnext : Tab.at [(0, bs)] [] (4096 * 1) = [] := rfl
  by_cases hfull : bs.length = 4096
  · have hcount : ((List.range 32).takeWhile (fun k => (Tab.at [(0, bs)] [] (4096 * k)).length == 4096)).length = 1 := by
      have hrange : List.range 32 = 0 :: 1 :: (List.range' 2 30) := rfl
      rw [hrange, List.takeWhile_cons, hzero, if_pos (by simp [hfull]), List.takeWhile_cons, hnext, if_neg (by simp)]
      rfl
    unfold heldManifest
    dsimp only
    rw [hcount]
    have hfirst : Tab.at [(0, bs)] [] 0 = bs := rfl
    simp [List.range_succ, hfirst, hnext]
  · have hcount : ((List.range 32).takeWhile (fun k => (Tab.at [(0, bs)] [] (4096 * k)).length == 4096)).length = 0 := by
      have hrange : List.range 32 = 0 :: (List.range' 1 31) := rfl
      rw [hrange, List.takeWhile_cons, hzero, if_neg (by simp [hfull])]
      rfl
    unfold heldManifest
    dsimp only
    rw [hcount]
    exact (hzero : Tab.at [(0, bs)] [] (4096 * 0) = bs)

/-- What a manifest needs of the bytes it came from (R405). -/
theorem manifestOf_length {bs : List Byte} (h : manifestOf bs = some m) : 336 ≤ bs.length ∧ leNat ((bs.drop 4).take 4) ≤ bs.length := by
  unfold manifestOf at h
  extract_lets word n len at h
  split at h
  · rename_i hfits
    obtain ⟨-, hn, -, hlen, hle, -⟩ := hfits
    have hword : len = leNat ((bs.drop 4).take 4) := rfl
    omega
  · simp at h

/-- A complete manifest is checked, and what was held of it is gone. -/
theorem cmdUpdateManifest_whole (hstate : w.boot.updState ≠ 3) (hoff : r.arg 0 = 0) (hpieces : w.boot.pieces = [])
    (hm : manifestOf r.payload = some m) :
    let d := w.setBoot { w.boot with pieces := [] }
    let e := d.manifestFault sig (some m)
    cmdUpdateManifest sig r w = if e ≠ 0 then (if e = stROLLBACK ∨ e = stBAD_SIGNATURE then d.updateEvent else d).no e
      else if d.boot.updState = 0 then (d.setBoot (d.boot.stage m)).yes else d.yes := by
  intro d e
  obtain ⟨hmin, hneed⟩ := manifestOf_length hm
  have hsome : r.payload ≠ [] := fun h => by simp [h] at hmin
  have hgood : ¬ (r.arg 0 % 4096 ≠ 0 ∨ 0x20000 ≤ r.arg 0 ∨ r.payload = []) := by simp [hoff, hsome]
  have hheld : heldManifest (Tab.put w.boot.pieces (r.arg 0) r.payload) = r.payload := by
    rw [hpieces, hoff]
    exact heldManifest_single _
  have hwhole : ¬ (r.payload.length < 8 ∨ r.payload.length < min 0x20000 (leNat ((r.payload.drop 4).take 4))) := by omega
  unfold cmdUpdateManifest
  dsimp only
  rw [if_neg hstate, if_neg hgood, hheld, if_neg hwhole, hm]
  rfl

theorem Dev.manifestFault_unsigned (d : Dev) (m : Manifest) : d.manifestFault false (some m) = stBAD_SIGNATURE := by
  simp [Dev.manifestFault]

/-- A manifest that passes stages its set: the journal, the staging area and the update state change, and the fuses do not. -/
theorem Boot.stage_spec (b : Boot) (m : Manifest) : (b.stage m).updState = 1 ∧ (b.stage m).staged = some m ∧ (b.stage m).present = []
    ∧ (b.stage m).pieces = b.pieces := by
  obtain ⟨j, half, hj⟩ := Boot.append_frame
    (((b.erased b.stagingArea 382).erased b.stagingArea 383).setArea b.stagingArea (fun x => { x with manifest := some m, sigOk := true }))
    (.manifestOk m.digest m.version m.svn m.nchunk)
  obtain ⟨j', half', hfirst⟩ := b.erased_frame b.stagingArea 382
  obtain ⟨j'', half'', hsecond⟩ := (b.erased b.stagingArea 382).erased_frame b.stagingArea 383
  refine ⟨rfl, rfl, rfl, ?_⟩
  unfold Boot.stage
  dsimp only
  rw [hj, hsecond, hfirst]
  rfl

end Manifest

/-! ### UPDATE_CHUNK (R416, R420) -/

section Chunk
variable {w : Dev} {r : Req} {m : Manifest}

/-- With no interrupted work, nothing is erased afresh. -/
theorem Boot.eraseAfresh_of_clean {b : Boot} (h : b.erasePend = []) : b.eraseAfresh = b := by
  cases b
  simp only at h
  subst h
  simp [Boot.eraseAfresh]

theorem cmdUpdateChunk_closed (hstaged : w.boot.staged = some m) (h : w.boot.updState ≠ 1) : cmdUpdateChunk r w = (w, { status := 0x303 }) := by
  unfold cmdUpdateChunk
  rw [hstaged]
  exact if_pos h

/-- The bytes of the four quarters of a chunk. -/
def quartersBytes (t : Tab (List Byte)) : List Byte := (List.range 4).flatMap (fun k => Tab.at t [] k)

/-- Every quarter of chunk `i` that carries bytes is held. -/
def Manifest.whole (m : Manifest) (i : Nat) (t : Tab (List Byte)) : Prop := ∀ k, k < 4 → m.quarterLen i k = 0 ∨ (Tab.find? t k).isSome = true

theorem Manifest.all_whole (m : Manifest) (i : Nat) (t : Tab (List Byte)) :
    (List.range 4).all (fun k => m.quarterLen i k == 0 || (Tab.find? t k).isSome) = true ↔ m.whole i t := by
  simp [Manifest.whole]

/-- The boot state `b` with the quarters `t` of chunk `i` held, queued for programming, and dropped. -/
def Boot.holds (b : Boot) (i : Nat) (t : Tab (List Byte)) : Boot := { b with quarters := Tab.put b.quarters i t }
def Boot.queues (b : Boot) (i : Nat) (t : Tab (List Byte)) : Boot := { b with quarters := Tab.put b.quarters i t, queue := b.queue ++ [i] }
def Boot.drops (b : Boot) (i : Nat) : Boot := { b with quarters := Tab.del b.quarters i }

/-- What becomes of chunk `i` whose quarters are `t`: held while they are not whole, then hashed, and queued or dropped (R420). -/
def Dev.takesQuarter (d : Dev) (b : Boot) (m : Manifest) (i : Nat) (t : Tab (List Byte)) : Dev × Resp :=
  if !(List.range 4).all (fun k => m.quarterLen i k == 0 || (Tab.find? t k).isSome) then (d.setBoot (b.holds i t)).yes
  else if chunkOk m [(i, quartersBytes t)] i then (d.setBoot (b.queues i t)).yes
  else (d.setBoot (b.drops i)).no stCHUNK_HASH

section TakesQuarter
variable {d : Dev} {b : Boot} {i : Nat} {t : Tab (List Byte)}

theorem Dev.takesQuarter_holds (h : ¬ m.whole i t) : d.takesQuarter b m i t = (d.setBoot (b.holds i t)).yes := by
  have hpart := Bool.eq_false_iff.mpr (mt (m.all_whole i t).mp h)
  exact if_pos (congrArg Bool.not hpart)

theorem Dev.takesQuarter_queues (h : m.whole i t) (hok : chunkOk m [(i, quartersBytes t)] i = true) :
    d.takesQuarter b m i t = (d.setBoot (b.queues i t)).yes := by
  have hall := congrArg Bool.not ((m.all_whole i t).mpr h)
  exact (if_neg (Bool.eq_false_iff.mp hall)).trans (if_pos hok)

theorem Dev.takesQuarter_drops (h : m.whole i t) (hbad : ¬ chunkOk m [(i, quartersBytes t)] i = true) :
    d.takesQuarter b m i t = (d.setBoot (b.drops i)).no stCHUNK_HASH := by
  have hall := congrArg Bool.not ((m.all_whole i t).mpr h)
  exact (if_neg (Bool.eq_false_iff.mp hall)).trans (if_neg hbad)

end TakesQuarter

theorem cmdUpdateChunk_quarter (hstaged : w.boot.staged = some m) (hstate : w.boot.updState = 1) (hi : r.arg 0 < m.nchunk) (hq : r.arg 1 ≤ 3)
    (hlen : m.quarterLen (r.arg 0) (r.arg 1) ≠ 0) (hpay : r.payload.length = m.quarterLen (r.arg 0) (r.arg 1)) (hclean : w.boot.erasePend = [])
    (hnew : r.arg 0 ∉ w.boot.present) (hfree : r.arg 0 ∉ w.boot.queue) (hheld : Tab.at w.boot.quarters [] (r.arg 0) ≠ []) :
    cmdUpdateChunk r w = w.takesQuarter w.boot m (r.arg 0) (Tab.put (Tab.at w.boot.quarters [] (r.arg 0)) (r.arg 1) r.payload) := by
  have hafresh := Boot.eraseAfresh_of_clean hclean
  have hopen : ¬ w.boot.updState ≠ 1 := not_not_intro hstate
  have hlengths : ¬ (m.quarterLen (r.arg 0) (r.arg 1) = 0 ∨ r.payload.length ≠ m.quarterLen (r.arg 0) (r.arg 1)) := by simp [hlen, hpay]
  have hstored : ¬ (r.arg 0 ∈ w.boot.eraseAfresh.present ∨ r.arg 0 ∈ w.boot.eraseAfresh.queue) := by
    rw [hafresh]
    exact not_or.mpr ⟨hnew, hfree⟩
  have hchunk : cmdUpdateChunk r w
      = w.takesQuarter w.boot.eraseAfresh m (r.arg 0) (Tab.put (Tab.at w.boot.quarters [] (r.arg 0)) (r.arg 1) r.payload) := by
    unfold cmdUpdateChunk
    rw [hstaged]
    exact (if_neg hopen).trans ((if_neg (Nat.not_le.mpr hi)).trans ((if_neg (Nat.not_lt.mpr hq)).trans ((if_neg hlengths).trans
      ((if_neg hstored).trans (if_neg (fun h => hheld h.1))))))
  rw [hchunk, hafresh]

/-- A chunk of one listed entry is checked by its own bytes. -/
theorem chunkOk_single (m : Manifest) (i : Nat) (bs : List Byte) :
    chunkOk m [(i, bs)] i = true ↔ beNat (sha384 (bs.take (m.chunkLen i))) = m.hashes.getD i 0 := by
  have hat : Tab.at [(i, bs)] [] i = bs := by simp [Tab.at, Tab.find?]
  rw [chunkOk, hat, beq_iff_eq]

end Chunk

/-! ### Programming (R415 to R417, R420) -/

section Program
variable {d : Dev} {i : Nat} {rest : List Nat} {good : Bool}

theorem chunkProgram_begins (hqueue : d.boot.queue = i :: rest) (herasing : d.boot.erasing = none)
    (hsector : d.boot.sectorErased (i / 4) = false) :
    chunkProgram good d = d.setBoot { d.boot.append (.eraseBegin d.boot.stagingArea (i / 4)) with
      erasing := some (d.boot.stagingArea, i / 4, false) } := by
  unfold chunkProgram
  dsimp only
  rw [hqueue, herasing]
  exact if_neg (by simp [hsector])

theorem chunkProgram_ends {a s : Nat} (hqueue : d.boot.queue = i :: rest) (herasing : d.boot.erasing = some (a, s, false)) :
    chunkProgram good d = d.setBoot (d.boot.eraseEnds a s) := by
  unfold chunkProgram
  dsimp only
  rw [hqueue, herasing]
  rfl

theorem chunkProgram_suspended {a s : Nat} (herasing : d.boot.erasing = some (a, s, true)) : chunkProgram good d = d := by
  unfold chunkProgram
  dsimp only
  rw [herasing]
  split <;> rfl

theorem Boot.eraseEnds_spec (b : Boot) (a s : Nat) :
    (b.eraseEnds a s).erasing = none ∧ (b.eraseEnds a s).queue = b.queue ∧ (b.eraseEnds a s).journal.getLast? = some (.eraseDone a s) := by
  obtain ⟨j, half, h⟩ := b.append_frame (.eraseDone a s)
  refine ⟨rfl, ?_, b.append_getLast _⟩
  unfold Boot.eraseEnds
  rw [h]
  rfl

/-- The boot state once chunk `i` has been written. -/
def Boot.programmed (b : Boot) (i : Nat) (rest : List Nat) : Boot :=
  { b.append (.progBegin b.stagingArea i) with queue := rest, quarters := Tab.del b.quarters i }

/-- The boot state once the chunk has also been read back. -/
def Boot.readBack (b : Boot) (area i : Nat) (bytes : List Byte) : Boot :=
  let x := (b.setArea area (fun x => { x with chunks := Tab.put x.chunks i bytes })).append (.chunkDone i)
  { x with present := x.present ++ [i] }

theorem chunkProgram_bad (hqueue : d.boot.queue = i :: rest) (herasing : d.boot.erasing = none)
    (hsector : d.boot.sectorErased (i / 4) = true) :
    chunkProgram false d = (d.setBoot (d.boot.programmed i rest)).updateEvent := by
  unfold chunkProgram Dev.programChunk
  dsimp only
  rw [hqueue, herasing]
  exact if_pos hsector

theorem Boot.programmed_present (b : Boot) (i : Nat) (rest : List Nat) : (b.programmed i rest).present = b.present := by
  obtain ⟨j, half, h⟩ := b.append_frame (.progBegin b.stagingArea i)
  unfold Boot.programmed
  rw [h]

theorem Boot.readBack_spec (b : Boot) (area i : Nat) (bytes : List Byte) :
    (b.readBack area i bytes).queue = b.queue ∧ (b.readBack area i bytes).present = b.present ++ [i]
      ∧ (b.readBack area i bytes).journal.getLast? = some (.chunkDone i) := by
  obtain ⟨j, half, h⟩ := (b.setArea area (fun x => { x with chunks := Tab.put x.chunks i bytes })).append_frame (.chunkDone i)
  refine ⟨?_, ?_, Boot.append_getLast _ _⟩
  · unfold Boot.readBack
    rw [h]
    rfl
  · unfold Boot.readBack
    rw [h]
    rfl

/-- A chunk that agrees is present; the last one completes the set, with an event. -/
theorem chunkProgram_good (hqueue : d.boot.queue = i :: rest) (herasing : d.boot.erasing = none)
    (hsector : d.boot.sectorErased (i / 4) = true) :
    let x := (d.boot.programmed i rest).readBack d.boot.stagingArea i (quartersBytes (Tab.at d.boot.quarters [] i))
    chunkProgram true d = if x.staged.any (fun m => decide (m.nchunk ≤ x.present.length)) then (d.setBoot { x with updState := 2 }).updateEvent
      else d.setBoot x := by
  unfold chunkProgram Dev.programChunk
  dsimp only
  rw [hqueue, herasing]
  exact if_pos hsector

theorem chunkProgram_good_boot (hqueue : d.boot.queue = i :: rest) (herasing : d.boot.erasing = none)
    (hsector : d.boot.sectorErased (i / 4) = true) :
    (chunkProgram true d).boot.queue = rest ∧ (chunkProgram true d).boot.present = d.boot.present ++ [i]
      ∧ (chunkProgram true d).boot.journal.getLast? = some (.chunkDone i) := by
  have heq := chunkProgram_good hqueue herasing hsector
  obtain ⟨hrest, hpresent, hlast⟩ :=
    (d.boot.programmed i rest).readBack_spec d.boot.stagingArea i (quartersBytes (Tab.at d.boot.quarters [] i))
  generalize (d.boot.programmed i rest).readBack d.boot.stagingArea i (quartersBytes (Tab.at d.boot.quarters [] i)) = x at heq hrest hpresent hlast
  dsimp only at heq
  rw [Boot.programmed_present] at hpresent
  have hqueued : x.queue = rest := hrest
  rw [heq]
  split
  · rw [(Dev.updateEvent_eventChange _).boot]
    exact ⟨hqueued, hpresent, hlast⟩
  · exact ⟨hqueued, hpresent, hlast⟩

end Program

/-! ### UPDATE_STATUS (R421) -/

/-- A number of the staged manifest, 0 where none is staged. -/
def Boot.ofStaged (b : Boot) (g : Manifest → Nat) : Nat := (b.staged.map g).getD 0

/-- What UPDATE_STATUS gives after the count of chunks that are present. -/
def Boot.statusTail (b : Boot) : List Byte :=
  leBytes 4 (b.ofStaged Manifest.version) ++ (leBytes 4 (b.ofStaged Manifest.svn) ++ (leBytes 4 b.erasePend.length
    ++ (List.replicate 40 0 ++ bitmapBytes b.present)))

theorem cmdUpdateStatus_spec (d : Dev) (r : Req) : ∃ p : List Byte, cmdUpdateStatus r d = (d, { payload := p }) ∧ p.length = 256
    ∧ leNat (p.take 4) = d.boot.updState % 2 ^ 32 ∧ leNat ((p.drop 8).take 4) = d.boot.present.length % 2 ^ 32 := by
  refine ⟨leBytes 4 d.boot.updState ++ (leBytes 4 (d.boot.ofStaged Manifest.nchunk) ++ (leBytes 4 d.boot.present.length ++ d.boot.statusTail)),
    ?_, ?_, ?_, ?_⟩
  · simp only [cmdUpdateStatus, List.append_assoc]
    rfl
  · simp [Boot.statusTail, bitmapBytes, leBytes_length]
  · exact leNat_field (pre := []) (o := 0) rfl rfl
  · refine leNat_field (pre := leBytes 4 d.boot.updState ++ leBytes 4 (d.boot.ofStaged Manifest.nchunk)) (post := d.boot.statusTail) ?_ ?_
    · rw [List.append_assoc]
    · simp [leBytes_length]

/-! ### UPDATE_ACTIVATE and UPDATE_ABORT (R422, R424) -/

section Activate
variable {w : Dev} {r : Req} {bad : List Nat} {m : Manifest}

/-- Chunk `c` no longer matches: the read-back names it, or its hash differs. -/
def Boot.mismatched (b : Boot) (bad : List Nat) (c : Nat) : Bool :=
  decide (c ∈ bad) || !(b.staged.all (fun m => chunkOk m (b.areas.getD b.view.staging {}).chunks c))

/-- The boot state once the areas have been swapped in one record. -/
def Boot.swapped (b : Boot) : Boot :=
  { b.append (.roles b.view.active b.view.staging b.view.shadow true) with
    updState := 3, staged := none, present := [], erasePend := [], quarters := [] }

theorem cmdUpdateActivate_refused (h : w.boot.updState = 0 ∨ w.boot.updState = 3) : cmdUpdateActivate bad r w = (w, { status := 0x303 }) := by
  have hone : ¬ w.boot.updState = 1 := by omega
  unfold cmdUpdateActivate
  rw [if_neg hone]
  exact if_pos (by omega)

theorem cmdUpdateActivate_swaps (hstate : w.boot.updState = 2) (h : w.boot.present.filter (w.boot.mismatched bad) = []) :
    cmdUpdateActivate bad r w = ((w.setBoot w.boot.swapped).updateEvent, {}) := by
  have hone : ¬ w.boot.updState = 1 := by omega
  unfold cmdUpdateActivate
  rw [if_neg hone]
  exact (if_neg (not_not_intro hstate)).trans (if_neg (not_not_intro h))

/-- The boot state once the chunks that no longer match are gone. -/
def Boot.without (b : Boot) (gone : List Nat) : Boot :=
  let left := b.present.filter (fun c => decide (c ∉ gone))
  let x := ((gone.map (fun c => c / 352)).dedup).foldl (fun (b : Boot) k => b.append (.bitmap k (left.filter (fun c => c / 352 == k)))) b
  let x := x.setArea b.view.staging (fun x => { x with chunks := gone.foldl (fun t c => Tab.del t c) x.chunks })
  { x with present := left, updState := 1 }

theorem cmdUpdateActivate_differs (hstate : w.boot.updState = 2) (h : w.boot.present.filter (w.boot.mismatched bad) ≠ []) :
    cmdUpdateActivate bad r w = (w.setBoot (w.boot.without (w.boot.present.filter (w.boot.mismatched bad))), { status := 0x601 }) := by
  have hone : ¬ w.boot.updState = 1 := by omega
  unfold cmdUpdateActivate
  rw [if_neg hone]
  exact (if_neg (not_not_intro hstate)).trans (if_pos h)

theorem Boot.foldl_append_frame {α : Type} (f : α → JRec) (l : List α) (b : Boot) :
    ∃ j half, l.foldl (fun (b : Boot) k => b.append (f k)) b = { b with journal := j, journalHalf := half } := by
  induction l generalizing b with
  | nil => exact ⟨_, _, rfl⟩
  | cons k l ih =>
    obtain ⟨_, _, h⟩ := b.append_frame (f k)
    obtain ⟨j, half, h'⟩ := ih (b.append (f k))
    exact ⟨j, half, by rw [List.foldl_cons, h', h]⟩

theorem Boot.swapped_spec (b : Boot) : b.swapped.updState = 3 ∧ b.swapped.staged = none ∧ b.swapped.areas = b.areas
    ∧ b.swapped.journal.getLast? = some (.roles b.view.active b.view.staging b.view.shadow true) := by
  obtain ⟨j, half, h⟩ := b.append_frame (.roles b.view.active b.view.staging b.view.shadow true)
  refine ⟨rfl, rfl, ?_, Boot.append_getLast _ _⟩
  unfold Boot.swapped
  rw [h]

/-- A chunk that the read-back names is among those that are gone. -/
theorem Boot.not_mem_without {b : Boot} {bad : List Nat} {c : Nat} (hc : c ∈ bad) :
    c ∉ (b.without (b.present.filter (b.mismatched bad))).present := by
  intro hleft
  obtain ⟨hpresent, hkept⟩ := List.mem_filter.mp hleft
  exact of_decide_eq_true hkept (List.mem_filter.mpr ⟨hpresent, by simp [Boot.mismatched, hc]⟩)

/-- ABORT empties the set (R424). -/
def Boot.aborted (b : Boot) : Boot :=
  { b.append .abort with updState := 0, staged := none, present := [], pieces := [], quarters := [], queue := [], erasing := none }

theorem cmdUpdateAbort_ok (h : w.boot.updState ≠ 3) : cmdUpdateAbort r w = (w.setBoot w.boot.aborted, {}) := if_neg h
theorem cmdUpdateAbort_trying (h : w.boot.updState = 3) : cmdUpdateAbort r w = (w, { status := 0x303 }) := if_pos h

theorem Boot.aborted_areas (b : Boot) : b.aborted.areas = b.areas := by
  obtain ⟨j, half, h⟩ := b.append_frame .abort
  unfold Boot.aborted
  rw [h]

end Activate

/-! ### Recovery images and interrupted erases (R411, R412, R417) -/

section Recovery
variable {w d : Dev} {r : Req} {sig : Bool}

/-- The boot state with a first piece of a recovery image for the next boot. -/
def Boot.recoversNext (b : Boot) (first : Recovery) : Boot := { b with recoverNext := true, recovery := some first }

/-- The first piece of a recovery image that a request carries. -/
def Req.firstPiece (r : Req) (now : Nat) : Recovery :=
  { fromMctp := r.mctp, expected := r.payload.length, bytes := r.payload, lastCt := now }

theorem cmdUpdateRecovery_first (hlive : w.boot.retired = false) (hready : w.boot.ready = true) (hoff : r.arg 0 = 0) :
    cmdUpdateRecovery sig r w = ((w.setBoot (w.boot.recoversNext (r.firstPiece w.ns))).resetSoon false, {}) := by
  have hnot : ¬ w.boot.retired = true := by simp [hlive]
  exact (if_neg hnot).trans ((if_pos hready).trans (if_neg (not_not_intro hoff)))

theorem cmdUpdateRecovery_later (hlive : w.boot.retired = false) (hready : w.boot.ready = true) (hoff : r.arg 0 ≠ 0) :
    cmdUpdateRecovery sig r w = (w, { status := 0x303 }) := by
  have hnot : ¬ w.boot.retired = true := by simp [hlive]
  exact (if_neg hnot).trans ((if_pos hready).trans (if_pos hoff))

theorem eraseResume_eq {a s : Nat} {x : Bool} (h : d.boot.erasing = some (a, s, x)) :
    eraseResume d = d.setBoot { d.boot with erasing := some (a, s, false) } := by
  unfold eraseResume
  rw [h]
  rfl

theorem recoveryTimeout_resumes {x : Recovery} (hrecovery : d.boot.recovery = some x) (hstep : d.boot.step = 0xE) (hbackoff : d.boot.backoff = none) :
    recoveryTimeout d = (d.atNs (x.lastCt + 60000000000)).setBoot { d.boot with
      recovery := none, resumeStep := 0, step := d.boot.resumeStep, stepCt := (d.atNs (x.lastCt + 60000000000)).ns } := by
  have hreceiving : ¬ d.boot.step ≠ 0xE := not_not_intro hstep
  have hnow : ¬ d.boot.backoff.isSome = true := by simp [hbackoff]
  unfold recoveryTimeout
  rw [hrecovery]
  exact (if_neg hreceiving).trans (if_neg hnow)

end Recovery


end Sys2Proof.Machine
end
section
/-! PROOFS. The LIFECYCLE commands (R426 to R430), and the obligation about them and about UPDATE. -/

namespace Sys2Proof.Machine

open Sys2Proof Sys2Proof.Spec

/-! ### A transition burns its state word (R428, R429) -/

/-- A transition to the next state reaches it, and no state above. -/
theorem lifeCycle_burnTo {f : Mem} {t : Nat} (ht : t = lifeCycle f + 1) (hle : t ≤ 3) : lifeCycle (burnTo f t) = t := by
  have hstate : lifeCycle f = 0 ∨ lifeCycle f = 1 ∨ lifeCycle f = 2 := by omega
  unfold lifeCycle at ht hstate ⊢
  by_cases hRetired : burnt f 0x14 = true
  · simp [hRetired] at hstate
  by_cases hFielded : burnt f 0x0C = true
  · simp [hRetired, hFielded] at ht
    subst ht
    simp [burnTo, burnRest, burnt_burn]
  by_cases hProvisioned : burnt f 0x04 = true
  · simp [hRetired, hFielded, hProvisioned] at ht
    subst ht
    simp [burnTo, burnRest, burnt_burn, hRetired]
  · simp [hRetired, hFielded, hProvisioned] at ht
    subst ht
    simp [burnTo, burnRest, burnt_burn, hRetired, hFielded]

/-- From `d` to `e`, fuses past the life-cycle words may have been burnt, with open values, and nothing else has changed. -/
def KeysWritten (d e : Dev) : Prop :=
  ∃ f n, e = { d with boot := { d.boot with fuses := f }, free := n } ∧ ∀ p, p + 4 ≤ 0x40 → burnt f p = burnt d.boot.fuses p

theorem KeysWritten.refl (d : Dev) : KeysWritten d d := ⟨d.boot.fuses, d.free, rfl, fun _ _ => rfl⟩

theorem KeysWritten.trans {a b c : Dev} (hab : KeysWritten a b) (hbc : KeysWritten b c) : KeysWritten a c := by
  obtain ⟨_, _, rfl, hb⟩ := hab
  obtain ⟨_, _, rfl, hc⟩ := hbc
  exact ⟨_, _, rfl, fun p hp => (hc p hp).trans (hb p hp)⟩

theorem Dev.writeKeys_written (d : Dev) : KeysWritten d d.writeKeys := by
  unfold Dev.writeKeys
  generalize List.range 38 = l
  induction l generalizing d with
  | nil => exact .refl d
  | cons k l ih =>
    refine KeysWritten.trans ⟨_, _, rfl, fun p hp => ?_⟩ (ih _)
    exact burnt_writeLe_apart _ _ (.inr (by omega))

theorem Dev.keysFor_written (d : Dev) (target : Nat) : KeysWritten d (d.keysFor target) := by
  unfold Dev.keysFor
  split
  · exact d.writeKeys_written
  · exact .refl d

theorem KeysWritten.lifeCycle {d e : Dev} (h : KeysWritten d e) : lifeCycle e.boot.fuses = lifeCycle d.boot.fuses := by
  obtain ⟨f, n, rfl, hkept⟩ := h
  simp only [Machine.lifeCycle, hkept 0x14 (by decide), hkept 0x0C (by decide), hkept 0x04 (by decide)]

/-! ### The commands (R428 to R430) -/

section LifeCycle
variable {w : Dev} {r : Req} {sig : Bool}

/-- The NONCE is spent whatever happens. -/
def Boot.spent (b : Boot) : Boot := { b with nonce := none }

theorem cmdLifecycleAdvance_wrongState (h : r.arg 0 ≠ lifeCycle w.boot.fuses + 1) :
    cmdLifecycleAdvance sig r w = (w.setBoot w.boot.spent, { status := 0x303 }) := if_pos (.inl h)

theorem cmdLifecycleAdvance_unauthorised (hnext : r.arg 0 = lifeCycle w.boot.fuses + 1) (hle : r.arg 0 ≤ 3)
    (h : w.authorised sig (r.arg 0) r.payload = false) :
    cmdLifecycleAdvance sig r w = (w.setBoot w.boot.spent, { status := 0x203 }) := by
  have htarget : ¬ (r.arg 0 ≠ lifeCycle w.boot.fuses + 1 ∨ 3 < r.arg 0) := by omega
  exact (if_neg htarget).trans (if_pos (by simp [h]))

theorem cmdLifecycleAdvance_ok (hnext : r.arg 0 = lifeCycle w.boot.fuses + 1) (hle : r.arg 0 ≤ 3)
    (h : w.authorised sig (r.arg 0) r.payload = true) :
    ∃ k, KeysWritten (w.setBoot w.boot.spent) k
      ∧ cmdLifecycleAdvance sig r w = (k.setBoot { k.boot with fuses := burnTo k.boot.fuses (r.arg 0) }, {}) := by
  have htarget : ¬ (r.arg 0 ≠ lifeCycle w.boot.fuses + 1 ∨ 3 < r.arg 0) := by omega
  exact ⟨_, Dev.keysFor_written _ (r.arg 0), (if_neg htarget).trans (if_neg (by simp [h]))⟩

end LifeCycle

end Sys2Proof.Machine

namespace Sys2Proof.Spec

open Sys2Proof Sys2Proof.Machine

/-- A recovery image is served like a command also where nothing else has fallen due. -/
theorem Serving.replies_recovery {d w e : Dev} {f : Nat} {r : Req} {sig : Bool} {x : Resp} (h : Serving d f 0xC05 r w)
    (hg : cmdUpdateRecovery sig r w = (e, x)) : Replies (.updateRecovery f sig) d e r x := by
  obtain ⟨hon, -, hf, hop, rest, hinprog, rfl⟩ := h
  have hserve : Dev.serve f 0xC05 (cmdUpdateRecovery sig) d = e.respond r x := by
    unfold Dev.serve
    rw [hinprog]
    dsimp only
    rw [if_pos ⟨hf, hop⟩, hg]
  have hgives : Gives (.updateRecovery f sig) d (Dev.serve f 0xC05 (cmdUpdateRecovery sig) d) :=
    gives_of_onlyIf (p := fun d => d.fwOn || d.receiving) (by simp [hon]) (fun _ => rfl)
  rwa [hserve] at hgives

theorem Serving.bootReady {d w : Dev} {f op : Nat} {r : Req} (h : Serving d f op r w) : w.boot.ready = true := by
  obtain ⟨hon, -, -, -, _, -, rfl⟩ := h
  simp only [Dev.fwOn, Bool.and_eq_true] at hon
  exact hon.1.2

/-- Settles O51: each command is the equation of its case. -/
theorem updateAndLifeCycleCommandsFollowTheirTable : Obligations.UpdateAndLifeCycleCommandsFollowTheirTable := by
  unfold Obligations.UpdateAndLifeCycleCommandsFollowTheirTable
  intro d w f r b
  refine ⟨fun sig h => ⟨fun htrying => ?trying, fun hstate hoff hpieces hlen m hm =>
        ⟨fun hempty hpasses => ?stages, fun hunsigned => ?unsigned⟩,
      fun hstate hoff hlow hsome hshort => ?piece⟩,
    fun m h hstaged => ?chunk, fun h => ?status,
    fun bad m h => ⟨fun hstate hstaged hsame => ?swaps, fun hstate hdiffers => ?differs, fun hstate => ?notComplete⟩,
    fun h => ⟨fun hstate => ?aborts, fun hstate => ?abortRefused⟩,
    fun sig h hlive hmctp => ⟨fun hoff => ?recovery, fun hoff => ?recoveryLater⟩,
    fun i rest good hon hqueue => ⟨fun herasing hsector => ?eraseBegins, fun a s herasing => ?eraseEnds, fun a s herasing => ?suspended,
      fun herasing hsector => ?programs⟩,
    fun a s x hon herasing => ?resumes, fun x hon hrecovery hstep hbackoff => ?abandoned, fun h => ?query,
    fun sig h => ⟨fun hnext hle hauth => ?advances, fun hnext hle hauth => ?unauthorised, fun hwrong => ?wrongState⟩⟩
  case trying => exact h.replies (fun _ => rfl) (cmdUpdateManifest_trying htrying)
  case stages =>
    have hsound : ¬ (w.setBoot { w.boot with pieces := [] }).manifestFault sig (some m) ≠ 0 := not_not_intro hpasses
    have hcmd := (cmdUpdateManifest_whole (sig := sig) hstate hoff hpieces hm).trans ((if_neg hsound).trans (if_pos hempty))
    obtain ⟨hupd, hset, hpresent, hheld⟩ := Boot.stage_spec { w.boot with pieces := [] } m
    exact ⟨_, h.replies (fun _ => rfl) hcmd, rfl, hupd, hset, hpresent, hheld, Boot.stage_fuses _ m⟩
  case unsigned =>
    subst hunsigned
    have hfault := Dev.manifestFault_unsigned (w.setBoot { w.boot with pieces := [] }) m
    have hcmd := cmdUpdateManifest_whole (sig := false) hstate hoff hpieces hm
    dsimp only at hcmd
    rw [hfault, if_pos (by decide), if_pos (.inr rfl)] at hcmd
    exact ⟨_, h.replies (fun _ => rfl) hcmd, (Dev.updateEvent_eventChange _).boot⟩
  case piece => exact h.replies (fun _ => rfl) (cmdUpdateManifest_piece hstate hoff hlow hsome hshort)
  case chunk =>
    intro i q len held t bytes hash whole
    refine ⟨fun hclosed => h.replies (fun _ => rfl) (cmdUpdateChunk_closed hstaged hclosed),
      fun hopen hi hq hsome hpay hclean hnew hfree hheld => ?_⟩
    have hcmd := cmdUpdateChunk_quarter hstaged hopen hi hq hsome hpay hclean hnew hfree hheld
    have hmatch : chunkOk m [(i, quartersBytes t)] i = true ↔ hash = m.hashes.getD i 0 := chunkOk_single m i _
    refine ⟨fun hpart => ?_, fun hall hsame => ?_, fun hall hdiffers => ?_⟩
    · exact h.replies (fun _ => rfl) (hcmd.trans (Dev.takesQuarter_holds hpart))
    · exact h.replies (fun _ => rfl) (hcmd.trans (Dev.takesQuarter_queues hall (hmatch.mpr hsame)))
    · exact h.replies (fun _ => rfl) (hcmd.trans (Dev.takesQuarter_drops hall (mt hmatch.mp hdiffers)))
  case status =>
    obtain ⟨p, hstatus, hlen, hstate, hcount⟩ := cmdUpdateStatus_spec w r
    exact ⟨p, h.replies (fun _ => rfl) hstatus, hlen, hstate, hcount⟩
  case swaps =>
    have hgone : w.boot.present.filter (w.boot.mismatched bad) = [] := List.filter_eq_nil_iff.mpr fun c hc => by
      obtain ⟨hgood, hok⟩ := hsame c hc
      simp only [Boot.mismatched, hgood, decide_false, Bool.false_or, Bool.not_eq_true, Bool.not_eq_false']
      rw [show w.boot.staged = some m from hstaged]
      exact hok
    obtain ⟨hupd, hset, hareas, hlast⟩ := w.boot.swapped_spec
    have hboot : ((w.setBoot w.boot.swapped).updateEvent).boot = w.boot.swapped := (Dev.updateEvent_eventChange _).boot
    refine ⟨_, h.replies (fun _ => rfl) (cmdUpdateActivate_swaps hstate hgone), ?_⟩
    rw [hboot]
    exact ⟨hupd, hset, hareas, hlast⟩
  case differs =>
    obtain ⟨c, hpresent, hbad⟩ := hdiffers
    have hgone : w.boot.present.filter (w.boot.mismatched bad) ≠ [] := fun hnil =>
      List.filter_eq_nil_iff.mp hnil c hpresent (by simp [Boot.mismatched, hbad])
    exact ⟨_, h.replies (fun _ => rfl) (cmdUpdateActivate_differs hstate hgone), rfl, rfl, fun c hc => Boot.not_mem_without hc⟩
  case notComplete => exact h.replies (fun _ => rfl) (cmdUpdateActivate_refused hstate)
  case aborts =>
    exact ⟨_, h.replies (fun _ => rfl) (cmdUpdateAbort_ok hstate), rfl, rfl, rfl, rfl, rfl, Boot.append_getLast _ _, w.boot.aborted_areas⟩
  case abortRefused => exact h.replies (fun _ => rfl) (cmdUpdateAbort_trying hstate)
  case recovery =>
    exact ⟨_, h.replies_recovery (cmdUpdateRecovery_first hlive h.bootReady hoff), rfl, rfl, rfl, rfl⟩
  case recoveryLater => exact h.replies_recovery (cmdUpdateRecovery_later hlive h.bootReady hoff)
  case eraseBegins =>
    have hgives : Gives (.chunkProgram good) d (chunkProgram good d) := gives_of_onlyIf hon (fun _ => rfl)
    rw [chunkProgram_begins hqueue herasing hsector] at hgives
    obtain ⟨j, half, hframe⟩ := d.boot.append_frame (.eraseBegin d.boot.stagingArea (i / 4))
    refine ⟨_, hgives, rfl, rfl, ?_⟩
    rw [hframe]
    exact hqueue
  case eraseEnds =>
    have hgives : Gives (.chunkProgram good) d (chunkProgram good d) := gives_of_onlyIf hon (fun _ => rfl)
    rw [chunkProgram_ends hqueue herasing] at hgives
    obtain ⟨hdone, hkept, hlast⟩ := d.boot.eraseEnds_spec a s
    exact ⟨_, hgives, hdone, hkept.trans hqueue, hlast⟩
  case suspended =>
    have hgives : Gives (.chunkProgram good) d (chunkProgram good d) := gives_of_onlyIf hon (fun _ => rfl)
    rwa [chunkProgram_suspended herasing] at hgives
  case programs =>
    have hgives : Gives (.chunkProgram good) d (chunkProgram good d) := gives_of_onlyIf hon (fun _ => rfl)
    cases good with
    | false =>
      have hboot : (chunkProgram false d).boot = d.boot.programmed i rest := by
        rw [chunkProgram_bad hqueue herasing hsector]
        exact (Dev.updateEvent_eventChange _).boot
      refine ⟨_, hgives, ?_⟩
      rw [hboot]
      exact ⟨rfl, fun h => by simp at h, fun _ => ⟨Boot.programmed_present _ _ _, Boot.append_getLast _ _⟩⟩
    | true =>
      obtain ⟨hrest, hpresent, hlast⟩ := chunkProgram_good_boot hqueue herasing hsector
      exact ⟨_, hgives, hrest, fun _ => ⟨hpresent, hlast⟩, fun h => by simp at h⟩
  case resumes =>
    have hgives : Gives .eraseResume d (eraseResume d) := gives_of_onlyIf hon (fun _ => rfl)
    rwa [eraseResume_eq herasing] at hgives
  case abandoned =>
    have hgives : Gives .recoveryTimeout d (recoveryTimeout d) := gives_of_onlyIf hon (fun _ => rfl)
    rw [recoveryTimeout_resumes hrecovery hstep hbackoff] at hgives
    exact ⟨_, hgives, rfl, rfl, rfl, rfl⟩
  case query =>
    exact ⟨_, w.random.1.toNat, h.replies (fun _ => rfl) rfl, w.random.1.isLt, rfl, rfl⟩
  case advances =>
    obtain ⟨k, hkeys, hcmd⟩ := cmdLifecycleAdvance_ok hnext hle hauth
    have hstate : lifeCycle k.boot.fuses = lifeCycle w.boot.fuses := hkeys.lifeCycle
    refine ⟨_, h.replies (fun _ => rfl) hcmd, lifeCycle_burnTo (by rw [hstate]; exact hnext) hle, ?_⟩
    obtain ⟨f, n, rfl, -⟩ := hkeys
    exact ⟨rfl, rfl⟩
  case unauthorised => exact h.replies (fun _ => rfl) (cmdLifecycleAdvance_unauthorised hnext hle hauth)
  case wrongState => exact h.replies (fun _ => rfl) (cmdLifecycleAdvance_wrongState hwrong)

end Sys2Proof.Spec
end
